-- ==== Sys2Proof/Word.lean ====
section
/-! DEFINITION. The word types of the SH-2048 (spec/00_scope.md R7, R8): a management register is 32 bits,
memory, payloads and records are bytes. -/
namespace Sys2Proof

/-- One byte of a frame, a record or a memory. -/
abbrev Byte := BitVec 8

/-- One management register (R8). -/
abbrev Word := BitVec 32

end Sys2Proof
end

