-- ==== Sys2Proof/Frame.lean ====
section
/-! DEFINITION. The shape of a Treluth Fabric Protocol frame (spec/02_fabric_frames.md R28 to R64): every field of
the base header, of the three extensions and of the trailer, with reserved fields kept, so that a frame value and
its bytes say the same. The byte layouts stand in Machine/Frames.lean. -/
namespace Sys2Proof

/-- The 32-byte base header (R30), in the table's order. -/
structure BaseHdr where
  version : BitVec 4
  ftype : BitVec 4
  vc : BitVec 3
  epoch : Bool
  amode : Bool
  attempt : BitVec 3
  rsvd : BitVec 3
  payloadLen : BitVec 13
  dest : BitVec 24
  src : BitVec 24
  jobId : BitVec 12
  layoutGen : BitVec 4
  seq : BitVec 32
  remoteAddr : BitVec 64
  msgId : BitVec 16
  msgLen : BitVec 32
  hdrCheck : BitVec 16
  deriving DecidableEq, Repr

/-- The 32-byte reduction extension (R37). -/
structure RedExt where
  step : BitVec 32
  chunkId : BitVec 22
  frameIdx : BitVec 4
  frameCnt : BitVec 4
  pieces : BitVec 2
  memberRank : BitVec 18
  format : BitVec 5
  code : BitVec 4
  fast : Bool
  flushed : Bool
  membershipReduced : Bool
  stochastic : Bool
  noChunk : Bool
  anchor : BitVec 16
  maxExp : BitVec 16
  chunkElems : BitVec 13
  elemOffset : BitVec 12
  rsvdA : BitVec 7
  generation : BitVec 8
  tier : BitVec 3
  rsvdB : BitVec 21
  sumCheck : BitVec 64
  deriving DecidableEq, Repr

/-- The 16-byte NACK extension (R47). -/
structure NackExt where
  code : BitVec 8
  checkCause : BitVec 8
  retryHint : BitVec 16
  step : BitVec 32
  chunkId : BitVec 22
  rsvd : BitVec 2
  generation : BitVec 8
  echoSeq : BitVec 32
  deriving DecidableEq, Repr

/-- The 32-byte LINK extension (R61). -/
structure LinkExt where
  op : BitVec 8
  minVer : BitVec 4
  maxVer : BitVec 4
  selectedVer : BitVec 4
  rsvdA : BitVec 4
  rsvdB : BitVec 8
  fwVersion : BitVec 32
  caps : BitVec 32
  rsvdC : BitVec 160
  deriving DecidableEq, Repr

/-- The extension that follows the base header (R28). -/
inductive Ext where
  | none
  | red (x : RedExt)
  | nack (x : NackExt)
  | link (x : LinkExt)
  deriving DecidableEq, Repr

/-- The 16-byte trailer (R50). -/
structure Trailer where
  crc : BitVec 64
  bad : Bool
  badCause : BitVec 3
  rsvd : BitVec 28
  txTime : BitVec 32
  deriving DecidableEq, Repr

/-- One frame. -/
structure Frame where
  h : BaseHdr
  ext : Ext
  payload : List Byte
  t : Trailer
  deriving DecidableEq, Repr

end Sys2Proof
end

