-- ==== Sys2Proof/Syntax.lean ====
section
/-! DEFINITION. The commands of the SH-2048 as a block: every operation and event of spec/opcode_table.json, each with
the operands that select what it acts on and the physical outcomes that the manual leaves to the world outside (a
symbol error, a temperature, a signature's timing). -/
namespace Sys2Proof

/-- What a word of SRAM, or a 32-byte unit on a bridge, has suffered: the symbols of its RS(35,32) codeword that read other than
they were written, as (symbol, XOR pattern) (R18, R26). -/
abbrev WordErr := List (Nat × Byte)

/-- A codeword that a lane of a port, by its place in the port, has received, with its wrong symbols as (symbol, XOR pattern)
(R402). -/
structure LaneWord where
  lane : Nat
  errs : List (Nat × BitVec 10)
  deriving DecidableEq, Repr

/-- What bringing a frame or a copy through the core has met: errors of a word of its packet cells, and of a 32-byte unit of it on a
bridge (R18, R26, R304). -/
structure CellRx where
  cell : WordErr
  unit : WordErr
  deriving DecidableEq, Repr

/-- A PRBS checker that has locked, and the bits it has found in error since (R414). -/
structure ChkRx where
  lane : Nat
  errors : Nat
  deriving DecidableEq, Repr

/-- What the block layer has met since the port's last verdict: whether the frame's blocks were cut short (R404), control blocks
of a TYPE outside the table (R403), and the codewords decoded, which hold the frame's bytes (R402, R415). -/
structure TailRx where
  cut : Bool
  reserved : Nat
  words : List LaneWord
  deriving DecidableEq, Repr

/-- Faults of a mill met while it handles one event: the lane of a residue mismatch (R81, R82), a difference between
the two rounding lanes (R141, R176), a granule tag that does not fit the descriptor (R114), errors of a word of the
accumulator or the arrival store, and of one of the descriptor cache (R440). -/
structure MillFault where
  residue : Option (BitVec 7)
  dupDiff : Bool
  tagBad : Bool
  word : WordErr
  desc : WordErr
  deriving DecidableEq, Repr

/-- What a straggler or fence timer runs on (R218, R357, R358). -/
inductive WaitObj where
  | context (desc : Nat)
  | bell (job : BitVec 12) (bell : Nat)
  | dispatch (job : BitVec 12) (set : Nat) (inst : BitVec 8) (dest : Nat)
  deriving DecidableEq, Repr

/-- What a paced line access does (R426): a read, a write of the bytes whose enable bit is 1, or a write of the 15 data
lines of the line's group, padded with zeros. -/
inductive MemOp where
  | read
  | write (enables : BitVec 64) (data : Vector Byte 64)
  | writeGroup (data : List Byte)
  deriving DecidableEq, Repr

/-- What a line access serves, where the consequence of an uncorrectable line depends on it (R439): digest formation or
the forming of a step record, a signature, a save, a frame of the queue extension. -/
inductive MemUse where
  | other
  | digest (job : BitVec 12) (step : BitVec 32)
  | sign (job : BitVec 12) (step : BitVec 32)
  | save (job : BitVec 12)
  | frame (fid : Nat)
  deriving DecidableEq, Repr

/-- One paced line access of a memory controller (R426): the memory address of the line, what it does and serves, and the
symbol errors met, as (byte, XOR pattern) in the data line and in its group's check line; `delayed`: LPDDR refresh or scrubbing
delayed it (R398). -/
structure MemAccess where
  ma : Nat
  what : MemOp
  use : MemUse
  err : List (Nat × Byte)
  checkErr : List (Nat × Byte)
  delayed : Bool
  deriving DecidableEq, Repr

/-- What aborts an entry during QUIESCE (R481): a condition of R480 that has come to hold, an SMBus address match, or the
acceptance of a fatal-to-device message from a source. -/
inductive AbortCause where
  | condition
  | smbus
  | fatal (source : BitVec 19)
  deriving DecidableEq, Repr

/-- The units released in sequence on a DOZE exit and at start (R487, R488). -/
inductive PowerUnit where
  | die (d : Nat)
  | stackGroup (g : Nat)
  | laneGroup (g : Nat)
  deriving DecidableEq, Repr

/-- One reading of the SRAM-PUF: its 64-bit-wide response bytes, or a reading that fails (R517). -/
inductive PufReading where
  | ok (response : List Byte)
  | bad
  deriving DecidableEq, Repr

/-- The outcome of a DCL training condition (R522). -/
structure DclTrain where
  width : Nat
  reversed : Bool
  inverted : BitVec 16
  deriving DecidableEq, Repr

/-- An SMBus transaction: whether it carried a PEC and whether that PEC was right (R548, R549). -/
structure SmbTxn where
  pec : Bool
  pecOk : Bool
  deriving DecidableEq, Repr

/-- The masters of the management space (R556). -/
inductive Master where
  | dcl | core | smbus | jtag
  deriving DecidableEq, Repr


/-- The commands of the block: one constructor per row of the table of operations and events. -/
inductive Instr where
  /-- FRAME_HEADER_LOOKUP (R301). The header of an arriving frame is looked up: HDR_CHECK and frame rules are tested, the route is chosen, buffer cells are reserved and the cut-through decision is made. -/
  | frameHeaderLookup (port : Nat) (f : Frame) (bank : WordErr)
  /-- FRAME_TAIL_VERDICT (R303). The tail of a frame arrives: a good tail makes the frame eligible or foldable; a bad tail discards the unstarted copies and marks the started copies BAD. -/
  | frameTailVerdict (fid : Nat) (rx : TailRx) (read : CellRx)
  /-- EGRESS_SELECT (R324). An egress port chooses the next frame by deficit round robin over the eligible VCs and sources, subject to pause and gates. -/
  | egressSelect (port : Nat)
  /-- EGRESS_FRAME_DONE (R306). A copy finishes egress or a bridge crossing, releases its hold on the frame's cells, and the port chooses its next frame. -/
  | egressFrameDone (cid : Nat) (read : CellRx) (count : WordErr)
  /-- QUEUE_HEAD_DWELL_EXPIRY (R267). A frame exceeds its queue head dwell: it is discarded on VC1, VC3, VC6 or VC7, or kept with a contained fault on the other VCs. -/
  | queueHeadDwellExpiry (cid : Nat)
  /-- EXTENSION_RETURN (R314). A metro extension frame returns into its port's cells, in VOQ order, once room is free. -/
  | extensionReturn (fid : Nat) (memBad : Bool)
  /-- SHAPER_RELEASE (R319). A shaper entry with non-negative TOKENS releases its earliest waiting head frame in a core cycle. -/
  | shaperRelease (die entry : Nat)
  /-- REFUSAL_RECORD_EXPIRY (R322). A policing refusal record is dropped after MAX_FRAME_AGE passes without a matching frame. -/
  | refusalRecordExpiry (die entry : Nat) (src : BitVec 24) (msgId : BitVec 16) (attempt : BitVec 3)
  /-- ARBITER_REST (R396). An egress port idle for 1 µs zeroes every DEFICIT and forgets the last-served source. -/
  | arbiterRest (port : Nat)
  /-- RELAY_FRAME (R590). The control firmware takes a flat-ID MGMT, ACK or NACK frame that has no FLAT entry and sends it again through a relay leaf, or discards it. -/
  | relayFrame (port : Nat) (f : Frame) (canTake : Bool)
  /-- CONTRIB_FRAME (R108). A CONTRIB frame with a good tail is classified and, at row 12, folded into its context's accumulator. -/
  | contribFrame (port : Nat) (f : Frame) (flt : MillFault)
  /-- PARTIAL_FRAME (R123). A PARTIAL frame arriving from a child is classified, its check is compared, and it is folded or draws NACK CHECK_FAIL. -/
  | partialFrame (port : Nat) (f : Frame) (flt : MillFault)
  /-- RESULT_RECEIVED (R119). A lower tier takes a RESULT from its parent, goes to RELEASED and replicates the RESULT to its receivers. -/
  | resultReceived (port : Nat) (f : Frame)
  /-- RESCALE_RECEIVED (R99). A lower tier takes RESCALE, writes the new anchor, clears its chunk state and forwards RESCALE down. -/
  | rescaleReceived (port : Nat) (f : Frame)
  /-- SUPERSEDE_RECEIVED (R119). A lower tier takes SUPERSEDE at a higher generation, supersedes the context and forwards SUPERSEDE. -/
  | supersedeReceived (port : Nat) (f : Frame)
  /-- STEP_COMMIT_RECEIVED (R129). STEP_COMMIT passes a switch: its FINAL contexts retire, the floor advances and step-end actions run. -/
  | stepCommitReceived (port : Nat) (f : Frame) (flt : MillFault)
  /-- STEP_ABORT_RECEIVED (R153). STEP_ABORT reaches a switch: its contexts go to ABORTED, the abort is forwarded down and an abort record is written. -/
  | stepAbortReceived (port : Nat) (f : Frame) (flt : MillFault)
  /-- ACK_FRAME (R56). An ACK reaches the switch as a source or as the holder of a multicast record, and ends or advances the acknowledged work. -/
  | ackFrame (port : Nat) (f : Frame)
  /-- NACK_FRAME (R49). A NACK reaches the switch as the source of a message, and the switch reacts as its code requires. -/
  | nackFrame (port : Nat) (f : Frame)
  /-- CHECK_FAIL_NACK (R126). A CHECK_FAIL from a member or child reaches a switch: a lower tier passes it up, and the releasing tier supersedes, counts and may abort. -/
  | checkFailNack (port : Nat) (f : Frame)
  /-- RESEND_TIMER_EXPIRY (R58). A message the switch originated has had no ACK by its re-send timer: it is sent again with ATTEMPT raised, or a fence is requested after the eighth attempt. -/
  | resendTimerExpiry (key : Nat)
  /-- STRAGGLER_TIMER_EXPIRY (R358). The straggler timer of a context or bell phase expires and STRAGGLER records are written for the awaited members. -/
  | stragglerTimerExpiry (w : WaitObj)
  /-- FENCE_TIMER_EXPIRY (R359). The fence timer expires and, under FENCE_ACTION 0, a fence is requested for each awaited member. -/
  | fenceTimerExpiry (w : WaitObj)
  /-- STEP_TIMER_EXPIRY (R267). The step timer expires and the releasing switch aborts the step with ABORT_REASON 0x0001. -/
  | stepTimerExpiry (job : BitVec 12) (step : BitVec 32)
  /-- STEP_REPORT_SEND (R129). Once its chunks are FINAL, the previous step has ended and its proposals are acknowledged, a releasing switch computes SWITCH_DIGEST and sends STEP_REPORT. -/
  | stepReportSend (job : BitVec 12) (step : BitVec 32)
  /-- STEP_REPORT (R162). The step root takes a STEP_REPORT and commits or aborts the step once it holds every report. -/
  | stepReport (port : Nat) (f : Frame)
  /-- REPORT_WITHDRAW (R152). The step root takes a REPORT_WITHDRAW and replies WITHDRAWN or COMMITTED. -/
  | reportWithdraw (port : Nat) (f : Frame)
  /-- WITHDRAW_REPLY (R152). A releasing switch takes the reply to its withdrawal and supersedes, or raises POST_COMMIT. -/
  | withdrawReply (port : Nat) (f : Frame)
  /-- TALLY_REPORT (R247). The releasing switch takes a TALLY_REPORT and, once it holds all of them, computes the estimate and writes the statistics record. -/
  | tallyReport (port : Nat) (f : Frame)
  /-- BELL_ARRIVE (R260). A BELL_ARRIVE is classified and recorded at a switch, and may aggregate up or release a phase. -/
  | bellArrive (port : Nat) (f : Frame) (store : WordErr)
  /-- BELL_RELEASE (R263). A lower tier takes BELL_RELEASE, clears its record and passes the release down. -/
  | bellRelease (port : Nat) (f : Frame)
  /-- MC_RECORD_TIMEOUT (R205). A multicast record inactive for 500 µs is freed. -/
  | mcRecordTimeout (die : Nat) (src : BitVec 24) (msgId : BitVec 16)
  /-- DISPATCH_END (R212). The egress leaf records the first END of a source for an instance and round, and acknowledges it. -/
  | dispatchEnd (port : Nat) (f : Frame)
  /-- DISPATCH_GRANT (R215). The source's ingress leaf records the grants of a DISPATCH_GRANT passing on its last hop. -/
  | dispatchGrant (port : Nat) (f : Frame)
  /-- LANDING_DATA (R365). A landing DATA write stores shard bytes at OFFSET of an OPEN slot. -/
  | landingData (port : Nat) (f : Frame)
  /-- LANDING_OPEN (R367). OPEN allocates a shard in a landing slot first-fit, or reports NO_SPACE. -/
  | landingOpen (port : Nat) (f : Frame)
  /-- LANDING_SEAL (R368). SEAL checks the slot and the commit of its step, then enters SEALING and starts hashing. -/
  | landingSeal (port : Nat) (f : Frame)
  /-- SEAL_HASH_DONE (R368). Hashing of a sealing shard ends and the slot becomes SEALED or returns to OPEN. -/
  | sealHashDone (job : BitVec 12) (owner : Nat) (gen : BitVec 4) (slot : Nat)
  /-- LANDING_READ (R369). READ checks the shard, then streams it as WRITE messages while hashing it. -/
  | landingRead (port : Nat) (f : Frame)
  /-- LANDING_DROP (R371). DROP frees the sender's shard in the slot. -/
  | landingDrop (port : Nat) (f : Frame)
  /-- EPOCH_REQUEST (R282). The coordinator takes requested items and starts a change when no change is running. -/
  | epochRequest (port : Nat) (f : Frame)
  /-- EPOCH_PREPARE (R283). A switch writes its standby bank for the new epoch and replies EPOCH_PREPARED. -/
  | epochPrepare (port : Nat) (f : Frame)
  /-- EPOCH_PREPARED (R283). The coordinator records EPOCH_PREPARED and sends EPOCH_COMMIT when every switch has prepared. -/
  | epochPrepared (port : Nat) (f : Frame)
  /-- EPOCH_COMMIT (R285). A switch makes the standby bank current, raises EPOCH_NUM, applies fences and sends EPOCH_ANNOUNCE. -/
  | epochCommit (port : Nat) (f : Frame)
  /-- EPOCH_DRAIN_CONDITION (R283). Once endpoints have acknowledged the announce and MAX_FRAME_AGE has passed, the switch sends EPOCH_DRAINED. -/
  | epochDrainCondition
  /-- EPOCH_DRAINED (R283). The coordinator records EPOCH_DRAINED and sends EPOCH_RETIRE when every switch has drained. -/
  | epochDrained (port : Nat) (f : Frame)
  /-- EPOCH_RETIRE (R283). A switch retires the old bank, purges its frames and returns to IDLE. -/
  | epochRetire (port : Nat) (f : Frame)
  /-- EPOCH_QUERY (R287). A switch answers a new coordinator's EPOCH_QUERY according to its phase. -/
  | epochQuery (port : Nat) (f : Frame)
  /-- TIME_SYNC_PERIOD (R252). At each SYNC_PERIOD a switch sends TIME_SYNC on every usable inter-switch port. -/
  | timeSyncPeriod
  /-- TIME_SYNC (R252). A switch answers a TIME_SYNC with TIME_SYNC_REPLY carrying T2, T3, its flags and its DISTANCE. -/
  | timeSync (port : Nat) (f : Frame) (t2 : BitVec 80)
  /-- TIME_SYNC_REPLY (R255). A switch computes its offset from the reply, disciplines fabric time, chooses a parent and moves its time state. -/
  | timeSyncReply (port : Nat) (f : Frame) (t4 : BitVec 80)
  /-- TIME_HOLDOVER_TIMEOUT (R255). A LOCKED switch with no valid exchange for 8 periods enters HOLDOVER. -/
  | timeHoldoverTimeout
  /-- HELLO (R63). A port answers HELLO with HELLO_ACK and renegotiates if the selected version changes. -/
  | hello (port : Nat) (f : Frame)
  /-- HELLO_ACK (R62). A port accepts a matching HELLO_ACK and goes up once it has sent and received HELLO_ACK. -/
  | helloAck (port : Nat) (f : Frame)
  /-- HELLO_TIMER (R62). Every 1 ms a negotiating port sends HELLO again. -/
  | helloTimer (port : Nat)
  /-- CRUISE_ID (R341). A switch answers a CRUISE_ID with CRUISE_REPLY. -/
  | cruiseId (port : Nat) (f : Frame)
  /-- CRUISE_REPLY (R342). A switch compares a port's reply with the cabling plan and sets the port's result. -/
  | cruiseReply (port : Nat) (f : Frame)
  /-- CRUISE_RETRY_TIMER (R339). A port with no reply after 1 ms sends CRUISE_ID again, or records MISSING after 3 tries. -/
  | cruiseRetryTimer (port : Nat)
  /-- CRUISE_SWEEP_TIMER (R339). The cruise-sweep timer expires and a full sweep begins. -/
  | cruiseSweepTimer
  /-- SWEEP_NOW (R339). A write of SWEEP_NOW starts a full sweep unless one is running. -/
  | sweepNow
  /-- EPOCH0_BUILT (R506). The first sweep finishes, epoch 0 is built, forwarding may start and LAST_GOOD is set. -/
  | epoch0Built
  /-- PAUSE_BLOCK (R406). A PAUSE block decoded from a good codeword sets the neighbour's pause state of the port's VCs. -/
  | pauseBlock (port : Nat) (mask : BitVec 8)
  /-- PAUSE_REPEAT_TIMER (R406). A switch repeats its PAUSE block on the 1 µs and 100 µs schedule. -/
  | pauseRepeatTimer (port : Nat)
  /-- GATE_ARM (R328). A write of ARM submits the standby gate list, which is checked and accepted or refused with GATE_ERR. -/
  | gateArm (die j : Nat)
  /-- GATE_LIST_SWAP (R329). At its start instant the accepted gate list becomes active and SWAP_PENDING clears. -/
  | gateListSwap (die j : Nat)
  /-- GATE_ENTRY_BOUNDARY (R330). A gate entry boundary opens or closes VCs of a port. -/
  | gateEntryBoundary (die j : Nat)
  /-- SHAPER_ENTRY_WRITE (R318). A write of a shaper entry with EN set fills TOKENS to BURST, or disables an invalid entry with SHAPER_ERR. -/
  | shaperEntryWrite (die entry : Nat) (w0 w1 w2 : Word)
  /-- SAMPLE_SNAPSHOT (R333). Each EFFECTIVE_PERIOD the die snapshots its queues and writes a block to the telemetry ring, or drops it. -/
  | sampleSnapshot (die : Nat)
  /-- COMPACTION_DONE (R311). Compaction of a mill's store ends and the waiting pool request is granted. -/
  | compactionDone (mill : Nat)
  /-- ADMISSION_REPLY_DEFERRED (R312). ADMITTED is sent once every mill's free units and lines cover every unused quota. -/
  | admissionReplyDeferred (job : BitVec 12)
  /-- RESTORE_COUNTS (R308). A write of RESTORE_COUNTS starts the sweep that rebuilds REFCOUNT. -/
  | restoreCounts (die : Nat)
  /-- REFCOUNT_SWEEP_DONE (R308). The REFCOUNT sweep ends and REFCOUNT_FALLBACK clears. -/
  | refcountSweepDone (die : Nat) (count : WordErr)
  /-- ERROR_MEMORY_ACCESS (R186). A paced residual read or write of a bucket is carried out at its reserved rate. -/
  | errorMemoryAccess (job : BitVec 12) (bucket : Nat)
  /-- LPDDR_ACCESS (R426). A controller performs a paced line access with its check-line handling, correcting, poisoning or reporting errors. -/
  | lpddrAccess (a : MemAccess)
  /-- SCRUB_LINE (R435). The patrol scrubber reads a line, writes back corrections and poisons uncorrectable lines. -/
  | scrubLine (stack channel line : Nat) (err checkErr : List (Nat × Byte))
  /-- MR4_READING (R434). Every 16 ms the controller reads MR4, sets the refresh rate and may raise MEM_THERMAL. -/
  | mr4Reading (stack : Nat) (temp : BitVec 8) (rate : Nat)
  /-- STACK_TRAINING_DONE (R437). A stack finishes training and zeroing, or fails and raises MEM_TRAINING_FAIL. -/
  | stackTrainingDone (stack : Nat) (ok : Bool)
  /-- FENCE_REQUEST_RANK (R360). A write of a rank to FENCE_REQUEST_RANK requests a fence of that rank, or is absorbed or refused. -/
  | fenceRequestRank (rank : BitVec 18)
  /-- SAVE_START (R375). A save begins once the floor reaches P + 1, or is refused. -/
  | saveStart (job : BitVec 12)
  /-- SAVE_IMAGE_DONE (R376). The save image is written and sealed, and SAVE_DONE is recorded. -/
  | saveImageDone (job : BitVec 12)
  /-- FAULT_MESSAGE_ACCEPT (R446). The watchtower accepts a fault message, stamps it and merges it, queues it or loses it. -/
  | faultMessageAccept (source : BitVec 19)
  /-- REACTION_HANDLE (R451). The reaction engine takes the first PENDING entry into HANDLING and carries out its actions. -/
  | reactionHandle
  /-- ENTRY_REACTED (R451). The actions of the entry in HANDLING complete and the entry becomes REACTED. -/
  | entryReacted
  /-- RETIRE (R454). A write of RETIRE removes leading REACTED entries and writes a final record where REPEAT has risen. -/
  | retire (count : BitVec 11)
  /-- FORCE_GO (R456). A write of GO to FORCE injects a forced fault message from the named source. -/
  | forceGo (w : Word)
  /-- REACTION_WRITE (R453). A write of a REACTION value is checked against the rules and taken or refused. -/
  | reactionWrite (kind : BitVec 8) (value : Byte)
  /-- FAULT_BIT_CLEAR (R455). A W1C clear of a fault status bit takes effect, or the bit sets again at once while its cause persists. -/
  | faultBitClear (addr : Word) (mask : Word)
  /-- FLIGHT_RECORDER_COPY (R459). The firmware copies a page of 128 records to the log region of the flash when 128 records wait or after 10 s. -/
  | flightRecorderCopy
  /-- WATCHDOG_SERVICE (R460). A write of 0xA5C3 to SERVICE restarts the watchdog period. -/
  | watchdogService (value : BitVec 16)
  /-- WATCHDOG_EXPIRY (R460). The watchdog period passes without service: WATCHDOG_EXPIRED is raised and the management core is reset. -/
  | watchdogExpiry
  /-- FIRMWARE_RELOAD (R511). The boot ROM reloads and measures the FIRMWARE section and resumes it, or raises FW_RELOAD_MISMATCH. -/
  | firmwareReload
  /-- PLL_EN_WRITE (R465). A write of PLL_EN starts or stops an island's PLL, or is refused while SELECT is 1. -/
  | pllEnWrite (island : Nat) (v : Bool)
  /-- PLL_LOCK_ACQUIRED (R465). A PLL locks and PLL_LOCK sets. -/
  | pllLockAcquired (island : Nat)
  /-- SELECT_WRITE (R466). A write of SELECT starts a glitch-free multiplexer switch, or is refused while PLL_LOCK is 0. -/
  | selectWrite (island : Nat) (v : Bool)
  /-- MUX_SWITCH_DONE (R466). The island runs on the selected input and SWITCH_DONE sets. -/
  | muxSwitchDone (island : Nat)
  /-- MUX_TIMEOUT (R468). SWITCH_DONE has not set within 33 keep-clock cycles, and MUX_TIMEOUT is raised. -/
  | muxTimeout (island : Nat)
  /-- DOMAIN_RESET (R469). A keyed write of DOMAIN_RESET resets the reset domain that holds the named island. -/
  | domainReset (w : Word)
  /-- CLOCK_GATE_WRITE (R470). A write of CLOCK_GATE_CD enables a block's clock, or requests gating once the block is idle. -/
  | clockGateWrite (w : Word)
  /-- BLOCK_GATED (R470). A block with a pending gate becomes idle, is gated and its GATE_PENDING bit clears. -/
  | blockGated (block : Nat)
  /-- REF_LOST (R472). The reference monitor finds REFCLK missing or off frequency: PLLs coast and REF_LOST is raised. -/
  | refLost (count : Option (BitVec 20))
  /-- REF_OK (R474). After 8 good windows REF_OK sets and the PLLs reacquire lock. -/
  | refOk (count : BitVec 20)
  /-- BOOT_OSC_STOPPED (R463). The keep finds no boot-oscillator edge in a keep cycle and holds the control-die domain in reset. -/
  | bootOscStopped
  /-- THERMAL_READING (R475). Every 1 ms a fabric die reads HOT_TEMP and moves its throttle LEVEL. -/
  | thermalReading (die : Nat) (temp : BitVec 8)
  /-- THERMTRIP (R582). A junction reaches the trip point: THERMTRIP_N falls and every non-keep domain is held in reset. -/
  | thermtrip
  /-- SIGNAL_DETECTED (R411). Signal has been present on every lane for 100 µs and the port enters TRAINING or ADAPT. -/
  | signalDetected (port : Nat)
  /-- TRAINING_DONE (R411). Every lane is trained with both ends ready and the port enters ADAPT. -/
  | trainingDone (port : Nat)
  /-- ADAPT_DONE (R411). CDR lock, adaptation and polarity are done and the port enters ALIGN. -/
  | adaptDone (port : Nat) (inverted : List Bool) (snr : List (BitVec 16))
  /-- ALIGN_DONE (R411). Codeword and marker lock and deskew are done, the port goes UP and TFP negotiation begins. -/
  | alignDone (port : Nat) (logical : List Nat)
  /-- BRINGUP_TIMEOUT (R411). A bring-up state times out and the port returns to SIGNAL_WAIT with TRAIN_FAILS raised. -/
  | bringupTimeout (port : Nat)
  /-- PCS_LOCK_LOSS (R412). On signal loss, missed markers, too many uncorrectable codewords, lost refresh or REF_LOST, the port returns to SIGNAL_WAIT. -/
  | pcsLockLoss (port : Nat)
  /-- FORCE_DOWN_WRITE (R413). A write of FORCE_DOWN sends the port to DISABLED, or lets it leave DISABLED. -/
  | forceDownWrite (port : Nat) (v : Bool)
  /-- PRBS_ENABLE_WRITE (R414). Enabling a lane's PRBS generator or checker sends its port to SIGNAL_WAIT until both are disabled. -/
  | prbsEnableWrite (lane : Nat) (w : Word)
  /-- QUIET_IDLE_EXPIRY (R416). A transmitter idle for QUIET_IDLE in LANE_QUIET sends QUIET blocks and enters SHALLOW. -/
  | quietIdleExpiry (port : Nat)
  /-- TRANSMITTER_WAKE (R416). A quiet transmitter with something to send sends the WAKE pattern and WAKE block and resumes. -/
  | transmitterWake (port : Nat)
  /-- CMD_RUN (R478). A DCL command with TARGET RUN leaves LANE_QUIET, or wakes the device from DOZE. -/
  | cmdRun
  /-- CMD_LANE_QUIET (R478). A DCL command with TARGET LANE_QUIET begins entry into LANE_QUIET. -/
  | cmdLaneQuiet
  /-- CMD_DOZE (R478). A DCL command with TARGET DOZE begins entry into DOZE. -/
  | cmdDoze
  /-- CMD_KEEP (R478). A DCL command with TARGET KEEP begins entry into KEEP. -/
  | cmdKeep
  /-- QUIESCE_DONE (R479). Every unit reports idle and the entry reaches its commit point. -/
  | quiesceDone
  /-- QUIESCE_ABORT (R481). A refusal condition, an address match or a fatal fault aborts the entry during QUIESCE. -/
  | quiesceAbort (why : AbortCause)
  /-- POWER_SAVE_DONE (R484). The register save area has been written and the POWER phase begins. -/
  | powerSaveDone
  /-- POWER_STATE_REACHED (R479). Clocks are gated, stacks put into self-refresh and domains powered off, and the state is reached. -/
  | powerStateReached
  /-- SMBUS_ADDRESS_MATCH (R486). A transaction to the device's SMBus address wakes it from DOZE or KEEP. -/
  | smbusAddressMatch
  /-- WAKE_UNIT_RELEASE (R487). At its scheduled time a fabric die, stack group or lane group is released during a DOZE exit. -/
  | wakeUnitRelease (u : PowerUnit)
  /-- START_UNIT_RELEASE (R488). At its scheduled time a fabric die, stack group or lane group is released in the start sequence. -/
  | startUnitRelease (u : PowerUnit)
  /-- SAG_N_ASSERTED (R491). SAG_N low for 200 ns freezes the device and starts the sag save. -/
  | sagNAsserted
  /-- SAG_SAVE_COMPLETE (R491). The sag save writes STATUS COMPLETE and powers off the control die. -/
  | sagSaveComplete (us : Nat)
  /-- SAG_RESTART (R493). SAG_N has been high for 10 ms after a sag and the device starts as at power-on with START_CAUSE 2. -/
  | sagRestart
  /-- VKEEP_APPLIED (R570). VKEEP reaches its limit: the power-on domain resets, the straps are sampled and CORE_PWR_EN rises. -/
  | vkeepApplied (straps : BitVec 2)
  /-- PWRGD_RISE (R570). PWRGD rises and the boot oscillator and boot ROM start. -/
  | pwrgdRise
  /-- PWRGD_FALL (R572). PWRGD falls without a sag save and every non-keep domain is held in reset. -/
  | pwrgdFall
  /-- KEEP_RST (R574). KEEP_RST_N held low resets every domain as a fresh application of VKEEP, and power-up restarts on its rise. -/
  | keepRst (straps : BitVec 2)
  /-- BOOT_START (R506). The boot ROM sets up the flash, checks the factory region, derives the identity and reads the chosen slot. -/
  | bootStart (puf : PufReading)
  /-- PUF_RETRY (R517). A failed PUF reading powers the SRAM down for 1 ms and reads it again, or fails boot after 4 readings. -/
  | pufRetry (puf : PufReading)
  /-- SLOT_VERIFIED (R506). A slot read whole is verified, started with its configuration checked, or rejected with fallback to the other slot. -/
  | slotVerified
  /-- SV_COMMIT (R515). A write of SV_COMMIT raises SV_FLOOR and CONFIG_FLOOR to the running image's values. -/
  | svCommit
  /-- BOOT_RETRY (R508). A write of RETRY in BOOT_FAILED restarts the boot ROM from step 1. -/
  | bootRetry
  /-- SET_BOOT_NEXT (R514). A keyed write of NEXT sets BOOT_NEXT in the boot store. -/
  | setBootNext (w : Word)
  /-- ATTEST_GO (R519). A write of ATTEST_GO requests a signed attestation report for the nonce. -/
  | attestGo
  /-- ATTEST_REPORT_DONE (R519). The attestation report is signed and ATTEST_BUSY clears. -/
  | attestReportDone
  /-- LEDGER_SIGN_STEP (R166). A write of a step to LEDGER_SIGN_STEP requests a signature of that step record. -/
  | ledgerSignStep (step : BitVec 32)
  /-- LEDGER_SIGNATURE_DONE (R166). The ML-DSA-87 signature of a step record is ready and stored. -/
  | ledgerSignatureDone
  /-- DCL_TRAINING_STEP (R522). The DCL link moves through DETECT, EQ, CONFIG and ACTIVE as each training condition is met. -/
  | dclTrainingStep (r : DclTrain)
  /-- DCL_TRAINING_TIMEOUT (R522). EQ or CONFIG times out and the link returns to DETECT, or to DOWN after repeated retrain failures. -/
  | dclTrainingTimeout
  /-- DCL_FLIT_BAD (R527). A bad flit is discarded with the flits after it, and a NAK is sent. -/
  | dclFlitBad (crcBad : Bool)
  /-- DCL_NAK (R527). A NAK flit makes the transmitter replay from ACK_SEQ + 1. -/
  | dclNak (ackSeq : BitVec 10)
  /-- DCL_NAK_REPEAT (R527). The NAK is repeated every 1 µs until the replay arrives, and RETRAIN starts after eight NAKs. -/
  | dclNakRepeat
  /-- FORCE_RETRAIN (R522). A write of FORCE_RETRAIN starts RETRAIN from ACTIVE. -/
  | forceRetrain
  /-- DCL_LINK_DOWN (R528). On entry to DOWN, replay buffers, credits and messages in flight are discarded and the snoop filter is cleared. -/
  | dclLinkDown
  /-- RD_SHARED (R533). The companion reads a window line with a shared grant. -/
  | rdShared (tag : BitVec 12) (space : BitVec 2) (line : BitVec 40)
  /-- RD_OWN (R533). The companion reads a window line with a modified grant, or draws RO_ERR. -/
  | rdOwn (tag : BitVec 12) (space : BitVec 2) (line : BitVec 40)
  /-- RD_NC (R533). The companion reads a window or update-buffer line without a grant. -/
  | rdNc (tag : BitVec 12) (space : BitVec 2) (line : BitVec 40)
  /-- WR_NC (R533). The companion writes a line without caching it. -/
  | wrNc (tag : BitVec 12) (space : BitVec 2) (line : BitVec 40) (data : Vector Byte 64)
  /-- WRITEBACK (R534). The companion writes back a modified line it drops. -/
  | writeback (tag : BitVec 12) (line : BitVec 40) (data : Vector Byte 64)
  /-- EVICT (R534). The companion reports that it dropped a clean line. -/
  | evict (tag : BitVec 12) (line : BitVec 40)
  /-- REG_RD (R557). The companion reads a management register and receives REG_DATA. -/
  | regRd (tag : BitVec 12) (addr : Word)
  /-- REG_WR (R557). The companion writes a management register and receives CMP. -/
  | regWr (tag : BitVec 12) (addr : Word) (value : Word)
  /-- SNP_ACK (R534). The companion answers a snoop without data, completing it. -/
  | snpAck (tag : BitVec 12)
  /-- SNP_DATA (R534). The companion answers a snoop with the data of a modified line. -/
  | snpData (tag : BitVec 12) (data : Vector Byte 64)
  /-- HOST_DOORBELL (R542). A doorbell write makes the switch read PRODUCER of the command ring and take entries in order. -/
  | hostDoorbell
  /-- LOAD (R236). A LOAD command checks a plan and admits or refuses it, replying with the admission reply. -/
  | load
  /-- UNLOAD (R240). An UNLOAD command aborts the job's window steps and retires its contexts. -/
  | unload
  /-- UNLOAD_FREE (R240). Once every context of the unloaded job is IDLE, its reservations are freed and the UNLOAD reply is written. -/
  | unloadFree (job : BitVec 12)
  /-- SAVE (R375). A SAVE command is accepted and makes the switch hold back frames above P. -/
  | save
  /-- RESTORE (R378). A RESTORE command checks the image and restores error memory, rings, tallies and bells, then sends proposals. -/
  | restore
  /-- LANDING_WRITE (R544). A LANDING_WRITE command writes a part of a save image into a switch-owned slot and seals it when complete. -/
  | landingWrite
  /-- LEDGER_READ (R545). A LEDGER_READ command writes a step record, or the step's ledger entries, to the buffer. -/
  | ledgerRead
  /-- HOLDOFF_EXPIRY (R546). A HOLDOFF interval ends and the deferred INTR messages are sent. -/
  | holdoffExpiry
  /-- UPD_ERASE (R547). A keyed ERASE operation erases flash sectors, or is refused. -/
  | updErase (length : BitVec 17)
  /-- UPD_PROGRAM (R547). A keyed PROGRAM operation writes the update buffer to flash, or is refused. -/
  | updProgram (length : BitVec 17)
  /-- UPD_READ (R547). A keyed READ operation reads flash into the update buffer. -/
  | updRead (length : BitVec 17)
  /-- UPD_OPERATION_DONE (R547). A flash operation ends, and UPD_DONE and UPD_ERR are set. -/
  | updOperationDone (ok : Bool)
  /-- SET_ADDR (R549). The SMBus SET_ADDR command sets the management address and fetches the register. -/
  | setAddr (t : SmbTxn) (addr : Word)
  /-- SMB_READ (R549). The SMBus READ command returns the fetched value and fetches the next register. -/
  | smbRead (t : SmbTxn)
  /-- SMB_WRITE (R549). The SMBus WRITE command writes the register at the address and advances the address. -/
  | smbWrite (t : SmbTxn) (value : Word)
  /-- SMB_STATUS_READ (R549). The SMBus STATUS command returns byte 0 of SMB_STATUS. -/
  | smbStatusRead (t : SmbTxn)
  /-- SMB_FETCH_DONE (R549). A register fetch outside the keep completes within 20 µs. -/
  | smbFetchDone
  /-- ALERT_RESPONSE (R548). The port answers the Alert Response Address while it drives SMB_ALERT_N low. -/
  | alertResponse
  /-- FT_NOW_LOW_READ (R250). A read of FT_NOW_LOW latches the whole of fabric time. -/
  | ftNowLowRead
  /-- MEM_ERR_ADDR_LOW_READ (R561). A read of MEM_ERR_ADDR_LOW latches MEM_ERR_ADDR_HIGH of the same stack. -/
  | memErrAddrLowRead (stack : Nat)
  /-- REGISTER_WRITE (R557). A write to a register that has no row of its own sets its RW fields and clears its W1C bits, or draws an access error. -/
  | registerWrite (m : Master) (addr : Word) (value : Word)
  /-- BRIDGE_FATAL (R18). An uncorrectable transfer on a bridge between fabric dies, or a loss of its training, halts forwarding, sets BRIDGE_FAULT and raises the fatal-to-device condition. -/
  | bridgeFatal (die peer : Nat)
  /-- BRIDGE_TRAINED (R19). A fabric-to-fabric or chiplet bridge completes training and sets BRIDGE_UP or CHIPLET_UP, which R19 requires before forwarding starts. -/
  | bridgeTrained (die peer : Nat)
  /-- PLL_LOCK_LOST (R472). A PLL that loses lock while REF_OK is 1 coasts, and REF_LOST is raised with that PLL's island index as INSTANCE. -/
  | pllLockLost (island : Nat)
  /-- CHK_LOCK (R414). A lane's PRBS checker locks after 64 error-free symbols, sets CHK_LOCK and begins counting bit errors in PRBS_ERRORS. -/
  | chkLock (chk : ChkRx)
  /-- DCL_FLIT_GOOD (R526). A good DCL flit is received, and its ACK_SEQ frees acknowledged entries of the replay buffer while its credit fields return REQ, RSP and SNP credit. -/
  | dclFlitGood (payload : Option (BitVec 10)) (ackSeq : BitVec 10) (reqCredit rspCredit snpCredit : BitVec 10)
  /-- CORE_ECC_UNCORRECTABLE (R445). An uncorrectable ECC error in the management core memories raises kind 0x03 and resets the management core, as R460 does. -/
  | coreEccUncorrectable (addr : Word)
  /-- REGISTER_READ (R558). A register read by the management core or by JTAG draws a bus error, an ERROR status or a gated zero, and is counted in BUS_ERRORS or GATED_ACCESS_COUNT. -/
  | registerRead (m : Master) (addr : Word)
  deriving DecidableEq, Repr

end Sys2Proof
end

