-- ==== Sys2Proof/Config.lean ====
section
/-! DEFINITION. The values the specification leaves open, as constants without a body: nothing in Lean can
evaluate one or prove a value of it, so a claim that mentions one holds whatever it is. -/
namespace Sys2Proof.Config

/-- ML-DSA-87 verification (FIPS 204, named by R166, R225, R501, R513, R518): the manual gives no algorithm of
its own. `mldsaVerify key message signature` (assumption 3). -/
opaque mldsaVerify : List Byte → List Byte → List Byte → Bool

/-- Byte `i` of a hedged ML-DSA-87 signature (R166, R389, R519): two signatures of one message differ, so
the draw number is an argument (assumption 3). `mldsaSignByte draw message i`. -/
opaque mldsaSignByte : Nat → List Byte → Nat → Byte

/-- Byte `i` of the ML-DSA-87 public key that KeyGen of FIPS 204 makes of the seed ξ (R517; assumption 3). -/
opaque mldsaPublicByte : List Byte → Nat → Byte

/-- A byte of landing memory that its member never wrote (R367 calls it unspecified): draw number of the OPEN,
offset (assumption 4). -/
opaque freeShardByte : Nat → Nat → Byte

/-- A choice of the switch that the specification does not fix: a MSG_ID of its own messages (R55 only
forbids reuse), by draw number (assumption 5). -/
opaque freeMsgId : Nat → BitVec 16

/-- Does the control firmware's input, which holds n frames, refuse another (R289 has it discard and count, and gives no size;
assumption 76)? -/
opaque fwInputFull : Nat → Bool

/-- The other switches of the fabric, with their tiers, that a switch's image gives no tier for or does not name: R251 and R283
speak of every switch of the fabric, and R502 lists some of them (assumption 97), by the switch's own flat ID. -/
opaque farSwitches : BitVec 24 → List (BitVec 24 × Nat)

/-- What the update buffer holds where a flash operation ended in a flash error (R547 names the outcome 2 and no
contents): draw number, offset (assumption 6). -/
opaque freeFlashByte : Nat → Nat → Byte

/-- The lane an uncorrectable accumulator word is charged to in LAST_LANE when R440 routes it through R82, which
names a lane that a store has not (assumption 7). -/
opaque freeLane : Nat → BitVec 7

/-- Do the two rounding lanes differ in a chunk that a command without a word of the mill lets finish (R141, R176; assumption
87), by draw number? -/
opaque freeLaneDiff : Nat → Bool

/-- OBJECT of a STRAGGLER or FENCE_REQUESTED record about a dispatch instance: R361 gives it a value for chunks and
bells only (assumption 10). -/
opaque freeObject : Nat → BitVec 32

/-- The pattern of a NaN in a statistics record: R248 says that a field is NaN and not which (assumption 12). -/
opaque freeNan : BitVec 64

/-- SOURCE_MAX of an ANCHOR_PROPOSAL that a restore sends: the save image holds the proposals and not the ring entries they
came from (R376, R380; assumption 14), by draw number. -/
opaque freeSourceMax : Nat → BitVec 16

/-- Byte `i` of the PUF key that a reading of the SRAM gives with the helper data (R517 names no code; assumption 15). -/
opaque pufKeyByte : List Byte → List Byte → Nat → Byte

/-- A byte that was programmed where the flash was not erased (R547 gives no value; assumption 6): draw number, offset. -/
opaque freeProgrammed : Nat → Nat → Byte

/-- Source code of the power controller, which raises kinds 0x50 to 0x54 (R482): R443 lists no block for it
(assumption 19). -/
opaque powerSource : BitVec 19

/-- Source code of the boot unit, which raises kinds 0x60 to 0x65 (R509): R443 lists no block for it (assumption 19). -/
opaque bootSource : BitVec 19

/-- How the sag area packs CURRENT_BIT and PHASE in one byte (R494 gives no places; assumption 20). -/
opaque sagEpochByte : Bool → Nat → Byte

/-- The SHA3-512 digest of the root public key in the boot ROM (R506 gives no value; assumption 21). -/
opaque rootKeyDigest : List Byte

/-- Offset of the root public key in the factory region (R498 gives none; assumption 21). -/
opaque rootKeyOffset : Nat

/-- Offset of the factory record in the factory region (R498 gives none; assumption 21). -/
opaque factoryOffset : Nat

/-- Verification of an owner transfer "against OWNER_KEY_HASH" (R513): the image carries no key of that hash, and a hash alone
verifies no ML-DSA-87 signature (assumption 22). `transferVerify hash message signature`. -/
opaque transferVerify : List Byte → List Byte → List Byte → Bool

end Sys2Proof.Config
end

