-- ==== Sys2Proof/Machine/Bits.lean ====
section
/-! DEFINITION. Bit fields, byte orders and saturating counters (spec/00_scope.md R6, R7, R11, R12). -/
namespace Sys2Proof.Machine

/-- Bits [hi:lo] of a number (00_scope, Numbers and units). -/
def bitsOf (n hi lo : Nat) : Nat := (n / 2 ^ lo) % 2 ^ (hi + 1 - lo)

/-- Bit k of a number. -/
def bitOf (n k : Nat) : Bool := n.testBit k

/-- `n` with bits [hi:lo] replaced by the low bits of `v`. -/
def setBitsOf (n hi lo v : Nat) : Nat :=
  n - bitsOf n hi lo * 2 ^ lo + (v % 2 ^ (hi + 1 - lo)) * 2 ^ lo

/-- 1 for true. -/
def b2n (b : Bool) : Nat := if b then 1 else 0

/-- The two's-complement reading of the low `w` bits of `n` (R11). -/
def toSigned (w n : Nat) : Int :=
  let m := n % 2 ^ w
  if m < 2 ^ (w - 1) then (m : Int) else (m : Int) - (2 ^ w : Nat)

/-- The low `w` bits of an integer (R11: assignment keeps the low bits). -/
def ofSigned (w : Nat) (i : Int) : Nat := (i % ((2 ^ w : Nat) : Int)).toNat

/-- ceil(a / b) on naturals. -/
def ceilDiv (a b : Nat) : Nat := (a + b - 1) / b

/-- `a` rounded up to a multiple of `b`. -/
def roundUp (a b : Nat) : Nat := ceilDiv a b * b

/-- bitlen of the manual's pseudocode: 0 for 0. -/
def bitlen (n : Nat) : Nat := if n = 0 then 0 else Nat.log2 n + 1

/-- ceil(log2 n) for n ≥ 1 (R85, R246). -/
def ceilLog2 (n : Nat) : Nat := if n ≤ 1 then 0 else Nat.log2 (n - 1) + 1

/-- A counter field that saturates (the counter registers of every chapter). -/
def satAdd (w a b : Nat) : Nat := min (a + b) (2 ^ w - 1)

/-- n bytes of a value, least significant first (R7). -/
def leBytes : Nat → Nat → List Byte
  | 0, _ => []
  | n + 1, v => BitVec.ofNat 8 v :: leBytes n (v / 256)

/-- n bytes of a value, most significant first (R6). -/
def beBytes (n v : Nat) : List Byte := (leBytes n v).reverse

/-- The number a little-endian byte string holds (R7). -/
def ofLe : List Byte → Nat
  | [] => 0
  | b :: bs => b.toNat + 256 * ofLe bs

/-- The number a big-endian byte string holds (R6). -/
def ofBe (bs : List Byte) : Nat := ofLe bs.reverse

/-- n bytes at an offset, zero past the end (padding positions are zero in every layout of the manual). -/
def sliceB (bs : List Byte) (off n : Nat) : List Byte :=
  let t := (bs.drop off).take n
  t ++ List.replicate (n - t.length) 0

/-- The little-endian number in bytes off .. off + n - 1. -/
def leAt (bs : List Byte) (off n : Nat) : Nat := ofLe (sliceB bs off n)

/-- The big-endian number in bytes off .. off + n - 1. -/
def beAt (bs : List Byte) (off n : Nat) : Nat := ofBe (sliceB bs off n)

/-- n zero bytes. -/
def zeros (n : Nat) : List Byte := List.replicate n 0

/-- A byte string padded with zeros to a multiple of m (R70, R222). -/
def padTo (m : Nat) (bs : List Byte) : List Byte := bs ++ zeros (roundUp bs.length m - bs.length)

/-- The ASCII bytes of a tag. -/
def ascii (s : String) : List Byte := s.toList.map fun c => BitVec.ofNat 8 c.toNat

/-- Are all bytes zero? -/
def allZero (bs : List Byte) : Bool := bs.all (· == 0)

/-- Sum of a list of naturals. -/
def sumN (l : List Nat) : Nat := l.foldl (· + ·) 0

/-- The largest of a list of naturals, or a floor. -/
def maxN (d : Nat) (l : List Nat) : Nat := l.foldl max d

/-- The largest of a list of integers, or a floor. -/
def maxI (d : Int) (l : List Int) : Int := l.foldl max d

/-- Replace the element at index i. -/
def setAt {α : Type} (l : List α) (i : Nat) (f : α → α) : List α := l.modify i f

/-- Element i of a list, or a default. -/
def nth {α : Type} (l : List α) (i : Nat) (d : α) : α := (l[i]?).getD d

/-! ## Fields packed most significant first -/

/-- The bits of a list of widths. -/
def widthSum : List Nat → Nat
  | [] => 0
  | w :: ws => w + widthSum ws

/-- Fields (width, value), the first in the highest bits. -/
def pack : List (Nat × Nat) → Nat
  | [] => 0
  | (w, v) :: t => (v % 2 ^ w) * 2 ^ widthSum (t.map Prod.fst) + pack t

/-- The values of fields of the given widths. -/
def unpack : List Nat → Nat → List Nat
  | [], _ => []
  | w :: ws, n => (n / 2 ^ widthSum ws) % 2 ^ w :: unpack ws n

/-! ## Sparse stores: one canonical form for registers, memories and arrays -/

/-- What a sparse store lists at a key. -/
def sget {α : Type} (k : Nat) : List (Nat × α) → Option α
  | [] => none
  | (j, v) :: t => if j = k then some v else sget k t

/-- Insert or replace, keeping the keys rising. -/
def sput {α : Type} (k : Nat) (v : α) : List (Nat × α) → List (Nat × α)
  | [] => [(k, v)]
  | (j, w) :: t =>
    if k < j then (k, v) :: (j, w) :: t
    else if k = j then (k, v) :: t
    else (j, w) :: sput k v t

/-- Remove a key. -/
def sdel {α : Type} (k : Nat) : List (Nat × α) → List (Nat × α)
  | [] => []
  | (j, w) :: t => if j = k then sdel k t else (j, w) :: sdel k t

/-- Write `v` where an unlisted key reads as `d`: writing `d` removes the entry. -/
def sset {α : Type} [DecidableEq α] (d : α) (k : Nat) (v : α) (m : List (Nat × α)) : List (Nat × α) :=
  if v = d then sdel k m else sput k v m

/-- Keys strictly rising. -/
def srising {α : Type} : List (Nat × α) → Bool
  | [] => true
  | [_] => true
  | (j, _) :: (k, w) :: t => decide (j < k) && srising ((k, w) :: t)

/-- The canonical form: keys strictly rising, and no entry equal to what an unlisted key reads as. -/
def scanon {α : Type} [DecidableEq α] (d : Nat → α) (m : List (Nat × α)) : Bool :=
  srising m && m.all fun p => decide (p.2 ≠ d p.1)

/-- Write a run of values at rising keys. -/
def ssetRun {α : Type} [DecidableEq α] (d : α) (k : Nat) : List α → List (Nat × α) → List (Nat × α)
  | [], m => m
  | v :: vs, m => ssetRun d (k + 1) vs (sset d k v m)

/-- Read a run of n values at rising keys. -/
def sgetRun {α : Type} (d : α) (k : Nat) : Nat → List (Nat × α) → List α
  | 0, _ => []
  | n + 1, m => (sget k m).getD d :: sgetRun d (k + 1) n m

end Sys2Proof.Machine
end

