-- ==== Sys2Proof/Machine/Crypto.lean ====
section
/-! DEFINITION. The check codes and hashes: HDR_CHECK (R34), CRC64 (R51), the mix generator (R84), the symbol codes
over GF(2^8) (R421 to R425) and SHA3-512 (FIPS 202, which R161 and its companions name). -/
namespace Sys2Proof.Machine

/-! ## CRCs -/

/-- One bit of a CRC of width w, most significant bit first. -/
def crcBit (w : Nat) (poly c : BitVec w) (b : Bool) : BitVec w :=
  let top := c.getLsbD (w - 1)
  let c' := c <<< 1
  if (top != b) then c' ^^^ poly else c'

/-- One byte, bit 7 first (R6). -/
def crcByte (w : Nat) (poly c : BitVec w) (b : Byte) : BitVec w :=
  [7, 6, 5, 4, 3, 2, 1, 0].foldl (fun a k => crcBit w poly a (b.getLsbD k)) c

/-- HDR_CHECK: polynomial 0x1021, initial 0xFFFF, no reflection, no final inversion (R34). -/
def hdrCheck (bs : List Byte) : BitVec 16 := bs.foldl (crcByte 16 0x1021#16) 0xFFFF#16

/-- CRC64: ECMA-182 polynomial, initial all ones, no reflection, inverted at the end (R51). -/
def crc64 (bs : List Byte) : BitVec 64 :=
  ~~~ (bs.foldl (crcByte 64 0x42F0E1EBA9EA3693#64) 0xFFFFFFFFFFFFFFFF#64)

/-! ## The keyed generator of R84 -/

/-- mix of R84. -/
def mix (z : BitVec 64) : BitVec 64 :=
  let z := (z ^^^ (z >>> 32)) * 0xE7A53C914B6D28F3#64
  let z := (z ^^^ (z >>> 29)) * 0x8F1D64B3A92C57E1#64
  z ^^^ (z >>> 32)

/-- draw of R84. -/
def draw (seed : BitVec 64) (tag : Bool) (step : BitVec 32) (chunk : BitVec 22) (i : BitVec 12) : BitVec 64 :=
  let h := mix (seed ^^^ step.setWidth 64)
  mix (h ^^^ (if tag then 0x8000000000000000#64 else 0#64) ^^^ (chunk.setWidth 64 <<< 12) ^^^ i.setWidth 64)

/-- The check modulus p = 2^61 − 1 (R83). -/
def checkP : Nat := 2 ^ 61 - 1

/-- weight of R84, in [1, p − 1]. -/
def weight (seed : BitVec 64) (step : BitVec 32) (chunk : BitVec 22) (i : Nat) : Nat :=
  1 + (draw seed false step chunk (BitVec.ofNat 12 i)).toNat % (checkP - 1)

/-- The check of a vector from element index i on (R83, R84). -/
def checkFrom (seed : BitVec 64) (step : BitVec 32) (chunk : BitVec 22) : Nat → List Int → Nat
  | _, [] => 0
  | i, v :: vs =>
    (weight seed step chunk i * (v % (checkP : Int)).toNat + checkFrom seed step chunk (i + 1) vs) % checkP

/-- check of R84 over a whole chunk. -/
def checkSum (seed : BitVec 64) (step : BitVec 32) (chunk : BitVec 22) (vs : List Int) : Nat :=
  checkFrom seed step chunk 0 vs

/-! ## Symbol codes (R421 to R425) -/

/-- Multiplication by α = 0x02 in GF(2^8) with 0x11D. -/
def gfDouble (a : Byte) : Byte := if a.getLsbD 7 then (a <<< 1) ^^^ 0x1D#8 else a <<< 1

/-- Multiplication in GF(2^8) (R421). -/
def gfMul (a b : Byte) : Byte :=
  ((List.range 8).foldl (fun (p : Byte × Byte) k =>
    (if b.getLsbD k then p.1 ^^^ p.2 else p.1, gfDouble p.2)) (0#8, a)).1

/-- α^k. -/
def gfPow : Nat → Byte
  | 0 => 1#8
  | k + 1 => gfDouble (gfPow k)

/-- Multiply a generator polynomial, highest degree first, by (x + α^k). -/
def polyStep (g : List Byte) (k : Nat) : List Byte :=
  List.zipWith (· ^^^ ·) (g ++ [0#8]) (0#8 :: g.map (gfMul (gfPow k)))

/-- g(x) of a code with r check symbols, highest degree first, without its leading 1 (R421). -/
def rsGenerator (r : Nat) : List Byte := ((List.range r).foldl polyStep [1#8]).tail

/-- The check symbols of a systematic codeword: the remainder of the data times x^r by g(x), highest degree first
(R421). -/
def rsCheck (r : Nat) (data : List Byte) : List Byte :=
  let g := rsGenerator r
  data.foldl (fun rem d =>
    let f := d ^^^ rem.headD 0
    List.zipWith (· ^^^ ·) (rem.tail ++ [0#8]) (g.map (gfMul f))) (List.replicate r 0#8)

/-- Syndrome j: the codeword evaluated at α^j, byte 0 the highest coefficient. -/
def rsSyndrome (cw : List Byte) (j : Nat) : Byte :=
  cw.foldl (fun acc b => gfMul acc (gfPow j) ^^^ b) 0#8

/-- The outcome of decoding one codeword. -/
inductive RsOutcome where
  | clean
  | corrected (cw : List Byte)
  | uncorrectable
  deriving DecidableEq, Repr

/-- Decoding that corrects any one symbol (R422, R423): a nonzero syndrome pattern that one symbol in error explains
is that correction; every other nonzero pattern is uncorrectable. -/
def rsDecode (r : Nat) (cw : List Byte) : RsOutcome :=
  let syn := (List.range r).map (rsSyndrome cw)
  if syn.all (· == 0) then .clean
  else
    let e := syn.headD 0
    match (List.range cw.length).find? (fun i =>
        e != 0 && (List.range r).all fun j => nth syn j 0 == gfMul e (gfPow (j * (cw.length - 1 - i)))) with
    | some i => .corrected (cw.modify i (· ^^^ e))
    | none => .uncorrectable

/-- XOR error patterns into bytes. -/
def withErrors (bs : List Byte) (es : List (Nat × Byte)) : List Byte :=
  es.foldl (fun bs e => bs.modify e.1 (· ^^^ e.2)) bs

/-- What reading an RS(35,32) word with symbols in error gives: 32 data symbols and 3 check symbols, of which any one is
corrected (R18, R26, R422). The code is linear, so the errors alone decide it, as they do over the word of zeros. -/
def wordRead (e : List (Nat × Byte)) : RsOutcome := if e.isEmpty then .clean else rsDecode 3 (withErrors (List.replicate 35 0) e)

/-- A poisoned line's check symbols: symbols 0 and 1 inverted (R425). -/
def poisonCheck (chk : List Byte) : List Byte :=
  match chk with
  | a :: b :: t => ~~~ a :: ~~~ b :: t
  | t => t

/-- GROUP_TAG of R423. -/
def groupTag (s ch g : Nat) : BitVec 32 :=
  (mix (BitVec.ofNat 64 (s * 2 ^ 27) ^^^ BitVec.ofNat 64 (ch * 2 ^ 22) ^^^ BitVec.ofNat 64 g)).setWidth 32

/-! ## SHA3-512 (FIPS 202; assumption 2) -/

/-- The round constant bits of Keccak: the LFSR rc(t) with x^8 + x^6 + x^5 + x^4 + 1. -/
def keccakLfsr : Nat → BitVec 8
  | 0 => 1#8
  | t + 1 =>
    let r := keccakLfsr t
    if r.getLsbD 7 then (r <<< 1) ^^^ 0x71#8 else r <<< 1

/-- ι: the round constant of round i. -/
def keccakRc (i : Nat) : BitVec 64 :=
  (List.range 7).foldl (fun a j =>
    if (keccakLfsr (j + 7 * i)).getLsbD 0 then a ^^^ (1#64 <<< (2 ^ j - 1)) else a) 0#64

/-- ρ: the rotation of lane x + 5y. -/
def keccakRot : List Nat :=
  [0, 1, 62, 28, 27, 36, 44, 6, 55, 20, 3, 10, 43, 25, 39, 41, 45, 15, 21, 8, 18, 2, 61, 56, 14]

/-- Lane x, y of a 25-lane state, x + 5y. -/
def lane (a : List (BitVec 64)) (x y : Nat) : BitVec 64 := nth a (x % 5 + 5 * (y % 5)) 0

/-- One round of Keccak-f[1600]. -/
def keccakRound (a : List (BitVec 64)) (i : Nat) : List (BitVec 64) :=
  let c := (List.range 5).map fun x => lane a x 0 ^^^ lane a x 1 ^^^ lane a x 2 ^^^ lane a x 3 ^^^ lane a x 4
  let d := (List.range 5).map fun x => nth c ((x + 4) % 5) 0 ^^^ (nth c ((x + 1) % 5) 0).rotateLeft 1
  let t := (List.range 25).map fun k => nth a k 0 ^^^ nth d (k % 5) 0
  -- π: lane (x, y) of the result is lane ((x + 3y) mod 5, x) of the rotated state
  let b := (List.range 25).map fun k =>
    let x := k % 5
    let y := k / 5
    let src := (x + 3 * y) % 5 + 5 * x
    (nth t src 0).rotateLeft (nth keccakRot src 0)
  let e := (List.range 25).map fun k =>
    let x := k % 5
    let y := k / 5
    lane b x y ^^^ (~~~ (lane b (x + 1) y) &&& lane b (x + 2) y)
  e.modify 0 (· ^^^ keccakRc i)

/-- Keccak-f[1600]. -/
def keccakF (a : List (BitVec 64)) : List (BitVec 64) := (List.range 24).foldl keccakRound a

/-- XOR a 72-byte block into the state. -/
def keccakAbsorb (a : List (BitVec 64)) (blk : List Byte) : List (BitVec 64) :=
  keccakF ((List.range 25).map fun k =>
    if k < 9 then nth a k 0 ^^^ BitVec.ofNat 64 (leAt blk (8 * k) 8) else nth a k 0)

/-- The sponge over n whole blocks of 72 bytes. -/
def keccakBlocks : Nat → List Byte → List (BitVec 64) → List (BitVec 64)
  | 0, _, a => a
  | n + 1, bs, a => keccakBlocks n (bs.drop 72) (keccakAbsorb a (bs.take 72))

/-- SHA3-512: rate 72 bytes, domain bits 01, 64 bytes out. -/
def sha3 (m : List Byte) : List Byte :=
  let n := m.length / 72 + 1
  let padLen := n * 72 - m.length
  let p := if padLen = 1 then [0x86#8] else 0x06#8 :: zeros (padLen - 2) ++ [0x80#8]
  let a := keccakBlocks n (m ++ p) (List.replicate 25 0#64)
  ((List.range 8).map fun k => leBytes 8 (nth a k 0).toNat).flatten

end Sys2Proof.Machine
end

