-- ==== Sys2Proof/Machine/Arith.lean ====
section
/-! DEFINITION. Reduction arithmetic (spec/03_reduction_arithmetic.md): element formats, window integers, summing in
pieces, residues, scaling, rounding, output encoding and compact exact partials. -/
namespace Sys2Proof.Machine

open Sys2Proof

/-! ## Formats (R39, R65) -/

/-- The element formats of R39. -/
inductive Fmt where
  | e4m3 | e5m2 | mx8e4m3 | mx8e5m2 | mx6e3m2 | mx6e2m3 | mx4e2m1 | bf16 | fp16 | fp32 | fp64 | int8 | int32 | sign1
  deriving DecidableEq, Repr

/-- The format a code names; none for a reserved code (R39). -/
def fmtOf (code : Nat) : Option Fmt :=
  match code with
  | 0 => some .e4m3
  | 1 => some .e5m2
  | 2 => some .mx8e4m3
  | 3 => some .mx8e5m2
  | 4 => some .mx6e3m2
  | 5 => some .mx6e2m3
  | 6 => some .mx4e2m1
  | 7 => some .bf16
  | 8 => some .fp16
  | 9 => some .fp32
  | 10 => some .fp64
  | 11 => some .int8
  | 12 => some .int32
  | 13 => some .sign1
  | _ => none

/-- The code of a format (R39). -/
def Fmt.code : Fmt → Nat
  | .e4m3 => 0
  | .e5m2 => 1
  | .mx8e4m3 => 2
  | .mx8e5m2 => 3
  | .mx6e3m2 => 4
  | .mx6e2m3 => 5
  | .mx4e2m1 => 6
  | .bf16 => 7
  | .fp16 => 8
  | .fp32 => 9
  | .fp64 => 10
  | .int8 => 11
  | .int32 => 12
  | .sign1 => 13

/-- How a floating encoding marks its specials (R65). -/
inductive SpecialRule where
  | none       -- every encoding is finite
  | e4m3       -- only S.1111.111, a NaN
  | ieee       -- all-ones exponent: infinity or NaN
  deriving DecidableEq, Repr

/-- The parameters of a floating element encoding (R65). -/
structure FloatParams where
  expBits : Nat
  bias : Int
  m : Nat
  rule : SpecialRule
  deriving DecidableEq, Repr

/-- The parameters of R65; an integer format or the 1-bit format (whose scale is BF16) gets the BF16 row. -/
def floatParams : Fmt → FloatParams
  | .e4m3 | .mx8e4m3 => ⟨4, 7, 3, .e4m3⟩
  | .e5m2 | .mx8e5m2 => ⟨5, 15, 2, .ieee⟩
  | .mx6e3m2 => ⟨3, 3, 2, .none⟩
  | .mx6e2m3 => ⟨2, 1, 3, .none⟩
  | .mx4e2m1 => ⟨2, 1, 1, .none⟩
  | .bf16 | .sign1 | .int8 | .int32 => ⟨8, 127, 7, .ieee⟩
  | .fp16 => ⟨5, 15, 10, .ieee⟩
  | .fp32 => ⟨8, 127, 23, .ieee⟩
  | .fp64 => ⟨11, 1023, 52, .ieee⟩

/-- The smallest normal exponent (R65). -/
def FloatParams.emin (p : FloatParams) : Int := 1 - p.bias

/-- The bits of one encoding. -/
def FloatParams.bits (p : FloatParams) : Nat := 1 + p.expBits + p.m

/-- Is the format an integer format? -/
def Fmt.isInt : Fmt → Bool
  | .int8 | .int32 => true
  | _ => false

/-- Is the format a block format (R69)? -/
def Fmt.isBlock : Fmt → Bool
  | .mx8e4m3 | .mx8e5m2 | .mx6e3m2 | .mx6e2m3 | .mx4e2m1 | .sign1 => true
  | _ => false

/-- May the format be an output (R65)? -/
def Fmt.isOutput : Fmt → Bool
  | .mx6e3m2 | .mx6e2m3 | .mx4e2m1 | .sign1 => false
  | _ => true

/-- Element width in bytes of a scalar format (R68). -/
def Fmt.width : Fmt → Nat
  | .e4m3 | .e5m2 | .int8 => 1
  | .bf16 | .fp16 => 2
  | .fp32 | .int32 => 4
  | .fp64 => 8
  | _ => 1

/-- Record length in bytes of a block format (R69). -/
def Fmt.record : Fmt → Nat
  | .mx8e4m3 | .mx8e5m2 => 33
  | .mx6e3m2 | .mx6e2m3 => 25
  | .mx4e2m1 => 17
  | _ => 8

/-- Elements that n payload bytes can carry (R70). -/
def Fmt.capacity (f : Fmt) (n : Nat) : Nat := if f.isBlock then 32 * (n / f.record) else n / f.width

/-- Window pieces P of the input format (R75). -/
def Fmt.pieces : Fmt → Nat
  | .fp32 => 2
  | .fp64 => 3
  | _ => 1

/-- Fraction bits F of a window of P pieces (R75). -/
def fracBits (p : Nat) : Nat := 96 * p - 19

/-- Lane-cycles for n elements, in eighths (R80). -/
def Fmt.laneEighths : Fmt → Nat
  | .fp32 => 16
  | .fp64 => 24
  | .sign1 => 1
  | _ => 8

/-! ## Input elements -/

/-- A special state (R72). -/
inductive Special where
  | none | pinf | ninf | nan
  deriving DecidableEq, Repr

/-- The 2-bit code of R94. -/
def Special.code : Special → Nat
  | .none => 0
  | .pinf => 1
  | .ninf => 2
  | .nan => 3

/-- The special of a 2-bit code (R94). -/
def specialOf (n : Nat) : Special :=
  match n % 4 with
  | 0 => .none
  | 1 => .pinf
  | 2 => .ninf
  | _ => .nan

/-- Combination of special states (R72): order does not matter. -/
def Special.join : Special → Special → Special
  | .none, b => b
  | a, .none => a
  | .pinf, .pinf => .pinf
  | .ninf, .ninf => .ninf
  | _, _ => .nan

/-- A decoded input element: a finite x = (−1)^neg × sig × 2^t, `sub` where its encoding (or its scale) is
subnormal, or a special. -/
inductive Elem where
  | finite (neg : Bool) (sig : Nat) (t : Int) (sub : Bool)
  | special (s : Special)
  deriving DecidableEq, Repr

/-- Decode one floating encoding (R65, R66). -/
def decodeFloat (p : FloatParams) (n : Nat) : Elem :=
  let mant := n % 2 ^ p.m
  let e := (n / 2 ^ p.m) % 2 ^ p.expBits
  let neg := (n / 2 ^ (p.m + p.expBits)) % 2 == 1
  let allOnes := e == 2 ^ p.expBits - 1
  let fin := if e = 0 then Elem.finite neg mant (1 - p.bias - p.m) (mant != 0)
             else Elem.finite neg (2 ^ p.m + mant) (e - p.bias - p.m) false
  match p.rule with
  | .none => fin
  | .e4m3 => if allOnes && mant == 2 ^ p.m - 1 then .special .nan else fin
  | .ieee =>
    if allOnes then
      if mant = 0 then .special (if neg then .ninf else .pinf) else .special .nan
    else fin

/-- Decode one two's-complement integer element. -/
def decodeInt (bytes n : Nat) : Elem :=
  let v := toSigned (8 * bytes) n
  .finite (v < 0) v.natAbs 0 false

/-- Decode a scalar element (R68). -/
def decodeScalar (f : Fmt) (n : Nat) : Elem :=
  match f with
  | .int8 => decodeInt 1 n
  | .int32 => decodeInt 4 n
  | _ => decodeFloat (floatParams f) n

/-- The 32 elements of a block record (R66, R67, R69). -/
def decodeBlock (f : Fmt) (rec : List Byte) : List Elem :=
  match f with
  | .sign1 =>
    let signs := leAt rec 0 4
    let s := decodeFloat (floatParams .bf16) (leAt rec 4 2)
    (List.range 32).map fun i =>
      let b := signs.testBit i
      match s with
      | .finite neg sig t sub => .finite (neg != b) sig t sub
      | .special .pinf => .special (if b then .ninf else .pinf)
      | .special .ninf => .special (if b then .pinf else .ninf)
      | .special x => .special x
  | _ =>
    let p := floatParams f
    let x := leAt rec 0 1
    let bits := leAt rec 1 (f.record - 1)
    (List.range 32).map fun i =>
      if x = 255 then .special .nan
      else
        match decodeFloat p (bitsOf bits ((i + 1) * p.bits - 1) (i * p.bits)) with
        | .finite neg sig t sub => .finite neg sig (t + (x : Int) - 127) sub
        | e => e

/-- Cut a byte string into n pieces of w bytes. -/
def chunksB (w : Nat) : Nat → List Byte → List (List Byte)
  | 0, _ => []
  | n + 1, bs => bs.take w :: chunksB w n (bs.drop w)

/-- The elements a CONTRIB payload carries, at most n of them (R68 to R70). -/
def decodePayload (f : Fmt) (payload : List Byte) (n : Nat) : List Elem :=
  if f.isBlock then
    (((chunksB f.record (ceilDiv n 32) payload).map (decodeBlock f)).flatten).take n
  else (chunksB f.width n payload).map fun b => decodeScalar f (ofLe b)

/-- The element after the input flush of R77: (element, flushed?). -/
def flushIn (ftz : Bool) : Elem → Elem × Bool
  | .finite neg sig t sub => if ftz && sub then (.finite neg 0 t false, sig != 0) else (.finite neg sig t sub, false)
  | e => (e, false)

/-- The exponent that stands for no element at all (R76). -/
def noExp : Int := -32768

/-- floor(log2 |x|) of a finite non-zero element. -/
def elemExp : Elem → Option Int
  | .finite _ sig t _ => if sig = 0 then none else some ((bitlen sig : Int) - 1 + t)
  | .special _ => none

/-- MAX_EXP of a list of elements (R76). -/
def maxExpOf (es : List Elem) : Int := es.foldl (fun a e => match elemExp e with | some k => max a k | none => a) noExp

/-- to_window of R77. -/
def toWindow (neg : Bool) (sig : Nat) (t a : Int) (f : Nat) : Int :=
  let k := t + f - a
  if 0 ≤ k then
    let m : Int := ((sig * 2 ^ k.toNat : Nat) : Int)
    if neg then -m else m
  else
    let d := 2 ^ (-k).toNat
    let m := sig / d
    if neg then -((m : Int) + (if sig % d != 0 then 1 else 0)) else (m : Int)

/-- The window integer of an element; a special counts as 0 (R72). -/
def elemWindow (a : Int) (f : Nat) : Elem → Int
  | .finite neg sig t _ => toWindow neg sig t a f
  | .special _ => 0

/-- The special state an element brings (R72). -/
def elemSpecial : Elem → Special
  | .special s => s
  | .finite _ _ _ _ => .none

/-! ## Summing in pieces (R79, R81) -/

/-- The pieces of a window integer, piece 0 first. -/
def piecesOf (p : Nat) (v : Int) : List (BitVec 96) :=
  (List.range p).map fun k => BitVec.ofNat 96 (ofSigned (96 * p) v / 2 ^ (96 * k))

/-- P passes over the pieces with one carry bit between them; the last carry is discarded (R79). -/
def addPieces : List (BitVec 96) → List (BitVec 96) → Bool → List (BitVec 96)
  | a :: as, v :: vs, c =>
    let s := a.toNat + v.toNat + b2n c
    BitVec.ofNat 96 s :: addPieces as vs (decide (2 ^ 96 ≤ s))
  | _, _, _ => []

/-- The unsigned number that pieces hold, piece 0 lowest. -/
def piecesNat : List (BitVec 96) → Nat
  | [] => 0
  | a :: as => a.toNat + 2 ^ 96 * piecesNat as

/-- The two's-complement window that pieces hold (R79). -/
def piecesInt (as : List (BitVec 96)) : Int := toSigned (96 * as.length) (piecesNat as)

/-- The residue r of a 96-bit word: the sum of its six 16-bit digits modulo 65,535 (R81). -/
def residue (a : BitVec 96) : Nat :=
  sumN ((List.range 6).map fun k => (a.toNat / 2 ^ (16 * k)) % 2 ^ 16) % 65535

/-- The lane check of one piece addition (R81): r(result) ≡ r(acc) + r(piece) + c_in − c_out (mod 65,535). -/
def residueOk (acc piece result : BitVec 96) (cin cout : Bool) : Bool :=
  (residue result + b2n cout) % 65535 == (residue acc + residue piece + b2n cin) % 65535

/-- The lane checks of one element's P passes: each addition that `addPieces` makes is checked (R79, R81). -/
def piecesOk : List (BitVec 96) → List (BitVec 96) → Bool → Bool
  | a :: as, v :: vs, c =>
    let s := a.toNat + v.toNat + b2n c
    let out := decide (2 ^ 96 ≤ s)
    residueOk a v (BitVec.ofNat 96 s) c out && piecesOk as vs out
  | _, _, _ => true

/-! ## Scale and rounding (R85, R87, R88) -/

/-- k = ceil(log2 N) and M, SH of average mode; M and SH of the other modes (R85). -/
def scaleOf (mode n mant shift : Nat) : Nat × Nat :=
  match mode with
  | 1 =>
    let sh := 63 + ceilLog2 n
    (2 ^ sh / max n 1, sh)
  | 2 => (mant, shift)
  | _ => (2 ^ 63, 63)

/-- W = floor(S × M / 2^SH) (R85). -/
def scaleValue (s : Int) (m sh : Nat) : Int := (s * (m : Int)) / ((2 ^ sh : Nat) : Int)

/-- A rounded value (−1)^neg × q × 2^t. -/
structure Rounded where
  neg : Bool
  q : Nat
  t : Int
  deriving DecidableEq, Repr

/-- round_out of R87 with u = the weight of one window unit; `fmt` none for an integer output, else (m, emin). -/
def roundOut (w u : Int) (fmt : Option (Nat × Int)) (stoch : Bool) (r : Nat) : Rounded :=
  if w = 0 then ⟨false, 0, 0⟩
  else
    let mag := w.natAbs
    let t : Int :=
      match fmt with
      | none => 0
      | some (m, emin) => max ((bitlen mag : Int) - 1 + u) emin - m
    let d := t - u
    if d ≤ 0 then ⟨w < 0, mag * 2 ^ (-d).toNat, t⟩
    else
      let n := d.toNat
      let q := mag / 2 ^ n
      let rem := mag % 2 ^ n
      let up :=
        if stoch then
          let top := if 32 ≤ n then rem / 2 ^ (n - 32) else rem * 2 ^ (32 - n)
          decide (2 ^ 32 ≤ top + r)
        else decide (2 ^ (n - 1) < rem ∨ (rem = 2 ^ (n - 1) ∧ q % 2 = 1))
      ⟨w < 0, if up then q + 1 else q, t⟩

/-- r of R88: bits [63:32] of draw with tag 1. -/
def stochWord (seed : BitVec 64) (step : BitVec 32) (chunk : BitVec 22) (i : Nat) : Nat :=
  (draw seed true step chunk (BitVec.ofNat 12 i)).toNat / 2 ^ 32

/-! ## Output encoding (R73, R90 to R92) -/

/-- The encoding of a special result element of a scalar format (R73). -/
def encodeSpecial (f : Fmt) (s : Special) : Nat :=
  let p := floatParams f
  let signBit := 2 ^ (p.bits - 1)
  match f with
  | .int8 => match s with | .pinf => 127 | .ninf => 0x80 | _ => 0
  | .int32 => match s with | .pinf => 2 ^ 31 - 1 | .ninf => 2 ^ 31 | _ => 0
  | .e4m3 => match s with | .ninf => 0xFF | .none => 0 | _ => 0x7F
  | _ =>
    let inf := (2 ^ p.expBits - 1) * 2 ^ p.m
    match s with
    | .none => 0
    | .pinf => inf
    | .ninf => signBit + inf
    | .nan => inf + 2 ^ (p.m - 1)

/-- The largest finite magnitude's encoding (R65, R90). -/
def maxFinite (p : FloatParams) : Nat :=
  match p.rule with
  | .none => 2 ^ (p.expBits + p.m) - 1
  | .e4m3 => 2 ^ (p.expBits + p.m) - 2
  | .ieee => (2 ^ p.expBits - 1) * 2 ^ p.m - 1

/-- Encode a rounded magnitude q × 2^t; `sat` where a magnitude above the largest finite value saturates, infinity
otherwise (R87, R90). -/
def encodeFloat (p : FloatParams) (sat : Bool) (r : Rounded) : Nat :=
  let sign := if r.neg then 2 ^ (p.bits - 1) else 0
  let carry := r.q == 2 ^ (p.m + 1)
  let q := if carry then 2 ^ p.m else r.q
  let t := if carry then r.t + 1 else r.t
  if q < 2 ^ p.m then sign + q
  else
    let mag := (t + p.m + p.bias).toNat * 2 ^ p.m + (q - 2 ^ p.m)
    if maxFinite p < mag then sign + (if sat then maxFinite p else (2 ^ p.expBits - 1) * 2 ^ p.m)
    else sign + mag

/-- Is a rounded non-zero result below 2^emin (R91)? At the subnormal weight that is q < 2^m. -/
def belowNormal (p : FloatParams) (r : Rounded) : Bool := r.q != 0 && decide (r.q < 2 ^ p.m)

/-- Encode one scalar result element: (encoding, flushed under R91?). -/
def encodeScalar (f : Fmt) (ftzOut stoch : Bool) (rw : Nat) (a : Int) (fbits : Nat) (w : Int) : Nat × Bool :=
  let u := a - fbits
  match f with
  | .int8 =>
    let r := roundOut w u none stoch rw
    let v : Int := if r.neg then -((r.q : Int)) else r.q
    (ofSigned 8 (max (-128) (min 127 v)), false)
  | .int32 =>
    let r := roundOut w u none stoch rw
    let v : Int := if r.neg then -((r.q : Int)) else r.q
    (ofSigned 32 (max (-((2 ^ 31 : Nat) : Int)) (min ((2 ^ 31 - 1 : Nat) : Int) v)), false)
  | _ =>
    let p := floatParams f
    let r := roundOut w u (some (p.m, p.emin)) stoch rw
    if ftzOut && belowNormal p r then (encodeFloat p false { r with q := 0 }, true)
    else (encodeFloat p (decide (f = .e4m3)) r, false)

/-- The result elements of a chunk: W and the special state, the element index in the chunk. -/
structure OutElem where
  w : Int
  sp : Special
  i : Nat
  deriving DecidableEq, Repr

/-- The scale X of an MXFP8 output block (R92). -/
def mxScale (f : Fmt) (u : Int) (blk : List OutElem) : Nat :=
  if blk.any fun e => e.sp != .none then 255
  else
    match (blk.filterMap fun e => if e.w = 0 then none else some ((bitlen e.w.natAbs : Int) - 1 + u)) with
    | [] => 0
    | e :: es =>
      let emax : Int := if f = .mx8e5m2 then 15 else 8
      (max 0 (min 254 (maxI e es - emax + 127))).toNat

/-- One MXFP8 output record: (33 bytes, which elements were flushed) (R91, R92). -/
def encodeMxBlock (f : Fmt) (ftzOut stoch : Bool) (rw : Nat → Nat) (a : Int) (fbits : Nat) (blk : List OutElem) :
    List Byte × List Bool :=
  let p := floatParams f
  let u := a - fbits
  let x := mxScale f u blk
  if x = 255 then (0xFF#8 :: zeros 32, blk.map fun _ => false)
  else
    let es := blk.map fun e =>
      let r := roundOut e.w (u - ((x : Int) - 127)) (some (p.m, p.emin)) stoch (rw e.i)
      if ftzOut && belowNormal p r then (encodeFloat p true { r with q := 0 }, true) else (encodeFloat p true r, false)
    (BitVec.ofNat 8 x :: sliceB (es.map fun e => BitVec.ofNat 8 e.1) 0 32, es.map (·.2))

/-- Cut a list into n pieces of w elements. -/
def chunksOf {α : Type} (w : Nat) : Nat → List α → List (List α)
  | 0, _ => []
  | n + 1, xs => xs.take w :: chunksOf w n (xs.drop w)

/-- The encoded units of a result in order (an element of a scalar format, a record of an MX format), and which
elements were flushed on output (R71, R87 to R92). `rw i` is r of R88 for element i. -/
def encodeResult (f : Fmt) (ftzOut stoch : Bool) (rw : Nat → Nat) (a : Int) (fbits : Nat) (es : List OutElem) :
    List (List Byte) × List Bool :=
  if f.isBlock then
    let bs := (chunksOf 32 (ceilDiv es.length 32) es).map (encodeMxBlock f ftzOut stoch rw a fbits)
    (bs.map Prod.fst, (bs.map Prod.snd).flatten)
  else
    let xs := es.map fun e =>
      if e.sp != .none then (encodeSpecial f e.sp, false) else encodeScalar f ftzOut stoch (rw e.i) a fbits e.w
    (xs.map fun x => leBytes f.width x.1, xs.map (·.2))

/-! ## Compact exact partials (R94, R95) -/

/-- Does v fit an n-bit two's-complement integer? -/
def fitsSigned (n : Nat) (v : Int) : Bool :=
  decide (-((2 ^ (n - 1) : Nat) : Int) ≤ v) && decide (v < ((2 ^ (n - 1) : Nat) : Int))

/-- The smallest LEN at which every element fits (R94). -/
def compactLen (p : Nat) (vs : List Int) : Nat :=
  if vs.all (· == 0) then 127
  else ((List.range 96).find? fun len => vs.all (fitsSigned ((len + 1) * p))).getD 95

/-- Pack integers of n bits, element 0 lowest (R69). -/
def packLow (n : Nat) : List Nat → Nat
  | [] => 0
  | v :: vs => v % 2 ^ n + 2 ^ n * packLow n vs

/-- One block of a compact exact partial (R94). -/
def compactBlock (p : Nat) (vs : List Int) (sps : List Special) : List Byte :=
  let vs := (vs ++ List.replicate (32 - vs.length) 0).take 32
  let len := compactLen p vs
  let special := sps.any (· != .none)
  let n := (len + 1) * p
  [BitVec.ofNat 8 (len + if special then 128 else 0)]
    ++ (if special then leBytes 8 (packLow 2 (sps.map Special.code)) else [])
    ++ (if len = 127 then [] else leBytes (4 * n) (packLow n (vs.map (ofSigned n))))

/-- A decoded block: elements, specials, the rest of the payload; none where it is malformed (R95). -/
def parseCompactBlock (p : Nat) (bs : List Byte) : Option (List Int × List Special × List Byte) :=
  match bs with
  | [] => none
  | b :: t =>
    let len := b.toNat % 128
    let special := 128 ≤ b.toNat
    if 96 ≤ len ∧ len < 127 then none
    else
      let n := (len + 1) * p
      let need := (if special then 8 else 0) + (if len = 127 then 0 else 4 * n)
      if t.length < need then none
      else
        let map := if special then leAt t 0 8 else 0
        let t' := if special then t.drop 8 else t
        let bits := if len = 127 then 0 else leAt t' 0 (4 * n)
        some ((List.range 32).map (fun i => if len = 127 then 0 else toSigned n (bits / 2 ^ (n * i))),
          (List.range 32).map (fun i => specialOf (map / 4 ^ i)),
          if len = 127 then t' else t'.drop (4 * n))

/-- All blocks of a PARTIAL payload, up to the padding; none where the frame is malformed under R95: it ends inside a
block, holds a reserved LEN, or holds more than `room` blocks. -/
def parseCompact (p : Nat) : Nat → List Byte → Option (List Int × List Special)
  | 0, bs => if allZero bs then some ([], []) else none
  | room + 1, bs =>
    if allZero bs then some ([], [])
    else
      match parseCompactBlock p bs with
      | none => none
      | some (vs, sps, rest) =>
        match parseCompact p room rest with
        | none => none
        | some (vs', sps') => some (vs ++ vs', sps ++ sps')

/-- Group encoded units into frames of at most 4,096 payload bytes: (first unit index, units) of each (R70, R95).
`go` carries the units of the frame being filled. -/
def packFrames (units : List (List Byte)) : List (Nat × List Byte) :=
  let rec go (start n len : Nat) (acc : List (List Byte)) : List (List Byte) → List (Nat × List Byte)
    | [] => if n = 0 then [] else [(start, padTo 8 acc.reverse.flatten)]
    | u :: us =>
      if len + u.length ≤ 4096 then go start (n + 1) (len + u.length) (u :: acc) us
      else (start, padTo 8 acc.reverse.flatten) :: go (start + n) 1 u.length [u] us
  go 0 0 0 [] units

end Sys2Proof.Machine
end

