-- ==== Sys2Proof/Machine/CtrlTypes.lean ====
section
/-! DEFINITION. The plain-data shapes of the control half: the companion link, the host interface, clocks, power, boot
and memory stacks (spec/17 and 19 to 24). -/
namespace Sys2Proof.Machine

open Sys2Proof

/-! ## Memory (R419 to R441) -/

/-- The memory stacks: the lines that are poisoned (R425) and those found uncorrectable, by line number MA / 64; the groups
whose stored tag is wrong (R424), as (stack, channel, group); how many lines the patrol has read in its pass and the
refresh rate by stack (R434, R435); ADDR_HIGH words not yet latched (R561); the check lines that the channels' caches hold, as
(stack, channel, group, written to), the latest used first (R427). -/
structure MemSt where
  poisoned : List Nat
  damaged : List Nat
  tagBad : List (Nat × Nat × Nat)
  scrubbed : List (Nat × Nat)
  refresh : List (Nat × Nat)
  addrHigh : List (Nat × Word)
  checkCache : List (Nat × Nat × Nat × Bool)
  deriving DecidableEq, Repr

/-! ## The companion link and the host interface (R521 to R546) -/

/-- A message of the switch toward the companion (R530, R533, R534, R546). -/
inductive DclMsg where
  | data (tag : BitVec 12) (grant : Nat) (status : Nat) (poison : Bool) (line : List Byte)
  | cmp (tag : BitVec 12) (status : Nat)
  | regData (tag : BitVec 12) (status : Nat) (value : Word)
  | snpInv (tag : BitVec 12) (line : Nat)
  | snpShare (tag : BitVec 12) (line : Nat)
  | intr (value : Nat)
  deriving DecidableEq, Repr

/-- The credit classes of R530. -/
inductive DclClass where
  | req | rsp | snp
  deriving DecidableEq, Repr

/-- Class of a message of the switch. -/
def DclMsg.cls : DclMsg → DclClass
  | .data .. | .cmp .. | .regData .. => .rsp
  | .snpInv .. | .snpShare .. => .snp
  | .intr .. => .req

/-- Slots of a message of the switch (R530). -/
def DclMsg.slots : DclMsg → Nat
  | .data .. => 5
  | _ => 1

/-- A snoop in flight: its line, what it asks, and whether SNP_ACK came for a line recorded as modified, whose WRITEBACK
or EVICT is awaited (R534). -/
structure Snoop where
  tag : BitVec 12
  line : Nat
  inv : Bool
  acked : Bool
  deriving DecidableEq, Repr

/-- Where the command ring stands (R542). -/
inductive CmdPhase where
  | idle        -- nothing to take, or no room in the reply ring
  | producer    -- PRODUCER is being read
  | entry       -- the next entry is being read
  | taken       -- an entry has been taken and is to be carried out
  | unloading   -- an UNLOAD waits for its contexts (R240)
  deriving DecidableEq, Repr

/-- The link and the host interface. -/
structure HostSt where
  /-- Messages that wait for credit, and PAYLOAD flits that wait for their acknowledgement (R526, R531). -/
  queue : List DclMsg
  replay : List (Nat × DclMsg)
  nextSeq : Nat
  rxSeq : Nat
  creditReq : Nat
  creditRsp : Nat
  creditSnp : Nat
  /-- Credit that the next flits give back to the companion (R526, R531). -/
  owedReq : Nat
  owedRsp : Nat
  /-- The scrambler that every lane's bytes go through, and the last flit sent, as its lanes carried it (R524). -/
  scrambler : BitVec 31
  lanes : List (List Byte)
  /-- NAKs sent for the flit that is awaited (R527), and the times of failed retrains (R522). -/
  naks : Nat
  failedRetrains : List Nat
  /-- The snoop filter, least recently granted first: (line, granted modified) (R536). -/
  filter : List (Nat × Bool)
  snoops : List Snoop
  nextSnoop : BitVec 12
  /-- Requests that wait for the snoop of a line (R532, R533). -/
  waiting : List (Nat × Instr)
  intrHold : List Nat
  intrDeferred : List Nat
  phase : CmdPhase
  /-- PRODUCER of ring 0 as last read, and the entry taken. -/
  produced : Nat
  cmd : List Byte
  /-- The image that LANDING_WRITE parts are being written to (R544): job, owner generation, slot, bytes written. -/
  landing : Option (BitVec 12 × BitVec 4 × Nat × Nat)
  deriving DecidableEq, Repr

/-- Credit of a class. -/
def HostSt.credit (h : HostSt) : DclClass → Nat
  | .req => h.creditReq
  | .rsp => h.creditRsp
  | .snp => h.creditSnp

/-- Use credit of a class. -/
def HostSt.spend (h : HostSt) (c : DclClass) (n : Nat) : HostSt :=
  match c with
  | .req => { h with creditReq := h.creditReq - n }
  | .rsp => { h with creditRsp := h.creditRsp - n }
  | .snp => { h with creditSnp := h.creditSnp - n }

/-- Send what credit and the replay buffer allow, each message in a PAYLOAD flit, in order within its class (R526,
R531). -/
def HostSt.pump (h : HostSt) : HostSt :=
  h.queue.foldl (fun (h : HostSt) m =>
    if m.slots ≤ h.credit m.cls ∧ h.replay.length < 512 ∧ !(h.queue.any fun x => x.cls = m.cls) then
      { h.spend m.cls m.slots with replay := h.replay ++ [(h.nextSeq, m)], nextSeq := (h.nextSeq + 1) % 1024 }
    else { h with queue := h.queue ++ [m] }) { h with queue := [] }

/-! ## Power (R461 to R496, R570 to R582) -/

/-- How the last access of a master without messages was answered (R556, R558): bus error or ERROR status, and the value read. -/
structure BusAnswer where
  error : Bool
  value : Word
  deriving DecidableEq, Repr

/-- The lands in boundary scan: every low-speed land of the A1 corner (R566, R567, R586). -/
inductive ScanLand where
  | sagN | keepRstN | corePwrEn | pwrgd | thermtripN | smbScl | smbSda | smbAlertN | smbAddr0 | smbAddr1
  | spiCsN | spiClk | spiIo (k : Fin 4) | tck | tms | tdi | trstN | tdo
  deriving DecidableEq, Repr

/-- Their cells in the boundary-scan register. -/
def scanLands : List ScanLand :=
  [.sagN, .keepRstN, .corePwrEn, .pwrgd, .thermtripN, .smbScl, .smbSda, .smbAlertN, .smbAddr0, .smbAddr1, .spiCsN, .spiClk,
   .spiIo 0, .spiIo 1, .spiIo 2, .spiIo 3, .tck, .tms, .tdi, .trstN, .tdo]

/-- Levels of the pins of the keep: true is high. SMB_ALERT_N follows from the state (R548). -/
structure Pins where
  corePwrEn : Bool
  pwrgd : Bool
  sagN : Bool
  thermtripN : Bool
  deriving DecidableEq, Repr

/-- A change of power state that runs (R479, R486): an entry to TARGET (its phase stands in PWR_STATUS), an exit from DOZE
or from KEEP. -/
inductive PwrChange where
  | enter (target : Nat)
  | leaveDoze
  | leaveKeep
  deriving DecidableEq, Repr

/-- What a running sag save holds in control-die SRAM (R491): the sections still to be written, each (TYPE, body), and a
cold reset that waits for its end (R574). -/
structure SagSave where
  sections : List (Nat × List Byte)
  reset : Option (BitVec 2)
  deriving DecidableEq, Repr

/-- Power, clocks and resets. -/
structure PowerSt where
  pins : Pins
  /-- Is the control die powered and out of reset, and does the management core run the control firmware? -/
  core : Bool
  fw : Bool
  /-- Has the boot ROM been reached, with no boot started yet (R570)? -/
  rom : Bool
  /-- Fabric dies and lane groups that are powered and released (R487, R488). -/
  dies : List Nat
  groups : List Nat
  /-- Fabric dies whose core clock DOZE has gated (R477). -/
  dozing : List Nat
  /-- Units still to be released, in order. -/
  release : List PowerUnit
  change : Option PwrChange
  /-- An SMBus address match came after the commit point (R481). -/
  matched : Bool
  saveArea : List Byte
  sagArea : List Byte
  sag : Option SagSave
  /-- A sag save has run since the last start: the next start has START_CAUSE 2 (R493). -/
  afterSag : Bool
  /-- The keep holds every other domain until SAG_N has been high for 10 ms (R493, R572). -/
  sagHold : Bool
  /-- Fabric dies reset since HALT was applied (R452, R554). -/
  haltReset : List Nat
  /-- Are REFCLK edges present (R467, R472)? -/
  refEdges : Bool
  /-- The watchdog has been serviced since its last expiry (R460). -/
  serviced : Bool
  /-- Bridges between fabric dies that have failed, as (lower die, higher die): they retrain only after a reset of a die they
  join (R18, R444). -/
  deadBridges : List (Nat × Nat)
  /-- A full sweep waits for the control firmware to restart (R460). -/
  sweepWanted : Bool
  /-- The boundary-scan register, a cell for each land of `scanLands`; no command of the table shifts it (R586; log entry 107). -/
  scan : List Bool
  /-- What the TAP and the management core were last answered (R556, R558). -/
  tap : BusAnswer
  coreBus : BusAnswer
  deriving DecidableEq, Repr

/-! ## Flash, boot and identity (R497 to R520, R547) -/

/-- The configuration flash: its SFDP parameters, and its bytes where they differ from erased ones (R497). -/
structure FlashSt where
  sfdp : Bool
  bytes : Nat
  sector : Nat
  page : Nat
  data : List Host.Cell
  deriving DecidableEq, Repr

/-- What a copy of the boot store holds before its CRC (R505); a slot is 1 for A, 2 for B, 0 for none. -/
structure BootStore where
  writeCount : Nat
  ownerKeyHash : List Byte
  svFloor : Nat
  configFloor : Nat
  bootNext : Nat
  lastGood : Nat
  deriving DecidableEq, Repr

/-- A copy of the boot store with its CRC-64 (R505). -/
structure BootCopy where
  fields : BootStore
  crc : BitVec 64
  deriving DecidableEq, Repr

/-- The boot unit: the slot chosen at step 4, the slot being read, whether the other has been tried, the slot that
started, the factory record, the report window, whether the PUF is powered down for another reading, and the two copies of the
boot store. -/
structure BootSt where
  chosen : Nat
  slot : Nat
  second : Bool
  pufWait : Bool
  started : Option Nat
  factory : List Byte
  report : List Byte
  copyA : BootCopy
  copyB : BootCopy
  deriving DecidableEq, Repr

/-- A flash command that waits or runs (R516, R547). -/
inductive SpiOp where
  | erase (off len : Nat)
  | program (off len : Nat)
  | read (off len : Nat)
  deriving DecidableEq, Repr

/-- The update unit: its buffer, and the flash commands in order of arrival. -/
structure UpdSt where
  buf : List Host.Cell
  ops : List SpiOp
  deriving DecidableEq, Repr

/-- The SMBus port: the management address, the fetched value, and whether a fetch is on its way. -/
structure SmbSt where
  addr : Word
  value : Word
  fetching : Bool
  deriving DecidableEq, Repr

end Sys2Proof.Machine
end

