-- ==== Sys2Proof/Machine/Flits.lean ====
section
/-! DEFINITION. The bytes of the companion link: message slots, flits with their CRC and check symbols, and their way over
scrambled lanes (spec/22_companion_link.md R524, R525, R529; log entry 106). -/
namespace Sys2Proof.Machine

open Sys2Proof

/-! ## Slots (R529, R530) -/

/-- A header slot: OPCODE, TAG, POISON, STATUS, GRANT, ADDR and VALUE, least significant byte first. SPACE of what the switch
sends is 0, and the fields a message does not use are 0 (log entry 106). -/
def slotHeader (opcode tag poison status grant addr value : Nat) : List Byte :=
  leBytes 16 (opcode + tag * 2 ^ 8 + poison * 2 ^ 22 + status * 2 ^ 23 + grant * 2 ^ 26 + addr * 2 ^ 32 + value * 2 ^ 72)

/-- The slots of a message of the switch. -/
def DclMsg.bytes : DclMsg → List Byte
  | .data tag grant status poison line =>
    slotHeader 0x20 tag.toNat (b2n poison) status grant 0 0 ++ sliceB line 0 64
  | .cmp tag status => slotHeader 0x21 tag.toNat 0 status 0 0 0
  | .regData tag status value => slotHeader 0x22 tag.toNat 0 status 0 0 value.toNat
  | .snpInv tag line => slotHeader 0x40 tag.toNat 0 0 0 (line % 2 ^ 40) 0
  | .snpShare tag line => slotHeader 0x41 tag.toNat 0 0 0 (line % 2 ^ 40) 0
  | .intr value => slotHeader 0x0C 0 0 0 0 0 (value % 2 ^ 32)

/-! ## Flits (R525) -/

/-- What the header of a flit says. -/
structure FlitHdr where
  type : Nat
  seq : Nat
  ack : Nat
  req : Nat
  rsp : Nat
  snp : Nat
  deriving DecidableEq, Repr

/-- The 8 header bytes. -/
def FlitHdr.bytes (h : FlitHdr) : List Byte :=
  leBytes 8 (h.type + h.seq * 2 ^ 4 + h.ack * 2 ^ 14 + h.req * 2 ^ 24 + h.rsp * 2 ^ 34 + h.snp * 2 ^ 44)

/-- The data of codeword j: flit bytes 4i + j for i in 0 to 59. -/
def flitWord (bs : List Byte) (j : Nat) : List Byte := (List.range 60).map fun i => nth bs (4 * i + j) 0

/-- The 256 bytes of a flit: header, 14 slots, CRC-64, and the check symbols of four codewords. -/
def flitBytes (h : FlitHdr) (slots : List Byte) : List Byte :=
  let covered := h.bytes ++ sliceB slots 0 224
  let data := covered ++ leBytes 8 (crc64 covered).toNat
  data ++ ((List.range 4).map fun j => rsCheck 4 (flitWord data j)).flatten

/-! ## Lanes and their scramblers (R524) -/

/-- One bit of PRBS31, x^31 + x^28 + 1: the bit it gives, and the register after it. -/
def prbs31 (r : BitVec 31) : Bool × BitVec 31 :=
  let b := r.getLsbD 30 != r.getLsbD 27
  (b, (r <<< 1) ||| (if b then 1#31 else 0#31))

/-- A byte of the scrambler, its first bit against bit 0. -/
def prbsByte (r : BitVec 31) : Byte × BitVec 31 :=
  (List.range 8).foldl (fun (x : Byte × BitVec 31) k =>
    let (b, r) := prbs31 x.2
    (if b then x.1 ||| (1#8 <<< k) else x.1, r)) (0#8, r)

/-- Scramble the bytes of a lane. -/
def scramble : BitVec 31 → List Byte → List Byte × BitVec 31
  | r, [] => ([], r)
  | r, b :: bs =>
    let (x, r) := prbsByte r
    let (ys, r) := scramble r bs
    ((b ^^^ x) :: ys, r)

/-- The bytes of a flit that lane l of W carries: those at l, l + W, l + 2W, ... -/
def laneBytes (w l : Nat) (flit : List Byte) : List Byte :=
  (List.range (flit.length / w)).map fun i => nth flit (i * w + l) 0

/-- A flit goes out over W lanes. Every lane's scrambler was seeded alike and has advanced as far, so one register serves all. -/
def HostSt.sendFlit (h : HostSt) (w : Nat) (type seq : Nat) (slots : List Byte) : HostSt :=
  let req := min 1023 h.owedReq
  let rsp := min 1023 h.owedRsp
  let flit := flitBytes ⟨type, seq, h.rxSeq, req, rsp, 0⟩ slots
  { h with
    lanes := (List.range w).map fun l => (scramble h.scrambler (laneBytes w l flit)).1
    scrambler := (scramble h.scrambler (laneBytes w 0 flit)).2
    owedReq := h.owedReq - req
    owedRsp := h.owedRsp - rsp }

/-- Send PAYLOAD flits of the replay buffer in order. -/
def HostSt.sendFlits (h : HostSt) (w : Nat) (xs : List (Nat × DclMsg)) : HostSt :=
  xs.foldl (fun h x => h.sendFlit w 1 x.1 x.2.bytes) h

/-- Send what may be sent, in new PAYLOAD flits. -/
def HostSt.pumpOut (h : HostSt) (w : Nat) : HostSt :=
  let g := h.pump
  g.sendFlits w (g.replay.drop h.replay.length)

/-- The companion has sent a message of so many slots; the switch takes it off its input and owes the credit (R526, R532). -/
def HostSt.took (h : HostSt) (c : DclClass) (n : Nat) : HostSt :=
  match c with
  | .req => { h with owedReq := h.owedReq + n }
  | .rsp => { h with owedRsp := h.owedRsp + n }
  | .snp => h

end Sys2Proof.Machine
end

