-- ==== Sys2Proof/Machine/RegTable.lean ====
section
/-! DEFINITION. The register map (spec/23_register_map.md R550 to R553 and the register table of every chapter): each
register's place, its instances, its reset domain, its reset value and its fields with their access types. -/
namespace Sys2Proof.Machine

open Sys2Proof

/-- The registers of the index, by name. Instances are counted from 0. -/
inductive RegName where
  | DEVICE_ID | BRIDGE_STATUS | TFP_PORT_STATUS | TFP_DISCARD_COUNT | ARITH_EVENTS | ARITH_FLUSHES
  | RESIDUE_STATUS | MILL_ENABLE | MILL_OCCUPANCY | MILL_CONTEXTS | MILL_DISCARDS | POOL_RETRY_HINT
  | CHECK_EVENTS | SUPERSEDE_EVENTS | LEDGER_CONTROL | LEDGER_SIGN_STEP | LEDGER_STATUS | THIN_ACTIVE
  | ERROR_MEM_ALLOT | COMPRESS_EVENTS | COMPRESS_WAITS | SPIRE_RECORDS | SPIRE_EVENTS | DISPATCH_EVENTS
  | DISPATCH_CLOSES | VC_WEIGHTS_LOW | VC_WEIGHTS_HIGH | ADMIT_STATUS | ADMIT_LAST_REFUSAL | ADMIT_COUNTS
  | TALLY_EVENTS | FT_NOW_LOW | FT_NOW_HIGH | TIME_STATUS | TIME_CONTROL | BELL_EVENTS | LINK_ASYM
  | SWITCH_POSITION | ROUTE_CONTROL | EPOCH_STATE | EPOCH_NUMBER | ROUTE_DISCARDS | EPOCH_DISCARDS
  | CELL_POOL_FREE | CELL_POOL_EVENTS | TAIL_EVENTS | REFCOUNT_STATUS | HEADROOM_EVENTS | PORT_BUFFER
  | METRO_EXT | POOL_STATUS | POOL_EVENTS | SAMPLE_CONTROL | SAMPLE_PORTS_LOW | SAMPLE_PORTS_HIGH
  | SAMPLE_EVENTS | POLICE_EVENTS | SHAPER_STATUS | GATE_CONTROL | GATE_SWITCH_LOW | GATE_SWITCH_HIGH
  | CRUISE_STATUS | CRUISE_CONTROL | CRUISE_EVENTS | CRUISE_DISCARDS | PORT_CRUISE | PORT_PEER | PORT_PEER_FW
  | SURVIVAL_EVENTS | FENCE_REQUEST_JOB | FENCE_REQUEST_RANK | SAVE_STATUS | LANDING_EVENTS | REPEAT_STATUS
  | LANE_CONFIG | LANE_STATUS | LANE_PRBS | PRBS_ERRORS | FEC_COUNTS | PORT_LINK | PORT_LINK_CONTROL
  | MEM_STATUS | MEM_ERRORS | MEM_ERR_ADDR_LOW | MEM_ERR_ADDR_HIGH | SCRUB_CONTROL | PART_BASE | PART_SIZE
  | PART_RESERVED | PART_ALLOT | WT_STATUS | WT_COUNTS | RETIRE | FORCE_SOURCE | FORCE | KIND_PENDING
  | GATED_ACCESS | GATED_ADDR | FR_WRITE_SEQ | FR_COPY_SEQ | REACTION | WDT_CONTROL | CLOCK_STATUS
  | CLOCK_GATE_CD | ISLAND_CLOCK | DOMAIN_RESET | THERMAL_CONTROL | PWR_COMMAND | PWR_STATUS | PWR_EVENTS
  | PWR_LAST_REFUSER | PWR_LAST_ABORTER | SAG_STATUS | BOOT_STATUS | BOOT_CONTROL | BOOT_FLOORS
  | ATTEST_STATUS | ATTEST_NONCE | MEAS_DIGEST | DCL_STATUS | DCL_COUNTS | DCL_CONTROL | HOST_STATUS
  | HOST_DOORBELL | HOST_INT_STATUS | HOST_INT_ENABLE | HOST_INT_CONTROL | UPD_CONTROL | UPD_OFFSET
  | UPD_STATUS | SMB_CONFIG | SMB_STATUS | BUS_ERRORS | BUS_ERROR_ADDR
  deriving DecidableEq, Repr

/-- Access types (00_scope, Register tables). -/
inductive RegAcc where
  | rw | ro | w1c | wo | rws
  deriving DecidableEq, Repr

/-- Reset domains (R553). -/
inductive RegDomain where
  | powerOn | keep | controlDie | fabricDie | laneChiplet
  deriving DecidableEq, Repr

/-- One field: bits [hi:lo], access; reserved fields read as zero and ignore writes (R9). -/
structure RegField where
  hi : Nat
  lo : Nat
  acc : RegAcc
  deriving DecidableEq, Repr

/-- One register: instance i lies at base + (i / grp) × s1 + (i mod grp) × s2. -/
structure RegRow where
  base : Nat
  grp : Nat
  s1 : Nat
  s2 : Nat
  count : Nat
  domain : RegDomain
  reset : Nat
  fields : List RegField
  deriving DecidableEq, Repr

/-- A named field of a register. -/
structure Fld where
  reg : RegName
  hi : Nat
  lo : Nat
  deriving DecidableEq, Repr

/-- Bits of a field. -/
def Fld.width (f : Fld) : Nat := f.hi + 1 - f.lo

/-- DEVICE_ID (after R5 of 00_scope.md). -/
def row_DEVICE_ID : RegRow :=
  ⟨0x0, 1, 0x0, 0x0, 1, .powerOn, 0x20480010,
    [⟨31, 16, .ro⟩, ⟨11, 8, .ro⟩, ⟨7, 4, .ro⟩, ⟨3, 0, .ro⟩]⟩
/-- BRIDGE_STATUS (after R19 of 01_architecture.md). -/
def row_BRIDGE_STATUS : RegRow :=
  ⟨0x10000100, 1, 0x4000000, 0x0, 4, .fabricDie, 0x0,
    [⟨15, 8, .ro⟩, ⟨7, 4, .w1c⟩, ⟨3, 0, .ro⟩]⟩
/-- TFP_PORT_STATUS (after R64 of 02_fabric_frames.md). -/
def row_TFP_PORT_STATUS : RegRow :=
  ⟨0x20004000, 32, 0x100000, 0x40, 1024, .laneChiplet, 0x0,
    [⟨31, 28, .ro⟩, ⟨27, 24, .ro⟩, ⟨23, 20, .ro⟩, ⟨19, 18, .ro⟩, ⟨1, 1, .w1c⟩, ⟨0, 0, .w1c⟩]⟩
/-- TFP_DISCARD_COUNT (after R64 of 02_fabric_frames.md). -/
def row_TFP_DISCARD_COUNT : RegRow :=
  ⟨0x20004004, 32, 0x100000, 0x40, 1024, .laneChiplet, 0x0,
    [⟨31, 16, .rw⟩, ⟨15, 0, .rw⟩]⟩
/-- ARITH_EVENTS (after R100 of 03_reduction_arithmetic.md). -/
def row_ARITH_EVENTS : RegRow :=
  ⟨0x11000800, 32, 0x4000000, 0x10000, 128, .fabricDie, 0x0,
    [⟨31, 16, .rw⟩, ⟨15, 0, .rw⟩]⟩
/-- ARITH_FLUSHES (after R100 of 03_reduction_arithmetic.md). -/
def row_ARITH_FLUSHES : RegRow :=
  ⟨0x11000804, 32, 0x4000000, 0x10000, 128, .fabricDie, 0x0,
    [⟨31, 16, .rw⟩, ⟨15, 0, .rw⟩]⟩
/-- RESIDUE_STATUS (after R100 of 03_reduction_arithmetic.md). -/
def row_RESIDUE_STATUS : RegRow :=
  ⟨0x11000808, 32, 0x4000000, 0x10000, 128, .fabricDie, 0x0,
    [⟨31, 31, .w1c⟩, ⟨30, 24, .ro⟩, ⟨15, 0, .rw⟩]⟩
/-- MILL_ENABLE (after R101 of 04_reduction_contexts.md). -/
def row_MILL_ENABLE : RegRow :=
  ⟨0x10000200, 1, 0x4000000, 0x0, 4, .powerOn, 0xFFFFFFFF,
    [⟨31, 0, .ro⟩]⟩
/-- MILL_OCCUPANCY (after R136 of 04_reduction_contexts.md). -/
def row_MILL_OCCUPANCY : RegRow :=
  ⟨0x11000810, 32, 0x4000000, 0x10000, 128, .fabricDie, 0x0,
    [⟨31, 18, .ro⟩, ⟨10, 0, .ro⟩]⟩
/-- MILL_CONTEXTS (after R136 of 04_reduction_contexts.md). -/
def row_MILL_CONTEXTS : RegRow :=
  ⟨0x11000814, 32, 0x4000000, 0x10000, 128, .fabricDie, 0x0,
    [⟨31, 16, .ro⟩, ⟨15, 0, .rw⟩]⟩
/-- MILL_DISCARDS (after R136 of 04_reduction_contexts.md). -/
def row_MILL_DISCARDS : RegRow :=
  ⟨0x11000818, 32, 0x4000000, 0x10000, 128, .fabricDie, 0x0,
    [⟨31, 16, .rw⟩, ⟨15, 0, .rw⟩]⟩
/-- POOL_RETRY_HINT (after R136 of 04_reduction_contexts.md). -/
def row_POOL_RETRY_HINT : RegRow :=
  ⟨0x1100081C, 32, 0x4000000, 0x10000, 128, .fabricDie, 0x5,
    [⟨15, 0, .rw⟩]⟩
/-- CHECK_EVENTS (after R166 of 05_result_checking.md). -/
def row_CHECK_EVENTS : RegRow :=
  ⟨0x11000820, 32, 0x4000000, 0x10000, 128, .fabricDie, 0x0,
    [⟨31, 16, .rw⟩, ⟨15, 0, .rw⟩]⟩
/-- SUPERSEDE_EVENTS (after R166 of 05_result_checking.md). -/
def row_SUPERSEDE_EVENTS : RegRow :=
  ⟨0x11000824, 32, 0x4000000, 0x10000, 128, .fabricDie, 0x0,
    [⟨31, 16, .rw⟩, ⟨15, 0, .rw⟩]⟩
/-- LEDGER_CONTROL (after R166 of 05_result_checking.md). -/
def row_LEDGER_CONTROL : RegRow :=
  ⟨0x600000, 1, 0x0, 0x0, 1, .controlDie, 0x0,
    [⟨31, 31, .rw⟩, ⟨11, 0, .rw⟩]⟩
/-- LEDGER_SIGN_STEP (after R166 of 05_result_checking.md). -/
def row_LEDGER_SIGN_STEP : RegRow :=
  ⟨0x600004, 1, 0x0, 0x0, 1, .controlDie, 0x0,
    [⟨31, 0, .wo⟩]⟩
/-- LEDGER_STATUS (after R166 of 05_result_checking.md). -/
def row_LEDGER_STATUS : RegRow :=
  ⟨0x600008, 1, 0x0, 0x0, 1, .controlDie, 0x0,
    [⟨31, 31, .ro⟩, ⟨30, 30, .w1c⟩, ⟨15, 0, .rw⟩]⟩
/-- THIN_ACTIVE (after R191 of 06_compression.md). -/
def row_THIN_ACTIVE : RegRow :=
  ⟨0x10000300, 2, 0x4000000, 0x4, 8, .fabricDie, 0x0,
    [⟨31, 0, .ro⟩]⟩
/-- ERROR_MEM_ALLOT (after R191 of 06_compression.md). -/
def row_ERROR_MEM_ALLOT : RegRow :=
  ⟨0x10000308, 1, 0x4000000, 0x0, 4, .fabricDie, 0x0,
    [⟨15, 0, .ro⟩]⟩
/-- COMPRESS_EVENTS (after R191 of 06_compression.md). -/
def row_COMPRESS_EVENTS : RegRow :=
  ⟨0x11000830, 32, 0x4000000, 0x10000, 128, .fabricDie, 0x0,
    [⟨31, 16, .rw⟩, ⟨15, 0, .rw⟩]⟩
/-- COMPRESS_WAITS (after R191 of 06_compression.md). -/
def row_COMPRESS_WAITS : RegRow :=
  ⟨0x11000834, 32, 0x4000000, 0x10000, 128, .fabricDie, 0x0,
    [⟨31, 16, .rw⟩, ⟨15, 0, .rw⟩]⟩
/-- SPIRE_RECORDS (after R221 of 07_collectives.md). -/
def row_SPIRE_RECORDS : RegRow :=
  ⟨0x10000400, 1, 0x4000000, 0x0, 4, .fabricDie, 0x0,
    [⟨16, 2, .ro⟩, ⟨1, 1, .w1c⟩]⟩
/-- SPIRE_EVENTS (after R221 of 07_collectives.md). -/
def row_SPIRE_EVENTS : RegRow :=
  ⟨0x10000404, 1, 0x4000000, 0x0, 4, .fabricDie, 0x0,
    [⟨31, 16, .rw⟩, ⟨15, 0, .rw⟩]⟩
/-- DISPATCH_EVENTS (after R221 of 07_collectives.md). -/
def row_DISPATCH_EVENTS : RegRow :=
  ⟨0x10000408, 1, 0x4000000, 0x0, 4, .fabricDie, 0x0,
    [⟨31, 16, .rw⟩, ⟨15, 0, .rw⟩]⟩
/-- DISPATCH_CLOSES (after R221 of 07_collectives.md). -/
def row_DISPATCH_CLOSES : RegRow :=
  ⟨0x1000040C, 1, 0x4000000, 0x0, 4, .fabricDie, 0x0,
    [⟨31, 16, .rw⟩, ⟨15, 0, .rw⟩]⟩
/-- VC_WEIGHTS_LOW (after R221 of 07_collectives.md). -/
def row_VC_WEIGHTS_LOW : RegRow :=
  ⟨0x10000410, 1, 0x4000000, 0x0, 4, .fabricDie, 0x10201010,
    [⟨31, 24, .ro⟩, ⟨23, 16, .ro⟩, ⟨15, 8, .ro⟩, ⟨7, 0, .ro⟩]⟩
/-- VC_WEIGHTS_HIGH (after R221 of 07_collectives.md). -/
def row_VC_WEIGHTS_HIGH : RegRow :=
  ⟨0x10000414, 1, 0x4000000, 0x0, 4, .fabricDie, 0x10304040,
    [⟨31, 24, .ro⟩, ⟨23, 16, .ro⟩, ⟨15, 8, .ro⟩, ⟨7, 0, .ro⟩]⟩
/-- ADMIT_STATUS (after R249 of 08_job_plans.md). -/
def row_ADMIT_STATUS : RegRow :=
  ⟨0x700000, 1, 0x0, 0x0, 1, .controlDie, 0x0,
    [⟨31, 16, .ro⟩, ⟨12, 0, .ro⟩]⟩
/-- ADMIT_LAST_REFUSAL (after R249 of 08_job_plans.md). -/
def row_ADMIT_LAST_REFUSAL : RegRow :=
  ⟨0x700004, 1, 0x0, 0x0, 1, .controlDie, 0x0,
    [⟨31, 20, .ro⟩, ⟨15, 0, .ro⟩]⟩
/-- ADMIT_COUNTS (after R249 of 08_job_plans.md). -/
def row_ADMIT_COUNTS : RegRow :=
  ⟨0x700008, 1, 0x0, 0x0, 1, .controlDie, 0x0,
    [⟨31, 16, .rw⟩, ⟨15, 0, .rw⟩]⟩
/-- TALLY_EVENTS (after R249 of 08_job_plans.md). -/
def row_TALLY_EVENTS : RegRow :=
  ⟨0x10000500, 1, 0x4000000, 0x0, 4, .fabricDie, 0x0,
    [⟨31, 16, .rw⟩, ⟨15, 0, .rw⟩]⟩
/-- FT_NOW_LOW (after R269 of 09_belfry_and_time.md). -/
def row_FT_NOW_LOW : RegRow :=
  ⟨0x400000, 1, 0x0, 0x0, 1, .controlDie, 0x0,
    [⟨31, 0, .ro⟩]⟩
/-- FT_NOW_HIGH (after R269 of 09_belfry_and_time.md). -/
def row_FT_NOW_HIGH : RegRow :=
  ⟨0x400004, 1, 0x0, 0x0, 1, .controlDie, 0x0,
    [⟨31, 0, .ro⟩]⟩
/-- TIME_STATUS (after R269 of 09_belfry_and_time.md). -/
def row_TIME_STATUS : RegRow :=
  ⟨0x400008, 1, 0x0, 0x0, 1, .controlDie, 0x0,
    [⟨31, 29, .ro⟩, ⟨28, 21, .ro⟩, ⟨20, 20, .w1c⟩, ⟨19, 19, .ro⟩, ⟨15, 0, .ro⟩]⟩
/-- TIME_CONTROL (after R269 of 09_belfry_and_time.md). -/
def row_TIME_CONTROL : RegRow :=
  ⟨0x40000C, 1, 0x0, 0x0, 1, .controlDie, 0x14007D,
    [⟨31, 16, .rw⟩, ⟨9, 0, .rw⟩]⟩
/-- BELL_EVENTS (after R269 of 09_belfry_and_time.md). -/
def row_BELL_EVENTS : RegRow :=
  ⟨0x400010, 1, 0x0, 0x0, 1, .controlDie, 0x0,
    [⟨31, 16, .rw⟩, ⟨15, 0, .rw⟩]⟩
/-- LINK_ASYM (after R269 of 09_belfry_and_time.md). -/
def row_LINK_ASYM : RegRow :=
  ⟨0x20004008, 32, 0x100000, 0x40, 1024, .laneChiplet, 0x0,
    [⟨31, 0, .rw⟩]⟩
/-- SWITCH_POSITION (after R291 of 10_addressing_routing.md). -/
def row_SWITCH_POSITION : RegRow :=
  ⟨0x10000600, 1, 0x4000000, 0x0, 4, .fabricDie, 0x0,
    [⟨31, 30, .ro⟩, ⟨29, 25, .ro⟩, ⟨24, 21, .ro⟩, ⟨14, 0, .ro⟩]⟩
/-- ROUTE_CONTROL (after R291 of 10_addressing_routing.md). -/
def row_ROUTE_CONTROL : RegRow :=
  ⟨0x10000604, 1, 0x4000000, 0x0, 4, .fabricDie, 0x1F4,
    [⟨31, 24, .ro⟩, ⟨9, 0, .rw⟩]⟩
/-- EPOCH_STATE (after R291 of 10_addressing_routing.md). -/
def row_EPOCH_STATE : RegRow :=
  ⟨0x10000608, 1, 0x4000000, 0x0, 4, .fabricDie, 0x0,
    [⟨31, 31, .ro⟩, ⟨30, 29, .ro⟩]⟩
/-- EPOCH_NUMBER (after R291 of 10_addressing_routing.md). -/
def row_EPOCH_NUMBER : RegRow :=
  ⟨0x1000060C, 1, 0x4000000, 0x0, 4, .fabricDie, 0x0,
    [⟨31, 0, .ro⟩]⟩
/-- ROUTE_DISCARDS (after R291 of 10_addressing_routing.md). -/
def row_ROUTE_DISCARDS : RegRow :=
  ⟨0x10000610, 1, 0x4000000, 0x0, 4, .fabricDie, 0x0,
    [⟨31, 16, .rw⟩, ⟨15, 0, .rw⟩]⟩
/-- EPOCH_DISCARDS (after R291 of 10_addressing_routing.md). -/
def row_EPOCH_DISCARDS : RegRow :=
  ⟨0x10000614, 1, 0x4000000, 0x0, 4, .fabricDie, 0x0,
    [⟨31, 16, .rw⟩, ⟨15, 0, .rw⟩]⟩
/-- CELL_POOL_FREE (after R315 of 11_switch_core.md). -/
def row_CELL_POOL_FREE : RegRow :=
  ⟨0x10000700, 1, 0x4000000, 0x0, 4, .fabricDie, 0x0,
    [⟨18, 0, .ro⟩]⟩
/-- CELL_POOL_EVENTS (after R315 of 11_switch_core.md). -/
def row_CELL_POOL_EVENTS : RegRow :=
  ⟨0x10000704, 1, 0x4000000, 0x0, 4, .fabricDie, 0x0,
    [⟨31, 16, .rw⟩, ⟨15, 0, .rw⟩]⟩
/-- TAIL_EVENTS (after R315 of 11_switch_core.md). -/
def row_TAIL_EVENTS : RegRow :=
  ⟨0x10000708, 1, 0x4000000, 0x0, 4, .fabricDie, 0x0,
    [⟨31, 16, .rw⟩, ⟨15, 0, .rw⟩]⟩
/-- REFCOUNT_STATUS (after R315 of 11_switch_core.md). -/
def row_REFCOUNT_STATUS : RegRow :=
  ⟨0x1000070C, 1, 0x4000000, 0x0, 4, .fabricDie, 0x0,
    [⟨31, 31, .ro⟩, ⟨30, 30, .wo⟩, ⟨15, 0, .rw⟩]⟩
/-- HEADROOM_EVENTS (after R315 of 11_switch_core.md). -/
def row_HEADROOM_EVENTS : RegRow :=
  ⟨0x10000710, 1, 0x4000000, 0x0, 4, .fabricDie, 0x0,
    [⟨31, 16, .rw⟩]⟩
/-- PORT_BUFFER (after R315 of 11_switch_core.md). -/
def row_PORT_BUFFER : RegRow :=
  ⟨0x10000800, 64, 0x4000000, 0x10, 256, .fabricDie, 0x0,
    [⟨31, 24, .ro⟩, ⟨23, 16, .ro⟩, ⟨15, 0, .ro⟩]⟩
/-- METRO_EXT (after R315 of 11_switch_core.md). -/
def row_METRO_EXT : RegRow :=
  ⟨0x10000C00, 16, 0x4000000, 0x4, 64, .fabricDie, 0x0,
    [⟨31, 31, .ro⟩, ⟨25, 18, .ro⟩, ⟨17, 0, .ro⟩]⟩
/-- POOL_STATUS (after R315 of 11_switch_core.md). -/
def row_POOL_STATUS : RegRow :=
  ⟨0x11000840, 32, 0x4000000, 0x10000, 128, .fabricDie, 0x0,
    [⟨31, 21, .ro⟩, ⟨20, 10, .ro⟩, ⟨0, 0, .ro⟩]⟩
/-- POOL_EVENTS (after R315 of 11_switch_core.md). -/
def row_POOL_EVENTS : RegRow :=
  ⟨0x11000844, 32, 0x4000000, 0x10000, 128, .fabricDie, 0x0,
    [⟨31, 16, .rw⟩, ⟨15, 0, .rw⟩]⟩
/-- SAMPLE_CONTROL (after R335 of 12_scheduling.md). -/
def row_SAMPLE_CONTROL : RegRow :=
  ⟨0x10000D00, 1, 0x4000000, 0x0, 4, .fabricDie, 0x3D09,
    [⟨31, 31, .rw⟩, ⟨13, 0, .rw⟩]⟩
/-- SAMPLE_PORTS_LOW (after R335 of 12_scheduling.md). -/
def row_SAMPLE_PORTS_LOW : RegRow :=
  ⟨0x10000D04, 1, 0x4000000, 0x0, 4, .fabricDie, 0x0,
    [⟨31, 0, .rw⟩]⟩
/-- SAMPLE_PORTS_HIGH (after R335 of 12_scheduling.md). -/
def row_SAMPLE_PORTS_HIGH : RegRow :=
  ⟨0x10000D08, 1, 0x4000000, 0x0, 4, .fabricDie, 0x0,
    [⟨31, 0, .rw⟩]⟩
/-- SAMPLE_EVENTS (after R335 of 12_scheduling.md). -/
def row_SAMPLE_EVENTS : RegRow :=
  ⟨0x10000D0C, 1, 0x4000000, 0x0, 4, .fabricDie, 0x0,
    [⟨31, 16, .rw⟩, ⟨13, 0, .ro⟩]⟩
/-- POLICE_EVENTS (after R335 of 12_scheduling.md). -/
def row_POLICE_EVENTS : RegRow :=
  ⟨0x10000D10, 1, 0x4000000, 0x0, 4, .fabricDie, 0x0,
    [⟨31, 16, .rw⟩, ⟨15, 0, .rw⟩]⟩
/-- SHAPER_STATUS (after R335 of 12_scheduling.md). -/
def row_SHAPER_STATUS : RegRow :=
  ⟨0x10000D14, 1, 0x4000000, 0x0, 4, .fabricDie, 0x0,
    [⟨31, 31, .w1c⟩, ⟨11, 0, .ro⟩]⟩
/-- GATE_CONTROL (after R335 of 12_scheduling.md). -/
def row_GATE_CONTROL : RegRow :=
  ⟨0x10002000, 64, 0x4000000, 0x10, 256, .fabricDie, 0x0,
    [⟨31, 31, .wo⟩, ⟨30, 30, .ro⟩, ⟨29, 29, .ro⟩, ⟨28, 28, .w1c⟩, ⟨27, 27, .ro⟩, ⟨26, 26, .rw⟩]⟩
/-- GATE_SWITCH_LOW (after R335 of 12_scheduling.md). -/
def row_GATE_SWITCH_LOW : RegRow :=
  ⟨0x10002004, 64, 0x4000000, 0x10, 256, .fabricDie, 0x0,
    [⟨31, 0, .rw⟩]⟩
/-- GATE_SWITCH_HIGH (after R335 of 12_scheduling.md). -/
def row_GATE_SWITCH_HIGH : RegRow :=
  ⟨0x10002008, 64, 0x4000000, 0x10, 256, .fabricDie, 0x0,
    [⟨31, 0, .rw⟩]⟩
/-- CRUISE_STATUS (after R356 of 13_topology.md). -/
def row_CRUISE_STATUS : RegRow :=
  ⟨0x800000, 1, 0x0, 0x0, 1, .controlDie, 0x0,
    [⟨31, 31, .ro⟩, ⟨30, 30, .ro⟩, ⟨15, 0, .ro⟩]⟩
/-- CRUISE_CONTROL (after R356 of 13_topology.md). -/
def row_CRUISE_CONTROL : RegRow :=
  ⟨0x800004, 1, 0x0, 0x0, 1, .controlDie, 0x0,
    [⟨31, 31, .wo⟩]⟩
/-- CRUISE_EVENTS (after R356 of 13_topology.md). -/
def row_CRUISE_EVENTS : RegRow :=
  ⟨0x800008, 1, 0x0, 0x0, 1, .controlDie, 0x0,
    [⟨31, 16, .rw⟩, ⟨15, 0, .rw⟩]⟩
/-- CRUISE_DISCARDS (after R356 of 13_topology.md). -/
def row_CRUISE_DISCARDS : RegRow :=
  ⟨0x80000C, 1, 0x0, 0x0, 1, .controlDie, 0x0,
    [⟨31, 16, .rw⟩]⟩
/-- PORT_CRUISE (after R356 of 13_topology.md). -/
def row_PORT_CRUISE : RegRow :=
  ⟨0x2000400C, 32, 0x100000, 0x40, 1024, .laneChiplet, 0x0,
    [⟨31, 28, .ro⟩, ⟨27, 27, .ro⟩, ⟨26, 26, .rw⟩, ⟨25, 25, .ro⟩, ⟨23, 16, .ro⟩, ⟨15, 0, .ro⟩]⟩
/-- PORT_PEER (after R356 of 13_topology.md). -/
def row_PORT_PEER : RegRow :=
  ⟨0x20004010, 32, 0x100000, 0x40, 1024, .laneChiplet, 0x0,
    [⟨31, 24, .ro⟩, ⟨23, 0, .ro⟩]⟩
/-- PORT_PEER_FW (after R356 of 13_topology.md). -/
def row_PORT_PEER_FW : RegRow :=
  ⟨0x20004014, 32, 0x100000, 0x40, 1024, .laneChiplet, 0x0,
    [⟨31, 0, .ro⟩]⟩
/-- SURVIVAL_EVENTS (after R382 of 14_failure_survival.md). -/
def row_SURVIVAL_EVENTS : RegRow :=
  ⟨0x900000, 1, 0x0, 0x0, 1, .controlDie, 0x0,
    [⟨31, 16, .rw⟩, ⟨15, 0, .rw⟩]⟩
/-- FENCE_REQUEST_JOB (after R382 of 14_failure_survival.md). -/
def row_FENCE_REQUEST_JOB : RegRow :=
  ⟨0x900004, 1, 0x0, 0x0, 1, .controlDie, 0x0,
    [⟨11, 0, .rw⟩]⟩
/-- FENCE_REQUEST_RANK (after R382 of 14_failure_survival.md). -/
def row_FENCE_REQUEST_RANK : RegRow :=
  ⟨0x900008, 1, 0x0, 0x0, 1, .controlDie, 0x0,
    [⟨17, 0, .wo⟩]⟩
/-- SAVE_STATUS (after R382 of 14_failure_survival.md). -/
def row_SAVE_STATUS : RegRow :=
  ⟨0x90000C, 1, 0x0, 0x0, 1, .controlDie, 0x0,
    [⟨31, 31, .ro⟩, ⟨30, 30, .ro⟩, ⟨15, 12, .ro⟩, ⟨11, 0, .ro⟩]⟩
/-- LANDING_EVENTS (after R382 of 14_failure_survival.md). -/
def row_LANDING_EVENTS : RegRow :=
  ⟨0x10000E00, 1, 0x4000000, 0x0, 4, .fabricDie, 0x0,
    [⟨31, 16, .rw⟩, ⟨15, 0, .rw⟩]⟩
/-- REPEAT_STATUS (after R398 of 15_determinism.md). -/
def row_REPEAT_STATUS : RegRow :=
  ⟨0x10000F00, 1, 0x4000000, 0x0, 4, .fabricDie, 0x0,
    [⟨31, 31, .w1c⟩, ⟨30, 30, .w1c⟩, ⟨29, 29, .w1c⟩, ⟨28, 28, .ro⟩, ⟨15, 0, .rw⟩]⟩
/-- LANE_CONFIG (after R418 of 16_serial_lanes.md). -/
def row_LANE_CONFIG : RegRow :=
  ⟨0x20001000, 32, 0x100000, 0x80, 1024, .laneChiplet, 0x0,
    [⟨31, 30, .ro⟩, ⟨29, 29, .ro⟩, ⟨28, 28, .ro⟩, ⟨27, 25, .ro⟩, ⟨24, 22, .ro⟩]⟩
/-- LANE_STATUS (after R418 of 16_serial_lanes.md). -/
def row_LANE_STATUS : RegRow :=
  ⟨0x20001004, 32, 0x100000, 0x80, 1024, .laneChiplet, 0x0,
    [⟨31, 31, .ro⟩, ⟨30, 30, .ro⟩, ⟨29, 29, .ro⟩, ⟨28, 28, .ro⟩, ⟨15, 0, .ro⟩]⟩
/-- LANE_PRBS (after R418 of 16_serial_lanes.md). -/
def row_LANE_PRBS : RegRow :=
  ⟨0x20001008, 32, 0x100000, 0x80, 1024, .laneChiplet, 0x0,
    [⟨31, 31, .rw⟩, ⟨30, 30, .rw⟩, ⟨29, 28, .rw⟩, ⟨27, 27, .ro⟩]⟩
/-- PRBS_ERRORS (after R418 of 16_serial_lanes.md). -/
def row_PRBS_ERRORS : RegRow :=
  ⟨0x2000100C, 32, 0x100000, 0x80, 1024, .laneChiplet, 0x0,
    [⟨31, 0, .rw⟩]⟩
/-- FEC_COUNTS (after R418 of 16_serial_lanes.md). -/
def row_FEC_COUNTS : RegRow :=
  ⟨0x20001010, 32, 0x100000, 0x80, 1024, .laneChiplet, 0x0,
    [⟨31, 16, .rw⟩, ⟨15, 0, .rw⟩]⟩
/-- PORT_LINK (after R418 of 16_serial_lanes.md). -/
def row_PORT_LINK : RegRow :=
  ⟨0x20004018, 32, 0x100000, 0x40, 1024, .laneChiplet, 0x0,
    [⟨31, 28, .ro⟩, ⟨27, 26, .ro⟩, ⟨25, 24, .ro⟩, ⟨23, 16, .rw⟩, ⟨15, 8, .rw⟩, ⟨7, 0, .rw⟩]⟩
/-- PORT_LINK_CONTROL (after R418 of 16_serial_lanes.md). -/
def row_PORT_LINK_CONTROL : RegRow :=
  ⟨0x2000401C, 32, 0x100000, 0x40, 1024, .laneChiplet, 0xA03E8,
    [⟨31, 31, .rw⟩, ⟨25, 16, .rw⟩, ⟨15, 0, .rw⟩]⟩
/-- MEM_STATUS (after R440 of 17_memory.md). -/
def row_MEM_STATUS : RegRow :=
  ⟨0x30000000, 1, 0x100000, 0x0, 20, .fabricDie, 0x0,
    [⟨31, 29, .ro⟩, ⟨28, 28, .w1c⟩, ⟨23, 16, .ro⟩, ⟨15, 0, .ro⟩]⟩
/-- MEM_ERRORS (after R440 of 17_memory.md). -/
def row_MEM_ERRORS : RegRow :=
  ⟨0x30000004, 1, 0x100000, 0x0, 20, .fabricDie, 0x0,
    [⟨31, 16, .rw⟩, ⟨15, 0, .rw⟩]⟩
/-- MEM_ERR_ADDR_LOW (after R440 of 17_memory.md). -/
def row_MEM_ERR_ADDR_LOW : RegRow :=
  ⟨0x30000008, 1, 0x100000, 0x0, 20, .fabricDie, 0x0,
    [⟨31, 0, .ro⟩]⟩
/-- MEM_ERR_ADDR_HIGH (after R440 of 17_memory.md). -/
def row_MEM_ERR_ADDR_HIGH : RegRow :=
  ⟨0x3000000C, 1, 0x100000, 0x0, 20, .fabricDie, 0x0,
    [⟨31, 30, .ro⟩, ⟨29, 24, .ro⟩, ⟨8, 0, .ro⟩]⟩
/-- SCRUB_CONTROL (after R440 of 17_memory.md). -/
def row_SCRUB_CONTROL : RegRow :=
  ⟨0x30000010, 1, 0x100000, 0x0, 20, .fabricDie, 0x18,
    [⟨7, 0, .rw⟩]⟩
/-- PART_BASE (after R440 of 17_memory.md). -/
def row_PART_BASE : RegRow :=
  ⟨0xA00000, 1, 0x10, 0x0, 7, .controlDie, 0x0,
    [⟨20, 0, .ro⟩]⟩
/-- PART_SIZE (after R440 of 17_memory.md). -/
def row_PART_SIZE : RegRow :=
  ⟨0xA00004, 1, 0x10, 0x0, 7, .controlDie, 0x0,
    [⟨20, 0, .ro⟩]⟩
/-- PART_RESERVED (after R440 of 17_memory.md). -/
def row_PART_RESERVED : RegRow :=
  ⟨0xA00008, 1, 0x10, 0x0, 7, .controlDie, 0x0,
    [⟨20, 0, .ro⟩]⟩
/-- PART_ALLOT (after R440 of 17_memory.md). -/
def row_PART_ALLOT : RegRow :=
  ⟨0xA0000C, 1, 0x10, 0x0, 7, .controlDie, 0x0,
    [⟨13, 0, .ro⟩]⟩
/-- WT_STATUS (after R460 of 18_watchtower.md). -/
def row_WT_STATUS : RegRow :=
  ⟨0x200000, 1, 0x0, 0x0, 1, .controlDie, 0x0,
    [⟨31, 31, .ro⟩, ⟨30, 30, .w1c⟩, ⟨29, 29, .w1c⟩, ⟨28, 25, .w1c⟩, ⟨21, 11, .ro⟩, ⟨10, 0, .ro⟩]⟩
/-- WT_COUNTS (after R460 of 18_watchtower.md). -/
def row_WT_COUNTS : RegRow :=
  ⟨0x200004, 1, 0x0, 0x0, 1, .controlDie, 0x0,
    [⟨31, 16, .rw⟩, ⟨15, 0, .rw⟩]⟩
/-- RETIRE (after R460 of 18_watchtower.md). -/
def row_RETIRE : RegRow :=
  ⟨0x200008, 1, 0x0, 0x0, 1, .controlDie, 0x0,
    [⟨10, 0, .wo⟩]⟩
/-- FORCE_SOURCE (after R460 of 18_watchtower.md). -/
def row_FORCE_SOURCE : RegRow :=
  ⟨0x200010, 1, 0x0, 0x0, 1, .controlDie, 0x0,
    [⟨18, 0, .rw⟩]⟩
/-- FORCE (after R460 of 18_watchtower.md). -/
def row_FORCE : RegRow :=
  ⟨0x200014, 1, 0x0, 0x0, 1, .controlDie, 0x0,
    [⟨31, 31, .wo⟩, ⟨30, 30, .rw⟩, ⟨29, 29, .rw⟩, ⟨9, 8, .rw⟩, ⟨7, 0, .rw⟩]⟩
/-- KIND_PENDING (after R460 of 18_watchtower.md). -/
def row_KIND_PENDING : RegRow :=
  ⟨0x200080, 1, 0x4, 0x0, 8, .controlDie, 0x0,
    [⟨31, 0, .w1c⟩]⟩
/-- GATED_ACCESS (after R460 of 18_watchtower.md). -/
def row_GATED_ACCESS : RegRow :=
  ⟨0x200030, 1, 0x0, 0x0, 1, .controlDie, 0x0,
    [⟨31, 0, .rw⟩]⟩
/-- GATED_ADDR (after R460 of 18_watchtower.md). -/
def row_GATED_ADDR : RegRow :=
  ⟨0x200034, 1, 0x0, 0x0, 1, .controlDie, 0x0,
    [⟨31, 0, .ro⟩]⟩
/-- FR_WRITE_SEQ (after R460 of 18_watchtower.md). -/
def row_FR_WRITE_SEQ : RegRow :=
  ⟨0x200040, 1, 0x0, 0x0, 1, .powerOn, 0x0,
    [⟨31, 0, .ro⟩]⟩
/-- FR_COPY_SEQ (after R460 of 18_watchtower.md). -/
def row_FR_COPY_SEQ : RegRow :=
  ⟨0x200044, 1, 0x0, 0x0, 1, .powerOn, 0x0,
    [⟨31, 0, .ro⟩]⟩
/-- REACTION (after R460 of 18_watchtower.md). -/
def row_REACTION : RegRow :=
  ⟨0x200400, 1, 0x4, 0x0, 256, .controlDie, 0x0,
    [⟨4, 0, .rw⟩]⟩
/-- WDT_CONTROL (after R460 of 18_watchtower.md). -/
def row_WDT_CONTROL : RegRow :=
  ⟨0x1000100, 1, 0x0, 0x0, 1, .keep, 0x7D00000,
    [⟨31, 16, .rw⟩, ⟨15, 0, .wo⟩]⟩
/-- CLOCK_STATUS (after R476 of 19_clocks.md). -/
def row_CLOCK_STATUS : RegRow :=
  ⟨0xB00000, 1, 0x0, 0x0, 1, .controlDie, 0x0,
    [⟨31, 31, .w1c⟩, ⟨30, 30, .ro⟩, ⟨19, 0, .ro⟩]⟩
/-- CLOCK_GATE_CD (after R476 of 19_clocks.md). -/
def row_CLOCK_GATE_CD : RegRow :=
  ⟨0xB00004, 1, 0x0, 0x0, 1, .controlDie, 0xF,
    [⟨20, 16, .ro⟩, ⟨4, 4, .rw⟩, ⟨3, 3, .rw⟩, ⟨2, 2, .rw⟩, ⟨1, 1, .rw⟩, ⟨0, 0, .rw⟩]⟩
/-- ISLAND_CLOCK (after R476 of 19_clocks.md). -/
def row_ISLAND_CLOCK : RegRow :=
  ⟨0xB00100, 1, 0x10, 0x0, 57, .controlDie, 0x0,
    [⟨31, 31, .rw⟩, ⟨30, 30, .ro⟩, ⟨29, 29, .rw⟩, ⟨28, 28, .ro⟩, ⟨27, 27, .ro⟩, ⟨26, 26, .ro⟩, ⟨25, 25, .ro⟩, ⟨24, 24, .w1c⟩]⟩
/-- DOMAIN_RESET (after R476 of 19_clocks.md). -/
def row_DOMAIN_RESET : RegRow :=
  ⟨0x1000104, 1, 0x0, 0x0, 1, .keep, 0x0,
    [⟨31, 24, .wo⟩, ⟨5, 0, .wo⟩]⟩
/-- THERMAL_CONTROL (after R476 of 19_clocks.md). -/
def row_THERMAL_CONTROL : RegRow :=
  ⟨0x10000F10, 1, 0x4000000, 0x0, 4, .fabricDie, 0x64000000,
    [⟨31, 24, .rw⟩, ⟨23, 16, .ro⟩, ⟨3, 0, .ro⟩]⟩
/-- PWR_COMMAND (after R496 of 20_power_states.md). -/
def row_PWR_COMMAND : RegRow :=
  ⟨0x1000200, 1, 0x0, 0x0, 1, .keep, 0x0,
    [⟨1, 0, .wo⟩]⟩
/-- PWR_STATUS (after R496 of 20_power_states.md). -/
def row_PWR_STATUS : RegRow :=
  ⟨0x1000204, 1, 0x0, 0x0, 1, .keep, 0x0,
    [⟨31, 30, .ro⟩, ⟨29, 29, .ro⟩, ⟨28, 27, .ro⟩, ⟨26, 26, .w1c⟩, ⟨25, 25, .w1c⟩, ⟨24, 24, .w1c⟩, ⟨23, 23, .w1c⟩, ⟨22, 21, .ro⟩]⟩
/-- PWR_EVENTS (after R496 of 20_power_states.md). -/
def row_PWR_EVENTS : RegRow :=
  ⟨0x1000208, 1, 0x0, 0x0, 1, .keep, 0x0,
    [⟨31, 16, .rw⟩, ⟨15, 0, .rw⟩]⟩
/-- PWR_LAST_REFUSER (after R496 of 20_power_states.md). -/
def row_PWR_LAST_REFUSER : RegRow :=
  ⟨0x100020C, 1, 0x0, 0x0, 1, .keep, 0x0,
    [⟨31, 28, .ro⟩, ⟨27, 26, .ro⟩, ⟨18, 0, .ro⟩]⟩
/-- PWR_LAST_ABORTER (after R496 of 20_power_states.md). -/
def row_PWR_LAST_ABORTER : RegRow :=
  ⟨0x1000210, 1, 0x0, 0x0, 1, .keep, 0x0,
    [⟨31, 0, .ro⟩]⟩
/-- SAG_STATUS (after R496 of 20_power_states.md). -/
def row_SAG_STATUS : RegRow :=
  ⟨0x1000214, 1, 0x0, 0x0, 1, .keep, 0x0,
    [⟨31, 16, .rw⟩, ⟨15, 0, .ro⟩]⟩
/-- BOOT_STATUS (after R520 of 21_boot_security.md). -/
def row_BOOT_STATUS : RegRow :=
  ⟨0xC00000, 1, 0x0, 0x0, 1, .controlDie, 0x0,
    [⟨31, 29, .ro⟩, ⟨28, 28, .ro⟩, ⟨27, 27, .ro⟩, ⟨26, 26, .ro⟩, ⟨23, 20, .ro⟩, ⟨19, 16, .ro⟩, ⟨15, 12, .ro⟩, ⟨11, 9, .ro⟩]⟩
/-- BOOT_CONTROL (after R520 of 21_boot_security.md). -/
def row_BOOT_CONTROL : RegRow :=
  ⟨0xC00004, 1, 0x0, 0x0, 1, .controlDie, 0x0,
    [⟨31, 24, .wo⟩, ⟨23, 23, .wo⟩, ⟨22, 22, .wo⟩, ⟨1, 0, .wo⟩]⟩
/-- BOOT_FLOORS (after R520 of 21_boot_security.md). -/
def row_BOOT_FLOORS : RegRow :=
  ⟨0xC00008, 1, 0x0, 0x0, 1, .controlDie, 0x0,
    [⟨31, 16, .ro⟩, ⟨15, 0, .ro⟩]⟩
/-- ATTEST_STATUS (after R520 of 21_boot_security.md). -/
def row_ATTEST_STATUS : RegRow :=
  ⟨0xC0000C, 1, 0x0, 0x0, 1, .controlDie, 0x0,
    [⟨31, 31, .ro⟩, ⟨30, 30, .wo⟩, ⟨15, 0, .rw⟩]⟩
/-- ATTEST_NONCE (after R520 of 21_boot_security.md). -/
def row_ATTEST_NONCE : RegRow :=
  ⟨0xC00020, 1, 0x4, 0x0, 8, .controlDie, 0x0,
    [⟨31, 0, .rw⟩]⟩
/-- MEAS_DIGEST (after R520 of 21_boot_security.md). -/
def row_MEAS_DIGEST : RegRow :=
  ⟨0xC00040, 1, 0x4, 0x0, 16, .controlDie, 0x0,
    [⟨31, 0, .ro⟩]⟩
/-- DCL_STATUS (after R549 of 22_companion_link.md). -/
def row_DCL_STATUS : RegRow :=
  ⟨0xD00000, 1, 0x0, 0x0, 1, .controlDie, 0x0,
    [⟨31, 29, .ro⟩, ⟨28, 27, .ro⟩, ⟨26, 26, .ro⟩, ⟨25, 25, .w1c⟩, ⟨15, 0, .ro⟩]⟩
/-- DCL_COUNTS (after R549 of 22_companion_link.md). -/
def row_DCL_COUNTS : RegRow :=
  ⟨0xD00004, 1, 0x0, 0x0, 1, .controlDie, 0x0,
    [⟨31, 16, .rw⟩, ⟨15, 8, .rw⟩, ⟨7, 0, .rw⟩]⟩
/-- DCL_CONTROL (after R549 of 22_companion_link.md). -/
def row_DCL_CONTROL : RegRow :=
  ⟨0xD00008, 1, 0x0, 0x0, 1, .controlDie, 0x1,
    [⟨31, 31, .wo⟩, ⟨1, 0, .rw⟩]⟩
/-- HOST_STATUS (after R549 of 22_companion_link.md). -/
def row_HOST_STATUS : RegRow :=
  ⟨0xE00000, 1, 0x0, 0x0, 1, .controlDie, 0x0,
    [⟨31, 31, .ro⟩, ⟨30, 30, .ro⟩, ⟨29, 29, .ro⟩, ⟨20, 0, .ro⟩]⟩
/-- HOST_DOORBELL (after R549 of 22_companion_link.md). -/
def row_HOST_DOORBELL : RegRow :=
  ⟨0xE00004, 1, 0x0, 0x0, 1, .controlDie, 0x0,
    [⟨31, 0, .wo⟩]⟩
/-- HOST_INT_STATUS (after R549 of 22_companion_link.md). -/
def row_HOST_INT_STATUS : RegRow :=
  ⟨0xE00008, 1, 0x0, 0x0, 1, .controlDie, 0x0,
    [⟨7, 0, .w1c⟩]⟩
/-- HOST_INT_ENABLE (after R549 of 22_companion_link.md). -/
def row_HOST_INT_ENABLE : RegRow :=
  ⟨0xE0000C, 1, 0x0, 0x0, 1, .controlDie, 0x0,
    [⟨7, 0, .rw⟩]⟩
/-- HOST_INT_CONTROL (after R549 of 22_companion_link.md). -/
def row_HOST_INT_CONTROL : RegRow :=
  ⟨0xE00010, 1, 0x0, 0x0, 1, .controlDie, 0x32,
    [⟨31, 16, .rw⟩, ⟨15, 0, .rw⟩]⟩
/-- UPD_CONTROL (after R549 of 22_companion_link.md). -/
def row_UPD_CONTROL : RegRow :=
  ⟨0xF00000, 1, 0x0, 0x0, 1, .controlDie, 0x0,
    [⟨31, 24, .wo⟩, ⟨23, 22, .wo⟩, ⟨16, 0, .wo⟩]⟩
/-- UPD_OFFSET (after R549 of 22_companion_link.md). -/
def row_UPD_OFFSET : RegRow :=
  ⟨0xF00004, 1, 0x0, 0x0, 1, .controlDie, 0x0,
    [⟨31, 0, .rw⟩]⟩
/-- UPD_STATUS (after R549 of 22_companion_link.md). -/
def row_UPD_STATUS : RegRow :=
  ⟨0xF00008, 1, 0x0, 0x0, 1, .controlDie, 0x0,
    [⟨31, 31, .ro⟩, ⟨30, 30, .w1c⟩, ⟨29, 28, .ro⟩, ⟨15, 0, .rw⟩]⟩
/-- SMB_CONFIG (after R549 of 22_companion_link.md). -/
def row_SMB_CONFIG : RegRow :=
  ⟨0x1000300, 1, 0x0, 0x0, 1, .keep, 0x4C,
    [⟨8, 8, .rw⟩, ⟨6, 0, .ro⟩]⟩
/-- SMB_STATUS (after R549 of 22_companion_link.md). -/
def row_SMB_STATUS : RegRow :=
  ⟨0x1000304, 1, 0x0, 0x0, 1, .keep, 0x0,
    [⟨31, 16, .rw⟩, ⟨15, 8, .rw⟩, ⟨7, 7, .ro⟩, ⟨6, 6, .ro⟩]⟩
/-- BUS_ERRORS (after R559 of 23_register_map.md). -/
def row_BUS_ERRORS : RegRow :=
  ⟨0x10, 1, 0x0, 0x0, 1, .controlDie, 0x0,
    [⟨31, 30, .ro⟩, ⟨29, 28, .ro⟩, ⟨15, 0, .rw⟩]⟩
/-- BUS_ERROR_ADDR (after R559 of 23_register_map.md). -/
def row_BUS_ERROR_ADDR : RegRow :=
  ⟨0x14, 1, 0x0, 0x0, 1, .controlDie, 0x0,
    [⟨31, 0, .ro⟩]⟩

/-- The row of each register. -/
def regRow (n : RegName) : RegRow :=
  match n with
  | .DEVICE_ID => row_DEVICE_ID
  | .BRIDGE_STATUS => row_BRIDGE_STATUS
  | .TFP_PORT_STATUS => row_TFP_PORT_STATUS
  | .TFP_DISCARD_COUNT => row_TFP_DISCARD_COUNT
  | .ARITH_EVENTS => row_ARITH_EVENTS
  | .ARITH_FLUSHES => row_ARITH_FLUSHES
  | .RESIDUE_STATUS => row_RESIDUE_STATUS
  | .MILL_ENABLE => row_MILL_ENABLE
  | .MILL_OCCUPANCY => row_MILL_OCCUPANCY
  | .MILL_CONTEXTS => row_MILL_CONTEXTS
  | .MILL_DISCARDS => row_MILL_DISCARDS
  | .POOL_RETRY_HINT => row_POOL_RETRY_HINT
  | .CHECK_EVENTS => row_CHECK_EVENTS
  | .SUPERSEDE_EVENTS => row_SUPERSEDE_EVENTS
  | .LEDGER_CONTROL => row_LEDGER_CONTROL
  | .LEDGER_SIGN_STEP => row_LEDGER_SIGN_STEP
  | .LEDGER_STATUS => row_LEDGER_STATUS
  | .THIN_ACTIVE => row_THIN_ACTIVE
  | .ERROR_MEM_ALLOT => row_ERROR_MEM_ALLOT
  | .COMPRESS_EVENTS => row_COMPRESS_EVENTS
  | .COMPRESS_WAITS => row_COMPRESS_WAITS
  | .SPIRE_RECORDS => row_SPIRE_RECORDS
  | .SPIRE_EVENTS => row_SPIRE_EVENTS
  | .DISPATCH_EVENTS => row_DISPATCH_EVENTS
  | .DISPATCH_CLOSES => row_DISPATCH_CLOSES
  | .VC_WEIGHTS_LOW => row_VC_WEIGHTS_LOW
  | .VC_WEIGHTS_HIGH => row_VC_WEIGHTS_HIGH
  | .ADMIT_STATUS => row_ADMIT_STATUS
  | .ADMIT_LAST_REFUSAL => row_ADMIT_LAST_REFUSAL
  | .ADMIT_COUNTS => row_ADMIT_COUNTS
  | .TALLY_EVENTS => row_TALLY_EVENTS
  | .FT_NOW_LOW => row_FT_NOW_LOW
  | .FT_NOW_HIGH => row_FT_NOW_HIGH
  | .TIME_STATUS => row_TIME_STATUS
  | .TIME_CONTROL => row_TIME_CONTROL
  | .BELL_EVENTS => row_BELL_EVENTS
  | .LINK_ASYM => row_LINK_ASYM
  | .SWITCH_POSITION => row_SWITCH_POSITION
  | .ROUTE_CONTROL => row_ROUTE_CONTROL
  | .EPOCH_STATE => row_EPOCH_STATE
  | .EPOCH_NUMBER => row_EPOCH_NUMBER
  | .ROUTE_DISCARDS => row_ROUTE_DISCARDS
  | .EPOCH_DISCARDS => row_EPOCH_DISCARDS
  | .CELL_POOL_FREE => row_CELL_POOL_FREE
  | .CELL_POOL_EVENTS => row_CELL_POOL_EVENTS
  | .TAIL_EVENTS => row_TAIL_EVENTS
  | .REFCOUNT_STATUS => row_REFCOUNT_STATUS
  | .HEADROOM_EVENTS => row_HEADROOM_EVENTS
  | .PORT_BUFFER => row_PORT_BUFFER
  | .METRO_EXT => row_METRO_EXT
  | .POOL_STATUS => row_POOL_STATUS
  | .POOL_EVENTS => row_POOL_EVENTS
  | .SAMPLE_CONTROL => row_SAMPLE_CONTROL
  | .SAMPLE_PORTS_LOW => row_SAMPLE_PORTS_LOW
  | .SAMPLE_PORTS_HIGH => row_SAMPLE_PORTS_HIGH
  | .SAMPLE_EVENTS => row_SAMPLE_EVENTS
  | .POLICE_EVENTS => row_POLICE_EVENTS
  | .SHAPER_STATUS => row_SHAPER_STATUS
  | .GATE_CONTROL => row_GATE_CONTROL
  | .GATE_SWITCH_LOW => row_GATE_SWITCH_LOW
  | .GATE_SWITCH_HIGH => row_GATE_SWITCH_HIGH
  | .CRUISE_STATUS => row_CRUISE_STATUS
  | .CRUISE_CONTROL => row_CRUISE_CONTROL
  | .CRUISE_EVENTS => row_CRUISE_EVENTS
  | .CRUISE_DISCARDS => row_CRUISE_DISCARDS
  | .PORT_CRUISE => row_PORT_CRUISE
  | .PORT_PEER => row_PORT_PEER
  | .PORT_PEER_FW => row_PORT_PEER_FW
  | .SURVIVAL_EVENTS => row_SURVIVAL_EVENTS
  | .FENCE_REQUEST_JOB => row_FENCE_REQUEST_JOB
  | .FENCE_REQUEST_RANK => row_FENCE_REQUEST_RANK
  | .SAVE_STATUS => row_SAVE_STATUS
  | .LANDING_EVENTS => row_LANDING_EVENTS
  | .REPEAT_STATUS => row_REPEAT_STATUS
  | .LANE_CONFIG => row_LANE_CONFIG
  | .LANE_STATUS => row_LANE_STATUS
  | .LANE_PRBS => row_LANE_PRBS
  | .PRBS_ERRORS => row_PRBS_ERRORS
  | .FEC_COUNTS => row_FEC_COUNTS
  | .PORT_LINK => row_PORT_LINK
  | .PORT_LINK_CONTROL => row_PORT_LINK_CONTROL
  | .MEM_STATUS => row_MEM_STATUS
  | .MEM_ERRORS => row_MEM_ERRORS
  | .MEM_ERR_ADDR_LOW => row_MEM_ERR_ADDR_LOW
  | .MEM_ERR_ADDR_HIGH => row_MEM_ERR_ADDR_HIGH
  | .SCRUB_CONTROL => row_SCRUB_CONTROL
  | .PART_BASE => row_PART_BASE
  | .PART_SIZE => row_PART_SIZE
  | .PART_RESERVED => row_PART_RESERVED
  | .PART_ALLOT => row_PART_ALLOT
  | .WT_STATUS => row_WT_STATUS
  | .WT_COUNTS => row_WT_COUNTS
  | .RETIRE => row_RETIRE
  | .FORCE_SOURCE => row_FORCE_SOURCE
  | .FORCE => row_FORCE
  | .KIND_PENDING => row_KIND_PENDING
  | .GATED_ACCESS => row_GATED_ACCESS
  | .GATED_ADDR => row_GATED_ADDR
  | .FR_WRITE_SEQ => row_FR_WRITE_SEQ
  | .FR_COPY_SEQ => row_FR_COPY_SEQ
  | .REACTION => row_REACTION
  | .WDT_CONTROL => row_WDT_CONTROL
  | .CLOCK_STATUS => row_CLOCK_STATUS
  | .CLOCK_GATE_CD => row_CLOCK_GATE_CD
  | .ISLAND_CLOCK => row_ISLAND_CLOCK
  | .DOMAIN_RESET => row_DOMAIN_RESET
  | .THERMAL_CONTROL => row_THERMAL_CONTROL
  | .PWR_COMMAND => row_PWR_COMMAND
  | .PWR_STATUS => row_PWR_STATUS
  | .PWR_EVENTS => row_PWR_EVENTS
  | .PWR_LAST_REFUSER => row_PWR_LAST_REFUSER
  | .PWR_LAST_ABORTER => row_PWR_LAST_ABORTER
  | .SAG_STATUS => row_SAG_STATUS
  | .BOOT_STATUS => row_BOOT_STATUS
  | .BOOT_CONTROL => row_BOOT_CONTROL
  | .BOOT_FLOORS => row_BOOT_FLOORS
  | .ATTEST_STATUS => row_ATTEST_STATUS
  | .ATTEST_NONCE => row_ATTEST_NONCE
  | .MEAS_DIGEST => row_MEAS_DIGEST
  | .DCL_STATUS => row_DCL_STATUS
  | .DCL_COUNTS => row_DCL_COUNTS
  | .DCL_CONTROL => row_DCL_CONTROL
  | .HOST_STATUS => row_HOST_STATUS
  | .HOST_DOORBELL => row_HOST_DOORBELL
  | .HOST_INT_STATUS => row_HOST_INT_STATUS
  | .HOST_INT_ENABLE => row_HOST_INT_ENABLE
  | .HOST_INT_CONTROL => row_HOST_INT_CONTROL
  | .UPD_CONTROL => row_UPD_CONTROL
  | .UPD_OFFSET => row_UPD_OFFSET
  | .UPD_STATUS => row_UPD_STATUS
  | .SMB_CONFIG => row_SMB_CONFIG
  | .SMB_STATUS => row_SMB_STATUS
  | .BUS_ERRORS => row_BUS_ERRORS
  | .BUS_ERROR_ADDR => row_BUS_ERROR_ADDR

/-- Part 0 of the index (R562). -/
def allRegs0 : List RegName :=
  [.DEVICE_ID, .BRIDGE_STATUS, .TFP_PORT_STATUS, .TFP_DISCARD_COUNT, .ARITH_EVENTS, .ARITH_FLUSHES,
    .RESIDUE_STATUS, .MILL_ENABLE, .MILL_OCCUPANCY, .MILL_CONTEXTS, .MILL_DISCARDS, .POOL_RETRY_HINT,
    .CHECK_EVENTS, .SUPERSEDE_EVENTS, .LEDGER_CONTROL, .LEDGER_SIGN_STEP, .LEDGER_STATUS, .THIN_ACTIVE,
    .ERROR_MEM_ALLOT, .COMPRESS_EVENTS, .COMPRESS_WAITS, .SPIRE_RECORDS, .SPIRE_EVENTS, .DISPATCH_EVENTS,
    .DISPATCH_CLOSES, .VC_WEIGHTS_LOW, .VC_WEIGHTS_HIGH, .ADMIT_STATUS, .ADMIT_LAST_REFUSAL, .ADMIT_COUNTS,
    .TALLY_EVENTS, .FT_NOW_LOW, .FT_NOW_HIGH, .TIME_STATUS]

/-- Part 1 of the index (R562). -/
def allRegs1 : List RegName :=
  [.TIME_CONTROL, .BELL_EVENTS, .LINK_ASYM, .SWITCH_POSITION, .ROUTE_CONTROL, .EPOCH_STATE, .EPOCH_NUMBER,
    .ROUTE_DISCARDS, .EPOCH_DISCARDS, .CELL_POOL_FREE, .CELL_POOL_EVENTS, .TAIL_EVENTS, .REFCOUNT_STATUS,
    .HEADROOM_EVENTS, .PORT_BUFFER, .METRO_EXT, .POOL_STATUS, .POOL_EVENTS, .SAMPLE_CONTROL, .SAMPLE_PORTS_LOW,
    .SAMPLE_PORTS_HIGH, .SAMPLE_EVENTS, .POLICE_EVENTS, .SHAPER_STATUS, .GATE_CONTROL, .GATE_SWITCH_LOW,
    .GATE_SWITCH_HIGH, .CRUISE_STATUS, .CRUISE_CONTROL, .CRUISE_EVENTS, .CRUISE_DISCARDS, .PORT_CRUISE,
    .PORT_PEER, .PORT_PEER_FW]

/-- Part 2 of the index (R562). -/
def allRegs2 : List RegName :=
  [.SURVIVAL_EVENTS, .FENCE_REQUEST_JOB, .FENCE_REQUEST_RANK, .SAVE_STATUS, .LANDING_EVENTS, .REPEAT_STATUS,
    .LANE_CONFIG, .LANE_STATUS, .LANE_PRBS, .PRBS_ERRORS, .FEC_COUNTS, .PORT_LINK, .PORT_LINK_CONTROL,
    .MEM_STATUS, .MEM_ERRORS, .MEM_ERR_ADDR_LOW, .MEM_ERR_ADDR_HIGH, .SCRUB_CONTROL, .PART_BASE, .PART_SIZE,
    .PART_RESERVED, .PART_ALLOT, .WT_STATUS, .WT_COUNTS, .RETIRE, .FORCE_SOURCE, .FORCE, .KIND_PENDING,
    .GATED_ACCESS, .GATED_ADDR, .FR_WRITE_SEQ, .FR_COPY_SEQ, .REACTION, .WDT_CONTROL]

/-- Part 3 of the index (R562). -/
def allRegs3 : List RegName :=
  [.CLOCK_STATUS, .CLOCK_GATE_CD, .ISLAND_CLOCK, .DOMAIN_RESET, .THERMAL_CONTROL, .PWR_COMMAND, .PWR_STATUS,
    .PWR_EVENTS, .PWR_LAST_REFUSER, .PWR_LAST_ABORTER, .SAG_STATUS, .BOOT_STATUS, .BOOT_CONTROL, .BOOT_FLOORS,
    .ATTEST_STATUS, .ATTEST_NONCE, .MEAS_DIGEST, .DCL_STATUS, .DCL_COUNTS, .DCL_CONTROL, .HOST_STATUS,
    .HOST_DOORBELL, .HOST_INT_STATUS, .HOST_INT_ENABLE, .HOST_INT_CONTROL, .UPD_CONTROL, .UPD_OFFSET,
    .UPD_STATUS, .SMB_CONFIG, .SMB_STATUS, .BUS_ERRORS, .BUS_ERROR_ADDR]

/-- Every register of the index (R562). -/
def allRegs : List RegName := allRegs0 ++ allRegs1 ++ allRegs2 ++ allRegs3

namespace F

/-- PART_NUMBER of DEVICE_ID (RO, after R5). -/
def DEVICE_ID_PART_NUMBER : Fld := ⟨.DEVICE_ID, 31, 16⟩
/-- GRADE of DEVICE_ID (RO, after R5). -/
def DEVICE_ID_GRADE : Fld := ⟨.DEVICE_ID, 11, 8⟩
/-- STEPPING_MAJOR of DEVICE_ID (RO, after R5). -/
def DEVICE_ID_STEPPING_MAJOR : Fld := ⟨.DEVICE_ID, 7, 4⟩
/-- STEPPING_MINOR of DEVICE_ID (RO, after R5). -/
def DEVICE_ID_STEPPING_MINOR : Fld := ⟨.DEVICE_ID, 3, 0⟩
/-- CHIPLET_UP of BRIDGE_STATUS (RO, after R19). -/
def BRIDGE_STATUS_CHIPLET_UP : Fld := ⟨.BRIDGE_STATUS, 15, 8⟩
/-- BRIDGE_FAULT of BRIDGE_STATUS (W1C, after R19). -/
def BRIDGE_STATUS_BRIDGE_FAULT : Fld := ⟨.BRIDGE_STATUS, 7, 4⟩
/-- BRIDGE_UP of BRIDGE_STATUS (RO, after R19). -/
def BRIDGE_STATUS_BRIDGE_UP : Fld := ⟨.BRIDGE_STATUS, 3, 0⟩
/-- PEER_MAX_VER of TFP_PORT_STATUS (RO, after R64). -/
def TFP_PORT_STATUS_PEER_MAX_VER : Fld := ⟨.TFP_PORT_STATUS, 31, 28⟩
/-- PEER_MIN_VER of TFP_PORT_STATUS (RO, after R64). -/
def TFP_PORT_STATUS_PEER_MIN_VER : Fld := ⟨.TFP_PORT_STATUS, 27, 24⟩
/-- SELECTED_VER of TFP_PORT_STATUS (RO, after R64). -/
def TFP_PORT_STATUS_SELECTED_VER : Fld := ⟨.TFP_PORT_STATUS, 23, 20⟩
/-- NEG_STATE of TFP_PORT_STATUS (RO, after R64). -/
def TFP_PORT_STATUS_NEG_STATE : Fld := ⟨.TFP_PORT_STATUS, 19, 18⟩
/-- HEADER_ERR of TFP_PORT_STATUS (W1C, after R64). -/
def TFP_PORT_STATUS_HEADER_ERR : Fld := ⟨.TFP_PORT_STATUS, 1, 1⟩
/-- RULE_ERR of TFP_PORT_STATUS (W1C, after R64). -/
def TFP_PORT_STATUS_RULE_ERR : Fld := ⟨.TFP_PORT_STATUS, 0, 0⟩
/-- HEADER_DISCARDS of TFP_DISCARD_COUNT (RW, after R64). -/
def TFP_DISCARD_COUNT_HEADER_DISCARDS : Fld := ⟨.TFP_DISCARD_COUNT, 31, 16⟩
/-- RULE_DISCARDS of TFP_DISCARD_COUNT (RW, after R64). -/
def TFP_DISCARD_COUNT_RULE_DISCARDS : Fld := ⟨.TFP_DISCARD_COUNT, 15, 0⟩
/-- RESCALES of ARITH_EVENTS (RW, after R100). -/
def ARITH_EVENTS_RESCALES : Fld := ⟨.ARITH_EVENTS, 31, 16⟩
/-- ANCHOR_MISMATCHES of ARITH_EVENTS (RW, after R100). -/
def ARITH_EVENTS_ANCHOR_MISMATCHES : Fld := ⟨.ARITH_EVENTS, 15, 0⟩
/-- OUTPUT_FLUSHES of ARITH_FLUSHES (RW, after R100). -/
def ARITH_FLUSHES_OUTPUT_FLUSHES : Fld := ⟨.ARITH_FLUSHES, 31, 16⟩
/-- INPUT_FLUSHES of ARITH_FLUSHES (RW, after R100). -/
def ARITH_FLUSHES_INPUT_FLUSHES : Fld := ⟨.ARITH_FLUSHES, 15, 0⟩
/-- RESIDUE_ERR of RESIDUE_STATUS (W1C, after R100). -/
def RESIDUE_STATUS_RESIDUE_ERR : Fld := ⟨.RESIDUE_STATUS, 31, 31⟩
/-- LAST_LANE of RESIDUE_STATUS (RO, after R100). -/
def RESIDUE_STATUS_LAST_LANE : Fld := ⟨.RESIDUE_STATUS, 30, 24⟩
/-- RESIDUE_FAULTS of RESIDUE_STATUS (RW, after R100). -/
def RESIDUE_STATUS_RESIDUE_FAULTS : Fld := ⟨.RESIDUE_STATUS, 15, 0⟩
/-- ENABLED of MILL_ENABLE (RO, after R101). -/
def MILL_ENABLE_ENABLED : Fld := ⟨.MILL_ENABLE, 31, 0⟩
/-- ARRIVAL_LINES of MILL_OCCUPANCY (RO, after R136). -/
def MILL_OCCUPANCY_ARRIVAL_LINES : Fld := ⟨.MILL_OCCUPANCY, 31, 18⟩
/-- GRANULE_UNITS of MILL_OCCUPANCY (RO, after R136). -/
def MILL_OCCUPANCY_GRANULE_UNITS : Fld := ⟨.MILL_OCCUPANCY, 10, 0⟩
/-- OPEN_CONTEXTS of MILL_CONTEXTS (RO, after R136). -/
def MILL_CONTEXTS_OPEN_CONTEXTS : Fld := ⟨.MILL_CONTEXTS, 31, 16⟩
/-- BUSY_NACKS of MILL_CONTEXTS (RW, after R136). -/
def MILL_CONTEXTS_BUSY_NACKS : Fld := ⟨.MILL_CONTEXTS, 15, 0⟩
/-- SEPARATION_DISCARDS of MILL_DISCARDS (RW, after R136). -/
def MILL_DISCARDS_SEPARATION_DISCARDS : Fld := ⟨.MILL_DISCARDS, 31, 16⟩
/-- STALE_DISCARDS of MILL_DISCARDS (RW, after R136). -/
def MILL_DISCARDS_STALE_DISCARDS : Fld := ⟨.MILL_DISCARDS, 15, 0⟩
/-- HINT of POOL_RETRY_HINT (RW, after R136). -/
def POOL_RETRY_HINT_HINT : Fld := ⟨.POOL_RETRY_HINT, 15, 0⟩
/-- RELEASE_FAILS of CHECK_EVENTS (RW, after R166). -/
def CHECK_EVENTS_RELEASE_FAILS : Fld := ⟨.CHECK_EVENTS, 31, 16⟩
/-- PARTIAL_FAILS of CHECK_EVENTS (RW, after R166). -/
def CHECK_EVENTS_PARTIAL_FAILS : Fld := ⟨.CHECK_EVENTS, 15, 0⟩
/-- SUPERSESSIONS of SUPERSEDE_EVENTS (RW, after R166). -/
def SUPERSEDE_EVENTS_SUPERSESSIONS : Fld := ⟨.SUPERSEDE_EVENTS, 31, 16⟩
/-- DOWNSTREAM_FAILS of SUPERSEDE_EVENTS (RW, after R166). -/
def SUPERSEDE_EVENTS_DOWNSTREAM_FAILS : Fld := ⟨.SUPERSEDE_EVENTS, 15, 0⟩
/-- SIGN_ALL of LEDGER_CONTROL (RW, after R166). -/
def LEDGER_CONTROL_SIGN_ALL : Fld := ⟨.LEDGER_CONTROL, 31, 31⟩
/-- SIGN_JOB of LEDGER_CONTROL (RW, after R166). -/
def LEDGER_CONTROL_SIGN_JOB : Fld := ⟨.LEDGER_CONTROL, 11, 0⟩
/-- STEP of LEDGER_SIGN_STEP (WO, after R166). -/
def LEDGER_SIGN_STEP_STEP : Fld := ⟨.LEDGER_SIGN_STEP, 31, 0⟩
/-- SIGN_BUSY of LEDGER_STATUS (RO, after R166). -/
def LEDGER_STATUS_SIGN_BUSY : Fld := ⟨.LEDGER_STATUS, 31, 31⟩
/-- SIGN_ERR of LEDGER_STATUS (W1C, after R166). -/
def LEDGER_STATUS_SIGN_ERR : Fld := ⟨.LEDGER_STATUS, 30, 30⟩
/-- SIGNATURES of LEDGER_STATUS (RW, after R166). -/
def LEDGER_STATUS_SIGNATURES : Fld := ⟨.LEDGER_STATUS, 15, 0⟩
/-- THIN of THIN_ACTIVE (RO, after R191). -/
def THIN_ACTIVE_THIN : Fld := ⟨.THIN_ACTIVE, 31, 0⟩
/-- RESERVED_GBS of ERROR_MEM_ALLOT (RO, after R191). -/
def ERROR_MEM_ALLOT_RESERVED_GBS : Fld := ⟨.ERROR_MEM_ALLOT, 15, 0⟩
/-- SCALE_CLAMPS of COMPRESS_EVENTS (RW, after R191). -/
def COMPRESS_EVENTS_SCALE_CLAMPS : Fld := ⟨.COMPRESS_EVENTS, 31, 16⟩
/-- SPECIAL_BLOCKS of COMPRESS_EVENTS (RW, after R191). -/
def COMPRESS_EVENTS_SPECIAL_BLOCKS : Fld := ⟨.COMPRESS_EVENTS, 15, 0⟩
/-- RESIDUAL_SATURATIONS of COMPRESS_WAITS (RW, after R191). -/
def COMPRESS_WAITS_RESIDUAL_SATURATIONS : Fld := ⟨.COMPRESS_WAITS, 31, 16⟩
/-- COMMIT_WAITS of COMPRESS_WAITS (RW, after R191). -/
def COMPRESS_WAITS_COMMIT_WAITS : Fld := ⟨.COMPRESS_WAITS, 15, 0⟩
/-- RECORDS_HELD of SPIRE_RECORDS (RO, after R221). -/
def SPIRE_RECORDS_RECORDS_HELD : Fld := ⟨.SPIRE_RECORDS, 16, 2⟩
/-- RECORD_TIMEOUT of SPIRE_RECORDS (W1C, after R221). -/
def SPIRE_RECORDS_RECORD_TIMEOUT : Fld := ⟨.SPIRE_RECORDS, 1, 1⟩
/-- RECORD_BUSY of SPIRE_EVENTS (RW, after R221). -/
def SPIRE_EVENTS_RECORD_BUSY : Fld := ⟨.SPIRE_EVENTS, 31, 16⟩
/-- SET_REFUSALS of SPIRE_EVENTS (RW, after R221). -/
def SPIRE_EVENTS_SET_REFUSALS : Fld := ⟨.SPIRE_EVENTS, 15, 0⟩
/-- DISPATCH_DROPS of DISPATCH_EVENTS (RW, after R221). -/
def DISPATCH_EVENTS_DISPATCH_DROPS : Fld := ⟨.DISPATCH_EVENTS, 31, 16⟩
/-- FENCED_DROPS of DISPATCH_EVENTS (RW, after R221). -/
def DISPATCH_EVENTS_FENCED_DROPS : Fld := ⟨.DISPATCH_EVENTS, 15, 0⟩
/-- PADDED_SLOTS of DISPATCH_CLOSES (RW, after R221). -/
def DISPATCH_CLOSES_PADDED_SLOTS : Fld := ⟨.DISPATCH_CLOSES, 31, 16⟩
/-- GRANTED_SLOTS of DISPATCH_CLOSES (RW, after R221). -/
def DISPATCH_CLOSES_GRANTED_SLOTS : Fld := ⟨.DISPATCH_CLOSES, 15, 0⟩
/-- VC3_WEIGHT of VC_WEIGHTS_LOW (RO, after R221). -/
def VC_WEIGHTS_LOW_VC3_WEIGHT : Fld := ⟨.VC_WEIGHTS_LOW, 31, 24⟩
/-- VC2_WEIGHT of VC_WEIGHTS_LOW (RO, after R221). -/
def VC_WEIGHTS_LOW_VC2_WEIGHT : Fld := ⟨.VC_WEIGHTS_LOW, 23, 16⟩
/-- VC1_WEIGHT of VC_WEIGHTS_LOW (RO, after R221). -/
def VC_WEIGHTS_LOW_VC1_WEIGHT : Fld := ⟨.VC_WEIGHTS_LOW, 15, 8⟩
/-- VC0_WEIGHT of VC_WEIGHTS_LOW (RO, after R221). -/
def VC_WEIGHTS_LOW_VC0_WEIGHT : Fld := ⟨.VC_WEIGHTS_LOW, 7, 0⟩
/-- VC7_WEIGHT of VC_WEIGHTS_HIGH (RO, after R221). -/
def VC_WEIGHTS_HIGH_VC7_WEIGHT : Fld := ⟨.VC_WEIGHTS_HIGH, 31, 24⟩
/-- VC6_WEIGHT of VC_WEIGHTS_HIGH (RO, after R221). -/
def VC_WEIGHTS_HIGH_VC6_WEIGHT : Fld := ⟨.VC_WEIGHTS_HIGH, 23, 16⟩
/-- VC5_WEIGHT of VC_WEIGHTS_HIGH (RO, after R221). -/
def VC_WEIGHTS_HIGH_VC5_WEIGHT : Fld := ⟨.VC_WEIGHTS_HIGH, 15, 8⟩
/-- VC4_WEIGHT of VC_WEIGHTS_HIGH (RO, after R221). -/
def VC_WEIGHTS_HIGH_VC4_WEIGHT : Fld := ⟨.VC_WEIGHTS_HIGH, 7, 0⟩
/-- LAST_CODE of ADMIT_STATUS (RO, after R249). -/
def ADMIT_STATUS_LAST_CODE : Fld := ⟨.ADMIT_STATUS, 31, 16⟩
/-- JOBS_LIVE of ADMIT_STATUS (RO, after R249). -/
def ADMIT_STATUS_JOBS_LIVE : Fld := ⟨.ADMIT_STATUS, 12, 0⟩
/-- JOB of ADMIT_LAST_REFUSAL (RO, after R249). -/
def ADMIT_LAST_REFUSAL_JOB : Fld := ⟨.ADMIT_LAST_REFUSAL, 31, 20⟩
/-- CODE of ADMIT_LAST_REFUSAL (RO, after R249). -/
def ADMIT_LAST_REFUSAL_CODE : Fld := ⟨.ADMIT_LAST_REFUSAL, 15, 0⟩
/-- REFUSALS of ADMIT_COUNTS (RW, after R249). -/
def ADMIT_COUNTS_REFUSALS : Fld := ⟨.ADMIT_COUNTS, 31, 16⟩
/-- ADMISSIONS of ADMIT_COUNTS (RW, after R249). -/
def ADMIT_COUNTS_ADMISSIONS : Fld := ⟨.ADMIT_COUNTS, 15, 0⟩
/-- TALLY_CLAMPS of TALLY_EVENTS (RW, after R249). -/
def TALLY_EVENTS_TALLY_CLAMPS : Fld := ⟨.TALLY_EVENTS, 31, 16⟩
/-- TALLY_RECORDS of TALLY_EVENTS (RW, after R249). -/
def TALLY_EVENTS_TALLY_RECORDS : Fld := ⟨.TALLY_EVENTS, 15, 0⟩
/-- NS_LOW of FT_NOW_LOW (RO, after R269). -/
def FT_NOW_LOW_NS_LOW : Fld := ⟨.FT_NOW_LOW, 31, 0⟩
/-- NS_HIGH of FT_NOW_HIGH (RO, after R269). -/
def FT_NOW_HIGH_NS_HIGH : Fld := ⟨.FT_NOW_HIGH, 31, 0⟩
/-- STATE of TIME_STATUS (RO, after R269). -/
def TIME_STATUS_STATE : Fld := ⟨.TIME_STATUS, 31, 29⟩
/-- PARENT_PORT of TIME_STATUS (RO, after R269). -/
def TIME_STATUS_PARENT_PORT : Fld := ⟨.TIME_STATUS, 28, 21⟩
/-- HOLDOVER_SEEN of TIME_STATUS (W1C, after R269). -/
def TIME_STATUS_HOLDOVER_SEEN : Fld := ⟨.TIME_STATUS, 20, 20⟩
/-- PARENT_VALID of TIME_STATUS (RO, after R269). -/
def TIME_STATUS_PARENT_VALID : Fld := ⟨.TIME_STATUS, 19, 19⟩
/-- NOW_FRAC of TIME_STATUS (RO, after R269). -/
def TIME_STATUS_NOW_FRAC : Fld := ⟨.TIME_STATUS, 15, 0⟩
/-- DEFAULT_LEAD of TIME_CONTROL (RW, after R269). -/
def TIME_CONTROL_DEFAULT_LEAD : Fld := ⟨.TIME_CONTROL, 31, 16⟩
/-- SYNC_PERIOD of TIME_CONTROL (RW, after R269). -/
def TIME_CONTROL_SYNC_PERIOD : Fld := ⟨.TIME_CONTROL, 9, 0⟩
/-- BELL_MISMATCHES of BELL_EVENTS (RW, after R269). -/
def BELL_EVENTS_BELL_MISMATCHES : Fld := ⟨.BELL_EVENTS, 31, 16⟩
/-- BELL_STALE of BELL_EVENTS (RW, after R269). -/
def BELL_EVENTS_BELL_STALE : Fld := ⟨.BELL_EVENTS, 15, 0⟩
/-- ASYM of LINK_ASYM (RW, after R269). -/
def LINK_ASYM_ASYM : Fld := ⟨.LINK_ASYM, 31, 0⟩
/-- TIER of SWITCH_POSITION (RO, after R291). -/
def SWITCH_POSITION_TIER : Fld := ⟨.SWITCH_POSITION, 31, 30⟩
/-- CHILD_SHIFT of SWITCH_POSITION (RO, after R291). -/
def SWITCH_POSITION_CHILD_SHIFT : Fld := ⟨.SWITCH_POSITION, 29, 25⟩
/-- CHILD_BITS of SWITCH_POSITION (RO, after R291). -/
def SWITCH_POSITION_CHILD_BITS : Fld := ⟨.SWITCH_POSITION, 24, 21⟩
/-- POSITION of SWITCH_POSITION (RO, after R291). -/
def SWITCH_POSITION_POSITION : Fld := ⟨.SWITCH_POSITION, 14, 0⟩
/-- OBLIVIOUS of ROUTE_CONTROL (RO, after R291). -/
def ROUTE_CONTROL_OBLIVIOUS : Fld := ⟨.ROUTE_CONTROL, 31, 24⟩
/-- MAX_FRAME_AGE of ROUTE_CONTROL (RW, after R291). -/
def ROUTE_CONTROL_MAX_FRAME_AGE : Fld := ⟨.ROUTE_CONTROL, 9, 0⟩
/-- CURRENT_BIT of EPOCH_STATE (RO, after R291). -/
def EPOCH_STATE_CURRENT_BIT : Fld := ⟨.EPOCH_STATE, 31, 31⟩
/-- PHASE of EPOCH_STATE (RO, after R291). -/
def EPOCH_STATE_PHASE : Fld := ⟨.EPOCH_STATE, 30, 29⟩
/-- EPOCH_NUM of EPOCH_NUMBER (RO, after R291). -/
def EPOCH_NUMBER_EPOCH_NUM : Fld := ⟨.EPOCH_NUMBER, 31, 0⟩
/-- NO_ROUTE of ROUTE_DISCARDS (RW, after R291). -/
def ROUTE_DISCARDS_NO_ROUTE : Fld := ⟨.ROUTE_DISCARDS, 31, 16⟩
/-- ROUTE_VIOLATIONS of ROUTE_DISCARDS (RW, after R291). -/
def ROUTE_DISCARDS_ROUTE_VIOLATIONS : Fld := ⟨.ROUTE_DISCARDS, 15, 0⟩
/-- STALE_EPOCH of EPOCH_DISCARDS (RW, after R291). -/
def EPOCH_DISCARDS_STALE_EPOCH : Fld := ⟨.EPOCH_DISCARDS, 31, 16⟩
/-- AGE_DISCARDS of EPOCH_DISCARDS (RW, after R291). -/
def EPOCH_DISCARDS_AGE_DISCARDS : Fld := ⟨.EPOCH_DISCARDS, 15, 0⟩
/-- SHARED_FREE of CELL_POOL_FREE (RO, after R315). -/
def CELL_POOL_FREE_SHARED_FREE : Fld := ⟨.CELL_POOL_FREE, 18, 0⟩
/-- PUSH_OUTS of CELL_POOL_EVENTS (RW, after R315). -/
def CELL_POOL_EVENTS_PUSH_OUTS : Fld := ⟨.CELL_POOL_EVENTS, 31, 16⟩
/-- VC3_DROPS of CELL_POOL_EVENTS (RW, after R315). -/
def CELL_POOL_EVENTS_VC3_DROPS : Fld := ⟨.CELL_POOL_EVENTS, 15, 0⟩
/-- TAIL_MARKS of TAIL_EVENTS (RW, after R315). -/
def TAIL_EVENTS_TAIL_MARKS : Fld := ⟨.TAIL_EVENTS, 31, 16⟩
/-- TAIL_DISCARDS of TAIL_EVENTS (RW, after R315). -/
def TAIL_EVENTS_TAIL_DISCARDS : Fld := ⟨.TAIL_EVENTS, 15, 0⟩
/-- REFCOUNT_FALLBACK of REFCOUNT_STATUS (RO, after R315). -/
def REFCOUNT_STATUS_REFCOUNT_FALLBACK : Fld := ⟨.REFCOUNT_STATUS, 31, 31⟩
/-- RESTORE_COUNTS of REFCOUNT_STATUS (WO, after R315). -/
def REFCOUNT_STATUS_RESTORE_COUNTS : Fld := ⟨.REFCOUNT_STATUS, 30, 30⟩
/-- LATE_COPY_DISCARDS of REFCOUNT_STATUS (RW, after R315). -/
def REFCOUNT_STATUS_LATE_COPY_DISCARDS : Fld := ⟨.REFCOUNT_STATUS, 15, 0⟩
/-- HEADROOM_OVERRUNS of HEADROOM_EVENTS (RW, after R315). -/
def HEADROOM_EVENTS_HEADROOM_OVERRUNS : Fld := ⟨.HEADROOM_EVENTS, 31, 16⟩
/-- PAUSING of PORT_BUFFER (RO, after R315). -/
def PORT_BUFFER_PAUSING : Fld := ⟨.PORT_BUFFER, 31, 24⟩
/-- PAUSED of PORT_BUFFER (RO, after R315). -/
def PORT_BUFFER_PAUSED : Fld := ⟨.PORT_BUFFER, 23, 16⟩
/-- HEADROOM_CELLS of PORT_BUFFER (RO, after R315). -/
def PORT_BUFFER_HEADROOM_CELLS : Fld := ⟨.PORT_BUFFER, 15, 0⟩
/-- ENABLED of METRO_EXT (RO, after R315). -/
def METRO_EXT_ENABLED : Fld := ⟨.METRO_EXT, 31, 31⟩
/-- PORT of METRO_EXT (RO, after R315). -/
def METRO_EXT_PORT : Fld := ⟨.METRO_EXT, 25, 18⟩
/-- KIB_QUEUED of METRO_EXT (RO, after R315). -/
def METRO_EXT_KIB_QUEUED : Fld := ⟨.METRO_EXT, 17, 0⟩
/-- FREE_UNITS of POOL_STATUS (RO, after R315). -/
def POOL_STATUS_FREE_UNITS : Fld := ⟨.POOL_STATUS, 31, 21⟩
/-- RESERVED_UNITS of POOL_STATUS (RO, after R315). -/
def POOL_STATUS_RESERVED_UNITS : Fld := ⟨.POOL_STATUS, 20, 10⟩
/-- SINGLE_SIZE of POOL_STATUS (RO, after R315). -/
def POOL_STATUS_SINGLE_SIZE : Fld := ⟨.POOL_STATUS, 0, 0⟩
/-- REMAINDER_GRANTS of POOL_EVENTS (RW, after R315). -/
def POOL_EVENTS_REMAINDER_GRANTS : Fld := ⟨.POOL_EVENTS, 31, 16⟩
/-- COMPACTIONS of POOL_EVENTS (RW, after R315). -/
def POOL_EVENTS_COMPACTIONS : Fld := ⟨.POOL_EVENTS, 15, 0⟩
/-- SAMPLE_EN of SAMPLE_CONTROL (RW, after R335). -/
def SAMPLE_CONTROL_SAMPLE_EN : Fld := ⟨.SAMPLE_CONTROL, 31, 31⟩
/-- SAMPLE_PERIOD of SAMPLE_CONTROL (RW, after R335). -/
def SAMPLE_CONTROL_SAMPLE_PERIOD : Fld := ⟨.SAMPLE_CONTROL, 13, 0⟩
/-- PORTS of SAMPLE_PORTS_LOW (RW, after R335). -/
def SAMPLE_PORTS_LOW_PORTS : Fld := ⟨.SAMPLE_PORTS_LOW, 31, 0⟩
/-- PORTS of SAMPLE_PORTS_HIGH (RW, after R335). -/
def SAMPLE_PORTS_HIGH_PORTS : Fld := ⟨.SAMPLE_PORTS_HIGH, 31, 0⟩
/-- SAMPLE_DROPS of SAMPLE_EVENTS (RW, after R335). -/
def SAMPLE_EVENTS_SAMPLE_DROPS : Fld := ⟨.SAMPLE_EVENTS, 31, 16⟩
/-- EFFECTIVE_PERIOD of SAMPLE_EVENTS (RO, after R335). -/
def SAMPLE_EVENTS_EFFECTIVE_PERIOD : Fld := ⟨.SAMPLE_EVENTS, 13, 0⟩
/-- POLICED_NACKS of POLICE_EVENTS (RW, after R335). -/
def POLICE_EVENTS_POLICED_NACKS : Fld := ⟨.POLICE_EVENTS, 31, 16⟩
/-- SILENT_POLICED of POLICE_EVENTS (RW, after R335). -/
def POLICE_EVENTS_SILENT_POLICED : Fld := ⟨.POLICE_EVENTS, 15, 0⟩
/-- SHAPER_ERR of SHAPER_STATUS (W1C, after R335). -/
def SHAPER_STATUS_SHAPER_ERR : Fld := ⟨.SHAPER_STATUS, 31, 31⟩
/-- LAST_BAD_ENTRY of SHAPER_STATUS (RO, after R335). -/
def SHAPER_STATUS_LAST_BAD_ENTRY : Fld := ⟨.SHAPER_STATUS, 11, 0⟩
/-- ARM of GATE_CONTROL (WO, after R335). -/
def GATE_CONTROL_ARM : Fld := ⟨.GATE_CONTROL, 31, 31⟩
/-- ACTIVE_LIST of GATE_CONTROL (RO, after R335). -/
def GATE_CONTROL_ACTIVE_LIST : Fld := ⟨.GATE_CONTROL, 30, 30⟩
/-- SWAP_PENDING of GATE_CONTROL (RO, after R335). -/
def GATE_CONTROL_SWAP_PENDING : Fld := ⟨.GATE_CONTROL, 29, 29⟩
/-- GATE_ERR of GATE_CONTROL (W1C, after R335). -/
def GATE_CONTROL_GATE_ERR : Fld := ⟨.GATE_CONTROL, 28, 28⟩
/-- BYPASS of GATE_CONTROL (RO, after R335). -/
def GATE_CONTROL_BYPASS : Fld := ⟨.GATE_CONTROL, 27, 27⟩
/-- GATE_EN of GATE_CONTROL (RW, after R335). -/
def GATE_CONTROL_GATE_EN : Fld := ⟨.GATE_CONTROL, 26, 26⟩
/-- NS_LOW of GATE_SWITCH_LOW (RW, after R335). -/
def GATE_SWITCH_LOW_NS_LOW : Fld := ⟨.GATE_SWITCH_LOW, 31, 0⟩
/-- NS_HIGH of GATE_SWITCH_HIGH (RW, after R335). -/
def GATE_SWITCH_HIGH_NS_HIGH : Fld := ⟨.GATE_SWITCH_HIGH, 31, 0⟩
/-- SWEEP_ACTIVE of CRUISE_STATUS (RO, after R356). -/
def CRUISE_STATUS_SWEEP_ACTIVE : Fld := ⟨.CRUISE_STATUS, 31, 31⟩
/-- FIRST_DONE of CRUISE_STATUS (RO, after R356). -/
def CRUISE_STATUS_FIRST_DONE : Fld := ⟨.CRUISE_STATUS, 30, 30⟩
/-- SWEEP of CRUISE_STATUS (RO, after R356). -/
def CRUISE_STATUS_SWEEP : Fld := ⟨.CRUISE_STATUS, 15, 0⟩
/-- SWEEP_NOW of CRUISE_CONTROL (WO, after R356). -/
def CRUISE_CONTROL_SWEEP_NOW : Fld := ⟨.CRUISE_CONTROL, 31, 31⟩
/-- QUARANTINES of CRUISE_EVENTS (RW, after R356). -/
def CRUISE_EVENTS_QUARANTINES : Fld := ⟨.CRUISE_EVENTS, 31, 16⟩
/-- QUARANTINE_DISCARDS of CRUISE_EVENTS (RW, after R356). -/
def CRUISE_EVENTS_QUARANTINE_DISCARDS : Fld := ⟨.CRUISE_EVENTS, 15, 0⟩
/-- UNKNOWN_MGMT of CRUISE_DISCARDS (RW, after R356). -/
def CRUISE_DISCARDS_UNKNOWN_MGMT : Fld := ⟨.CRUISE_DISCARDS, 31, 16⟩
/-- RESULT of PORT_CRUISE (RO, after R356). -/
def PORT_CRUISE_RESULT : Fld := ⟨.PORT_CRUISE, 31, 28⟩
/-- QUARANTINED of PORT_CRUISE (RO, after R356). -/
def PORT_CRUISE_QUARANTINED : Fld := ⟨.PORT_CRUISE, 27, 27⟩
/-- FORCE of PORT_CRUISE (RW, after R356). -/
def PORT_CRUISE_FORCE : Fld := ⟨.PORT_CRUISE, 26, 26⟩
/-- FW_DIFFERS of PORT_CRUISE (RO, after R356). -/
def PORT_CRUISE_FW_DIFFERS : Fld := ⟨.PORT_CRUISE, 25, 25⟩
/-- SWAP_PORT of PORT_CRUISE (RO, after R356). -/
def PORT_CRUISE_SWAP_PORT : Fld := ⟨.PORT_CRUISE, 23, 16⟩
/-- LAST_SWEEP of PORT_CRUISE (RO, after R356). -/
def PORT_CRUISE_LAST_SWEEP : Fld := ⟨.PORT_CRUISE, 15, 0⟩
/-- PEER_PORT of PORT_PEER (RO, after R356). -/
def PORT_PEER_PEER_PORT : Fld := ⟨.PORT_PEER, 31, 24⟩
/-- PEER_FLAT_ID of PORT_PEER (RO, after R356). -/
def PORT_PEER_PEER_FLAT_ID : Fld := ⟨.PORT_PEER, 23, 0⟩
/-- PEER_FW_VERSION of PORT_PEER_FW (RO, after R356). -/
def PORT_PEER_FW_PEER_FW_VERSION : Fld := ⟨.PORT_PEER_FW, 31, 0⟩
/-- STRAGGLER_REPORTS of SURVIVAL_EVENTS (RW, after R382). -/
def SURVIVAL_EVENTS_STRAGGLER_REPORTS : Fld := ⟨.SURVIVAL_EVENTS, 31, 16⟩
/-- FENCE_REQUESTS of SURVIVAL_EVENTS (RW, after R382). -/
def SURVIVAL_EVENTS_FENCE_REQUESTS : Fld := ⟨.SURVIVAL_EVENTS, 15, 0⟩
/-- JOB of FENCE_REQUEST_JOB (RW, after R382). -/
def FENCE_REQUEST_JOB_JOB : Fld := ⟨.FENCE_REQUEST_JOB, 11, 0⟩
/-- RANK of FENCE_REQUEST_RANK (WO, after R382). -/
def FENCE_REQUEST_RANK_RANK : Fld := ⟨.FENCE_REQUEST_RANK, 17, 0⟩
/-- SAVE_BUSY of SAVE_STATUS (RO, after R382). -/
def SAVE_STATUS_SAVE_BUSY : Fld := ⟨.SAVE_STATUS, 31, 31⟩
/-- RESTORE_BUSY of SAVE_STATUS (RO, after R382). -/
def SAVE_STATUS_RESTORE_BUSY : Fld := ⟨.SAVE_STATUS, 30, 30⟩
/-- LAST_CODE of SAVE_STATUS (RO, after R382). -/
def SAVE_STATUS_LAST_CODE : Fld := ⟨.SAVE_STATUS, 15, 12⟩
/-- LAST_JOB of SAVE_STATUS (RO, after R382). -/
def SAVE_STATUS_LAST_JOB : Fld := ⟨.SAVE_STATUS, 11, 0⟩
/-- FENCED_EGRESS of LANDING_EVENTS (RW, after R382). -/
def LANDING_EVENTS_FENCED_EGRESS : Fld := ⟨.LANDING_EVENTS, 31, 16⟩
/-- LANDING_CORRUPT of LANDING_EVENTS (RW, after R382). -/
def LANDING_EVENTS_LANDING_CORRUPT : Fld := ⟨.LANDING_EVENTS, 15, 0⟩
/-- THROTTLED of REPEAT_STATUS (W1C, after R398). -/
def REPEAT_STATUS_THROTTLED : Fld := ⟨.REPEAT_STATUS, 31, 31⟩
/-- TIME_UNLOCKED of REPEAT_STATUS (W1C, after R398). -/
def REPEAT_STATUS_TIME_UNLOCKED : Fld := ⟨.REPEAT_STATUS, 30, 30⟩
/-- EPOCH_CHANGED of REPEAT_STATUS (W1C, after R398). -/
def REPEAT_STATUS_EPOCH_CHANGED : Fld := ⟨.REPEAT_STATUS, 29, 29⟩
/-- ADAPTIVE_USED of REPEAT_STATUS (RO, after R398). -/
def REPEAT_STATUS_ADAPTIVE_USED : Fld := ⟨.REPEAT_STATUS, 28, 28⟩
/-- REFRESH_DELAYS of REPEAT_STATUS (RW, after R398). -/
def REPEAT_STATUS_REFRESH_DELAYS : Fld := ⟨.REPEAT_STATUS, 15, 0⟩
/-- MODE of LANE_CONFIG (RO, after R418). -/
def LANE_CONFIG_MODE : Fld := ⟨.LANE_CONFIG, 31, 30⟩
/-- TX_INVERT of LANE_CONFIG (RO, after R418). -/
def LANE_CONFIG_TX_INVERT : Fld := ⟨.LANE_CONFIG, 29, 29⟩
/-- RX_INVERTED of LANE_CONFIG (RO, after R418). -/
def LANE_CONFIG_RX_INVERTED : Fld := ⟨.LANE_CONFIG, 28, 28⟩
/-- LOGICAL_LANE of LANE_CONFIG (RO, after R418). -/
def LANE_CONFIG_LOGICAL_LANE : Fld := ⟨.LANE_CONFIG, 27, 25⟩
/-- TX_ORDER of LANE_CONFIG (RO, after R418). -/
def LANE_CONFIG_TX_ORDER : Fld := ⟨.LANE_CONFIG, 24, 22⟩
/-- SIGNAL of LANE_STATUS (RO, after R418). -/
def LANE_STATUS_SIGNAL : Fld := ⟨.LANE_STATUS, 31, 31⟩
/-- CDR_LOCK of LANE_STATUS (RO, after R418). -/
def LANE_STATUS_CDR_LOCK : Fld := ⟨.LANE_STATUS, 30, 30⟩
/-- CW_LOCK of LANE_STATUS (RO, after R418). -/
def LANE_STATUS_CW_LOCK : Fld := ⟨.LANE_STATUS, 29, 29⟩
/-- MARKER_LOCK of LANE_STATUS (RO, after R418). -/
def LANE_STATUS_MARKER_LOCK : Fld := ⟨.LANE_STATUS, 28, 28⟩
/-- RX_SNR of LANE_STATUS (RO, after R418). -/
def LANE_STATUS_RX_SNR : Fld := ⟨.LANE_STATUS, 15, 0⟩
/-- GEN_EN of LANE_PRBS (RW, after R418). -/
def LANE_PRBS_GEN_EN : Fld := ⟨.LANE_PRBS, 31, 31⟩
/-- CHK_EN of LANE_PRBS (RW, after R418). -/
def LANE_PRBS_CHK_EN : Fld := ⟨.LANE_PRBS, 30, 30⟩
/-- PATTERN of LANE_PRBS (RW, after R418). -/
def LANE_PRBS_PATTERN : Fld := ⟨.LANE_PRBS, 29, 28⟩
/-- CHK_LOCK of LANE_PRBS (RO, after R418). -/
def LANE_PRBS_CHK_LOCK : Fld := ⟨.LANE_PRBS, 27, 27⟩
/-- ERRORS of PRBS_ERRORS (RW, after R418). -/
def PRBS_ERRORS_ERRORS : Fld := ⟨.PRBS_ERRORS, 31, 0⟩
/-- CORRECTED_CW of FEC_COUNTS (RW, after R418). -/
def FEC_COUNTS_CORRECTED_CW : Fld := ⟨.FEC_COUNTS, 31, 16⟩
/-- UNCORRECTABLE_CW of FEC_COUNTS (RW, after R418). -/
def FEC_COUNTS_UNCORRECTABLE_CW : Fld := ⟨.FEC_COUNTS, 15, 0⟩
/-- LINK_STATE of PORT_LINK (RO, after R418). -/
def PORT_LINK_LINK_STATE : Fld := ⟨.PORT_LINK, 31, 28⟩
/-- WIDTH of PORT_LINK (RO, after R418). -/
def PORT_LINK_WIDTH : Fld := ⟨.PORT_LINK, 27, 26⟩
/-- MEDIUM of PORT_LINK (RO, after R418). -/
def PORT_LINK_MEDIUM : Fld := ⟨.PORT_LINK, 25, 24⟩
/-- BAD_BLOCKS of PORT_LINK (RW, after R418). -/
def PORT_LINK_BAD_BLOCKS : Fld := ⟨.PORT_LINK, 23, 16⟩
/-- TRAIN_FAILS of PORT_LINK (RW, after R418). -/
def PORT_LINK_TRAIN_FAILS : Fld := ⟨.PORT_LINK, 15, 8⟩
/-- LOCK_LOSSES of PORT_LINK (RW, after R418). -/
def PORT_LINK_LOCK_LOSSES : Fld := ⟨.PORT_LINK, 7, 0⟩
/-- FORCE_DOWN of PORT_LINK_CONTROL (RW, after R418). -/
def PORT_LINK_CONTROL_FORCE_DOWN : Fld := ⟨.PORT_LINK_CONTROL, 31, 31⟩
/-- QUIET_IDLE of PORT_LINK_CONTROL (RW, after R418). -/
def PORT_LINK_CONTROL_QUIET_IDLE : Fld := ⟨.PORT_LINK_CONTROL, 25, 16⟩
/-- UNCORR_LIMIT of PORT_LINK_CONTROL (RW, after R418). -/
def PORT_LINK_CONTROL_UNCORR_LIMIT : Fld := ⟨.PORT_LINK_CONTROL, 15, 0⟩
/-- STATE of MEM_STATUS (RO, after R440). -/
def MEM_STATUS_STATE : Fld := ⟨.MEM_STATUS, 31, 29⟩
/-- THERMAL of MEM_STATUS (W1C, after R440). -/
def MEM_STATUS_THERMAL : Fld := ⟨.MEM_STATUS, 28, 28⟩
/-- MAX_TEMP of MEM_STATUS (RO, after R440). -/
def MEM_STATUS_MAX_TEMP : Fld := ⟨.MEM_STATUS, 23, 16⟩
/-- SCRUB_PASSES of MEM_STATUS (RO, after R440). -/
def MEM_STATUS_SCRUB_PASSES : Fld := ⟨.MEM_STATUS, 15, 0⟩
/-- CORRECTED of MEM_ERRORS (RW, after R440). -/
def MEM_ERRORS_CORRECTED : Fld := ⟨.MEM_ERRORS, 31, 16⟩
/-- UNCORRECTABLE of MEM_ERRORS (RW, after R440). -/
def MEM_ERRORS_UNCORRECTABLE : Fld := ⟨.MEM_ERRORS, 15, 0⟩
/-- ADDR_LOW of MEM_ERR_ADDR_LOW (RO, after R440). -/
def MEM_ERR_ADDR_LOW_ADDR_LOW : Fld := ⟨.MEM_ERR_ADDR_LOW, 31, 0⟩
/-- ADDR_KIND of MEM_ERR_ADDR_HIGH (RO, after R440). -/
def MEM_ERR_ADDR_HIGH_ADDR_KIND : Fld := ⟨.MEM_ERR_ADDR_HIGH, 31, 30⟩
/-- FAULT_KIND of MEM_ERR_ADDR_HIGH (RO, after R440). -/
def MEM_ERR_ADDR_HIGH_FAULT_KIND : Fld := ⟨.MEM_ERR_ADDR_HIGH, 29, 24⟩
/-- ADDR_HIGH of MEM_ERR_ADDR_HIGH (RO, after R440). -/
def MEM_ERR_ADDR_HIGH_ADDR_HIGH : Fld := ⟨.MEM_ERR_ADDR_HIGH, 8, 0⟩
/-- SCRUB_HOURS of SCRUB_CONTROL (RW, after R440). -/
def SCRUB_CONTROL_SCRUB_HOURS : Fld := ⟨.SCRUB_CONTROL, 7, 0⟩
/-- BASE_MIB of PART_BASE (RO, after R440). -/
def PART_BASE_BASE_MIB : Fld := ⟨.PART_BASE, 20, 0⟩
/-- SIZE_MIB of PART_SIZE (RO, after R440). -/
def PART_SIZE_SIZE_MIB : Fld := ⟨.PART_SIZE, 20, 0⟩
/-- RESERVED_MIB of PART_RESERVED (RO, after R440). -/
def PART_RESERVED_RESERVED_MIB : Fld := ⟨.PART_RESERVED, 20, 0⟩
/-- ALLOT_GBS of PART_ALLOT (RO, after R440). -/
def PART_ALLOT_ALLOT_GBS : Fld := ⟨.PART_ALLOT, 13, 0⟩
/-- HALTED of WT_STATUS (RO, after R460). -/
def WT_STATUS_HALTED : Fld := ⟨.WT_STATUS, 31, 31⟩
/-- OVERFLOW of WT_STATUS (W1C, after R460). -/
def WT_STATUS_OVERFLOW : Fld := ⟨.WT_STATUS, 30, 30⟩
/-- IRQ_PENDING of WT_STATUS (W1C, after R460). -/
def WT_STATUS_IRQ_PENDING : Fld := ⟨.WT_STATUS, 29, 29⟩
/-- CLASS_SEEN of WT_STATUS (W1C, after R460). -/
def WT_STATUS_CLASS_SEEN : Fld := ⟨.WT_STATUS, 28, 25⟩
/-- REACTED of WT_STATUS (RO, after R460). -/
def WT_STATUS_REACTED : Fld := ⟨.WT_STATUS, 21, 11⟩
/-- ENTRIES of WT_STATUS (RO, after R460). -/
def WT_STATUS_ENTRIES : Fld := ⟨.WT_STATUS, 10, 0⟩
/-- OVERFLOW_COUNT of WT_COUNTS (RW, after R460). -/
def WT_COUNTS_OVERFLOW_COUNT : Fld := ⟨.WT_COUNTS, 31, 16⟩
/-- ABORT_SKIPPED of WT_COUNTS (RW, after R460). -/
def WT_COUNTS_ABORT_SKIPPED : Fld := ⟨.WT_COUNTS, 15, 0⟩
/-- COUNT of RETIRE (WO, after R460). -/
def RETIRE_COUNT : Fld := ⟨.RETIRE, 10, 0⟩
/-- SOURCE of FORCE_SOURCE (RW, after R460). -/
def FORCE_SOURCE_SOURCE : Fld := ⟨.FORCE_SOURCE, 18, 0⟩
/-- GO of FORCE (WO, after R460). -/
def FORCE_GO : Fld := ⟨.FORCE, 31, 31⟩
/-- HOLD of FORCE (RW, after R460). -/
def FORCE_HOLD : Fld := ⟨.FORCE, 30, 30⟩
/-- FORCE_ACT of FORCE (RW, after R460). -/
def FORCE_FORCE_ACT : Fld := ⟨.FORCE, 29, 29⟩
/-- CLASS of FORCE (RW, after R460). -/
def FORCE_CLASS : Fld := ⟨.FORCE, 9, 8⟩
/-- KIND of FORCE (RW, after R460). -/
def FORCE_KIND : Fld := ⟨.FORCE, 7, 0⟩
/-- PENDING of KIND_PENDING (W1C, after R460). -/
def KIND_PENDING_PENDING : Fld := ⟨.KIND_PENDING, 31, 0⟩
/-- GATED_ACCESS_COUNT of GATED_ACCESS (RW, after R460). -/
def GATED_ACCESS_GATED_ACCESS_COUNT : Fld := ⟨.GATED_ACCESS, 31, 0⟩
/-- ADDR of GATED_ADDR (RO, after R460). -/
def GATED_ADDR_ADDR : Fld := ⟨.GATED_ADDR, 31, 0⟩
/-- SEQ of FR_WRITE_SEQ (RO, after R460). -/
def FR_WRITE_SEQ_SEQ : Fld := ⟨.FR_WRITE_SEQ, 31, 0⟩
/-- SEQ of FR_COPY_SEQ (RO, after R460). -/
def FR_COPY_SEQ_SEQ : Fld := ⟨.FR_COPY_SEQ, 31, 0⟩
/-- ACTIONS of REACTION (RW, after R460). -/
def REACTION_ACTIONS : Fld := ⟨.REACTION, 4, 0⟩
/-- PERIOD of WDT_CONTROL (RW, after R460). -/
def WDT_CONTROL_PERIOD : Fld := ⟨.WDT_CONTROL, 31, 16⟩
/-- SERVICE of WDT_CONTROL (WO, after R460). -/
def WDT_CONTROL_SERVICE : Fld := ⟨.WDT_CONTROL, 15, 0⟩
/-- REF_LOST of CLOCK_STATUS (W1C, after R476). -/
def CLOCK_STATUS_REF_LOST : Fld := ⟨.CLOCK_STATUS, 31, 31⟩
/-- REF_OK of CLOCK_STATUS (RO, after R476). -/
def CLOCK_STATUS_REF_OK : Fld := ⟨.CLOCK_STATUS, 30, 30⟩
/-- REF_COUNT of CLOCK_STATUS (RO, after R476). -/
def CLOCK_STATUS_REF_COUNT : Fld := ⟨.CLOCK_STATUS, 19, 0⟩
/-- GATE_PENDING of CLOCK_GATE_CD (RO, after R476). -/
def CLOCK_GATE_CD_GATE_PENDING : Fld := ⟨.CLOCK_GATE_CD, 20, 16⟩
/-- INSTR_EN of CLOCK_GATE_CD (RW, after R476). -/
def CLOCK_GATE_CD_INSTR_EN : Fld := ⟨.CLOCK_GATE_CD, 4, 4⟩
/-- PUF_EN of CLOCK_GATE_CD (RW, after R476). -/
def CLOCK_GATE_CD_PUF_EN : Fld := ⟨.CLOCK_GATE_CD, 3, 3⟩
/-- MLDSA_EN of CLOCK_GATE_CD (RW, after R476). -/
def CLOCK_GATE_CD_MLDSA_EN : Fld := ⟨.CLOCK_GATE_CD, 2, 2⟩
/-- SHA3_EN of CLOCK_GATE_CD (RW, after R476). -/
def CLOCK_GATE_CD_SHA3_EN : Fld := ⟨.CLOCK_GATE_CD, 1, 1⟩
/-- SPI_EN of CLOCK_GATE_CD (RW, after R476). -/
def CLOCK_GATE_CD_SPI_EN : Fld := ⟨.CLOCK_GATE_CD, 0, 0⟩
/-- SELECT of ISLAND_CLOCK (RW, after R476). -/
def ISLAND_CLOCK_SELECT : Fld := ⟨.ISLAND_CLOCK, 31, 31⟩
/-- SWITCH_DONE of ISLAND_CLOCK (RO, after R476). -/
def ISLAND_CLOCK_SWITCH_DONE : Fld := ⟨.ISLAND_CLOCK, 30, 30⟩
/-- PLL_EN of ISLAND_CLOCK (RW, after R476). -/
def ISLAND_CLOCK_PLL_EN : Fld := ⟨.ISLAND_CLOCK, 29, 29⟩
/-- PLL_LOCK of ISLAND_CLOCK (RO, after R476). -/
def ISLAND_CLOCK_PLL_LOCK : Fld := ⟨.ISLAND_CLOCK, 28, 28⟩
/-- BYP_ALIVE of ISLAND_CLOCK (RO, after R476). -/
def ISLAND_CLOCK_BYP_ALIVE : Fld := ⟨.ISLAND_CLOCK, 27, 27⟩
/-- PLL_ALIVE of ISLAND_CLOCK (RO, after R476). -/
def ISLAND_CLOCK_PLL_ALIVE : Fld := ⟨.ISLAND_CLOCK, 26, 26⟩
/-- COASTING of ISLAND_CLOCK (RO, after R476). -/
def ISLAND_CLOCK_COASTING : Fld := ⟨.ISLAND_CLOCK, 25, 25⟩
/-- MUX_TIMEOUT of ISLAND_CLOCK (W1C, after R476). -/
def ISLAND_CLOCK_MUX_TIMEOUT : Fld := ⟨.ISLAND_CLOCK, 24, 24⟩
/-- KEY of DOMAIN_RESET (WO, after R476). -/
def DOMAIN_RESET_KEY : Fld := ⟨.DOMAIN_RESET, 31, 24⟩
/-- ISLAND of DOMAIN_RESET (WO, after R476). -/
def DOMAIN_RESET_ISLAND : Fld := ⟨.DOMAIN_RESET, 5, 0⟩
/-- THROTTLE_TEMP of THERMAL_CONTROL (RW, after R476). -/
def THERMAL_CONTROL_THROTTLE_TEMP : Fld := ⟨.THERMAL_CONTROL, 31, 24⟩
/-- HOT_TEMP of THERMAL_CONTROL (RO, after R476). -/
def THERMAL_CONTROL_HOT_TEMP : Fld := ⟨.THERMAL_CONTROL, 23, 16⟩
/-- LEVEL of THERMAL_CONTROL (RO, after R476). -/
def THERMAL_CONTROL_LEVEL : Fld := ⟨.THERMAL_CONTROL, 3, 0⟩
/-- TARGET of PWR_COMMAND (WO, after R496). -/
def PWR_COMMAND_TARGET : Fld := ⟨.PWR_COMMAND, 1, 0⟩
/-- STATE of PWR_STATUS (RO, after R496). -/
def PWR_STATUS_STATE : Fld := ⟨.PWR_STATUS, 31, 30⟩
/-- PWR_BUSY of PWR_STATUS (RO, after R496). -/
def PWR_STATUS_PWR_BUSY : Fld := ⟨.PWR_STATUS, 29, 29⟩
/-- PHASE of PWR_STATUS (RO, after R496). -/
def PWR_STATUS_PHASE : Fld := ⟨.PWR_STATUS, 28, 27⟩
/-- CMD_IGNORED of PWR_STATUS (W1C, after R496). -/
def PWR_STATUS_CMD_IGNORED : Fld := ⟨.PWR_STATUS, 26, 26⟩
/-- RESTORE_FAIL of PWR_STATUS (W1C, after R496). -/
def PWR_STATUS_RESTORE_FAIL : Fld := ⟨.PWR_STATUS, 25, 25⟩
/-- SAG_SAVED of PWR_STATUS (W1C, after R496). -/
def PWR_STATUS_SAG_SAVED : Fld := ⟨.PWR_STATUS, 24, 24⟩
/-- SAG_INCOMPLETE of PWR_STATUS (W1C, after R496). -/
def PWR_STATUS_SAG_INCOMPLETE : Fld := ⟨.PWR_STATUS, 23, 23⟩
/-- START_CAUSE of PWR_STATUS (RO, after R496). -/
def PWR_STATUS_START_CAUSE : Fld := ⟨.PWR_STATUS, 22, 21⟩
/-- REFUSALS of PWR_EVENTS (RW, after R496). -/
def PWR_EVENTS_REFUSALS : Fld := ⟨.PWR_EVENTS, 31, 16⟩
/-- ABORTS of PWR_EVENTS (RW, after R496). -/
def PWR_EVENTS_ABORTS : Fld := ⟨.PWR_EVENTS, 15, 0⟩
/-- REASON of PWR_LAST_REFUSER (RO, after R496). -/
def PWR_LAST_REFUSER_REASON : Fld := ⟨.PWR_LAST_REFUSER, 31, 28⟩
/-- TARGET of PWR_LAST_REFUSER (RO, after R496). -/
def PWR_LAST_REFUSER_TARGET : Fld := ⟨.PWR_LAST_REFUSER, 27, 26⟩
/-- SOURCE of PWR_LAST_REFUSER (RO, after R496). -/
def PWR_LAST_REFUSER_SOURCE : Fld := ⟨.PWR_LAST_REFUSER, 18, 0⟩
/-- ABORTER of PWR_LAST_ABORTER (RO, after R496). -/
def PWR_LAST_ABORTER_ABORTER : Fld := ⟨.PWR_LAST_ABORTER, 31, 0⟩
/-- SAG_COUNT of SAG_STATUS (RW, after R496). -/
def SAG_STATUS_SAG_COUNT : Fld := ⟨.SAG_STATUS, 31, 16⟩
/-- LAST_SAVE_US of SAG_STATUS (RO, after R496). -/
def SAG_STATUS_LAST_SAVE_US : Fld := ⟨.SAG_STATUS, 15, 0⟩
/-- STAGE of BOOT_STATUS (RO, after R520). -/
def BOOT_STATUS_STAGE : Fld := ⟨.BOOT_STATUS, 31, 29⟩
/-- SLOT of BOOT_STATUS (RO, after R520). -/
def BOOT_STATUS_SLOT : Fld := ⟨.BOOT_STATUS, 28, 28⟩
/-- FALLBACK of BOOT_STATUS (RO, after R520). -/
def BOOT_STATUS_FALLBACK : Fld := ⟨.BOOT_STATUS, 27, 27⟩
/-- CLAIMED of BOOT_STATUS (RO, after R520). -/
def BOOT_STATUS_CLAIMED : Fld := ⟨.BOOT_STATUS, 26, 26⟩
/-- CODE_A of BOOT_STATUS (RO, after R520). -/
def BOOT_STATUS_CODE_A : Fld := ⟨.BOOT_STATUS, 23, 20⟩
/-- CODE_B of BOOT_STATUS (RO, after R520). -/
def BOOT_STATUS_CODE_B : Fld := ⟨.BOOT_STATUS, 19, 16⟩
/-- BOOT_CODE of BOOT_STATUS (RO, after R520). -/
def BOOT_STATUS_BOOT_CODE : Fld := ⟨.BOOT_STATUS, 15, 12⟩
/-- PUF_READINGS of BOOT_STATUS (RO, after R520). -/
def BOOT_STATUS_PUF_READINGS : Fld := ⟨.BOOT_STATUS, 11, 9⟩
/-- KEY of BOOT_CONTROL (WO, after R520). -/
def BOOT_CONTROL_KEY : Fld := ⟨.BOOT_CONTROL, 31, 24⟩
/-- SV_COMMIT of BOOT_CONTROL (WO, after R520). -/
def BOOT_CONTROL_SV_COMMIT : Fld := ⟨.BOOT_CONTROL, 23, 23⟩
/-- RETRY of BOOT_CONTROL (WO, after R520). -/
def BOOT_CONTROL_RETRY : Fld := ⟨.BOOT_CONTROL, 22, 22⟩
/-- NEXT of BOOT_CONTROL (WO, after R520). -/
def BOOT_CONTROL_NEXT : Fld := ⟨.BOOT_CONTROL, 1, 0⟩
/-- SV_FLOOR of BOOT_FLOORS (RO, after R520). -/
def BOOT_FLOORS_SV_FLOOR : Fld := ⟨.BOOT_FLOORS, 31, 16⟩
/-- CONFIG_FLOOR of BOOT_FLOORS (RO, after R520). -/
def BOOT_FLOORS_CONFIG_FLOOR : Fld := ⟨.BOOT_FLOORS, 15, 0⟩
/-- ATTEST_BUSY of ATTEST_STATUS (RO, after R520). -/
def ATTEST_STATUS_ATTEST_BUSY : Fld := ⟨.ATTEST_STATUS, 31, 31⟩
/-- ATTEST_GO of ATTEST_STATUS (WO, after R520). -/
def ATTEST_STATUS_ATTEST_GO : Fld := ⟨.ATTEST_STATUS, 30, 30⟩
/-- REPORTS of ATTEST_STATUS (RW, after R520). -/
def ATTEST_STATUS_REPORTS : Fld := ⟨.ATTEST_STATUS, 15, 0⟩
/-- NONCE of ATTEST_NONCE (RW, after R520). -/
def ATTEST_NONCE_NONCE : Fld := ⟨.ATTEST_NONCE, 31, 0⟩
/-- DIGEST of MEAS_DIGEST (RO, after R520). -/
def MEAS_DIGEST_DIGEST : Fld := ⟨.MEAS_DIGEST, 31, 0⟩
/-- LINK_STATE of DCL_STATUS (RO, after R549). -/
def DCL_STATUS_LINK_STATE : Fld := ⟨.DCL_STATUS, 31, 29⟩
/-- WIDTH of DCL_STATUS (RO, after R549). -/
def DCL_STATUS_WIDTH : Fld := ⟨.DCL_STATUS, 28, 27⟩
/-- REVERSED of DCL_STATUS (RO, after R549). -/
def DCL_STATUS_REVERSED : Fld := ⟨.DCL_STATUS, 26, 26⟩
/-- LINK_LOST of DCL_STATUS (W1C, after R549). -/
def DCL_STATUS_LINK_LOST : Fld := ⟨.DCL_STATUS, 25, 25⟩
/-- LANE_INVERTED of DCL_STATUS (RO, after R549). -/
def DCL_STATUS_LANE_INVERTED : Fld := ⟨.DCL_STATUS, 15, 0⟩
/-- REPLAYS of DCL_COUNTS (RW, after R549). -/
def DCL_COUNTS_REPLAYS : Fld := ⟨.DCL_COUNTS, 31, 16⟩
/-- RETRAINS of DCL_COUNTS (RW, after R549). -/
def DCL_COUNTS_RETRAINS : Fld := ⟨.DCL_COUNTS, 15, 8⟩
/-- BAD_FLITS of DCL_COUNTS (RW, after R549). -/
def DCL_COUNTS_BAD_FLITS : Fld := ⟨.DCL_COUNTS, 7, 0⟩
/-- FORCE_RETRAIN of DCL_CONTROL (WO, after R549). -/
def DCL_CONTROL_FORCE_RETRAIN : Fld := ⟨.DCL_CONTROL, 31, 31⟩
/-- MIN_WIDTH of DCL_CONTROL (RW, after R549). -/
def DCL_CONTROL_MIN_WIDTH : Fld := ⟨.DCL_CONTROL, 1, 0⟩
/-- WINDOW_READY of HOST_STATUS (RO, after R549). -/
def HOST_STATUS_WINDOW_READY : Fld := ⟨.HOST_STATUS, 31, 31⟩
/-- SAG_REPORT of HOST_STATUS (RO, after R549). -/
def HOST_STATUS_SAG_REPORT : Fld := ⟨.HOST_STATUS, 30, 30⟩
/-- CMD_BUSY of HOST_STATUS (RO, after R549). -/
def HOST_STATUS_CMD_BUSY : Fld := ⟨.HOST_STATUS, 29, 29⟩
/-- HOST_WINDOW of HOST_STATUS (RO, after R549). -/
def HOST_STATUS_HOST_WINDOW : Fld := ⟨.HOST_STATUS, 20, 0⟩
/-- DOORBELL of HOST_DOORBELL (WO, after R549). -/
def HOST_DOORBELL_DOORBELL : Fld := ⟨.HOST_DOORBELL, 31, 0⟩
/-- STATUS of HOST_INT_STATUS (W1C, after R549). -/
def HOST_INT_STATUS_STATUS : Fld := ⟨.HOST_INT_STATUS, 7, 0⟩
/-- ENABLE of HOST_INT_ENABLE (RW, after R549). -/
def HOST_INT_ENABLE_ENABLE : Fld := ⟨.HOST_INT_ENABLE, 7, 0⟩
/-- VECTOR_BASE of HOST_INT_CONTROL (RW, after R549). -/
def HOST_INT_CONTROL_VECTOR_BASE : Fld := ⟨.HOST_INT_CONTROL, 31, 16⟩
/-- HOLDOFF of HOST_INT_CONTROL (RW, after R549). -/
def HOST_INT_CONTROL_HOLDOFF : Fld := ⟨.HOST_INT_CONTROL, 15, 0⟩
/-- KEY of UPD_CONTROL (WO, after R549). -/
def UPD_CONTROL_KEY : Fld := ⟨.UPD_CONTROL, 31, 24⟩
/-- OP of UPD_CONTROL (WO, after R549). -/
def UPD_CONTROL_OP : Fld := ⟨.UPD_CONTROL, 23, 22⟩
/-- LENGTH of UPD_CONTROL (WO, after R549). -/
def UPD_CONTROL_LENGTH : Fld := ⟨.UPD_CONTROL, 16, 0⟩
/-- FLASH_OFFSET of UPD_OFFSET (RW, after R549). -/
def UPD_OFFSET_FLASH_OFFSET : Fld := ⟨.UPD_OFFSET, 31, 0⟩
/-- UPD_BUSY of UPD_STATUS (RO, after R549). -/
def UPD_STATUS_UPD_BUSY : Fld := ⟨.UPD_STATUS, 31, 31⟩
/-- UPD_DONE of UPD_STATUS (W1C, after R549). -/
def UPD_STATUS_UPD_DONE : Fld := ⟨.UPD_STATUS, 30, 30⟩
/-- UPD_ERR of UPD_STATUS (RO, after R549). -/
def UPD_STATUS_UPD_ERR : Fld := ⟨.UPD_STATUS, 29, 28⟩
/-- OPERATIONS of UPD_STATUS (RW, after R549). -/
def UPD_STATUS_OPERATIONS : Fld := ⟨.UPD_STATUS, 15, 0⟩
/-- PEC_REQ of SMB_CONFIG (RW, after R549). -/
def SMB_CONFIG_PEC_REQ : Fld := ⟨.SMB_CONFIG, 8, 8⟩
/-- ADDRESS of SMB_CONFIG (RO, after R549). -/
def SMB_CONFIG_ADDRESS : Fld := ⟨.SMB_CONFIG, 6, 0⟩
/-- SMB_REFUSED of SMB_STATUS (RW, after R549). -/
def SMB_STATUS_SMB_REFUSED : Fld := ⟨.SMB_STATUS, 31, 16⟩
/-- PEC_ERRORS of SMB_STATUS (RW, after R549). -/
def SMB_STATUS_PEC_ERRORS : Fld := ⟨.SMB_STATUS, 15, 8⟩
/-- ALERT of SMB_STATUS (RO, after R549). -/
def SMB_STATUS_ALERT : Fld := ⟨.SMB_STATUS, 7, 7⟩
/-- WAKING of SMB_STATUS (RO, after R549). -/
def SMB_STATUS_WAKING : Fld := ⟨.SMB_STATUS, 6, 6⟩
/-- LAST_MASTER of BUS_ERRORS (RO, after R559). -/
def BUS_ERRORS_LAST_MASTER : Fld := ⟨.BUS_ERRORS, 31, 30⟩
/-- LAST_CAUSE of BUS_ERRORS (RO, after R559). -/
def BUS_ERRORS_LAST_CAUSE : Fld := ⟨.BUS_ERRORS, 29, 28⟩
/-- COUNT of BUS_ERRORS (RW, after R559). -/
def BUS_ERRORS_COUNT : Fld := ⟨.BUS_ERRORS, 15, 0⟩
/-- ADDR of BUS_ERROR_ADDR (RO, after R559). -/
def BUS_ERROR_ADDR_ADDR : Fld := ⟨.BUS_ERROR_ADDR, 31, 0⟩

end F

end Sys2Proof.Machine
end

