-- ==== Sys2Proof/Machine/Kinds.lean ====
section
/-! DEFINITION. The fault kinds and their classes (spec/18_watchtower.md R442 to R445, R453; 17_memory.md R438;
20_power_states.md and 21_boot_security.md), and the reset value of every register, REACTION included. -/
namespace Sys2Proof.Machine

open Sys2Proof

/-- The form of ADDRESS and DETAIL (R445). -/
inductive KindForm where
  | n | r | p | j | m | b
  deriving DecidableEq, Repr

/-- A kind: its class code (0 corrected, 1 contained, 2 fatal-to-job, 3 fatal-to-device), whether it is a condition,
its form. -/
structure KindRow where
  kind : Nat
  cls : Nat
  cond : Bool
  form : KindForm
  deriving DecidableEq, Repr

/-- The kinds 0x01 to 0x11 (R445). -/
def kindRowsA : List KindRow :=
  [⟨0x01, 1, false, .n⟩, ⟨0x02, 0, false, .r⟩, ⟨0x03, 1, false, .r⟩, ⟨0x04, 1, false, .r⟩, ⟨0x05, 1, false, .r⟩,
   ⟨0x06, 1, false, .n⟩, ⟨0x08, 3, true, .n⟩, ⟨0x09, 0, true, .n⟩, ⟨0x0A, 1, false, .n⟩, ⟨0x10, 0, false, .n⟩,
   ⟨0x11, 3, true, .n⟩]

/-- The kinds 0x18 to 0x29 (R445). -/
def kindRowsB : List KindRow :=
  [⟨0x18, 0, false, .p⟩, ⟨0x19, 1, false, .p⟩, ⟨0x1A, 1, false, .p⟩, ⟨0x1B, 1, false, .n⟩, ⟨0x1C, 1, false, .p⟩,
   ⟨0x1D, 1, false, .p⟩, ⟨0x1E, 1, false, .p⟩, ⟨0x20, 1, false, .j⟩, ⟨0x21, 1, false, .j⟩, ⟨0x22, 1, false, .j⟩,
   ⟨0x23, 1, false, .j⟩, ⟨0x24, 1, false, .j⟩, ⟨0x28, 2, false, .j⟩, ⟨0x29, 1, false, .j⟩]

/-- The kinds 0x40 to 0x65 (R438, R445). Kinds 0x41 to 0x43 are contained or fatal-to-job by partition (R439); for the
reaction table they count as fatal-to-job (R453). -/
def kindRowsC : List KindRow :=
  [⟨0x40, 0, false, .m⟩, ⟨0x41, 2, false, .m⟩, ⟨0x42, 2, false, .m⟩, ⟨0x43, 2, false, .m⟩, ⟨0x44, 3, false, .m⟩,
   ⟨0x45, 1, false, .m⟩, ⟨0x50, 0, false, .n⟩, ⟨0x51, 0, false, .n⟩, ⟨0x52, 3, false, .n⟩, ⟨0x53, 1, false, .n⟩,
   ⟨0x54, 1, false, .n⟩, ⟨0x60, 1, false, .b⟩, ⟨0x61, 3, false, .b⟩, ⟨0x62, 1, false, .n⟩, ⟨0x63, 0, false, .n⟩,
   ⟨0x64, 3, false, .n⟩, ⟨0x65, 0, false, .n⟩]

/-- Every kind that is not reserved. -/
def kindRows : List KindRow := kindRowsA ++ kindRowsB ++ kindRowsC

/-- The row of a kind; none for a reserved kind. -/
def kindRow (k : Nat) : Option KindRow := kindRows.find? fun r => r.kind == k

/-- The class of a kind (contained where the kind is reserved). -/
def kindClass (k : Nat) : Nat := match kindRow k with | some r => r.cls | none => 1

/-- The default ACTIONS of a kind (R453); 0 for a reserved kind. -/
def defaultActions (k : Nat) : Nat :=
  match kindRow k with
  | some r => if r.cls = 0 then 1 else if r.cls = 3 then 0x13 else 3
  | none => 0

/-- May a REACTION value stand for the kind (R453)? A reserved kind has no form, so only FENCE_PORT and ABORT_STEP are
barred. -/
def actionsOk (k v : Nat) : Bool :=
  match kindRow k with
  | none => decide (v < 32) && !bitOf v 2 && !bitOf v 3
  | some r =>
    decide (v < 32)
      && (r.cls != 3 || (bitOf v 0 && bitOf v 1 && bitOf v 4))
      && (r.cls != 2 || (bitOf v 0 && bitOf v 1))
      && (!bitOf v 2 || r.form == .p)
      && (!bitOf v 3 || r.form == .j)

/-- The reset value of instance i of a register (R553 and the register tables). -/
def regReset (n : RegName) (i : Nat) : Nat :=
  match n with
  | .REACTION => defaultActions i
  | _ => (regRow n).reset

/-- The management address of instance i. -/
def regAddr (n : RegName) (i : Nat) : Nat :=
  let r := regRow n
  r.base + (i / r.grp) * r.s1 + (i % r.grp) * r.s2

end Sys2Proof.Machine
end

