-- ==== Sys2Proof/Machine/JobTypes.lean ====
section
/-! DEFINITION. The plain-data shapes of a collective plan and of everything a loaded job holds at this switch
(spec/04_reduction_contexts.md, 05_result_checking.md, 06_compression.md, 07_collectives.md, 08_job_plans.md,
09_belfry_and_time.md, 14_failure_survival.md). -/
namespace Sys2Proof.Machine

open Sys2Proof

/-! ## The plan (R222 to R232) -/

/-- One axis of the TORUS record (R226). -/
structure PlanAxis where
  size : Nat
  order : Nat
  close : Bool
  deriving DecidableEq, Repr

/-- One entry of the MEMBER record; its place in the list is its job rank (R227). -/
structure PlanMember where
  coord : BitVec 24
  flat : BitVec 24
  deriving DecidableEq, Repr

/-- One entry of the SWITCH record (R228): POSITION as coordinate bits [21:7]. -/
structure PlanSwitch where
  index : Nat
  tier : Nat
  role : Nat
  flat : BitVec 24
  position : Nat
  deriving DecidableEq, Repr

/-- One GROUP record (R229). -/
structure PlanGroup where
  id : Nat
  axis : Nat
  releaser : Nat
  minSurvivors : Nat
  ranks : List Nat
  deriving DecidableEq, Repr

/-- One BUCKET record (R230) with the settings of R93, R170 and R194. -/
structure PlanBucket where
  id : Nat
  group : Nat
  first : Nat
  k : Nat
  elems : Nat
  fmt : Fmt
  out : Fmt
  ftzIn : Bool
  ftzOut : Bool
  stoch : Bool
  fast : Bool
  compress : Bool
  resFp32 : Bool
  scatter : Bool
  tally : Bool
  scaleMode : Nat
  scaleShift : Nat
  anchorWindow : Nat
  anchorMargin : Nat
  initialAnchor : Int
  scaleMant : Nat
  checkSeed : BitVec 64
  roundSeed : BitVec 64
  errRate : Nat
  stride : Nat
  tallyExp : Int
  openCap : Nat
  tallyBatch : Nat
  bases : List Nat
  /-- SETTINGS_TAG of R376: bytes 0–7 of SHA3-512 over body bytes 4–63. -/
  tag : List Byte
  deriving DecidableEq, Repr

/-- One MCSET record (R231, R201): receivers with their RECV_BASE. -/
structure PlanMcSet where
  id : Nat
  apex : Nat
  setBytes : Nat
  mcRecords : Nat
  sources : List Nat
  recvs : List (Nat × Nat)
  deriving DecidableEq, Repr

/-- A destination of a dispatch set (R231). -/
structure DispatchDest where
  rank : Nat
  buf : Nat
  map : Nat
  doneAddr : Nat
  deriving DecidableEq, Repr

/-- One DISPATCH record (R231, R208). -/
structure PlanDispatch where
  id : Nat
  second : Bool
  window : Nat
  experts : Nat
  cap : Nat
  tokenBytes : Nat
  sources : List Nat
  dests : List DispatchDest
  deriving DecidableEq, Repr

/-- The POLICY record (R231). -/
structure PlanPolicy where
  stragglerUs : Nat
  fenceUs : Nat
  stepUs : Nat
  wait : Bool
  deriving DecidableEq, Repr

/-- One RESERVE record (R232). -/
structure PlanReserve where
  sw : Nat
  bells : Nat
  accUnits : Nat
  arrivalLines : Nat
  completion : Nat
  landingBytes : Nat
  landingRate : Nat
  deriving DecidableEq, Repr

/-- A parsed .kplan (R223, R224). -/
structure Plan where
  job : BitVec 12
  gen : BitVec 4
  firstStep : BitVec 32
  chunks : Nat
  stepRoot : Nat
  depth : Nat
  reshard : Bool
  ledgerDepth : Nat
  entryDepth : Nat
  shape : Nat
  axes : List PlanAxis
  members : List PlanMember
  spares : List (BitVec 24 × BitVec 24)
  switches : List PlanSwitch
  policy : PlanPolicy
  groups : List PlanGroup
  buckets : List PlanBucket
  mcsets : List PlanMcSet
  dsets : List PlanDispatch
  reserves : List PlanReserve
  digest : List Byte
  deriving DecidableEq, Repr

/-! ## Contexts (R106, R109, R118) -/

/-- The context states of R118. -/
inductive CtxState where
  | idle | openS | rescaleWait | forwarded | released | final | aborted
  deriving DecidableEq, Repr

/-- The STATE field (R106, R118). -/
def CtxState.code : CtxState → Nat
  | .idle => 0
  | .openS => 1
  | .rescaleWait => 2
  | .forwarded => 3
  | .released => 4
  | .final => 5
  | .aborted => 6

/-- A contributor slot of a group at this switch, or a receiver: a member by job rank, or a switch by its index in
the plan's SWITCH list (R109, R229). -/
inductive SlotId where
  | member (rank : Nat)
  | child (sw : Nat)
  deriving DecidableEq, Repr

/-- One frame of a PARTIAL kept until the whole partial's check has been compared (R123, R177). -/
structure PartFrame where
  idx : Nat
  off : Nat
  vals : List Int
  sps : List Special
  deriving DecidableEq, Repr

/-- One contributor slot of a context: its line of the arrival record (R109) and what the mill must remember of the
slot's message (R41, R48, R57). -/
structure Slot where
  who : SlotId
  live : Bool
  exp : Int
  expHeld : Bool
  mask : BitVec 16
  complete : Bool
  msgId : Option (BitVec 16)
  ext : Option RedExt
  parts : List PartFrame
  deriving DecidableEq, Repr

/-- What a released result carries into its records (R131, R142, R160). -/
structure ResultInfo where
  contributions : Nat
  maxExp : Int
  anchor : Int
  flushed : Bool
  reduced : Bool
  stoch : Bool
  fast : Bool
  rescales : Nat
  sumIn : Nat
  resultCheck : Nat
  tallySum : Nat
  tallyClamped : Nat
  deriving DecidableEq, Repr

/-- A context: the descriptor of R106 with the arrival record of R109, the accumulator contents, the special states of
R72 and what the mill keeps beside the context (R145). -/
structure Ctx where
  state : CtxState
  step : BitVec 32
  job : BitVec 12
  layoutGen : BitVec 4
  chunk : BitVec 22
  mill : Nat
  bucket : Nat
  devBucket : Nat
  generation : Nat
  anchor : Int
  maxExp : Int
  fmt : Fmt
  elems : Nat
  frameCnt : Option Nat
  pieces : Nat
  expect : Nat
  done : Nat
  gclass : Nat
  granules : List Nat
  arrival : Nat
  lines : Nat
  waitStart : BitVec 20
  waitNs : Nat
  flushed : Bool
  reduced : Bool
  held : Bool
  fenceEpoch : BitVec 8
  runCheck : Nat
  rescales : Nat
  contributions : Nat
  slots : List Slot
  acc : List (List (BitVec 96))
  sps : List Special
  fastIn : Bool
  checkFails : Nat
  checkFailSent : Bool
  stragglerSent : Bool
  requestSent : Bool
  commitWait : Bool
  tallyIn : Nat
  tallyClamped : Nat
  awaiting : List SlotId
  result : Option ResultInfo
  /-- Lower tier: the RESULT message of the parent to acknowledge (its header and arrival port). -/
  parentMsg : Option (BaseHdr × Nat)
  /-- Frames of the parent's RESULT message held so far: (FRAME_IDX, ELEM_OFFSET, payload). -/
  resultParts : List (Nat × Nat × List Byte)
  /-- A supersession that waits for a WITHDRAW_REPLY (R152). -/
  withdrawing : Bool
  deriving DecidableEq, Repr

/-! ## Steps (R105, R129, R153, R160 to R165, R246) -/

/-- How a step has ended at this switch (R105). -/
inductive StepEnd where
  | committed | aborted
  deriving DecidableEq, Repr

/-- A STEP_REPORT held by the step root (R162). -/
structure ReportIn where
  releaser : Nat
  flags : Nat
  chunksHere : Nat
  maxGen : Nat
  digest : List Byte
  deriving DecidableEq, Repr

/-- A bucket's tally of one step (R246, R247). -/
structure TallyStep where
  bucket : Nat
  sumIn : Nat
  sumSum : Nat
  clamped : Bool
  n : Nat
  reduced : Bool
  reports : List Nat
  written : Bool
  deriving DecidableEq, Repr

/-- One ledger entry, by chunk (R160). -/
structure LedgerEntry where
  chunk : Nat
  gen : Nat
  flags : Nat
  anchor : Int
  rescales : Nat
  contribM1 : Nat
  sumIn : Nat
  resultCheck : Nat
  deriving DecidableEq, Repr

/-- What a switch keeps of one step of a job. -/
structure StepSt where
  step : BitVec 32
  ended : Option StepEnd
  opened : Bool
  timerOn : Bool
  reported : Bool
  withdrawn : Bool
  reports : List ReportIn
  entries : List LedgerEntry
  amax : List (Nat × Int)
  tally : List TallyStep
  proposalsOut : Nat
  /-- Chunks that waited for the reply to a withdrawal when the step committed: mill and chunk (R152). -/
  lateCauses : List (Nat × Nat)
  /-- Children's CHECK_FAIL for chunks whose descriptor was IDLE: chunk and cause (R126). -/
  heldFails : List (Nat × Nat)
  deriving DecidableEq, Repr

/-- A step record of the step root (R163, R165, R166). -/
structure StepRecord where
  job : BitVec 12
  step : BitVec 32
  digested : List Byte
  summaries : List Byte
  digest : List Byte
  commitTime : Nat
  signature : Option (List Byte)
  deriving DecidableEq, Repr

/-- The entry array of a committed step at a releasing switch (R165). -/
structure EntryArray where
  step : BitVec 32
  entries : List LedgerEntry
  deriving DecidableEq, Repr

/-- The amax ring of a bucket: (step, entry), newest first, at most 16 (R133), and the proposals computed from it. -/
structure AmaxRing where
  bucket : Nat
  ring : List (BitVec 32 × Int)
  proposals : List (BitVec 32 × Int)
  deriving DecidableEq, Repr

/-- The running totals of a bucket's tally, modulo 2^128 (R249). -/
structure TallyTotal where
  bucket : Nat
  sumIn : BitVec 128
  sumSum : BitVec 128
  deriving DecidableEq, Repr

/-! ## Error memory (R179 to R181) -/

/-- One error-memory region: the header's LAST_COMMITTED, the control bytes and the two banks as encodings, sparse
(unlisted residuals are 0) (R179). `staged` names the chunks whose STAGED is 1, each with the step that compressed it. -/
structure ErrRegion where
  bucket : Nat
  fp32 : Bool
  k : Nat
  elems : Nat
  lastCommitted : BitVec 32
  sel : List Nat
  staged : List (Nat × BitVec 32)
  bank0 : List (Nat × BitVec 32)
  bank1 : List (Nat × BitVec 32)
  copying : Bool
  deriving DecidableEq, Repr

/-! ## Bells (R258) -/

/-- KIND of a bell that is not free. -/
inductive BellKind where
  | barrier | counter
  deriving DecidableEq, Repr

/-- One bell record that is not free: the slots still counted (EXPECT is their number), those that have arrived at this
phase (DONE is their number). -/
structure Bell where
  bell : Nat
  kind : BellKind
  group : Nat
  home : Bool
  reduced : Bool
  late : Bool
  phase : BitVec 16
  lead : Nat
  at_ : Nat
  count : BitVec 64
  threshold : Nat
  opened : Nat
  /-- Has an arrival of this phase been recorded, so that OPENED is the phase's own (R258, R260)? -/
  begun : Bool
  /-- Counter: phases released since the bell's first arrival (R262). -/
  passed : Nat
  slots : List SlotId
  arrived : List SlotId
  stragglerSent : Bool
  deriving DecidableEq, Repr

/-! ## Dispatch (R210 to R218) -/

/-- A source's second-chance grants seen passing at its ingress leaf (R211, R215). -/
structure GrantRec where
  set : Nat
  inst : Nat
  source : Nat
  dest : Nat
  grants : List Nat
  deriving DecidableEq, Repr

/-- An END held at the egress leaf (R212). -/
structure EndRec where
  source : Nat
  round : Nat
  counts : List Nat
  deriving DecidableEq, Repr

/-- Progress of the egress leaf over one instance (R214, R216). -/
inductive InstPhase where
  | collecting | second | closing | done
  deriving DecidableEq, Repr

/-- One dispatch instance at the egress leaf of one destination. -/
structure DispInst where
  set : Nat
  inst : BitVec 8
  dest : Nat
  phase : InstPhase
  ends : List EndRec
  /-- Second-chance slots: (expert, slot, source, ORDER) (R214). -/
  second : List (Nat × Nat × Nat × Nat)
  /-- Sources whose grant was not all zero. -/
  granted : List Nat
  secondRan : Bool
  reduced : Bool
  pendingWrites : Nat
  /-- Fabric time at which the egress leaf first knew of the instance, and whether its STRAGGLER records are out. -/
  opened : Nat
  stragglerSent : Bool
  deriving DecidableEq, Repr

/-- A multicast record (R204): the message, the attempt, the owed acknowledgements. -/
structure McRecord where
  die : Nat
  job : BitVec 12
  set : Nat
  src : BitVec 24
  msgId : BitVec 16
  attempt : BitVec 3
  hdr : BaseHdr
  inPort : Nat
  owed : List SlotId
  nackPassed : Bool
  lastNs : Nat
  deriving DecidableEq, Repr

/-! ## Landing (R364 to R373) -/

/-- Shard states. -/
inductive ShardState where
  | openS | sealing | sealed | corrupt
  deriving DecidableEq, Repr

/-- One shard in a slot: base offset in the job's landing, length, the bytes written so far (sparse) and the draw that
stands for the bytes never written (R367). -/
structure Shard where
  owner : Nat
  gen : BitVec 4
  slot : Nat
  state : ShardState
  base : Nat
  bytes : Nat
  step : BitVec 32
  digest : List Byte
  dataPos : List Byte
  data : List (Nat × Byte)
  draw : Nat
  deriving DecidableEq, Repr

/-- A SEAL whose hashing runs: the shard it hashes, by owner, generation, slot and draw, with what the SEAL gave; `dropped`: a
DROP of that shard came meanwhile (R368, R371). -/
structure SealOp where
  owner : Nat
  gen : BitVec 4
  slot : Nat
  draw : Nat
  step : BitVec 32
  bytes : Nat
  digest : List Byte
  dataPos : List Byte
  statusAddr : Nat
  dropped : Bool
  deriving DecidableEq, Repr

/-- A READ under way: the shard as it was found, the digest of the bytes read, the messages still owed an ACK (R369). -/
structure ReadOp where
  rid : Nat
  shard : Shard
  rank : Nat
  reader : BitVec 24
  statusAddr : Nat
  left : Nat
  digest : List Byte
  deriving DecidableEq, Repr

/-- The landing of a JOB_ID at this switch (R374): its capacity and its shards. `kept` while no job holds it. -/
structure Landing where
  job : BitVec 12
  base : Nat
  bytes : Nat
  rate : Nat
  kept : Bool
  shards : List Shard
  seals : List SealOp
  reads : List ReadOp
  deriving DecidableEq, Repr

/-! ## Rings in LPDDR (R538 to R541) -/

/-- Where a ring lies and its sizes; its header and entries are bytes of memory. -/
structure RingRef where
  base : Nat
  entries : Nat
  entryBytes : Nat
  deriving DecidableEq, Repr

/-- Where a ring's header and entries lie; `tele` names the die of a telemetry ring. -/
structure RingAt where
  ref : RingRef
  data : Nat
  tele : Option Nat
  deriving DecidableEq, Repr

/-- Rings of a job in the window (R538). -/
structure JobRings where
  completion : RingRef
  statistics : RingRef
  events : RingRef
  deriving DecidableEq, Repr

/-! ## A job at this switch -/

/-- What one layout of a job reserves at this switch, in the units of R237; `landingRate` is in MB/s. -/
structure Needs where
  descs : Nat
  bells : Nat
  mc : Nat
  errBw : Nat
  errCap : Nat
  landing : Nat
  landingRate : Nat
  ledger : Nat
  completion : Nat
  buckets : Nat
  deriving DecidableEq, Repr

/-- One layout generation a switch has admitted: its plan, this switch's index in it and what the load assigned. -/
structure Layout where
  plan : Plan
  self : Nat
  descBase : Nat
  buckets : List (Nat × Nat)
  quotas : List (Nat × Nat × Nat)
  bells : List Nat
  /-- Buckets this switch compresses, as judged at load (R169, R185). -/
  errBuckets : List Nat
  jrings : JobRings
  needs : Needs
  deriving DecidableEq, Repr

/-- A reservation in a partition of R429 (R430). -/
structure MemRegion where
  part : Nat
  base : Nat
  bytes : Nat
  deriving DecidableEq, Repr

/-- A save request that waits or runs (R375); `memBad`: a line it needs was found uncorrectable (R439). -/
structure SaveReq where
  memBad : Bool
  p : BitVec 32
  dataPos : List Byte
  slot : Nat
  running : Bool
  deriving DecidableEq, Repr

/-- What is kept of a layout generation after its cutover, for the statistics of its last steps (R247, R249). -/
structure PrevLayout where
  layout : Layout
  totals : List TallyTotal
  deriving DecidableEq, Repr

/-- A live job. -/
structure Job where
  id : BitVec 12
  cur : Layout
  next : Option Layout
  prev : Option PrevLayout
  floor : BitVec 32
  opened : Bool
  steps : List StepSt
  rings : List AmaxRing
  totals : List TallyTotal
  errs : List ErrRegion
  bells : List Bell
  grants : List GrantRec
  insts : List DispInst
  /-- Lowest instance not yet closed, by set and destination (R213): 0 where unlisted. -/
  winBases : List (Nat × Nat × BitVec 8)
  fenceReqs : List Nat
  /-- Fences this switch has requested and whose FENCE_IN_FORCE record is not yet written (R361). -/
  fenceOwed : List Nat
  /-- Claims of spares in force, and those requested: (rank, SPARE_INDEX) (R354). -/
  claims : List (Nat × Nat)
  claimReqs : List (Nat × Nat)
  records : List StepRecord
  entryArrays : List EntryArray
  jrings : JobRings
  stranded : Bool
  reparenting : Bool
  save : Option SaveReq
  regions : List MemRegion
  restoring : Bool
  /-- A NACK FENCED has told this switch to stop sending for the job (R49). -/
  silenced : Bool
  unloading : Option Nat
  admitted : Bool
  /-- First step of the job at this switch, and its steps that aborted (R155, R368). -/
  startStep : BitVec 32
  aborted : List (BitVec 32)
  deriving DecidableEq, Repr

/-- What a message of the switch's own is for: what its acknowledgement, or its failure, leads to. -/
inductive Purpose where
  | plain
  | result (desc : Nat) (gen : Nat) (rcv : SlotId)
  | partialUp (desc : Nat) (gen : Nat)
  | control (desc : Nat)
  | supersede (desc : Nat)
  | proposal (step : BitVec 32) (rank : Nat)
  | stepReport (step : BitVec 32)
  | bell
  | grant
  | dispatchWrite (set : Nat) (inst : BitVec 8) (dest : Nat)
  | dispatchDone (set : Nat) (inst : BitVec 8) (dest : Nat)
  | landingRead (rid : Nat)
  | announce (port : Nat)
  | epochRetire
  deriving DecidableEq, Repr

/-- Toward whom a message travels when it is not routed by its DEST: one hop over the links to a neighbour (R36). -/
inductive Hop where
  | routed
  | toSwitch (flat : BitVec 24)
  /-- Toward a group parent that the switch does not have (R125; log entry 83). -/
  | nowhere
  | onPort (port : Nat)
  deriving DecidableEq, Repr

/-- A message the switch originated and that awaits its ACK (R58). -/
structure OutMsg where
  key : Nat
  job : Option (BitVec 12)
  rank : Option Nat
  hop : Hop
  frames : List Frame
  attempt : Nat
  purpose : Purpose
  /-- Frames of the current attempt that have not yet left or been discarded. -/
  unsent : Nat
  failed : Bool
  /-- Fabric time before which a NACK BUSY bars the next attempt (R49). -/
  holdUntil : Nat
  deriving DecidableEq, Repr

/-- A message of the switch's own that has been acknowledged or given up: its destination, its MSG_ID, and when (R55). -/
structure EndedMsg where
  dest : Nat
  msgId : BitVec 16
  at_ : Nat
  deriving DecidableEq, Repr

/-- A message of which the switch is the receiver (R56), or that drew a NACK (R48): counted by (SRC, MSG_ID, job) and
ATTEMPT, with the neighbour where SRC names one. -/
structure RxMsg where
  src : BitVec 24
  /-- The neighbour on the arrival port: the lowest port that leads to it (R36, R278). -/
  link : Nat
  job : BitVec 12
  msgId : BitVec 16
  attempt : BitVec 3
  count : Nat
  done : Bool
  dead : Bool
  nacked : Bool
  lastNs : Nat
  /-- The payloads so far of a MGMT message of several frames. -/
  parts : List (List Byte)
  deriving DecidableEq, Repr

end Sys2Proof.Machine
end

