-- ==== Sys2Proof/Machine/CoreTypes.lean ====
section
/-! DEFINITION. The plain-data shapes of the configuration image and of the switching fabric: ports, table banks,
packet buffer, shapers, gates, fabric time and epoch changes (spec/09 to 13, 16, 21). -/
namespace Sys2Proof.Machine

open Sys2Proof

/-! ## The configuration image (R499 to R504) -/

/-- ROLE of a port in the cabling plan (R338, R502). -/
inductive PortRole where
  | unused | endpoint | switch
  deriving DecidableEq, Repr

/-- One port entry of the cabling plan (R502). -/
structure CablePort where
  role : PortRole
  thin : Bool
  metro : Bool
  uplink : Bool
  peerPort : Nat
  peerFlat : BitVec 24
  peerTier : Nat
  upIndex : Nat
  coord : BitVec 24
  delay : Nat
  asym : BitVec 32
  deriving DecidableEq, Repr

/-- One lane entry of the port map (R503). -/
structure LaneCfg where
  mode : Nat
  width : Nat
  txInvert : Bool
  medium : Nat
  txOrder : Nat
  taps : Nat
  deriving DecidableEq, Repr

/-- The POLICIES section (R504). -/
structure Policies where
  weights : List Nat
  oblivious : Nat
  singleSize : Bool
  maxFrameAge : Nat
  dwellUs : List Nat
  resendUs : Nat
  watchdogMs : Nat
  sweepS : Nat
  guarCells : Nat
  localCells : Nat
  sharedCap : Nat
  xoffFree : Nat
  deriving DecidableEq, Repr

/-- The defaults of R220, R267, R280, R294 to R296 and R460. -/
def Policies.default : Policies :=
  { weights := [16, 16, 32, 16, 64, 64, 48, 16], oblivious := 0, singleSize := false, maxFrameAge := 500,
    dwellUs := List.replicate 8 50, resendUs := 25, watchdogMs := 2000, sweepS := 10, guarCells := 32,
    localCells := 16384, sharedCap := 16384, xoffFree := 32768 }

/-- The parts of the running image the switch works with. -/
structure Image where
  ownFlat : BitVec 24
  tier : Nat
  childShift : Nat
  childBits : Nat
  position : Nat
  timeRoot : BitVec 24
  cable : List CablePort
  flats : List (Nat × BitVec 24)
  lanes : List LaneCfg
  policies : Policies
  ringsGib : Nat
  ledgerGib : Nat
  errorGib : Nat
  logOff : Nat
  logLen : Nat
  reaction : List Byte
  planKeys : List (List Byte)
  planTag : BitVec 64
  fwVersion : BitVec 32
  securityVersion : Nat
  configSeq : Nat
  deriving DecidableEq, Repr

/-- No image: what the model holds before boot step 5 has read one. -/
def Image.none : Image :=
  { ownFlat := 0, tier := 0, childShift := 0, childBits := 0, position := 0, timeRoot := 0, cable := [],
    flats := [], lanes := [], policies := Policies.default, ringsGib := 0, ledgerGib := 0, errorGib := 0,
    logOff := 0, logLen := 0, reaction := [], planKeys := [], planTag := 0, fwVersion := 0, securityVersion := 0,
    configSeq := 0 }

/-! ## Ports (R400, R411) -/

/-- A port of the running port map: device port number, first lane, lanes, MODE, WIDTH code and MEDIUM code. -/
structure PortCfg where
  num : Nat
  lane0 : Nat
  width : Nat
  mode : Nat
  widthCode : Nat
  medium : Nat
  deriving DecidableEq, Repr

/-! ## Table banks (R273) -/

/-- A FLAT entry. -/
structure FlatEntry where
  valid : Bool
  consume : Bool
  group : Nat
  flat : BitVec 24
  deriving DecidableEq, Repr

/-- A DOWN entry of a child index. -/
structure DownEntry where
  child : Nat
  valid : Bool
  group : Nat
  deriving DecidableEq, Repr

/-- A table bank with its membership part: DOWN by child index, LINK_GROUP as the ports of each group, FLAT in index
order, the fences (job, rank), and the links (owner's flat ID, port) and switches that are cut out. -/
structure Bank where
  down : List DownEntry
  groups : List (Nat × List Nat)
  flat : List FlatEntry
  fences : List (BitVec 12 × Nat)
  cutLinks : List (BitVec 24 × Nat)
  cutSwitches : List (BitVec 24)
  /-- Links (by the end whose item it was) and switches whose return has been applied since they were last cut out (R347). -/
  backLinks : List (BitVec 24 × Nat)
  backSwitches : List (BitVec 24)
  claims : List (BitVec 12 × BitVec 4 × Nat × Nat)
  deriving DecidableEq, Repr

/-- The memory-mapped tables of a bank as one die holds them, where they are not what the firmware wrote into all four: a master
has written words of that die's bank (R273). -/
structure DieTable where
  die : Nat
  bit : Bool
  down : List DownEntry
  groups : List (Nat × List Nat)
  flat : List FlatEntry
  deriving DecidableEq, Repr

/-- An empty bank. -/
def Bank.empty : Bank :=
  { down := [], groups := [], flat := [], fences := [], cutLinks := [], cutSwitches := [], backLinks := [], backSwitches := [],
    claims := [] }

/-! ## Epochs (R282, R283) -/

/-- PHASE of R282. -/
inductive EpochPhase where
  | idle | prepared | switched
  deriving DecidableEq, Repr

/-- An item of an epoch change (R283, R348). -/
structure EpochItem where
  kind : Nat
  port : Nat
  jobGen : Nat
  word : BitVec 32
  deriving DecidableEq, Repr

/-- The coordinator's part (R282, R283). -/
inductive CoordPhase where
  | idle | querying | preparing | committing
  deriving DecidableEq, Repr

/-- This switch's part in epoch changes, and the coordinator's where this switch is the time root. -/
structure EpochSt where
  num : BitVec 32
  phase : EpochPhase
  /-- A change that ended with EPOCH_RETIRE has been seen (R287). -/
  retiredOnce : Bool
  items : List EpochItem
  /-- Endpoint ports that still owe the acknowledgement of EPOCH_ANNOUNCE. -/
  announce : List Nat
  announceFailed : Nat
  drainFrom : Nat
  drainedSent : Bool
  /-- The switch that coordinates the change this switch takes part in: SRC of its latest message. -/
  coordinator : BitVec 24
  coord : CoordPhase
  /-- What each switch has answered to EPOCH_QUERY: its flat ID, its phase (1 prepared, 2 drained, 3 retired) and its
  EPOCH_NUM (R287). -/
  reports : List (BitVec 24 × Nat × BitVec 32)
  coordNum : BitVec 32
  /-- Switches that have not yet answered the running phase. -/
  owing : List (BitVec 24)
  asked : List EpochItem
  running : List EpochItem
  deriving DecidableEq, Repr

/-! ## Packet buffer (R292 to R308) -/

/-- Where a frame's cells lie (R294, R314). -/
inductive Region where
  | guaranteed | shared | headroom | localR | extension
  deriving DecidableEq, Repr

/-- The destination of a VOQ (R293). -/
inductive Dest where
  | port (p : Nat)
  | mill (die : Nat)
  | firmware
  | bridge (die : Nat)
  deriving DecidableEq, Repr

/-- What is known of a frame's tail (R303). -/
inductive Tail where
  | pending
  | good
  | bad (cause : BitVec 3)
  deriving DecidableEq, Repr

/-- A frame held in cells of one die (R305): `src` is the local ingress port, or 64 for the local region. -/
structure Held where
  fid : Nat
  die : Nat
  src : Nat
  frame : Frame
  region : Region
  cells : Nat
  vc : Nat
  refcount : Nat
  lastOwner : Option (Dest × Nat)
  tail : Tail
  cutThrough : Bool
  shaper : Option Nat
  /-- The tag of its head cell on the die (R305). -/
  tag : Nat
  deriving DecidableEq, Repr

/-- A copy in an egress queue: the frame it reads, where it goes, the header and payload it leaves with, whether it has started, whether its shaper has released it, whether this switch originated it, and the
message it carries for the switch. A copy that crosses a bridge carries the copies its far die fans out (R203). -/
structure Copy where
  cid : Nat
  fid : Nat
  die : Nat
  src : Nat
  dest : Dest
  vc : Nat
  out : Frame
  started : Bool
  markBad : Option (BitVec 3)
  released : Bool
  headSince : Option Nat
  own : Bool
  rewritten : Bool
  msg : Option Nat
  fan : List (Nat × Frame × Option Nat)
  /-- The frame's tag, and its USE_COUNT when the copy was enqueued (R305). -/
  tag : Nat
  useCount : BitVec 16
  deriving DecidableEq, Repr

/-- A copy to be queued from the local region of a die (R294): its destination, the frame as it leaves, whether the switch
originated it, whether it was rewritten, the message it carries. -/
structure LocalCopy where
  dest : Dest
  out : Frame
  own : Bool
  rewritten : Bool
  msg : Option Nat
  deriving DecidableEq, Repr

/-- A frame whose context's request waits for a compaction of its mill, with what it asks for: the job and descriptor,
granules of a number of units each, lines (R311). -/
structure PoolWait where
  mill : Nat
  frame : Frame
  port : Nat
  job : BitVec 12
  desc : Nat
  grans : Nat
  units : Nat
  lines : Nat
  deriving DecidableEq, Repr

/-- Deficit round robin of one egress port (R324, R325). -/
structure Drr where
  port : Nat
  deficit : List Nat
  nextVc : Nat
  visited : Bool
  lastSrc : List (Option Nat)
  lastDone : Nat
  deriving DecidableEq, Repr

/-- A shaper entry's counters (R318, R322). -/
structure ShaperSt where
  die : Nat
  idx : Nat
  tokens : Int
  /-- Token remainder in millionths of a byte, from refills of whole core cycles. -/
  frac : Nat
  refusals : List (BitVec 24 × BitVec 16 × BitVec 3)
  /-- The entry has released a frame in this core cycle (R319). -/
  spent : Bool
  deriving DecidableEq, Repr

/-- A gate of a port (R327 to R331): the lists in force, each (DURATION, OPEN), and the pending swap. -/
structure GateSt where
  die : Nat
  j : Nat
  active : Option (Nat × List (Nat × BitVec 8) × Nat)
  pending : Option (Nat × List (Nat × BitVec 8) × Nat)
  openNow : BitVec 8
  deriving DecidableEq, Repr

/-- A 257-bit block (R402). -/
abbrev PcsBlock := BitVec 257

/-- The transmit side of a port's block layer (R402, R405): the logical lane that takes the next block, the blocks each lane has
carried, the LANE_MARKERs sent, the blocks of each lane's codeword as far as it is filled, and each lane's last whole codeword. -/
structure PcsTx where
  port : Nat
  next : Nat
  rounds : Nat
  markers : BitVec 32
  fill : List (Nat × List PcsBlock)
  words : List (Nat × List (BitVec 10))
  deriving DecidableEq, Repr

/-- Pause toward the neighbour and its repetition schedule (R296, R406). -/
structure PauseSt where
  port : Nat
  sent : BitVec 8
  repeats : Nat
  deriving DecidableEq, Repr

/-- Sampling of one die (R333, R334). -/
structure SampleSt where
  die : Nat
  seq : BitVec 32
  overrun : Bool
  deriving DecidableEq, Repr

/-! ## Fabric time (R250 to R255) -/

/-- Time states of R255. -/
inductive TimeState where
  | unlocked | acquiring | locked | holdover | root
  deriving DecidableEq, Repr

/-- The STATE field of TIME_STATUS. -/
def TimeState.code : TimeState → Nat
  | .unlocked => 0
  | .acquiring => 1
  | .locked => 2
  | .holdover => 3
  | .root => 4

/-- What the last TIME_SYNC_REPLY on a port reported (R251). -/
structure Neighbour where
  port : Nat
  valid : Bool
  distance : Nat
  deriving DecidableEq, Repr

/-- A TIME_SYNC that waits for its reply: port, SYNC_ID. -/
structure SyncOut where
  port : Nat
  sid : BitVec 16
  deriving DecidableEq, Repr

/-! ## TFP negotiation and cruise (R62, R63, R338 to R347) -/

/-- Negotiation of a port: has it sent, has it received HELLO_ACK? -/
structure NegSt where
  port : Nat
  ackSent : Bool
  ackGot : Bool
  deriving DecidableEq, Repr

/-- What a CRUISE_REPLY said (R340). -/
structure CruiseReply where
  flat : BitVec 24
  /-- ROLE as it came: 0 endpoint, 1 switch. -/
  role : Nat
  tier : Nat
  peerPort : Nat
  fw : BitVec 32
  caps : BitVec 32
  planTag : BitVec 64
  deriving DecidableEq, Repr

/-- Where a port stands in its sweep. -/
inductive CruisePhase where
  | idle        -- no sweep runs on the port
  | waiting     -- CRUISE_ID to be sent once the version is negotiated
  | asked       -- CRUISE_ID sent, no reply yet
  | answered    -- a reply is here, the result is not
  deriving DecidableEq, Repr

/-- Cruise on a port: its sweep's number and tries, its latest reply, and when it first matched while absent from the
tables (R347). -/
structure CruisePort where
  port : Nat
  phase : CruisePhase
  sweep : BitVec 16
  tries : Nat
  reply : Option CruiseReply
  matchAt : Option Nat
  deriving DecidableEq, Repr

/-- Fabric time. `now` is NS × 2^16 + FRAC, 80 bits (R250). `slew` is the correction still to be made, in units of
2^−16 ns (R255). -/
structure TimeSt where
  now : BitVec 80
  latch : BitVec 80
  state : TimeState
  parent : Option Nat
  parentDistance : Nat
  good : Nat
  slew : Int
  neighbours : List Neighbour
  syncs : List SyncOut
  nextSync : BitVec 16
  refGone : Bool
  deriving DecidableEq, Repr

end Sys2Proof.Machine
end

