-- ==== Sys2Proof/Machine/State.lean ====
section
/-! DEFINITION. The state of the SH-2048 as a block, its faults and refusals, and the state after reset. -/
namespace Sys2Proof.Machine

open Sys2Proof

/-- A fault message (R442): the source code is (DIE, BLOCK, INSTANCE). -/
structure FaultMsg where
  die : BitVec 3
  block : BitVec 6
  inst : BitVec 10
  kind : BitVec 8
  cls : BitVec 2
  forced : Bool
  address : BitVec 48
  localRepeats : BitVec 8
  detail : BitVec 40
  deriving DecidableEq, Repr

/-- States of a queue entry (R447). -/
inductive EntryState where
  | pending | handling | reacted
  deriving DecidableEq, Repr

/-- A queue entry or flight-recorder record (R449). `loggedRepeat` is the REPEAT at the entry's LOG (R454); `acts` keeps
the forced message's leave to act (R456). -/
structure WtEntry where
  msg : FaultMsg
  ns : BitVec 64
  seq : BitVec 32
  rep : BitVec 16
  actions : BitVec 8
  /-- The ACTIONS value taken when the entry entered HANDLING (R453). -/
  value : BitVec 8
  state : EntryState
  timeValid : Bool
  jumped : Bool
  loggedRepeat : Option (BitVec 16)
  forceAct : Bool
  deriving DecidableEq, Repr

/-- The watchtower (R446 to R460): messages held at their sources, the queue in handling order, the ring of the flight
recorder, oldest first, conditions whose cause persists, forced causes held present. -/
structure WtSt where
  held : List FaultMsg
  queue : List WtEntry
  nextSeq : BitVec 32
  ring : List WtEntry
  /-- How many of the newest records wait to be copied to flash, SEQ of the newest one copied, and the next page of the log
  region (R459). -/
  waiting : Nat
  copied : BitVec 32
  logPage : Nat
  causes : List FaultMsg
  forcedHold : List FaultMsg
  deriving DecidableEq, Repr

/-- The packet buffer and the schedulers of the four fabric dies. -/
structure CoreSt where
  held : List Held
  copies : List Copy
  nextId : Nat
  drr : List Drr
  shapers : List ShaperSt
  gates : List GateSt
  pauses : List PauseSt
  samples : List SampleSt
  sweeping : List Nat
  compacting : List PoolWait
  wire : List (Nat × Frame)
  pcs : List PcsTx
  seq : BitVec 32
  forwarding : Bool
  /-- USE_COUNT by die and tag, where it is not 0 (R305). -/
  uses : List (Nat × Nat × BitVec 16)
  /-- Frames that wait for cells of their die's local region, with their copies, in order (R294; log entry 77). -/
  backlog : List (Held × List Copy)
  /-- Frames that the control firmware's full input discarded (R289), and copies discarded by queue dwell (R267). -/
  fwDrops : Nat
  dwellDrops : Nat
  deriving DecidableEq, Repr

/-- The state of the block. -/
structure State where
  regs : List (Nat × Word)
  arrays : List (Nat × Word)
  mem : List Host.Cell
  memory : MemSt
  image : Image
  ports : List PortCfg
  negs : List NegSt
  cruise : List CruisePort
  time : TimeSt
  bank0 : Bank
  bank1 : Bank
  /-- Tables of a die that differ from the firmware's copy (R273). -/
  dieTables : List DieTable
  epoch : EpochSt
  core : CoreSt
  ctxs : List (Nat × Ctx)
  /-- The descriptor caches of the fabric dies: (die, descriptor), the latest used first (R107). -/
  descCache : List (Nat × Nat)
  jobs : List Job
  landings : List Landing
  mcs : List McRecord
  outs : List OutMsg
  /-- Messages ended within the last millisecond, whose MSG_ID is not to be used again (R55). -/
  ended : List EndedMsg
  rxs : List RxMsg
  wt : WtSt
  host : HostSt
  /-- Ring records that wait for CONSUMER to be read from the companion's cache (R539). -/
  ringQueue : List (RingAt × List Byte × Nat)
  /-- The four most recent step records of the device, held in the retention die (R165). -/
  retained : List StepRecord
  /-- Requests to the signing engine, oldest first: a step record (R166), or the attestation report (R519). -/
  signQueue : List (Option (BitVec 12 × BitVec 32))
  power : PowerSt
  flash : FlashSt
  boot : BootSt
  upd : UpdSt
  smb : SmbSt
  freeCount : Nat
  pending : List Instr
  deriving DecidableEq, Repr

/-- The companion link while it is DOWN: nothing queued, no credit, an empty snoop filter (R528, R531, R536). -/
def HostSt.down : HostSt :=
  { queue := [], replay := [], nextSeq := 0, rxSeq := 1023, creditReq := 0, creditRsp := 0, creditSnp := 0, owedReq := 0, owedRsp := 0,
    scrambler := 0x7FFFFFFF, lanes := [], naks := 0,
    failedRetrains := [], filter := [], snoops := [], nextSnoop := 0, waiting := [], intrHold := [], intrDeferred := [],
    phase := .idle, produced := 0, cmd := [], landing := none }

/-- Fabric time before the switch starts forwarding (R251; DESIGN CHOICE, log entry 16: 0). -/
def TimeSt.fresh : TimeSt :=
  { now := 0, latch := 0, state := .unlocked, parent := none, parentDistance := 0, good := 0, slew := 0,
    neighbours := [], syncs := [], nextSync := 0, refGone := false }

/-- Epochs before epoch 0 is built. -/
def EpochSt.fresh : EpochSt :=
  { num := 0, phase := .idle, retiredOnce := false, items := [], announce := [], announceFailed := 0, drainFrom := 0,
    drainedSent := false, coordinator := 0, coord := .idle, reports := [], coordNum := 0, owing := [], asked := [],
    running := [] }

/-- An empty packet buffer with its schedulers at rest. -/
def CoreSt.fresh : CoreSt :=
  { held := [], copies := [], nextId := 0, drr := [], shapers := [], gates := [], pauses := [], samples := [],
    sweeping := [], compacting := [], wire := [], pcs := [], seq := 0, forwarding := false, uses := [], backlog := [], fwDrops := 0,
    dwellDrops := 0 }

/-- The watchtower with an empty queue and an empty flight recorder. -/
def WtSt.fresh : WtSt :=
  { held := [], queue := [], nextSeq := 1, ring := [], waiting := 0, copied := 0, logPage := 0, causes := [],
    forcedHold := [] }

/-- The keep after VKEEP is applied: CORE_PWR_EN is high, PWRGD low, SAG_N high (DESIGN CHOICE, log entry 17), no other
domain runs (R570). -/
def PowerSt.fresh : PowerSt :=
  { pins := ⟨true, false, true, true⟩, core := false, fw := false, rom := false, dies := [], groups := [], dozing := [],
    release := [], change := none, matched := false, saveArea := [], sagArea := [], sag := none, afterSag := false,
    sagHold := false, haltReset := [], refEdges := true, serviced := true, deadBridges := [], sweepWanted := false,
    scan := List.replicate scanLands.length false, tap := ⟨false, 0⟩, coreBus := ⟨false, 0⟩ }

/-- A blank boot store: both copies fail their CRC, so the device is unclaimed and no slot is named (R505). -/
def BootStore.blank : BootStore :=
  { writeCount := 0, ownerKeyHash := List.replicate 64 0, svFloor := 0, configFloor := 0, bootNext := 0, lastGood := 0 }

/-- The boot unit before a start. -/
def BootSt.fresh : BootSt :=
  { chosen := 0, slot := 0, second := false, pufWait := false, started := none, factory := [], report := [],
    copyA := ⟨BootStore.blank, 0⟩, copyB := ⟨BootStore.blank, 0⟩ }

/-- The flash part on the board: 64 MiB, erase sectors of 4 KiB, pages of 256 bytes, erased (DESIGN CHOICE, log entry
18). -/
def FlashSt.fresh : FlashSt := { sfdp := true, bytes := 67108864, sector := 4096, page := 256, data := [] }

/-- The machine right after VKEEP is applied, with both address straps low (R553, R570): every register at its reset value,
every memory empty, nothing running. -/
def State.reset : State :=
  { regs := [], arrays := [], mem := []
    memory := { poisoned := [], damaged := [], tagBad := [], scrubbed := [], refresh := [], addrHigh := [], checkCache := [] }
    image := Image.none, ports := [], negs := [], cruise := [], time := TimeSt.fresh
    bank0 := Bank.empty, bank1 := Bank.empty, dieTables := [], epoch := EpochSt.fresh, core := CoreSt.fresh
    ctxs := [], descCache := [], jobs := [], landings := [], mcs := [], outs := [], ended := [], rxs := [], wt := WtSt.fresh, host := HostSt.down
    ringQueue := [], retained := [], signQueue := [], power := PowerSt.fresh, flash := FlashSt.fresh
    boot := BootSt.fresh, upd := { buf := [], ops := [] }, smb := { addr := 0, value := 0, fetching := false }
    freeCount := 0, pending := [] }

/-- Why a command faults. -/
inductive Fault where
  /-- Raised by no meaning: the table has no command whose effect the manual leaves out. Safe. -/
  | none
  deriving DecidableEq, Repr

/-- Why a command is refused. -/
inductive Refusal where
  /-- The command has no meaning yet (raised by `exec` alone). Safe: the model stops. -/
  | notModelled (mnemonic : String)
  deriving DecidableEq, Repr

end Sys2Proof.Machine
end

