-- ==== Sys2Proof/Machine/Flags.lean ====
section
/-! DEFINITION. Status bits, counters and faults: reading and writing a field of a register, saturating counters, and
handing a fault message to its source (00_scope Register tables; spec/18_watchtower.md R442 to R446). -/
namespace Sys2Proof.Machine

open Sys2Proof

/-! ## Registers and fields -/

/-- The stored word of instance i. -/
def State.reg (s : State) (n : RegName) (i : Nat) : Nat :=
  match sget (regAddr n i) s.regs with
  | some w => w.toNat
  | none => regReset n i

/-- Write the whole stored word. -/
def State.setReg (s : State) (n : RegName) (i v : Nat) : State :=
  { s with regs := sset (BitVec.ofNat 32 (regReset n i)) (regAddr n i) (BitVec.ofNat 32 v) s.regs }

/-- A field's value. -/
def State.fld (s : State) (f : Fld) (i : Nat) : Nat := bitsOf (s.reg f.reg i) f.hi f.lo

/-- Set a field. -/
def State.setFld (s : State) (f : Fld) (i v : Nat) : State :=
  s.setReg f.reg i (setBitsOf (s.reg f.reg i) f.hi f.lo v)

/-- A one-bit field as a truth value. -/
def State.flag (s : State) (f : Fld) (i : Nat) : Bool := s.fld f i != 0

/-- Set a one-bit field. -/
def State.setFlag (s : State) (f : Fld) (i : Nat) (b : Bool) : State := s.setFld f i (b2n b)

/-- Raise a counter field by k; it saturates. -/
def State.bumpBy (s : State) (f : Fld) (i k : Nat) : State := s.setFld f i (satAdd f.width (s.fld f i) k)

/-- Raise a counter field by one. -/
def State.bump (s : State) (f : Fld) (i : Nat) : State := s.bumpBy f i 1

/-- Raise a counter of a register that holds the same value on every fabric die (10_addressing_routing.md, Routing
registers). -/
def State.bumpDies (s : State) (f : Fld) : State := (List.range 4).foldl (fun s d => s.bump f d) s

/-- Write one field in every instance below n (registers that hold the same value on every die). -/
def State.setAll (s : State) (f : Fld) (n v : Nat) : State :=
  (List.range n).foldl (fun s d => s.setFld f d v) s

/-- Put a register's instances below n back to their reset values. -/
def State.resetReg (s : State) (n : RegName) (i : Nat) : State := s.setReg n i (regReset n i)

/-! ## Interrupts to the companion (R546) -/

/-- Is the link carrying messages: ACTIVE, or RETRAIN with its buffers kept (R522)? -/
def State.dclUp (s : State) : Bool := s.fld F.DCL_STATUS_LINK_STATE 0 == 4 || s.fld F.DCL_STATUS_LINK_STATE 0 == 5

/-- Lanes that the link uses (R523). -/
def State.dclWidth (s : State) : Nat := 2 ^ (s.fld F.DCL_STATUS_WIDTH 0 + 1)

/-- What waits for the link goes out as far as it may; flits travel in ACTIVE only (R522, R526). -/
def State.pumpLink (s : State) : State :=
  if s.fld F.DCL_STATUS_LINK_STATE 0 == 4 then { s with host := s.host.pumpOut s.dclWidth } else s

/-- Send a message to the companion; there is none to reach while the link is not up (R528). -/
def State.post (s : State) (m : DclMsg) : State :=
  if s.dclUp then State.pumpLink { s with host := { s.host with queue := s.host.queue ++ [m] } } else s

/-- Send INTR for a source: at once where no HOLDOFF interval of the bit runs, else at the interval's end. -/
def State.sendIntr (s : State) (bit : Nat) : State :=
  if s.host.intrHold.contains bit then
    { s with host := { s.host with intrDeferred := s.host.intrDeferred.filter (· != bit) ++ [bit] } }
  else
    let s := s.post (.intr (s.fld F.HOST_INT_CONTROL_VECTOR_BASE 0 + bit))
    if s.fld F.HOST_INT_CONTROL_HOLDOFF 0 = 0 then s
    else { s with host := { s.host with intrHold := s.host.intrHold ++ [bit] } }

/-- A source of HOST_INT_STATUS rises; an enabled bit that was 0 sends INTR. -/
def State.raiseInt (s : State) (bit : Nat) : State :=
  let st := s.fld F.HOST_INT_STATUS_STATUS 0
  if bitOf st bit then s
  else
    let s := s.setFld F.HOST_INT_STATUS_STATUS 0 (st + 2 ^ bit)
    if bitOf (s.fld F.HOST_INT_ENABLE_ENABLE 0) bit then s.sendIntr bit else s

/-! ## Time stamps -/

/-- NS of fabric time (R250). -/
def State.ns (s : State) : Nat := s.time.now.toNat / 2 ^ 16

/-- Is fabric time LOCKED or ROOT? -/
def State.timeValid (s : State) : Bool := s.time.state == .locked || s.time.state == .root

/-- TX_TIME of a frame sent now (R50, R281). -/
def State.txTime (s : State) : BitVec 32 := if s.time.state = .unlocked then 0 else BitVec.ofNat 32 s.ns

/-! ## Faults (R442 to R446) -/

/-- Block codes of R443 used by the meanings. -/
def blkCore : Nat := 0x01
/-- Keep watchdog. -/
def blkWatchdog : Nat := 0x02
/-- Clock control. -/
def blkClock : Nat := 0x03
/-- Security engines and PUF. -/
def blkSecurity : Nat := 0x04
/-- Plan loader. -/
def blkPlan : Nat := 0x06
/-- Register bus. -/
def blkBus : Nat := 0x09
/-- Switch core. -/
def blkSwitch : Nat := 0x10
/-- Mill. -/
def blkMill : Nat := 0x11
/-- Memory controller. -/
def blkMem : Nat := 0x15
/-- Belfry share. -/
def blkBelfry : Nat := 0x14
/-- Bridge. -/
def blkBridge : Nat := 0x16
/-- Route and membership banks. -/
def blkBanks : Nat := 0x17
/-- Packet buffer and count memory. -/
def blkBuffer : Nat := 0x18
/-- Port. -/
def blkPort : Nat := 0x21
/-- Control die and lane-chiplet die codes. -/
def dieCD : Nat := 4
/-- A lane chiplet. -/
def dieLC : Nat := 6

/-- A message of a kind, with the class of R445. -/
def faultMsg (die block inst kind address detail : Nat) : FaultMsg :=
  { die := BitVec.ofNat 3 die, block := BitVec.ofNat 6 block, inst := BitVec.ofNat 10 inst,
    kind := BitVec.ofNat 8 kind, cls := BitVec.ofNat 2 (kindClass kind), forced := false,
    address := BitVec.ofNat 48 address, localRepeats := 0, detail := BitVec.ofNat 40 detail }

/-- The 19-bit source code (R442). -/
def FaultMsg.source (m : FaultMsg) : BitVec 19 :=
  BitVec.ofNat 19 (m.die.toNat * 2 ^ 16 + m.block.toNat * 2 ^ 10 + m.inst.toNat)

/-- Same source, kind and class (R446, R448). -/
def FaultMsg.same (a b : FaultMsg) : Bool := a.source == b.source && a.kind == b.kind && a.cls == b.cls

/-- One more occurrence merged at the source. -/
def FaultMsg.again (m : FaultMsg) : FaultMsg :=
  { m with localRepeats := BitVec.ofNat 8 (satAdd 8 m.localRepeats.toNat 1) }

/-- Hand a message to its source: a further occurrence of the held message's kind and class merges, another waits
behind it (R446). The held message of a source is its earliest. -/
def holdMsg (m : FaultMsg) : List FaultMsg → List FaultMsg
  | [] => [m]
  | h :: t =>
    if h.source == m.source then
      if h.same m then h.again :: t else h :: t ++ [m]
    else h :: holdMsg m t

/-- The bit of a kind in KIND_PENDING sets when a message of it is raised (R455, R562). -/
def State.kindSeen (s : State) (kind : Nat) : State :=
  s.setFld F.KIND_PENDING_PENDING (kind / 32) (s.fld F.KIND_PENDING_PENDING (kind / 32) ||| 2 ^ (kind % 32))

/-- A source raises a message. -/
def State.raiseMsg (s : State) (m : FaultMsg) : State :=
  let s := s.kindSeen m.kind.toNat
  { s with wt := { s.wt with held := holdMsg m s.wt.held } }

/-- A source raises a kind. -/
def State.raise (s : State) (die block inst kind address detail : Nat) : State :=
  s.raiseMsg (faultMsg die block inst kind address detail)

/-- A source given by its code raises a kind. -/
def State.raiseFrom (s : State) (src : BitVec 19) (kind address detail : Nat) : State :=
  let n := src.toNat
  s.raise (n / 2 ^ 16) (n / 2 ^ 10 % 2 ^ 6) (n % 2 ^ 10) kind address detail

/-- A condition's cause appears: it is remembered while it persists, and reported once (R444). -/
def State.raiseCond (s : State) (m : FaultMsg) : State :=
  if s.wt.causes.any (·.same m) then s
  else
    let s := s.raiseMsg m
    { s with wt := { s.wt with causes := s.wt.causes ++ [m] } }

/-- A condition's cause ends (R444). -/
def State.endCond (s : State) (m : FaultMsg) : State :=
  { s with wt := { s.wt with causes := s.wt.causes.filter fun c => !c.same m } }

/-- The handling of R10: the write of a reserved encoding is recorded as a contained fault (kind 0x04). R443 gives the register
bus a source code on any die and says of no register which reports for it: the control die's does (DESIGN CHOICE, log entry
95). -/
def State.reservedWrite (s : State) (addr data : Nat) : State := s.raise dieCD blkBus 0 0x04 addr data

/-- ADDRESS and DETAIL of form P (R445). -/
def addrP (port second : Nat) : Nat := port % 256 + (second % 256) * 256

/-- ADDRESS of form J. -/
def addrJ (job : BitVec 12) (step : BitVec 32) : Nat := job.toNat * 2 ^ 32 + step.toNat

/-- DETAIL of form J: a chunk or rank, and a lane or generation. -/
def detailJ (obj extra : Nat) : Nat := obj % 2 ^ 22 + (extra % 256) * 2 ^ 22

end Sys2Proof.Machine
end

