-- ==== Sys2Proof/Machine/Frames.lean ====
section
/-! DEFINITION. The byte layout of frames and the rules a frame is tested against
(spec/02_fabric_frames.md R28 to R64). -/
namespace Sys2Proof.Machine

open Sys2Proof

/-! ## Layouts -/

/-- The widths of the base header's fields (R30). -/
def baseWidths : List Nat := [4, 4, 3, 1, 1, 3, 3, 13, 24, 24, 12, 4, 32, 64, 16, 32, 16]

/-- The values of the base header's fields. -/
def baseFields (h : BaseHdr) : List Nat :=
  [h.version.toNat, h.ftype.toNat, h.vc.toNat, b2n h.epoch, b2n h.amode, h.attempt.toNat, h.rsvd.toNat,
   h.payloadLen.toNat, h.dest.toNat, h.src.toNat, h.jobId.toNat, h.layoutGen.toNat, h.seq.toNat,
   h.remoteAddr.toNat, h.msgId.toNat, h.msgLen.toNat, h.hdrCheck.toNat]

/-- The 32 bytes of a base header (R6, R30). -/
def baseBytes (h : BaseHdr) : List Byte := beBytes 32 (pack (baseWidths.zip (baseFields h)))

/-- The base header that 32 bytes hold. -/
def parseBase (bs : List Byte) : BaseHdr :=
  let v := unpack baseWidths (beAt bs 0 32)
  let f (i : Nat) : Nat := nth v i 0
  { version := BitVec.ofNat 4 (f 0), ftype := BitVec.ofNat 4 (f 1), vc := BitVec.ofNat 3 (f 2),
    epoch := f 3 == 1, amode := f 4 == 1, attempt := BitVec.ofNat 3 (f 5), rsvd := BitVec.ofNat 3 (f 6),
    payloadLen := BitVec.ofNat 13 (f 7), dest := BitVec.ofNat 24 (f 8), src := BitVec.ofNat 24 (f 9),
    jobId := BitVec.ofNat 12 (f 10), layoutGen := BitVec.ofNat 4 (f 11), seq := BitVec.ofNat 32 (f 12),
    remoteAddr := BitVec.ofNat 64 (f 13), msgId := BitVec.ofNat 16 (f 14), msgLen := BitVec.ofNat 32 (f 15),
    hdrCheck := BitVec.ofNat 16 (f 16) }

/-- The widths of the reduction extension's fields (R37). -/
def redWidths : List Nat :=
  [32, 22, 4, 4, 2, 18, 5, 4, 1, 1, 1, 1, 1, 16, 16, 13, 12, 7, 8, 3, 21, 64]

/-- The values of the reduction extension's fields. -/
def redFields (x : RedExt) : List Nat :=
  [x.step.toNat, x.chunkId.toNat, x.frameIdx.toNat, x.frameCnt.toNat, x.pieces.toNat, x.memberRank.toNat,
   x.format.toNat, x.code.toNat, b2n x.fast, b2n x.flushed, b2n x.membershipReduced, b2n x.stochastic,
   b2n x.noChunk, x.anchor.toNat, x.maxExp.toNat, x.chunkElems.toNat, x.elemOffset.toNat, x.rsvdA.toNat,
   x.generation.toNat, x.tier.toNat, x.rsvdB.toNat, x.sumCheck.toNat]

/-- The 32 bytes of a reduction extension. -/
def redBytes (x : RedExt) : List Byte := beBytes 32 (pack (redWidths.zip (redFields x)))

/-- The reduction extension that 32 bytes hold. -/
def parseRed (bs : List Byte) : RedExt :=
  let v := unpack redWidths (beAt bs 0 32)
  let f (i : Nat) : Nat := nth v i 0
  { step := BitVec.ofNat 32 (f 0), chunkId := BitVec.ofNat 22 (f 1), frameIdx := BitVec.ofNat 4 (f 2),
    frameCnt := BitVec.ofNat 4 (f 3), pieces := BitVec.ofNat 2 (f 4), memberRank := BitVec.ofNat 18 (f 5),
    format := BitVec.ofNat 5 (f 6), code := BitVec.ofNat 4 (f 7), fast := f 8 == 1, flushed := f 9 == 1,
    membershipReduced := f 10 == 1, stochastic := f 11 == 1, noChunk := f 12 == 1,
    anchor := BitVec.ofNat 16 (f 13), maxExp := BitVec.ofNat 16 (f 14), chunkElems := BitVec.ofNat 13 (f 15),
    elemOffset := BitVec.ofNat 12 (f 16), rsvdA := BitVec.ofNat 7 (f 17), generation := BitVec.ofNat 8 (f 18),
    tier := BitVec.ofNat 3 (f 19), rsvdB := BitVec.ofNat 21 (f 20), sumCheck := BitVec.ofNat 64 (f 21) }

/-- The 16 bytes of a NACK extension (R47). -/
def nackBytes (x : NackExt) : List Byte :=
  beBytes 16 (pack [(8, x.code.toNat), (8, x.checkCause.toNat), (16, x.retryHint.toNat), (32, x.step.toNat),
    (22, x.chunkId.toNat), (2, x.rsvd.toNat), (8, x.generation.toNat), (32, x.echoSeq.toNat)])

/-- The 32 bytes of a LINK extension (R61). -/
def linkBytes (x : LinkExt) : List Byte :=
  beBytes 32 (pack [(8, x.op.toNat), (4, x.minVer.toNat), (4, x.maxVer.toNat), (4, x.selectedVer.toNat),
    (4, x.rsvdA.toNat), (8, x.rsvdB.toNat), (32, x.fwVersion.toNat), (32, x.caps.toNat), (160, x.rsvdC.toNat)])

/-- The bytes of the extension. -/
def extBytes : Ext → List Byte
  | .none => []
  | .red x => redBytes x
  | .nack x => nackBytes x
  | .link x => linkBytes x

/-- Every byte from header offset 0 through the last payload byte: what CRC64 covers (R51). -/
def coveredBytes (f : Frame) : List Byte := baseBytes f.h ++ extBytes f.ext ++ f.payload

/-- HDR_CHECK of a header: over bytes 0 to 29 (R34). -/
def hdrCheckOf (h : BaseHdr) : BitVec 16 := hdrCheck ((baseBytes h).take 30)

/-- CRC64 of a frame (R51). -/
def crcOf (f : Frame) : BitVec 64 := crc64 (coveredBytes f)

/-- The 16 bytes of a trailer (R6, R50). -/
def trailerBytes (t : Trailer) : List Byte :=
  beBytes 16 (pack [(64, t.crc.toNat), (1, b2n t.bad), (3, t.badCause.toNat), (28, t.rsvd.toNat), (32, t.txTime.toNat)])

/-- The trailer that 16 bytes hold. -/
def parseTrailer (bs : List Byte) : Trailer :=
  let v := unpack [64, 1, 3, 28, 32] (beAt bs 0 16)
  { crc := BitVec.ofNat 64 (nth v 0 0), bad := nth v 1 0 == 1, badCause := BitVec.ofNat 3 (nth v 2 0),
    rsvd := BitVec.ofNat 28 (nth v 3 0), txTime := BitVec.ofNat 32 (nth v 4 0) }

/-- A whole frame in the order in which its bytes are sent: header, extension, payload, trailer (R6, R28, R50). -/
def frameBytes (f : Frame) : List Byte := coveredBytes f ++ trailerBytes f.t

/-- The bytes the frame takes in the packet buffer, trailer included (R29, R292). -/
def frameLen (f : Frame) : Nat := 32 + (extBytes f.ext).length + f.payload.length + 16

/-- The frame as the switch sends it on a link of a TFP version: VERSION, HDR_CHECK (zero on version 1, R35, and on
every LINK frame, R34), TX_TIME and CRC64 set. -/
def sealFrame (version : BitVec 4) (txTime : BitVec 32) (f : Frame) : Frame :=
  let isLink := f.h.ftype = 0x7#4
  let h0 := { f.h with version := if isLink then 1 else version, hdrCheck := 0 }
  let h := if isLink || version == 1#4 then h0 else { h0 with hdrCheck := hdrCheckOf h0 }
  let g := { f with h := h }
  { g with t := { f.t with crc := crcOf g, txTime := txTime } }

/-! ## TYPE rules -/

/-- The TFP frame types of R28. -/
inductive FType where
  | write | contrib | partialF | control | nack | ack | link | mgmt
  deriving DecidableEq, Repr

/-- The type a TYPE code names; none where it is reserved (R28). -/
def ftypeOf (t : BitVec 4) : Option FType :=
  match t.toNat with
  | 1 => some .write
  | 2 => some .contrib
  | 3 => some .partialF
  | 4 => some .control
  | 5 => some .nack
  | 6 => some .ack
  | 7 => some .link
  | 8 => some .mgmt
  | _ => none

/-- The TYPE code. -/
def FType.code : FType → BitVec 4
  | .write => 1
  | .contrib => 2
  | .partialF => 3
  | .control => 4
  | .nack => 5
  | .ack => 6
  | .link => 7
  | .mgmt => 8

/-- May the type use the VC (R28)? -/
def vcAllowed (t : FType) (vc : Nat) : Bool :=
  match t with
  | .write => vc == 1 || vc == 3 || vc == 6 || vc == 7
  | .contrib | .partialF => vc == 4
  | .control => vc == 5
  | .nack | .ack => vc == 2
  | .link | .mgmt => vc == 0

/-- Control codes of R40. -/
def codeResult : BitVec 4 := 1
/-- RESCALE (R40). -/
def codeRescale : BitVec 4 := 2
/-- SUPERSEDE (R40). -/
def codeSupersede : BitVec 4 := 3
/-- STEP_COMMIT (R40). -/
def codeCommit : BitVec 4 := 4
/-- STEP_ABORT (R40). -/
def codeAbort : BitVec 4 := 5

/-- Is the payload length one the type allows (R28, R29)? -/
def payloadLenOk (t : FType) (x : Ext) (n : Nat) : Bool :=
  match t with
  | .write => decide (1 ≤ n && n ≤ 4096)
  | .contrib | .partialF | .mgmt => decide (8 ≤ n && n ≤ 4096)
  | .control =>
    match x with
    | .red e => if e.code = codeResult then decide (8 ≤ n && n ≤ 4096) else n == 0
    | _ => false
  | .nack | .ack | .link => n == 0

/-- Does the value carry the extension its type has (R28)? -/
def extOk (t : FType) (x : Ext) : Bool :=
  match t, x with
  | .contrib, .red _ | .partialF, .red _ | .control, .red _ | .nack, .nack _ | .link, .link _ => true
  | .write, .none | .ack, .none | .mgmt, .none => true
  | _, _ => false

/-- AMODE = 1 is taken on VC0 and VC7, and on VC2 for an ACK or NACK (R32). -/
def amodeOk (h : BaseHdr) : Bool :=
  !h.amode || h.vc == 0#3 || h.vc == 7#3 || (h.vc == 2#3 && (h.ftype == 5#4 || h.ftype == 6#4))

/-- The frame rules whose breach is counted in RULE_DISCARDS: R29, R32 and the VERSION rule of R62. `version` is
the version in force on the link. -/
def ruleOk (version : BitVec 4) (f : Frame) : Bool :=
  match ftypeOf f.h.ftype with
  | none => false
  | some t =>
    vcAllowed t f.h.vc.toNat && payloadLenOk t f.ext f.payload.length && amodeOk f.h
      && (t == .link || f.h.version == version)

/-- Is the header check right on a link of this version (R34, R35)? -/
def hdrOk (version : BitVec 4) (f : Frame) : Bool :=
  f.h.ftype == 7#4 || version == 1#4 || f.h.hdrCheck == hdrCheckOf f.h

/-- CRC64 found good and BAD clear (R52, R303). -/
def tailGood (f : Frame) : Bool := !f.t.bad && f.t.crc == crcOf f

/-! ## Addresses -/

/-- The address of the switch fabric in tree mode and in flat mode (R31, R32). -/
def fabricAddr (amode : Bool) : BitVec 24 := if amode then 0xFFFFFF else 0x3FFFFF

/-- Pod, leaf and port of a tree coordinate (R31). -/
def podOf (a : BitVec 24) : Nat := bitsOf a.toNat 21 14
/-- The leaf index. -/
def leafOf (a : BitVec 24) : Nat := bitsOf a.toNat 13 7
/-- The port of the leaf. -/
def portOf (a : BitVec 24) : Nat := bitsOf a.toNat 6 0

/-- A tree coordinate. -/
def coord (pod leaf port : Nat) : BitVec 24 := BitVec.ofNat 24 (pod * 2 ^ 14 + leaf * 2 ^ 7 + port)

/-! ## Frames the switch makes -/

/-- A base header with every field zero. -/
def zeroHdr : BaseHdr :=
  { version := 0, ftype := 0, vc := 0, epoch := false, amode := false, attempt := 0, rsvd := 0, payloadLen := 0,
    dest := 0, src := 0, jobId := 0, layoutGen := 0, seq := 0, remoteAddr := 0, msgId := 0, msgLen := 0,
    hdrCheck := 0 }

/-- A reduction extension with every field zero. -/
def zeroRed : RedExt :=
  { step := 0, chunkId := 0, frameIdx := 0, frameCnt := 0, pieces := 0, memberRank := 0, format := 0, code := 0,
    fast := false, flushed := false, membershipReduced := false, stochastic := false, noChunk := false,
    anchor := 0, maxExp := 0, chunkElems := 0, elemOffset := 0, rsvdA := 0, generation := 0, tier := 0,
    rsvdB := 0, sumCheck := 0 }

/-- A NACK extension with every field zero. -/
def zeroNack : NackExt :=
  { code := 0, checkCause := 0, retryHint := 0, step := 0, chunkId := 0, rsvd := 0, generation := 0, echoSeq := 0 }

/-- A trailer as a source sends it: BAD = 0 (R52). -/
def zeroTrailer : Trailer := { crc := 0, bad := false, badCause := 0, rsvd := 0, txTime := 0 }

/-- The reduction extension of a frame, zero where it has none. -/
def redOf (f : Frame) : RedExt :=
  match f.ext with
  | .red x => x
  | _ => zeroRed

/-- The NACK extension of a frame, zero where it has none. -/
def nackOf (f : Frame) : NackExt :=
  match f.ext with
  | .nack x => x
  | _ => zeroNack

/-- The ACK that answers a message (R32, R56): DEST is the message's SRC, SRC the switch fabric in the same mode,
JOB_ID, MSG_ID, ATTEMPT and MSG_LEN echoed. -/
def ackFor (h : BaseHdr) (self : BitVec 24) : Frame :=
  { h := { zeroHdr with ftype := 6, vc := 2, epoch := h.epoch, amode := h.amode, attempt := h.attempt,
                        dest := h.src, src := self, jobId := h.jobId, layoutGen := h.layoutGen,
                        msgId := h.msgId, msgLen := h.msgLen }
    ext := .none, payload := [], t := zeroTrailer }

/-- The NACK that answers a frame (R47): JOB_ID, LAYOUT_GEN, MSG_ID, ATTEMPT and MSG_LEN echoed. -/
def nackFor (h : BaseHdr) (self : BitVec 24) (x : NackExt) : Frame :=
  { h := { zeroHdr with ftype := 5, vc := 2, epoch := h.epoch, amode := h.amode, attempt := h.attempt,
                        dest := h.src, src := self, jobId := h.jobId, layoutGen := h.layoutGen,
                        msgId := h.msgId, msgLen := h.msgLen }
    ext := .nack { x with echoSeq := h.seq }, payload := [], t := zeroTrailer }

/-- NACK codes of R49. -/
def nackBusy : BitVec 8 := 1
/-- STALE_LAYOUT (R49). -/
def nackStaleLayout : BitVec 8 := 2
/-- FENCED (R49). -/
def nackFenced : BitVec 8 := 3
/-- SCALE_EXCEEDED (R49). -/
def nackScaleExceeded : BitVec 8 := 4
/-- CHECK_FAIL (R49). -/
def nackCheckFail : BitVec 8 := 5
/-- NO_CONTEXT (R49). -/
def nackNoContext : BitVec 8 := 6
/-- GEN_SUPERSEDED (R49). -/
def nackGenSuperseded : BitVec 8 := 7

/-- The key of a message for the receiver's count (R56). -/
def sameMessage (a b : BaseHdr) : Bool := a.src == b.src && a.msgId == b.msgId && a.jobId == b.jobId

end Sys2Proof.Machine
end

