-- ==== Sys2Proof/Machine/Pcs.lean ====
section
/-! DEFINITION. The block layer of a lane: 257-bit blocks, the logical lanes they are dealt to, the codewords of RS(544,514),
and what decoding a codeword gives (spec/16_serial_lanes.md R402 to R406, R415, R416; log entry 105). -/
namespace Sys2Proof.Machine

open Sys2Proof

/-! ## Blocks (R402 to R404) -/

/-- A 257-bit block: its header in bit 0, byte i of its 32 bytes in bits [8i+8 : 8i+1] (R402, R403). -/
def pcsBlock (data : Bool) (bytes : List Byte) : PcsBlock := BitVec.ofNat 257 (2 * ofLe (sliceB bytes 0 32) + b2n data)

/-- A control block: its TYPE, then bytes 1 to 31 (R403). -/
def ctlBlock (type : Byte) (content : List Byte) : PcsBlock := pcsBlock false (type :: content)

/-- IDLE. -/
def idleBlock : PcsBlock := ctlBlock 0x1E []

/-- PAUSE: bit v of the mask pauses VC v. -/
def pauseBlockOf (mask : BitVec 8) : PcsBlock := ctlBlock 0x2D [mask]

/-- QUIET. -/
def quietBlock : PcsBlock := ctlBlock 0x33 []

/-- WAKE. -/
def wakeBlock : PcsBlock := ctlBlock 0x66 []

/-- LANE_MARKER of a logical lane of a port of w lanes. -/
def markerBlock (lane w : Nat) (count : BitVec 32) : PcsBlock :=
  ctlBlock 0x4B ([BitVec.ofNat 8 lane, BitVec.ofNat 8 w] ++ beBytes 4 count.toNat ++ List.replicate 25 0x55)

/-- n data blocks from frame bytes, zero-filled past the last byte (R404). -/
def dataBlocks : Nat → List Byte → List PcsBlock
  | 0, _ => []
  | n + 1, bs => pcsBlock true bs :: dataBlocks n (bs.drop 32)

/-- The blocks of a frame: START with bytes 0 to 30, then ceil((L − 31) / 32) data blocks (R404). -/
def frameBlocks (bs : List Byte) : List PcsBlock :=
  ctlBlock 0x78 (bs.take 31) :: dataBlocks (ceilDiv (bs.length - 31) 32) (bs.drop 31)

/-! ## RS(544,514) over GF(2^10) (R402)

The field, its generator polynomial and the order of bits and symbols are IEEE 802.3's, which R402 does not restate (PRESUMED,
log entry 105). -/

/-- Multiplication by α in GF(2^10) with x^10 + x^3 + 1. -/
def feDouble (a : BitVec 10) : BitVec 10 := if a.getLsbD 9 then (a <<< 1) ^^^ 9#10 else a <<< 1

/-- Multiplication in GF(2^10). -/
def feMul (a b : BitVec 10) : BitVec 10 :=
  ((List.range 10).foldl (fun (x : BitVec 10 × BitVec 10) k =>
    (if b.getLsbD k then x.1 ^^^ x.2 else x.1, feDouble x.2)) (0#10, a)).1

/-- α^k. -/
def fePow : Nat → BitVec 10
  | 0 => 1#10
  | k + 1 => feDouble (fePow k)

/-- The generator polynomial with roots α^0 to α^29, highest degree first, without its leading 1. -/
def feGenerator : List (BitVec 10) :=
  ((List.range 30).foldl (fun g k =>
    List.zipWith (· ^^^ ·) (g ++ [0#10]) (0#10 :: g.map (feMul (fePow k)))) [1#10]).tail

/-- The 30 check symbols of a message. -/
def feCheck (msg : List (BitVec 10)) : List (BitVec 10) :=
  let g := feGenerator
  msg.foldl (fun r d =>
    let x := d ^^^ r.headD 0
    List.zipWith (· ^^^ ·) (r.tail ++ [0#10]) (g.map (feMul x))) (List.replicate 30 0#10)

/-- The bits of blocks, the first block's bit 0 least significant. -/
def blockBits : List PcsBlock → Nat
  | [] => 0
  | b :: bs => b.toNat + 2 ^ 257 * blockBits bs

/-- n 10-bit symbols of a bit string, from its least significant end. -/
def symbols10 : Nat → Nat → List (BitVec 10)
  | 0, _ => []
  | n + 1, v => BitVec.ofNat 10 v :: symbols10 n (v / 1024)

/-- The codeword of 20 blocks: 514 message symbols, then 30 check symbols (R402). -/
def codeword20 (bs : List PcsBlock) : List (BitVec 10) :=
  let m := symbols10 514 (blockBits bs)
  m ++ feCheck m

/-! ## The transmitter of a port (R402, R405, R406) -/

/-- A transmitter that has sent nothing. -/
def PcsTx.fresh (port : Nat) : PcsTx := { port := port, next := 0, rounds := 0, markers := 0, fill := [], words := [] }

/-- Deal one block to the next logical lane of w; 20 of them make the lane's next codeword. -/
def PcsTx.deal (w : Nat) (t : PcsTx) (b : PcsBlock) : PcsTx :=
  let mine := ((t.fill.find? fun x => x.1 == t.next).map (·.2)).getD [] ++ [b]
  let others := t.fill.filter fun x => x.1 != t.next
  let t := if mine.length < 20 then { t with fill := others ++ [(t.next, mine)] }
    else { t with fill := others, words := t.words.filter (fun x => x.1 != t.next) ++ [(t.next, codeword20 mine)] }
  if t.next + 1 < w then { t with next := t.next + 1 } else { t with next := 0, rounds := t.rounds + 1 }

/-- Send a block; in every 20,480th place each lane sends a LANE_MARKER, all with the same count (R405). -/
def PcsTx.put (w : Nat) (t : PcsTx) (b : PcsBlock) : PcsTx :=
  let t := if t.next = 0 ∧ t.rounds % 20480 = 20479 then
      let u := (List.range w).foldl (fun (u : PcsTx) i => u.deal w (markerBlock i w t.markers)) t
      { u with markers := u.markers + 1 }
    else t
  t.deal w b

/-- Send blocks in order. -/
def PcsTx.puts (w : Nat) (t : PcsTx) (bs : List PcsBlock) : PcsTx := bs.foldl (PcsTx.put w) t

/-- Send a PAUSE block, which travels on logical lane 0 only: IDLE blocks fill the round (R406). -/
def PcsTx.pause (w : Nat) (t : PcsTx) (mask : BitVec 8) : PcsTx :=
  t.puts w ((if t.next = 0 then [] else List.replicate (w - t.next) idleBlock) ++ [pauseBlockOf mask])

/-! ## The decoder of a lane (R402, R415) -/

/-- The wrong symbols of a codeword. -/
def wrongSymbols (x : LaneWord) : Nat :=
  (((x.errs.filter fun e => decide (e.1 < 544) && e.2 != 0).map (·.1)).dedup).length

/-- Is a codeword one that the decoder corrects: up to 15 wrong symbols? -/
def wordCorrected (x : LaneWord) : Bool := decide (0 < wrongSymbols x) && decide (wrongSymbols x ≤ 15)

/-- Is it uncorrectable? -/
def wordLost (x : LaneWord) : Bool := decide (15 < wrongSymbols x)

/-- The FEC-uncorrectable verdict on a frame: a codeword that holds one of its bytes is lost, or its blocks were cut short by a
block that has no place in a frame (R303, R404, R415). -/
def rxBad (r : TailRx) : Bool := r.cut || r.words.any wordLost

end Sys2Proof.Machine
end

