-- ==== Sys2Proof/Machine/Ops.lean ====
section
/-! DEFINITION. The named operations over memory, ports, tables, the packet buffer and the switch's own messages
(spec/10_addressing_routing.md, 11_switch_core.md, 02_fabric_frames.md R54 to R58, 17_memory.md R420). -/
namespace Sys2Proof.Machine

open Sys2Proof

/-! ## Memory (LPDDR by memory address) -/

/-- What a byte that nothing has written reads as: a stack's training zeroes it (R437; assumption 8). -/
def memDefault : Byte := 0

/-- The canonical form of memory: addresses strictly rising, no listed byte equal to the default. -/
def Memory.wf (m : List Host.Cell) : Bool := scanon (fun _ => memDefault) m

/-- n bytes of LPDDR from a memory address. -/
def State.readMem (s : State) (ma n : Nat) : List Byte := sgetRun memDefault ma n s.mem

/-- The lines that a run of bytes covers whole. -/
def coversLine (ma n line : Nat) : Bool := decide (ma ≤ line * 64) && decide (line * 64 + 64 ≤ ma + n)

/-- Write bytes of LPDDR from a memory address. A line written whole is neither poisoned nor damaged any more (R425). -/
def State.writeMem (s : State) (ma : Nat) (bs : List Byte) : State :=
  { s with
    mem := ssetRun memDefault ma bs s.mem
    memory := { s.memory with
      poisoned := s.memory.poisoned.filter fun l => !coversLine ma bs.length l
      damaged := s.memory.damaged.filter fun l => !coversLine ma bs.length l } }

/-- MA of the RINGS partition, which the coherent window maps from offset 0 (R429, R537): after DESCRIPTOR, CONTROL and
QUEUE_EXT. -/
def ringsBase : Nat := (128 + 4096 + 2048) * 2 ^ 20

/-- The window line of a memory address. -/
def windowLine (ma : Nat) : Nat := (ma - ringsBase) / 64

/-- May the companion hold a window line (R536)? -/
def State.tracked (s : State) (line : Nat) : Bool := s.host.filter.any fun x => x.1 == line

/-- Has a window line been granted modified, so that the companion may hold a newer copy (R535)? -/
def State.owned (s : State) (line : Nat) : Bool := s.host.filter.any fun x => x.1 == line && x.2

/-- Send SNP_INV or SNP_SHARE for a line the companion may hold, unless a snoop of it is in flight (R533, R535). -/
def State.snoop (s : State) (line : Nat) (inv : Bool) : State :=
  if !s.tracked line || s.host.snoops.any fun x => x.line == line then s
  else
    let t := s.host.nextSnoop
    let s := s.post (if inv then .snpInv t line else .snpShare t line)
    { s with host := { s.host with snoops := s.host.snoops ++ [⟨t, line, inv, false⟩], nextSnoop := (t + 1) % 1024#12 } }

/-- Write bytes of the window: each line that the companion may hold is invalidated first (R535). -/
def State.windowWrite (s : State) (ma : Nat) (bs : List Byte) : State :=
  let s := (List.range (windowLine (ma + bs.length - 1) + 1 - windowLine ma)).foldl (fun s i =>
    s.snoop (windowLine ma + i) true) s
  s.writeMem ma bs

/-- A little-endian number in LPDDR. -/
def State.memLe (s : State) (ma n : Nat) : Nat := ofLe (s.readMem ma n)

/-- A draw of a free value: the count that names it, and the state that has used it. -/
def State.draw1 (s : State) : Nat × State := (s.freeCount, { s with freeCount := s.freeCount + 1 })

/-! ## Words of SRAM and bridges (R18, R19, R26, R440, R444) -/

/-- Read a word of SRAM: is it uncorrectable? A correction is written back and reported as MEM_CORRECTED by the source that names
the SRAM; the ADDRESS of its message, which an SRAM word has none of, is 0 (R440; DESIGN CHOICE, log entry 104). -/
def State.sramRead (s : State) (die blk inst : Nat) (e : List (Nat × Byte)) : Bool × State :=
  match wordRead e with
  | .clean => (false, s)
  | .corrected _ => (false, s.raise die blk inst 0x40 0 0)
  | .uncorrectable => (true, s)

/-- The bridge between two fabric dies, by its ends in ascending order. -/
def bridgeKey (a b : Nat) : Nat × Nat := (min a b, max a b)

/-- Set or clear a bit of BRIDGE_UP. -/
def State.bridgeUp (s : State) (d p : Nat) (up : Bool) : State :=
  let w := s.fld F.BRIDGE_STATUS_BRIDGE_UP d
  s.setFld F.BRIDGE_STATUS_BRIDGE_UP d (if up then w ||| 2 ^ p else w &&& (15 - 2 ^ p))

/-- Set or clear a bit of CHIPLET_UP. -/
def State.chipletUp (s : State) (d g : Nat) (up : Bool) : State :=
  let w := s.fld F.BRIDGE_STATUS_CHIPLET_UP d
  s.setFld F.BRIDGE_STATUS_CHIPLET_UP d (if up then w ||| 2 ^ g else w &&& (255 - 2 ^ g))

/-- The message of a bridge's end. -/
def bridgeMsg (d inst : Nat) : FaultMsg := faultMsg d blkBridge inst 0x11 0 0

/-- A bridge fails: forwarding halts, and the condition is raised. -/
def State.bridgeFail (s : State) (d inst : Nat) : State :=
  ({ s with core := { s.core with forwarding := false } }).raiseCond (bridgeMsg d inst)

/-- The bridge between two fabric dies fails (R18): it is down at both ends, its bit of BRIDGE_FAULT sets, and it trains again only
after a reset of a die it joins. -/
def State.bridgeLost (s : State) (d p : Nat) : State :=
  let s := ((s.bridgeUp d p false).bridgeUp p d false).setFld F.BRIDGE_STATUS_BRIDGE_FAULT d
    (s.fld F.BRIDGE_STATUS_BRIDGE_FAULT d ||| 2 ^ p)
  let s := { s with power := { s.power with
    deadBridges := s.power.deadBridges.filter (· != bridgeKey d p) ++ [bridgeKey d p] } }
  s.bridgeFail d p

/-- A unit crosses a bridge of die d: is it uncorrectable? A corrected symbol is reported; an uncorrectable transfer between fabric
dies is fatal to the device (R18). -/
def State.crossUnit (s : State) (d inst : Nat) (e : List (Nat × Byte)) : Bool × State :=
  match wordRead e with
  | .clean => (false, s)
  | .corrected _ => (false, s.raise d blkBridge inst 0x10 0 0)
  | .uncorrectable => (true, if inst < 4 then s.bridgeLost d inst else s)

/-! ## Ports -/

/-- The port map's entry of a device port. -/
def State.port? (s : State) (p : Nat) : Option PortCfg := s.ports.find? fun c => c.num == p

/-- The register block of a port: block k of its chiplet, by first lane (R400). A device port that the port map does
not hold has no block. -/
def State.blk (s : State) (p : Nat) : Nat := match s.port? p with | some c => c.lane0 | none => 0

/-- The unused entry of the cabling plan. -/
def noCable : CablePort :=
  { role := .unused, thin := false, metro := false, uplink := false, peerPort := 0, peerFlat := 0, peerTier := 0,
    upIndex := 0, coord := 0, delay := 0, asym := 0 }

/-- The cabling-plan entry of a device port (R502). -/
def State.cable (s : State) (p : Nat) : CablePort := nth s.image.cable p noCable

/-- Fabric die of a device port (R400). -/
def dieOf (p : Nat) : Nat := p / 64

/-- Local port index of a device port (R400). -/
def localOf (p : Nat) : Nat := p % 64

/-- Data rate of a port in Gb/s (R399). -/
def PortCfg.gbps (c : PortCfg) : Nat := c.width * (if c.mode = 2 then 100 else 200)

/-- Data rate of a device port in Gb/s. -/
def State.gbps (s : State) (p : Nat) : Nat := match s.port? p with | some c => c.gbps | none => 0

/-- PCS lock: UP or SHALLOW (R411). -/
def State.pcsLock (s : State) (p : Nat) : Bool :=
  (s.port? p).isSome && (s.fld F.PORT_LINK_LINK_STATE (s.blk p) == 5 || s.fld F.PORT_LINK_LINK_STATE (s.blk p) == 6)

/-- The negotiated version of a port's link. -/
def State.version (s : State) (p : Nat) : BitVec 4 := BitVec.ofNat 4 (s.fld F.TFP_PORT_STATUS_SELECTED_VER (s.blk p))

/-- Is the port's TFP negotiation complete (NEG_STATE 2)? -/
def State.negUp (s : State) (p : Nat) : Bool := s.fld F.TFP_PORT_STATUS_NEG_STATE (s.blk p) == 2

/-- QUARANTINED of PORT_CRUISE (R345): a result other than MATCH, or FORCE. -/
def State.quarantineBit (s : State) (p : Nat) : Bool :=
  decide (1 < s.fld F.PORT_CRUISE_RESULT (s.blk p)) || s.flag F.PORT_CRUISE_FORCE (s.blk p)

/-- Is the port barred from everything but LINK and cruise frames (R344, R345): it has no MATCH, or FORCE is 1? -/
def State.quarantined (s : State) (p : Nat) : Bool :=
  s.fld F.PORT_CRUISE_RESULT (s.blk p) != 1 || s.flag F.PORT_CRUISE_FORCE (s.blk p)

/-- May the port carry frames other than LINK and cruise frames (R62, R344)? -/
def State.carries (s : State) (p : Nat) : Bool := s.pcsLock p && s.negUp p && !s.quarantined p

/-- The ports of a die in ascending number. -/
def State.diePorts (s : State) (d : Nat) : List Nat := (s.ports.filter fun c => dieOf c.num == d).map (·.num)

/-- Is the port an endpoint port (R316)? -/
def State.isEndpoint (s : State) (p : Nat) : Bool := (s.cable p).role == .endpoint

/-- Is the port thin (R167): the map marks it and both ends advertised CAPS bit 1? THIN_ACTIVE holds the answer. -/
def State.isThin (s : State) (p : Nat) : Bool :=
  bitOf (s.fld F.THIN_ACTIVE_THIN (2 * dieOf p + localOf p / 32)) (localOf p % 32)

/-! ## Table banks and epochs -/

/-- The bit of the current bank (R282). -/
def State.curBit (s : State) : Bool := s.epoch.num.getLsbD 0

/-- A bank by its bit. -/
def State.bank (s : State) (b : Bool) : Bank := if b then s.bank1 else s.bank0

/-- Replace a bank: the control firmware writes the same tables into the banks of all four dies (R273). -/
def State.setBank (s : State) (b : Bool) (k : Bank) : State :=
  let s := { s with dieTables := s.dieTables.filter fun t => t.bit != b }
  if b then { s with bank1 := k } else { s with bank0 := k }

/-- A bank as a die holds it (R273). -/
def State.dieBank (s : State) (d : Nat) (b : Bool) : Bank :=
  match s.dieTables.find? fun t => t.die == d && t.bit == b with
  | some t => { s.bank b with down := t.down, groups := t.groups, flat := t.flat }
  | none => s.bank b

/-- Replace the tables of one die's bank. -/
def State.setDieBank (s : State) (d : Nat) (b : Bool) (k : Bank) : State :=
  { s with dieTables := s.dieTables.filter (fun t => !(t.die == d && t.bit == b)) ++ [⟨d, b, k.down, k.groups, k.flat⟩] }

/-- Is a bank current, prepared or draining (R282, R284)? -/
def State.bankLive (s : State) (b : Bool) : Bool := b == s.curBit || s.epoch.phase != .idle

/-- The current bank. -/
def State.curBank (s : State) : Bank := s.bank s.curBit

/-- The newest bank the switch holds, current or prepared, and its EPOCH_NUM (R119, R150). -/
def State.newest (s : State) : Bank × BitVec 32 :=
  if s.epoch.phase = .prepared then (s.bank (!s.curBit), s.epoch.num + 1) else (s.curBank, s.epoch.num)

/-- Is a member fenced in a bank? -/
def Bank.fenced (k : Bank) (job : BitVec 12) (rank : Nat) : Bool := k.fences.any fun x => x.1 == job && x.2 == rank

/-- The ports of a link group. -/
def Bank.groupPorts (k : Bank) (g : Nat) : List Nat := ((k.groups.find? fun x => x.1 == g).map (·.2)).getD []

/-- The usable ports of a list of ports (R345: a quarantined port is not usable in any bank). -/
def State.usable (s : State) (ps : List Nat) : List Nat := ps.filter s.carries

/-- Is this switch a top switch: no port of its plan is an up-link? -/
def State.isTop (s : State) : Bool := !(s.image.cable.any (·.uplink))

/-- Does a coordinate lie below this switch (R272)? -/
def State.isBelow (s : State) (dest : BitVec 24) : Bool :=
  let scope := s.image.childShift + s.image.childBits
  dest.toNat / 2 ^ scope == s.image.position * 2 ^ 7 / 2 ^ scope

/-- The child index of a coordinate (R272). -/
def State.childIndex (s : State) (dest : BitVec 24) : Nat :=
  (dest.toNat / 2 ^ s.image.childShift) % 2 ^ s.image.childBits

/-- Up-links of a bank: group 255 (R273). -/
def upSet : Nat := 255

/-- Is a link between two other switches cut out of a bank, by the item of either end (R283, R347)? `down` is the down port
of the upper one, the child index of R337; `up` the number of the up-link of the lower one, which is taken to stand on device
port 128 + `up`, as in the example of chapter 13 (PRESUMED, log entry 81). -/
def Bank.farCut (k : Bank) (low top : BitVec 24) (down up : Nat) : Bool :=
  k.cutLinks.contains (top, down) || k.cutLinks.contains (low, 128 + up) || k.cutSwitches.contains low
    || k.cutSwitches.contains top

/-- The up-links of a bank through which a switch can be reached by up-links alone (R276, R337): the links to it, and
at a leaf those through whose plane it is reached. -/
def State.upToward (s : State) (k : Bank) (flat : BitVec 24) : List Nat :=
  let ups := k.groupPorts upSet
  let planes := (s.image.flats.filter fun x => x.2 == flat).map (·.1)
  ups.filter fun p =>
    let c := s.cable p
    let plane := (s.image.flats.filter fun x => x.1 == c.upIndex).map (·.2)
    if c.peerFlat == flat then !(k.cutSwitches.contains flat)
    else planes.contains c.upIndex
      && !k.farCut c.peerFlat flat (s.image.position / 2 ^ 7 % 2 ^ 8) ((plane.findIdx? (· == flat)).getD 0)

/-- Is a link of this switch cut out of a bank, by the item of either of its ends (R283, R347)? -/
def State.linkCut (s : State) (k : Bank) (p : Nat) : Bool :=
  let c := s.cable p
  k.cutLinks.contains (s.image.ownFlat, p) || k.cutLinks.contains (c.peerFlat, c.peerPort)
    || k.cutSwitches.contains c.peerFlat

/-- The ports of a bank that lead to a neighbouring switch. -/
def State.linksTo (s : State) (k : Bank) (flat : BitVec 24) : List Nat :=
  (s.ports.map (·.num)).filter fun p =>
    (s.cable p).role == .switch && (s.cable p).peerFlat == flat && !s.linkCut k p

/-- May the frame carry relay fields (R590)? -/
def relayable (h : BaseHdr) : Bool :=
  h.amode && ((h.ftype == 8#4 && h.vc == 0#3) || ((h.ftype == 5#4 || h.ftype == 6#4) && h.vc == 2#3))

/-- RELAY of R590. -/
def relayOf (h : BaseHdr) : BitVec 24 := if relayable h then h.remoteAddr.setWidth 24 else 0

/-- RELAYED of R590. -/
def relayedOf (h : BaseHdr) : Bool := relayable h && h.remoteAddr.getLsbD 24

/-- The outcome of the route lookup of R275. -/
inductive Route where
  | consume
  | group (ports : List Nat)
  | relay
  | noRoute
  | violation
  deriving DecidableEq, Repr

/-- The route lookup of R275 in one bank; a group is given as its ports. -/
def State.route (s : State) (k : Bank) (h : BaseHdr) (fromUp : Bool) : Route :=
  if h.amode then
    let relay := relayOf h
    let key := if relay != 0 then relay else h.dest
    match k.flat.find? fun e => e.valid && e.flat == key with
    | some e => if e.consume then .consume else .group (k.groupPorts e.group)
    | none =>
      if s.isTop && relayable h && relay == 0 then .relay
      else if fromUp || s.isTop then .noRoute
      else .group (k.groupPorts upSet)
  else if s.isBelow h.dest then
    match k.down.find? fun e => e.valid && e.child == s.childIndex h.dest with
    | none => .noRoute
    | some e => if (s.usable (k.groupPorts e.group)).isEmpty then .noRoute else .group (k.groupPorts e.group)
  else if fromUp then .violation
  else .group (k.groupPorts upSet)

/-- spray_index of R278. -/
def sprayIndex (src : BitVec 24) (seq : BitVec 32) (n : Nat) : Nat :=
  let z := ((src.setWidth 64 <<< 32) ^^^ seq.setWidth 64) * 0x9FB21C651E98DF25#64
  let z := z ^^^ (z >>> 29)
  ((z >>> 32).toNat * n) / 2 ^ 32

/-- Cells queued for an egress port and VC on all dies (R278, R334). -/
def State.queued (s : State) (p vc : Nat) : Nat :=
  sumN ((s.core.copies.filter fun c => c.dest == .port p && c.vc == vc).map fun c =>
    ceilDiv (frameLen c.out) 256)

/-- The port of a group that a frame takes (R278); none where the group has no usable port. -/
def State.spray (s : State) (ps : List Nat) (h : BaseHdr) : Option Nat :=
  let us := s.usable ps
  if us.isEmpty then none
  else if bitOf s.image.policies.oblivious h.vc.toNat then us[sprayIndex h.src h.seq us.length]?
  else
    let best := us.foldl (fun (a : Nat × Nat) p =>
      let q := s.queued p h.vc.toNat
      if q < a.2 then (p, q) else a) (us.headD 0, s.queued (us.headD 0) h.vc.toNat)
    some best.1

/-! ## The packet buffer (R292 to R300) -/

/-- Cells a frame takes (R292). -/
def cellsOf (f : Frame) : Nat := ceilDiv (frameLen f) 256

/-- Replace the core. -/
def State.mapCore (s : State) (g : CoreSt → CoreSt) : State := { s with core := g s.core }

/-- Cells held on a die that satisfy a test. -/
def State.cellsHeld (s : State) (d : Nat) (q : Held → Bool) : Nat :=
  sumN ((s.core.held.filter fun h => h.die == d && q h).map (·.cells))

/-- HEADROOM_CELLS of a port by R298: ⌈(B × (2D + 700) + 8,352) / 256⌉, B in bytes per nanosecond. -/
def State.headroomCells (s : State) (p : Nat) : Nat :=
  ceilDiv (s.gbps p * (2 * (s.cable p).delay + 700) + 8 * 8352) (8 * 256)

/-- What PORT_BUFFER shows of it: a metro port's in units of 16 extension cells, rounded up (R315; log entry 78). -/
def State.headroomField (s : State) (p : Nat) : Nat :=
  if (s.cable p).metro then ceilDiv (s.headroomCells p) 16 else s.headroomCells p

/-- HEADROOM_CELLS of a port: a metro port's are extension cells (R298, R315). -/
def State.headroom (s : State) (p : Nat) : Nat :=
  if (s.cable p).metro then s.headroomCells p else s.fld F.PORT_BUFFER_HEADROOM_CELLS p

/-- Is the port a metro port in service (R313)? METRO_EXT holds the answer. -/
def State.isMetro (s : State) (p : Nat) : Bool :=
  (List.range 16).any fun e =>
    s.flag F.METRO_EXT_ENABLED (16 * dieOf p + e) && s.fld F.METRO_EXT_PORT (16 * dieOf p + e) == p

/-- Shared cells of a die (R294). -/
def State.sharedTotal (s : State) (d : Nat) : Nat :=
  let ps := s.diePorts d
  393216 - ps.length * 8 * s.image.policies.guarCells
    - sumN ((ps.filter fun p => !(s.cable p).metro).map s.headroom) - s.image.policies.localCells

/-- Free shared cells of a die (CELL_POOL_FREE). -/
def State.sharedFree (s : State) (d : Nat) : Nat := s.sharedTotal d - s.cellsHeld d fun h => h.region == .shared

/-- Extension cells of a metro ring: 128 MiB (R313). -/
def extCells : Nat := 524288

/-- Free extension cells of a metro port. -/
def State.extFree (s : State) (p : Nat) : Nat :=
  extCells - s.cellsHeld (dieOf p) fun h => h.region == .extension && h.src == localOf p

/-- Replace one held frame. -/
def State.mapHeld (s : State) (fid : Nat) (g : Held → Held) : State :=
  s.mapCore fun c => { c with held := c.held.map fun h => if h.fid = fid then g h else h }

/-- Replace one copy. -/
def State.mapCopy (s : State) (cid : Nat) (g : Copy → Copy) : State :=
  s.mapCore fun c => { c with copies := c.copies.map fun x => if x.cid = cid then g x else x }

/-- The held frame of an id. -/
def State.held? (s : State) (fid : Nat) : Option Held := s.core.held.find? fun h => h.fid == fid

/-- The copy of an id. -/
def State.copy? (s : State) (cid : Nat) : Option Copy := s.core.copies.find? fun c => c.cid == cid

/-- USE_COUNT of a die's tag (R305). -/
def State.useCount (s : State) (d t : Nat) : BitVec 16 :=
  ((s.core.uses.find? fun x => x.1 == d && x.2.1 == t).map (·.2.2)).getD 0

/-- The lowest number from t on that a list does not hold, within n tries. -/
def firstFree (used : List Nat) : Nat → Nat → Nat
  | 0, t => t
  | n + 1, t => if used.contains t then firstFree used n (t + 1) else t

/-- A tag of a die that no held frame has. -/
def State.newTag (s : State) (d : Nat) : Nat :=
  let used := (s.core.held.filter fun h => h.die == d).map (·.tag)
  firstFree used used.length 0

/-- Were a copy's cells freed under it: does its recorded USE_COUNT differ from the tag's (R307)? -/
def State.isLate (s : State) (c : Copy) : Bool := s.useCount c.die c.tag != c.useCount

/-- Free a frame's cells: USE_COUNT of its tag rises by one (R305). -/
def State.freeHeld (s : State) (fid : Nat) : State :=
  match s.held? fid with
  | none => s
  | some h => s.mapCore fun c => { c with
      held := c.held.filter fun x => x.fid != fid
      uses := c.uses.filter (fun x => !(x.1 == h.die && x.2.1 == h.tag)) ++ [(h.die, h.tag, s.useCount h.die h.tag + 1)] }

/-- The instances of one die's registers of a port: its PORT_BUFFER block is 64d + j, the device port number. -/
def State.pausing (s : State) (p : Nat) : Nat := s.fld F.PORT_BUFFER_PAUSING p

/-- Should VC v of ingress port p be paused now, given that it is or is not (R296, R315)? -/
def State.pauseWanted (s : State) (p v : Nat) (now : Bool) : Bool :=
  let d := dieOf p
  if v = 3 then false
  else if s.isMetro p then
    if now then decide (s.extFree p < s.headroom p + 4096) else decide (s.extFree p < s.headroom p)
  else
    let mine := s.cellsHeld d fun h => h.region == .shared && h.src == localOf p && h.vc == v
    let head := s.cellsHeld d fun h => h.region == .headroom && h.src == localOf p
    let cap := s.image.policies.sharedCap
    let xoff := s.image.policies.xoffFree
    if now then decide (cap - 512 < mine) || decide (s.sharedFree d < xoff + 4096) || decide (0 < head)
    else decide (cap - 17 < mine) || decide (s.sharedFree d < xoff) || decide (0 < head)

/-- The pause mask of a port as it should now be. -/
def State.pauseMask (s : State) (p : Nat) : Nat :=
  sumN ((List.range 8).map fun v => if s.pauseWanted p v (bitOf (s.pausing p) v) then 2 ^ v else 0)

/-- The transmit side of a port's block layer. -/
def State.pcs (s : State) (p : Nat) : PcsTx := (s.core.pcs.find? fun x => x.port == p).getD (PcsTx.fresh p)

/-- The transmitter of a port sends something: `f` is given the number of the port's lanes. -/
def State.transmit (s : State) (p : Nat) (f : Nat → PcsTx → PcsTx) : State :=
  match s.port? p with
  | none => s
  | some c => s.mapCore fun k => { k with pcs := k.pcs.filter (fun x => x.port != p) ++ [f c.width (s.pcs p)] }

/-- Send a PAUSE block when a port's pause state has changed: the new mask, and the repetition of R406 begins again. -/
def State.refreshPause (s : State) (p : Nat) : State :=
  let m := s.pauseMask p
  if m = s.pausing p then s
  else
    let s := s.setFld F.PORT_BUFFER_PAUSING p m
    let sched : PauseSt := { port := p, sent := BitVec.ofNat 8 m, repeats := 0 }
    (s.mapCore fun c => { c with pauses := (c.pauses.filter fun x => x.port != p) ++ [sched] }).transmit p fun w t =>
      t.pause w (BitVec.ofNat 8 m)

/-- Refresh the pause state of every port of a die (R296). -/
def State.refreshDie (s : State) (d : Nat) : State := (s.diePorts d).foldl State.refreshPause s

/-- A frame of one of the switch's messages has left or been discarded before egress (R58). -/
def State.msgSent (s : State) (m : Option Nat) : State :=
  match m with
  | none => s
  | some k => { s with outs := s.outs.map fun o => if o.key = k then { o with unsent := o.unsent - 1 } else o }

/-- The head of a VOQ: the first copy that has not started. -/
def State.voqHead (s : State) (die src : Nat) (dest : Dest) (vc : Nat) : Option Copy :=
  s.core.copies.find? fun c => c.die == die && c.src == src && c.dest == dest && c.vc == vc && !c.started

/-- Is a copy the head of its VOQ (R293)? -/
def State.isHead (s : State) (c : Copy) : Bool :=
  match s.voqHead c.die c.src c.dest c.vc with
  | some x => x.cid == c.cid
  | none => false

/-- A copy comes to the head of its VOQ: one whose cells were freed under it is discarded and counted (R307), and the next
one comes; another is there from now on (R334). -/
def State.comeToHead (s : State) (die src : Nat) (dest : Dest) (vc : Nat) : Nat → State
  | 0 => s
  | n + 1 =>
    match s.voqHead die src dest vc with
    | none => s
    | some c =>
      if s.isLate c then
        State.comeToHead ((((s.mapCore fun k => { k with copies := k.copies.filter fun x => x.cid != c.cid }).bump
          F.REFCOUNT_STATUS_LATE_COPY_DISCARDS die).msgSent c.msg)) die src dest vc n
      else if c.headSince.isSome then s
      else s.mapCopy c.cid fun x => { x with headSince := some s.ns }

/-- The copy now at the head of a VOQ is there from now on, if it was not before (R307, R334). -/
def State.markHead (s : State) (die src : Nat) (dest : Dest) (vc : Nat) : State :=
  s.comeToHead die src dest vc (s.core.copies.length + 1)

/-- Hold a frame in a region; answers its id. -/
def State.hold (s : State) (die src : Nat) (f : Frame) (r : Region) (tail : Tail) (ct : Bool) (sh : Option Nat) :
    Nat × State :=
  let id := s.core.nextId
  (id, s.mapCore fun c => { c with
    nextId := id + 1
    held := c.held ++ [{ fid := id, die := die, src := src, frame := f, region := r, cells := cellsOf f,
                         vc := f.h.vc.toNat, refcount := 0, lastOwner := none, tail := tail, cutThrough := ct,
                         shaper := sh, tag := s.newTag die }] })

/-- Enqueue a copy of a held frame (R305). -/
def State.enqueue (s : State) (fid : Nat) (dest : Dest) (out : Frame) (own rewritten : Bool) (msg : Option Nat)
    (fan : List (Nat × Frame × Option Nat)) : State :=
  match s.held? fid with
  | none => s
  | some h =>
    let id := s.core.nextId
    let vc := out.h.vc.toNat
    let c : Copy :=
      { cid := id, fid := fid, die := h.die, src := h.src, dest := dest, vc := vc, out := out, started := false,
        markBad := none, released := h.shaper.isNone, headSince := none, own := own, rewritten := rewritten, msg := msg,
        fan := fan, tag := h.tag, useCount := s.useCount h.die h.tag }
    let s := s.mapCore fun k => { k with nextId := id + 1, copies := k.copies ++ [c] }
    (s.mapHeld fid fun x => { x with refcount := x.refcount + 1, lastOwner := some (dest, vc) }).markHead h.die h.src dest vc

/-! ## The local region (R294) -/

/-- Has the local region of a die room for a frame: 1,024 of its cells are kept for VC2 answers? -/
def State.localRoom (s : State) (h : Held) : Bool :=
  let all := s.image.policies.localCells
  let used := s.cellsHeld h.die fun x => x.region == .localR
  let others := s.cellsHeld h.die fun x => x.region == .localR && x.vc != 2
  decide (used + h.cells ≤ all) && (h.vc == 2 || decide (others + h.cells + 1024 ≤ all))

/-- Do two frames wait for the same cells of a local region? -/
def sameLocal (a b : Held) : Bool := a.die == b.die && (a.vc == 2) == (b.vc == 2)

/-- Put a frame into the local region with all its copies queued (R294, R305). -/
def State.admitLocal (s : State) (h : Held) (cs : List Copy) : State :=
  let t := s.newTag h.die
  let cs := cs.map fun c => { c with tag := t, useCount := s.useCount h.die t }
  let s := s.mapCore fun k => { k with held := k.held ++ [{ h with tag := t }], copies := k.copies ++ cs }
  cs.foldl (fun s c => s.markHead c.die c.src c.dest c.vc) s

/-- A frame takes cells of a die's local region, REFCOUNT the number of its copies (R294, R305); where they have no room, or an
earlier frame waits for them, it waits (log entry 77). -/
def State.takeLocal (s : State) (d : Nat) (f : Frame) (xs : List LocalCopy) : State :=
  match xs.getLast? with
  | none => s
  | some z =>
    let id := s.core.nextId
    let cs : List Copy := xs.zipIdx.map fun x =>
      { cid := id + 1 + x.2, fid := id, die := d, src := 64, dest := x.1.dest, vc := x.1.out.h.vc.toNat, out := x.1.out,
        started := false, markBad := none, released := true, headSince := none, own := x.1.own,
        rewritten := x.1.rewritten, msg := x.1.msg, fan := [], tag := 0, useCount := 0 }
    let h : Held :=
      { fid := id, die := d, src := 64, frame := f, region := .localR, cells := cellsOf f, vc := f.h.vc.toNat,
        refcount := xs.length, lastOwner := some (z.dest, z.out.h.vc.toNat), tail := .good, cutThrough := false,
        shaper := none, tag := 0 }
    let s := s.mapCore fun k => { k with nextId := id + 1 + xs.length }
    if s.localRoom h && !(s.core.backlog.any fun x => sameLocal x.1 h) then s.admitLocal h cs
    else s.mapCore fun k => { k with backlog := k.backlog ++ [(h, cs)] }

/-- Frames that wait for cells of a local region take them in order, as far as they have room (R294). -/
def State.drainLocal (s : State) (d : Nat) : State :=
  s.core.backlog.foldl (fun s x =>
    if x.1.die != d || !s.localRoom x.1 || s.core.backlog.any (fun y => sameLocal y.1 x.1) then
      s.mapCore fun k => { k with backlog := k.backlog ++ [x] }
    else s.admitLocal x.1 x.2) (s.mapCore fun k => { k with backlog := [] })

/-! ## Copies leave their queues (R306, R307) -/

/-- A copy releases its hold on its frame (R306, R307); cells that fall free serve the frames that wait for them. -/
def State.releaseCopy (s : State) (cid : Nat) : State :=
  match s.copy? cid with
  | none => s
  | some c =>
    let s := s.mapCore fun k => { k with copies := k.copies.filter fun x => x.cid != cid }
    let s := s.markHead c.die c.src c.dest c.vc
    match s.held? c.fid with
    | none => s
    | some h =>
      let s :=
        if s.flag F.REFCOUNT_STATUS_REFCOUNT_FALLBACK h.die then
          if h.lastOwner = some (c.dest, c.vc) then s.freeHeld h.fid else s
        else if h.refcount ≤ 1 then s.freeHeld h.fid
        else s.mapHeld h.fid fun x => { x with refcount := x.refcount - 1 }
      (s.drainLocal c.die).refreshDie c.die

/-- A copy is discarded before it has started: it releases its hold, and counts as transmitted for its message. -/
def State.dropCopy (s : State) (cid : Nat) : State :=
  match s.copy? cid with
  | none => s
  | some c => (s.releaseCopy cid).msgSent c.msg

/-- Copies that wait for local cells are discarded. -/
def State.dropWaiting (s : State) (q : Copy → Bool) : State :=
  let gone := (s.core.backlog.map fun x => x.2.filter q).flatten
  let kept := (s.core.backlog.map fun x =>
    let cs := x.2.filter fun c => !q c
    ({ x.1 with refcount := cs.length }, cs)).filter fun x => !x.2.isEmpty
  gone.foldl (fun s c => s.msgSent c.msg) (s.mapCore fun k => { k with backlog := kept })

/-- Discard every copy that satisfies a test. -/
def State.dropCopies (s : State) (q : Copy → Bool) : State :=
  ((s.core.copies.filter q).map (·.cid)).foldl State.dropCopy (s.dropWaiting q)

/-- Order of destinations for the ties of R300 and R319. -/
def Dest.order : Dest → Nat
  | .port p => p
  | .mill d => 256 + d
  | .firmware => 260
  | .bridge d => 261 + d

/-- May a held frame be pushed out (R299)? -/
def State.pushable (s : State) (h : Held) : Bool :=
  h.vc == 3 && h.region == .shared && h.tail == .good && !(s.core.copies.any fun c => c.fid == h.fid && c.started)

/-- The destination of a held frame's VOQ: that of its first copy. -/
def State.destOf (s : State) (fid : Nat) : Nat :=
  match s.core.copies.find? fun c => c.fid == fid with
  | some c => c.dest.order
  | none => 0

/-- The next victim of R300 on a die: the tail of the VC3 VOQ that holds the most shared cells, ties to the lower
ingress port and then the lower destination. -/
def State.victim (s : State) (d : Nat) : Option Held :=
  let el := s.core.held.filter fun h => h.die == d && s.pushable h
  let size (h : Held) : Nat := s.cellsHeld d fun x =>
    x.vc == 3 && x.region == .shared && x.src == h.src && s.destOf x.fid == s.destOf h.fid
  let best := el.foldl (fun (a : Option Held) h =>
    match a with
    | none => some h
    | some b =>
      if size b < size h then some h
      else if size b = size h && (decide (h.src < b.src)
          || (h.src == b.src && decide (s.destOf h.fid ≤ s.destOf b.fid))) then some h
      else some b) none
  best

/-- Push victims out until `need` shared cells are free (R300). -/
def State.pushOut (s : State) (d need : Nat) : Nat → State
  | 0 => s
  | n + 1 =>
    if need ≤ s.sharedFree d then s
    else
      match s.victim d with
      | none => s
      | some v =>
        let s := s.dropCopies fun c => c.fid == v.fid
        let s := (s.freeHeld v.fid).bump F.CELL_POOL_EVENTS_PUSH_OUTS d
        State.pushOut s d need n

/-- The admission of R295 and R314: the region that takes the frame, after any push-out; none where it is discarded
whole. -/
def State.admitFrame (s : State) (p : Nat) (f : Frame) (voqExt : Bool) : Option Region × State :=
  let d := dieOf p
  let j := localOf p
  let vc := f.h.vc.toNat
  let n := cellsOf f
  let pol := s.image.policies
  let guar := s.cellsHeld d fun h => h.region == .guaranteed && h.src == j && h.vc == vc
  let mine := s.cellsHeld d fun h => h.region == .shared && h.src == j && h.vc == vc
  let metro := s.isMetro p
  let capOk := decide (mine + n ≤ pol.sharedCap)
  if metro && voqExt then
    if n ≤ s.extFree p then (some .extension, s)
    else if vc = 3 then (none, s.bump F.CELL_POOL_EVENTS_VC3_DROPS d)
    else (none, (s.bump F.HEADROOM_EVENTS_HEADROOM_OVERRUNS d).raise d blkSwitch p 0x1A (addrP p 0) 0)
  else if guar + n ≤ pol.guarCells then (some .guaranteed, s)
  else if n ≤ s.sharedFree d && capOk then (some .shared, s)
  else if metro then
    if n ≤ s.extFree p then (some .extension, s)
    else if vc = 3 then (none, s.bump F.CELL_POOL_EVENTS_VC3_DROPS d)
    else (none, (s.bump F.HEADROOM_EVENTS_HEADROOM_OVERRUNS d).raise d blkSwitch p 0x1A (addrP p 0) 0)
  else if vc = 3 then (none, s.bump F.CELL_POOL_EVENTS_VC3_DROPS d)
  else
    let gain := s.cellsHeld d s.pushable
    if n ≤ s.sharedFree d + gain && capOk then (some .shared, s.pushOut d n s.core.held.length)
    else
      let used := s.cellsHeld d fun h => h.region == .headroom && h.src == j
      if used + n ≤ s.headroom p then (some .headroom, s)
      else (none, (s.bump F.HEADROOM_EVENTS_HEADROOM_OVERRUNS d).raise d blkSwitch p 0x1A (addrP p 0) 0)

/-! ## Frames of the switch's own (R54 to R58, R281, R283) -/

/-- The kinds of frame an UNLOCKED switch may originate (R281). -/
def unlockedMay (h : BaseHdr) : Bool :=
  h.ftype == 7#4 || (h.ftype == 8#4 && h.vc == 0#3 && h.amode)
    || ((h.ftype == 5#4 || h.ftype == 6#4) && h.vc == 2#3 && h.amode)

/-- Put a frame of the switch's own into the local region of its egress port's die and queue it there. LINK frames and
the cruise kinds go out on a port that carries nothing else (R345). -/
def State.queueOwn (s : State) (p : Nat) (f : Frame) (msg : Option Nat) : State :=
  s.takeLocal (dieOf p) f [⟨.port p, f, true, true, msg⟩]

/-- The SEQ of a frame of the switch's own if it leaves after those that wait and k more (R54; log entry 74). -/
def State.seqAhead (s : State) (k : Nat) : BitVec 32 :=
  s.core.seq + BitVec.ofNat 32 ((s.core.copies.filter fun c => c.own && !c.started).length
    + ((s.core.backlog.map fun x => x.2).flatten.filter (·.own)).length + k)

/-- Stamp what the source gives a frame: EPOCH (R283 step 4), and the SEQ it is sprayed by; the SEQ it leaves with is
counted as it starts (R54). -/
def State.stamp (s : State) (k : Nat) (f : Frame) : Frame :=
  { f with h := { f.h with epoch := s.curBit, seq := s.seqAhead k } }

/-- Where a frame may leave by the tables of a bank (R36, R275, R590). -/
def State.hopPortsIn (s : State) (k : Bank) (hop : Hop) (h : BaseHdr) : List Nat :=
  match hop with
  | .onPort p => [p]
  | .toSwitch flat => s.usable (s.linksTo k flat)
  | .nowhere => []
  | .routed =>
    match s.route k h false with
    | .group ps => ps
    | _ => []

/-- Where a frame of the switch's own may leave: it carries the current epoch. -/
def State.hopPorts (s : State) (hop : Hop) (h : BaseHdr) : List Nat := s.hopPortsIn s.curBank hop h

/-- The leaf a top switch relays through: the lowest-index FLAT entry that names a leaf below it and whose link group
has a usable port (R590). The cabling plan's FLAT list of a switch below which leaves stand names them; a leaf is an
entry whose child index range the plan gives: at tier 1 a neighbour of tier 0, at tier 2 a switch below that is no
neighbour (R502). -/
def State.relayLeaf (s : State) (k : Bank) : Option FlatEntry :=
  k.flat.find? fun e =>
    e.valid && !e.consume && !((s.usable (k.groupPorts e.group)).isEmpty)
      && (if s.image.tier = 1 then s.image.cable.any fun c => c.role == .switch && c.peerFlat == e.flat && c.peerTier == 0
          else (s.image.flats.any fun x => x.2 == e.flat)
            && !(s.image.cable.any fun c => c.role == .switch && c.peerFlat == e.flat))

/-- Where a frame of the switch's own goes: it is stamped, given its relay (R590) and routed; none where it may not be
sent or has no usable port, which is counted in NO_ROUTE (R277, R281). `k` frames of the switch's own are placed before it. -/
def State.place (s : State) (k : Nat) (hop : Hop) (f : Frame) : Option (Nat × Frame) × State :=
  if s.time.state = .unlocked && !unlockedMay f.h then (none, s)
  else
    let f := s.stamp k f
    let relayed :=
      match hop, s.route s.curBank f.h false with
      | .routed, .relay =>
        match s.relayLeaf s.curBank with
        | some e => { f with h := { f.h with remoteAddr := e.flat.setWidth 64 } }
        | none => f
      | _, _ => f
    match hop with
    | .onPort p => if s.pcsLock p then (some (p, relayed), s) else (none, s)
    | _ =>
      match s.spray (s.hopPorts hop relayed.h) relayed.h with
      | some p => (some (p, relayed), s)
      | none => (none, s.bumpDies F.ROUTE_DISCARDS_NO_ROUTE)

/-- Send one frame of the switch's own; a frame that cannot be queued counts as transmitted (R58). -/
def State.emit (s : State) (hop : Hop) (f : Frame) (msg : Option Nat) : State :=
  match s.place 0 hop f with
  | (some (p, f), s) => s.queueOwn p f msg
  | (none, s) => s.msgSent msg

/-- Send copies of one frame of the switch's own: those that leave through one die share its cells (R203). -/
def State.emitCopies (s : State) (xs : List (Hop × Frame × Option Nat)) : State :=
  let r := xs.foldl (fun (a : List (Nat × LocalCopy) × State) x =>
    match a.2.place a.1.length x.1 x.2.1 with
    | (some (p, f), s) => (a.1 ++ [(dieOf p, ⟨.port p, f, true, true, x.2.2⟩)], s)
    | (none, s) => (a.1, s.msgSent x.2.2)) ([], s)
  (List.range 4).foldl (fun s d =>
    match (r.1.filter fun x => x.1 == d).map (·.2) with
    | [] => s
    | c :: cs => s.takeLocal d c.out (c :: cs)) r.2

/-- The neighbour on a port, as the place to send an answer back to. -/
def State.back (s : State) (p : Nat) : Hop :=
  if (s.cable p).role == .switch then .toSwitch (s.cable p).peerFlat else .onPort p

/-- The switch's own address in an answer to a frame: the fabric value, or its flat ID where the frame named it
(R32). -/
def State.selfFor (s : State) (h : BaseHdr) : BitVec 24 :=
  if h.amode then (if h.dest = 0xFFFFFF then 0xFFFFFF else s.image.ownFlat) else fabricAddr false

/-- Where an answer to a frame that came in on a port goes: back over the links where SRC is the fabric value or DEST
is link-local, else routed to SRC (R32, R36). -/
def State.answerHop (s : State) (p : Nat) (h : BaseHdr) : Hop :=
  if h.src = fabricAddr h.amode then s.back p
  else if h.amode && h.dest == 0xFFFFFF then .onPort p
  else .routed

/-- Acknowledge the message of a frame (R56). -/
def State.ack (s : State) (p : Nat) (h : BaseHdr) : State :=
  s.emit (s.answerHop p h) (ackFor h (s.selfFor h)) none

/-! ## Messages the switch receives, and NACKs (R48, R56) -/

/-- How long the switch remembers a message after its last frame: 1 ms, the reuse interval of R55 (assumption 9). -/
def rxKeepNs : Nat := 1000000

/-- What stands for the neighbour on a port: the lowest port that leads to the same switch, or the port itself. Frames of
one message may take different links to a neighbour (R278). -/
def State.linkOf (s : State) (p : Nat) : Nat :=
  if (s.cable p).role == .switch then
    (((s.ports.map (·.num)).filter fun q => (s.cable q).role == .switch && (s.cable q).peerFlat == (s.cable p).peerFlat).foldl
      min p)
  else p

/-- Is a record that of the frame's message? -/
def State.rxIs (s : State) (p : Nat) (h : BaseHdr) (r : RxMsg) : Bool :=
  r.src == h.src && r.msgId == h.msgId && r.job == h.jobId && decide (s.ns ≤ r.lastNs + rxKeepNs)
    && (h.src != fabricAddr h.amode || r.link == s.linkOf p)

/-- The record of a frame's message, a fresh one where there is none; a higher ATTEMPT resets the count (R56). -/
def State.rxOf (s : State) (p : Nat) (h : BaseHdr) : RxMsg :=
  match s.rxs.find? (s.rxIs p h) with
  | some r =>
    if r.attempt < h.attempt && !r.done then
      { r with attempt := h.attempt, count := 0, dead := false, nacked := false, lastNs := s.ns, parts := [] }
    else if r.attempt < h.attempt then { r with attempt := h.attempt, nacked := false, lastNs := s.ns }
    else { r with lastNs := s.ns }
  | none =>
    { src := h.src, link := s.linkOf p, job := h.jobId, msgId := h.msgId, attempt := h.attempt, count := 0, done := false,
      dead := false, nacked := false, lastNs := s.ns, parts := [] }

/-- Keep a message's record; forgotten records of other messages go. -/
def State.setRx (s : State) (p : Nat) (h : BaseHdr) (r : RxMsg) : State :=
  { s with rxs := s.rxs.filter (fun x => !s.rxIs p h x && decide (s.ns ≤ x.lastNs + rxKeepNs)) ++ [r] }

/-- Answer a frame with a NACK, once per message attempt (R48). -/
def State.nack (s : State) (p : Nat) (h : BaseHdr) (x : NackExt) : State :=
  let r := s.rxOf p h
  if r.nacked && r.attempt == h.attempt then s
  else
    let s := s.setRx p h { r with nacked := true, attempt := h.attempt }
    s.emit (s.answerHop p h) (nackFor h (s.selfFor h) x) none

/-- The NACK extension for a reduction frame (R47). -/
def nackRed (code : BitVec 8) (x : RedExt) (gen : Nat) : NackExt :=
  { zeroNack with code := code, step := x.step, chunkId := x.chunkId, generation := BitVec.ofNat 8 gen }

/-- The NACK extension for any other frame. -/
def nackPlain (code : BitVec 8) (hint : Nat) : NackExt :=
  { zeroNack with code := code, retryHint := BitVec.ofNat 16 hint }

/-- What receiving one frame of a message to the switch amounts to (R56). -/
inductive Receipt where
  | again      -- the message was complete before: acknowledge, do nothing
  | ignored    -- a lower attempt, or an abandoned one
  | partly     -- counted, the message is not complete
  | complete   -- counted, and the message is complete
  deriving DecidableEq, Repr

/-- Count a good frame of a message (R56). -/
def State.receive (s : State) (p : Nat) (f : Frame) : Receipt × State :=
  let r := s.rxOf p f.h
  if r.done then (.again, s.setRx p f.h r)
  else if f.h.attempt < r.attempt || r.dead then (.ignored, s.setRx p f.h r)
  else
    let n := r.count + f.payload.length
    if f.h.msgLen.toNat < n then (.ignored, s.setRx p f.h { r with dead := true })
    else if n = f.h.msgLen.toNat then (.complete, s.setRx p f.h { r with count := n, done := true, parts := [] })
    else (.partly, s.setRx p f.h { r with count := n, parts := if f.h.ftype = 8#4 then r.parts ++ [f.payload] else [] })

/-- The payload of a MGMT message that a frame completes. Only a message of items is longer than one frame, and its frames can
come in any order (R278): the one that begins with a MGMT_KIND goes first, which no item does, and the items need no order
(DEDUCED, log entry 99). -/
def State.mgmtBody (s : State) (p : Nat) (f : Frame) : List Byte :=
  let ps := (s.rxOf p f.h).parts ++ [f.payload]
  let head (q : List Byte) : Bool := decide (0x20 ≤ leAt q 0 1)
  ((ps.filter head) ++ ps.filter fun q => !head q).flatten

/-- Forget that a message is complete, so that a later attempt of it is taken afresh. -/
def State.unreceive (s : State) (p : Nat) (h : BaseHdr) : State :=
  s.setRx p h { s.rxOf p h with done := false, dead := true }

/-! ## Messages the switch originates (R58) -/

/-- Number the frames of a message: one MSG_ID, MSG_LEN the sum of the payloads, the attempt (R55). A message without payload
(RESCALE, SUPERSEDE, STEP_COMMIT, STEP_ABORT) has MSG_LEN 0, the sum of R55, outside the range of R30 (DESIGN CHOICE, log entry
75). -/
def numberFrames (msgId : BitVec 16) (attempt : Nat) (fs : List Frame) : List Frame :=
  let len := sumN (fs.map (·.payload.length))
  fs.map fun f => { f with h := { f.h with msgId := msgId, attempt := BitVec.ofNat 3 attempt,
                                           msgLen := BitVec.ofNat 32 len,
                                           payloadLen := BitVec.ofNat 13 f.payload.length } }

/-- A message's destination as a number: the neighbour it goes to over one hop, or the address it is routed to. -/
def State.destKey (s : State) (hop : Hop) (h : BaseHdr) : Nat :=
  match hop with
  | .toSwitch flat => 2 ^ 25 + flat.toNat
  | .nowhere => 2 ^ 27
  | .onPort p => if (s.cable p).role == .switch then 2 ^ 25 + (s.cable p).peerFlat.toNat else 2 ^ 26 + p
  | .routed => b2n h.amode * 2 ^ 24 + h.dest.toNat

/-- A message's destination. -/
def State.destOfOut (s : State) (o : OutMsg) : Nat :=
  match o.frames.head? with
  | some f => s.destKey o.hop f.h
  | none => 0

/-- Is a MSG_ID barred toward a destination: a message with it is outstanding, or ended within 1 ms (R55)? -/
def State.idTaken (s : State) (dest : Nat) (m : BitVec 16) : Bool :=
  (s.outs.any fun o => s.destOfOut o == dest && (o.frames.head?.map (·.h.msgId)) == some m)
    || s.ended.any fun e => e.dest == dest && decide (s.ns ≤ e.at_ + rxKeepNs) && e.msgId == m

/-- The first MSG_ID from m on that is not barred toward a destination. -/
def State.pickId (s : State) (dest : Nat) : Nat → BitVec 16 → BitVec 16
  | 0, m => m
  | n + 1, m => if s.idTaken dest m then s.pickId dest n (m + 1) else m

/-- A MSG_ID for a new message: a free value moved on past those barred (R55; assumption 5). -/
def State.newMsgId (s : State) (dest : Nat) : BitVec 16 × State :=
  let (k, s) := s.draw1
  (s.pickId dest (s.outs.length + s.ended.length) (Config.freeMsgId k), s)

/-- Remember that messages to destinations have ended (R55); what ended more than 1 ms ago is forgotten. -/
def State.noteEnded (s : State) (xs : List (Nat × BitVec 16)) : State :=
  { s with ended := s.ended.filter (fun e => decide (s.ns ≤ e.at_ + rxKeepNs)) ++ xs.map fun x => ⟨x.1, x.2, s.ns⟩ }

/-- Is the switch barred from sending for a job: a NACK FENCED has said so (R49)? -/
def State.silenced (s : State) (job : Option (BitVec 12)) : Bool :=
  match job with
  | some id => s.jobs.any fun j => j.id == id && j.silenced
  | none => false

/-- A new message's record. -/
def newOut (key : Nat) (job : Option (BitVec 12)) (rank : Option Nat) (hop : Hop) (fs : List Frame) (why : Purpose) : OutMsg :=
  { key := key, job := job, rank := rank, hop := hop, frames := fs, attempt := 0, purpose := why, unsent := fs.length,
    failed := false, holdUntil := 0 }

/-- Give a message its key, its MSG_ID and its record (R55). -/
def State.open_ (s : State) (hop : Hop) (fs : List Frame) (job : Option (BitVec 12)) (rank : Option Nat) (why : Purpose) :
    Nat × List Frame × State :=
  let k := s.freeCount
  let (m, s) := s.newMsgId (match fs.head? with | some f => s.destKey hop f.h | none => 0)
  let fs := numberFrames m 0 fs
  (k, fs, { s with outs := s.outs ++ [newOut k job rank hop fs why] })

/-- Originate a message: it is remembered until its ACK, and its frames are queued (R55, R58). -/
def State.send (s : State) (hop : Hop) (fs : List Frame) (job : Option (BitVec 12)) (rank : Option Nat)
    (why : Purpose) : State :=
  if s.silenced job then s
  else
    let (k, fs, s) := s.open_ hop fs job rank why
    fs.foldl (fun s f => s.emit hop f (some k)) s

/-- A message to several receivers, one copy each: `(hop, frames, rank, purpose)` for each, frame by frame (R203). -/
def State.sendMany (s : State) (job : Option (BitVec 12)) (xs : List (Hop × List Frame × Option Nat × Purpose)) : State :=
  if s.silenced job then s
  else
    let r := xs.foldl (fun (a : List (Hop × List Frame × Nat) × State) x =>
      let (k, fs, s) := a.2.open_ x.1 x.2.1 job x.2.2.1 x.2.2.2
      (a.1 ++ [(x.1, fs, k)], s)) ([], s)
    let n := maxN 0 (r.1.map fun x => x.2.1.length)
    (List.range n).foldl (fun s i =>
      s.emitCopies (r.1.filterMap fun x => (x.2.1[i]?).map fun f => (x.1, f, some x.2.2))) r.2

/-- Forget every message of the switch's own that satisfies a test; its MSG_ID stays barred for 1 ms (R55). -/
def State.dropOuts (s : State) (q : OutMsg → Bool) : State :=
  let gone := (s.outs.filter q).filterMap fun o => o.frames.head?.map fun f => (s.destOfOut o, f.h.msgId)
  { s with outs := s.outs.filter fun o => !q o }.noteEnded gone

/-- Forget a message of the switch's own. -/
def State.dropOut (s : State) (key : Nat) : State := s.dropOuts fun o => o.key == key

/-- A MGMT frame (R28, VC0). -/
def mgmtFrame (amode : Bool) (dest src : BitVec 24) (job : BitVec 12) (gen : BitVec 4) (payload : List Byte) : Frame :=
  { h := { zeroHdr with ftype := 8, vc := 0, amode := amode, dest := dest, src := src, jobId := job,
                        layoutGen := gen, payloadLen := BitVec.ofNat 13 payload.length,
                        msgLen := BitVec.ofNat 32 payload.length }
    ext := .none, payload := payload, t := zeroTrailer }

/-- MGMT_KIND: the first two payload bytes (R136). -/
def mgmtKind (f : Frame) : Nat := leAt f.payload 0 2

/-! ## The boot store (R505) -/

/-- The bytes that a copy's CRC-64 covers (PRESUMED layout, log entry 109). -/
def BootStore.bytes (b : BootStore) : List Byte :=
  leBytes 4 b.writeCount ++ sliceB b.ownerKeyHash 0 64 ++ leBytes 2 b.svFloor ++ leBytes 2 b.configFloor
    ++ leBytes 1 b.bootNext ++ leBytes 1 b.lastGood ++ zeros 174

/-- A copy with its CRC-64. -/
def BootStore.copy (b : BootStore) : BootCopy := ⟨b, crc64 b.bytes⟩

/-- Is a copy's CRC-64 good? -/
def BootCopy.good (c : BootCopy) : Bool := c.crc == crc64 c.fields.bytes

/-- Is copy A the current one: good, with the higher WRITE_COUNT where B is good too? -/
def BootSt.currentA (b : BootSt) : Bool :=
  b.copyA.good && (!b.copyB.good || decide (b.copyB.fields.writeCount ≤ b.copyA.fields.writeCount))

/-- The boot store: the current copy, or a blank one where neither is good. -/
def BootSt.store (b : BootSt) : BootStore :=
  if b.currentA then b.copyA.fields else if b.copyB.good then b.copyB.fields else BootStore.blank

/-- Write the copy that is not current. -/
def BootSt.put (b : BootSt) (x : BootStore) : BootSt :=
  if b.currentA then { b with copyB := x.copy } else { b with copyA := x.copy }

/-! ## What waits (R460, R479) -/

/-- Does the work of the control firmware wait until it restarts (R460)? -/
def State.fwWaits (s : State) : Bool := s.boot.started.isSome && !s.power.fw

/-- The MGMT frames that are such work: cruise sweeps and epoch coordination. -/
def isFirmwareWork (f : Frame) : Bool :=
  f.h.ftype == 8#4 && (mgmtKind f / 2 == 0x10 || mgmtKind f / 8 == 0x0E)

/-- Have the mills, the spires and the plan loader stopped taking work: from QUIESCE of an entry into DOZE or KEEP until the
device is back (R477, R479)? -/
def State.workStops (s : State) : Bool :=
  s.fld F.PWR_STATUS_STATE 0 == 2
    || (match s.power.change with | some (.enter t) => decide (2 ≤ t) | _ => false)

/-- Does what takes frames from a queue leave this one where it is? -/
def State.takerWaits (s : State) (dest : Dest) (f : Frame) : Bool :=
  match dest with
  | .firmware => (s.fwWaits && isFirmwareWork f) || (s.workStops && f.h.vc == 5)
  | .mill _ => s.workStops
  | .port _ => false
  | .bridge _ => false

end Sys2Proof.Machine
end

