-- ==== Sys2Proof/Machine/JobOps.lean ====
section
/-! DEFINITION. What a loaded job means at this switch: the plan's tree, contributor slots and receivers, descriptors,
the pool of accumulator units and arrival lines, steps, and the records a job leaves in its rings
(spec/04_reduction_contexts.md R102 to R117, 07_collectives.md R192 to R198, 08_job_plans.md R226 to R239,
10_addressing_routing.md R272, R276, 11_switch_core.md R309 to R312, 22_companion_link.md R538 to R541). -/
namespace Sys2Proof.Machine

open Sys2Proof

/-! ## The plan's tree -/

/-- SCOPE of a role, from its TIER and the plan's SHAPE (R228, R272). -/
def scopeOf (shape tier : Nat) : Nat :=
  match tier with
  | 0 => 7
  | 1 => if shape = 2 then 14 else 15
  | _ => 22

/-- A switch's place as a coordinate (R272). -/
def PlanSwitch.place (w : PlanSwitch) : BitVec 24 := BitVec.ofNat 24 (w.position * 128)

/-- Does a coordinate lie below a switch of the plan (R272)? -/
def Plan.above (p : Plan) (w : PlanSwitch) (c : BitVec 24) : Bool :=
  c.toNat / 2 ^ scopeOf p.shape w.tier == w.place.toNat / 2 ^ scopeOf p.shape w.tier

/-- The switches one tier up through which a group's releaser can be reached by up-links alone, in index order (R276). -/
def Plan.uppers (p : Plan) (rel w : PlanSwitch) : List PlanSwitch :=
  p.switches.filter fun t =>
    t.tier == w.tier + 1 && p.above t w.place
      && (t.index == rel.index || (decide (t.tier < rel.tier) && p.above rel t.place))

/-- The group parent by tree positions (R276). -/
def Plan.up (p : Plan) (rel w : PlanSwitch) : Option PlanSwitch :=
  if w.index = rel.index then none else (p.uppers rel w).head?

/-- The switches a contribution climbs through, from a switch up to the releaser. -/
def Plan.climb (p : Plan) (rel : PlanSwitch) : Nat → PlanSwitch → List Nat
  | 0, w => [w.index]
  | n + 1, w =>
    match p.up rel w with
    | none => [w.index]
    | some t => w.index :: p.climb rel n t

/-- A member's coordinate. -/
def Plan.coordOf (p : Plan) (rank : Nat) : BitVec 24 := ((p.members[rank]?).map (·.coord)).getD 0

/-- The job rank the plan places at a coordinate (R108 row 11). -/
def Plan.rankAt (p : Plan) (c : BitVec 24) : Option Nat := p.members.findIdx? fun m => m.coord == c

/-- The leaf of a member. -/
def Plan.leafSw (p : Plan) (rank : Nat) : Option PlanSwitch :=
  p.switches.find? fun w => w.tier == 0 && p.above w (p.coordOf rank)

/-- The plan's switch with a flat ID. -/
def Plan.swByFlat (p : Plan) (flat : BitVec 24) : Option PlanSwitch := p.switches.find? fun w => w.flat == flat

/-- The switch of an index. -/
def Plan.sw? (p : Plan) (i : Nat) : Option PlanSwitch := p.switches[i]?

/-- The group of an id. -/
def Plan.group? (p : Plan) (g : Nat) : Option PlanGroup := p.groups.find? fun x => x.id == g

/-- The bucket that covers a chunk. -/
def Plan.bucketAt (p : Plan) (chunk : Nat) : Option PlanBucket :=
  p.buckets.find? fun b => decide (b.first ≤ chunk) && decide (chunk < b.first + b.k)

/-- A group's direct members at a switch, in group-rank order (R229). -/
def Plan.direct (p : Plan) (g : PlanGroup) (self : Nat) : List Nat :=
  g.ranks.filter fun r => match p.leafSw r with | some w => w.index == self | none => false

/-- A group's child switches at a switch, in index order (R229). -/
def Plan.children (p : Plan) (g : PlanGroup) (self : Nat) : List Nat :=
  match p.sw? g.releaser with
  | none => []
  | some rel =>
    let paths := (g.ranks.filterMap p.leafSw).map (p.climb rel 3)
    (p.switches.map (·.index)).filter fun c =>
      paths.any fun path => (path.zip path.tail).any fun e => e.1 == c && e.2 == self

/-- The contributor slots of a group at a switch: direct members, then child switches (R229). -/
def Plan.slots (p : Plan) (g : PlanGroup) (self : Nat) : List SlotId :=
  (p.direct g self).map .member ++ (p.children g self).map .child

/-- Does a group include a switch? -/
def Plan.includes (p : Plan) (g : PlanGroup) (self : Nat) : Bool := !(p.slots g self).isEmpty || g.releaser == self

/-- The switches that release a group, ascending (R228). -/
def Plan.releasers (p : Plan) : List Nat := (p.switches.filter fun w => bitOf w.role 0).map (·.index)

/-- RELEASER_INDEX of a switch (R162). -/
def Plan.releaserIndex (p : Plan) (sw : Nat) : Nat := (p.releasers.findIdx? (· == sw)).getD 0

/-- The owner, by group rank, of chunk c of a reduce-scatter bucket of k chunks over g members (R195). -/
def ownerOf (k g c : Nat) : Nat :=
  let q := k / g
  let t := k % g
  if c < t * (q + 1) then c / (q + 1) else t + (c - t * (q + 1)) / q

/-- The first chunk a group rank owns (R195). -/
def firstOwned (k g r : Nat) : Nat :=
  let q := k / g
  let t := k % g
  if r ≤ t then r * (q + 1) else t * (q + 1) + (r - t) * q

/-- Is a member a receiver of a chunk's RESULT (R192)? -/
def Plan.receives (b : PlanBucket) (g : PlanGroup) (chunk rank : Nat) : Bool :=
  if b.scatter then g.ranks[ownerOf b.k g.ranks.length (chunk - b.first)]? == some rank else true

/-! ## Jobs -/

/-- A live job. -/
def State.job? (s : State) (id : BitVec 12) : Option Job := s.jobs.find? fun j => j.id == id

/-- Replace a job. -/
def State.mapJob (s : State) (id : BitVec 12) (g : Job → Job) : State :=
  { s with jobs := s.jobs.map fun j => if j.id = id then g j else j }

/-- The layout of a generation, current or loaded for cutover. -/
def Job.layout (j : Job) (gen : BitVec 4) : Option Layout :=
  if j.cur.plan.gen = gen then some j.cur
  else match j.next with | some n => if n.plan.gen = gen then some n else none | none => none

/-- STEP_DEPTH. -/
def Job.depth (j : Job) : Nat := j.cur.plan.depth

/-- This switch's entry of the plan. -/
def Layout.me (l : Layout) : Option PlanSwitch := l.plan.sw? l.self

/-- Does this switch release a group? -/
def Layout.releases (l : Layout) (g : PlanGroup) : Bool := g.releaser == l.self

/-- Is this switch the job's step root? -/
def Layout.isRoot (l : Layout) : Bool := l.plan.stepRoot == l.self

/-- The surviving members of a group in a bank. -/
def Bank.survivors (k : Bank) (job : BitVec 12) (g : PlanGroup) : List Nat := g.ranks.filter fun r => !k.fenced job r

/-- Is a child switch cut off in a bank: cut out, or every link of this switch to it cut? -/
def State.childCut (s : State) (k : Bank) (l : Layout) (c : Nat) : Bool :=
  match l.plan.sw? c with
  | none => true
  | some w => k.cutSwitches.contains w.flat
      || ((s.ports.any fun x => (s.cable x.num).role == .switch && (s.cable x.num).peerFlat == w.flat)
          && (s.linksTo k w.flat).isEmpty)

/-- The down port of a switch of the plan on which a switch one tier below it arrives: its child index (R272, R337). -/
def Plan.downPort (p : Plan) (t w : PlanSwitch) : Nat :=
  let shift := if t.tier = 2 then 14 else 7
  w.place.toNat / 2 ^ shift % 2 ^ (scopeOf p.shape t.tier - shift)

/-- The number of the up-link that leads to a switch of the plan: its place among the plan's switches of its tier and
position, at most 128 to a plane (PRESUMED, log entry 81). -/
def Plan.upNumber (p : Plan) (t : PlanSwitch) : Nat :=
  ((p.switches.filter fun x => x.tier == t.tier && x.position == t.position).findIdx? (·.index == t.index)).getD 0 % 128

/-- Does a bank hold a link from a switch of the plan up to another (R276)? This switch knows its own links by the cabling
plan, those of others by the items of either end. -/
def State.treeLink (s : State) (k : Bank) (l : Layout) (w t : PlanSwitch) : Bool :=
  if w.index = l.self then !(s.linksTo k t.flat).isEmpty
  else if t.index = l.self then !s.childCut k l w.index && !k.cutSwitches.contains t.flat
  else !k.farCut w.flat t.flat (l.plan.downPort t w) (l.plan.upNumber t)

/-- Is a switch a neighbour by the cabling plan? -/
def State.wiredTo (s : State) (flat : BitVec 24) : Bool := s.image.cable.any fun c => c.role == .switch && c.peerFlat == flat

/-- Does a switch reach the releaser above it by an up-link of a bank (R276, R337)? A top switch and the tier-1 switches of
its plane know their links; a leaf knows by its FLAT list through which plane a top switch is reached. -/
def State.meets (s : State) (k : Bank) (l : Layout) (t rel : PlanSwitch) : Bool :=
  s.treeLink k l t rel &&
    (if t.index = l.self then true
     else if rel.index = l.self then s.wiredTo t.flat
     else if s.image.tier = 0 && s.wiredTo t.flat then
       s.image.cable.any fun c => c.uplink && c.peerFlat == t.flat && s.image.flats.contains (c.upIndex, rel.flat)
     else if s.image.tier = 1 && t.position == s.image.position then !s.wiredTo rel.flat
     else true)

/-- The group parent of a switch of the plan in a bank (R276): of the switches one tier up that it reaches by a link of the
bank, the lowest-index one from which the releaser can be reached by up-links alone; where none is left that reaches it, the
lowest-index one (DEDUCED from the example of chapter 13, log entry 67). -/
def State.upIn (s : State) (k : Bank) (l : Layout) (rel w : PlanSwitch) : Option PlanSwitch :=
  if w.index = rel.index || decide (rel.tier ≤ w.tier) then none
  else
    let near := l.plan.switches.filter fun t => t.tier == w.tier + 1 && l.plan.above t w.place && s.treeLink k l w t
    match near.find? fun t => t.index == rel.index
        || (decide (t.tier < rel.tier) && l.plan.above rel t.place && s.meets k l t rel) with
    | some t => some t
    | none => near.head?

/-- The switches a contribution climbs through in a bank. -/
def State.climbIn (s : State) (k : Bank) (l : Layout) (rel : PlanSwitch) : Nat → PlanSwitch → List Nat
  | 0, w => [w.index]
  | n + 1, w =>
    match s.upIn k l rel w with
    | none => [w.index]
    | some t => w.index :: s.climbIn k l rel n t

/-- A group's child switches at a switch of the plan in a bank: those through which a member climbs that the bank does not
fence (R120, R229, R276). -/
def State.childrenIn (s : State) (k : Bank) (l : Layout) (g : PlanGroup) (at_ : Nat) : List Nat :=
  match l.plan.sw? g.releaser with
  | none => []
  | some rel =>
    let leaves := ((k.survivors l.plan.job g).filterMap l.plan.leafSw).dedup
    let paths := leaves.map (s.climbIn k l rel 3)
    (l.plan.switches.map (·.index)).filter fun c => paths.any fun path => (path.zip path.tail).contains (c, at_)

/-- A group's slots at this switch in a bank: the group table (R109, R273). -/
def State.slotsIn (s : State) (k : Bank) (l : Layout) (g : PlanGroup) : List SlotId :=
  (l.plan.direct g l.self).map .member ++ (s.childrenIn k l g l.self).map .child

/-- The group parent of this switch in a bank (R276). -/
def State.parentIn (s : State) (k : Bank) (l : Layout) (g : PlanGroup) : Option PlanSwitch :=
  match l.me, l.plan.sw? g.releaser with
  | some w, some rel => s.upIn k l rel w
  | _, _ => none

/-- Is a slot still to be answered for: a member not fenced in the bank, any child? -/
def Bank.slotLive (k : Bank) (job : BitVec 12) (x : SlotId) : Bool :=
  match x with
  | .member r => !k.fenced job r
  | .child _ => true

/-- The slot that a port's neighbour is in a layout. -/
def State.childOn (s : State) (l : Layout) (p : Nat) : Option Nat :=
  if (s.cable p).role == .switch then (l.plan.swByFlat (s.cable p).peerFlat).map (·.index) else none

/-- Where a message to a slot goes, and the DEST it carries (R36). -/
def Layout.toSlot (l : Layout) (x : SlotId) : Hop × BitVec 24 :=
  match x with
  | .member r => (.routed, l.plan.coordOf r)
  | .child c => (.toSwitch (((l.plan.sw? c).map (·.flat)).getD 0), fabricAddr false)

/-- The rank a message to a slot is judged by. -/
def SlotId.rank? : SlotId → Option Nat
  | .member r => some r
  | .child _ => none

/-! ## Steps -/

/-- Distance of a step from the floor, modulo 2^32 (R105). -/
def Job.ahead (j : Job) (step : BitVec 32) : Nat := (step - j.floor).toNat

/-- Is a step inside the window (R105)? -/
def Job.inWindow (j : Job) (step : BitVec 32) : Bool := decide (j.ahead step < j.depth)

/-- A step not yet seen. -/
def StepSt.fresh (step : BitVec 32) : StepSt :=
  { step := step, ended := none, opened := false, timerOn := false, reported := false, withdrawn := false, reports := [],
    entries := [], amax := [], tally := [], proposalsOut := 0, lateCauses := [], heldFails := [] }

/-- What the switch keeps of a step. -/
def Job.step (j : Job) (st : BitVec 32) : StepSt := (j.steps.find? fun x => x.step == st).getD (StepSt.fresh st)

/-- Replace what the switch keeps of a step. -/
def Job.mapStep (j : Job) (st : BitVec 32) (g : StepSt → StepSt) : Job :=
  { j with steps := j.steps.filter (fun x => x.step != st) ++ [g (j.step st)] }

/-- Has a step ended at this switch: committed, aborted, or behind the floor (R105)? -/
def Job.stepEnded (j : Job) (st : BitVec 32) : Bool :=
  decide (2 ^ 31 ≤ j.ahead st) || (j.step st).ended.isSome

/-- The floor of a job once the ended steps at its bottom have passed (R105); it
stops at a pending cutover (R244). -/
def Job.floorAfter (j : Job) : Nat → BitVec 32 → BitVec 32
  | 0, f => f
  | n + 1, f =>
    if (j.next.map fun n => n.plan.firstStep) = some f then f
    else if (j.step f).ended.isSome then j.floorAfter n (f + 1)
    else f

/-! ## Descriptors and contexts -/

/-- mill_of's hash (R102). -/
def millHash (job : BitVec 12) (chunk : Nat) (n : Nat) : Nat :=
  let z := ((job.setWidth 64 <<< 22) ^^^ BitVec.ofNat 64 chunk) * 0xC2B2AE3D27D4EB4F#64
  let z := z ^^^ (z >>> 31)
  ((z >>> 32).toNat * n) / 2 ^ 32

/-- The enabled mills, by global index (R101, R102). -/
def State.enabledMills (s : State) : List Nat :=
  (List.range 128).filter fun m => bitOf (s.fld F.MILL_ENABLE_ENABLED (m / 32)) (m % 32)

/-- The mill that reduces a chunk (R102). -/
def State.millOf (s : State) (job : BitVec 12) (chunk : Nat) : Nat :=
  let e := s.enabledMills
  nth e (millHash job chunk e.length) 0

/-- Two's-complement bytes of a signed field. -/
def leSigned (n : Nat) (i : Int) : List Byte := leBytes n (ofSigned (8 * n) i)

/-- The descriptor of a chunk of a step (R104). -/
def Layout.desc (l : Layout) (step : BitVec 32) (chunk : Nat) : Nat :=
  l.descBase + (step.toNat % l.plan.depth) * l.plan.chunks + chunk

/-- The context of a descriptor; none where it is IDLE. -/
def State.ctx? (s : State) (d : Nat) : Option Ctx := sget d s.ctxs

/-- A field of n bits at a bit offset of a word; a value of more bits is cut off. -/
def fieldAt (off n v : Nat) : Nat := v % 2 ^ n * 2 ^ off

/-- The 256 bits of a descriptor (R106). A FRAME_CNT not yet known is 0. -/
def Ctx.descWord (c : Ctx) : Nat :=
  sumN [fieldAt 252 4 c.state.code, fieldAt 220 32 c.step.toNat, fieldAt 208 12 c.job.toNat, fieldAt 204 4 c.layoutGen.toNat,
        fieldAt 196 8 c.generation, fieldAt 180 16 (ofSigned 16 c.anchor), fieldAt 164 16 (ofSigned 16 c.maxExp),
        fieldAt 159 5 c.fmt.code, fieldAt 146 13 c.elems]
    + sumN [fieldAt 142 4 (c.frameCnt.getD 0), fieldAt 140 2 (c.pieces - 1), fieldAt 124 16 c.devBucket, fieldAt 115 9 c.expect,
        fieldAt 106 9 c.done, fieldAt 104 2 c.gclass, fieldAt 93 11 (nth c.granules 0 0), fieldAt 82 11 (nth c.granules 1 0),
        fieldAt 71 11 (nth c.granules 2 0), fieldAt 58 13 c.arrival]
    + sumN [fieldAt 38 20 c.waitStart.toNat, fieldAt 37 1 (b2n c.flushed), fieldAt 36 1 (b2n c.reduced), fieldAt 35 1 (b2n c.held),
        fieldAt 27 8 c.fenceEpoch.toNat]

/-- The 32 little-endian bytes of a descriptor; an IDLE one is zeros (R106; DESIGN CHOICE, log entry 82). -/
def descBytes (c : Option Ctx) : List Byte := match c with | some c => leBytes 32 c.descWord | none => zeros 32

/-- The arrival record of a context in its bytes, filled up to whole lines (R109). -/
def Ctx.arrivalBytes (c : Ctx) : List Byte :=
  let rec_ := leBytes 8 (c.runCheck % 2 ^ 61) ++ leBytes 4 (c.rescales % 256 * 2 ^ 24 + c.contributions % 2 ^ 19) ++ zeros 4
    ++ (c.slots.map fun y => leBytes 2 y.mask.toNat ++ leSigned 2 y.exp).flatten
  sliceB rec_ 0 (c.lines * 64)

/-- The 64 bytes of a line of a mill's arrival store; none where no record covers it (R109). -/
def State.arrivalLine (s : State) (m line : Nat) : Option (List Byte) :=
  (s.ctxs.find? fun x => x.2.mill == m && decide (x.2.arrival ≤ line) && decide (line < x.2.arrival + x.2.lines)).map fun x =>
    sliceB x.2.arrivalBytes ((line - x.2.arrival) * 64) 64

/-- Descriptors that a fabric die's cache has room for (R107). -/
def descRoom : Nat := 65536

/-- Write a descriptor's bytes to its place in the DESCRIPTOR partition, which lies from MA 0 (R106, R107, R429). -/
def State.writeDesc (s : State) (d : Nat) : State := s.writeMem (32 * d) (descBytes (sget d s.ctxs))

/-- A die's mill has used a descriptor: it is the latest in the die's cache, and where the cache has no room for it the one
not used for longest is written back (R107; DESIGN CHOICE, log entry 82). -/
def State.touchDesc (s : State) (die d : Nat) : State :=
  let rest := s.descCache.filter (· != (die, d))
  let mine := rest.filter fun x => x.1 == die
  if mine.length < descRoom then { s with descCache := (die, d) :: rest }
  else
    match mine.getLast? with
    | some old => { s.writeDesc old.2 with descCache := (die, d) :: rest.filter (· != old) }
    | none => s

/-- Write a context. -/
def State.setCtx (s : State) (d : Nat) (c : Ctx) : State := ({ s with ctxs := sput d c s.ctxs }).touchDesc (c.mill / 32) d

/-- A context goes to IDLE. -/
def State.idleCtx (s : State) (d : Nat) : State :=
  match s.ctx? d with
  | some c => ({ s with ctxs := sdel d s.ctxs }).touchDesc (c.mill / 32) d
  | none => s

/-- The mill's report of a kind of form J: INSTANCE is the global mill, DIE its fabric die (R443, R445). -/
def State.millFault (s : State) (mill kind : Nat) (job : BitVec 12) (step : BitVec 32) (obj extra : Nat) : State :=
  s.raise (mill / 32) blkMill mill kind (addrJ job step) (detailJ obj extra)

/-- Bits [33:14] of fabric time (R106). -/
def State.waitStart (s : State) : BitVec 20 := BitVec.ofNat 20 (s.ns / 2 ^ 14)

/-! ## The accumulator pool (R109, R111, R309 to R312) -/

/-- Accumulator units of a mill (R309). -/
def poolUnits : Nat := 1706
/-- Arrival lines of a mill (R109). -/
def poolLines : Nat := 8192

/-- Units of one granule: 1, 4 or 16; 4 in single-size mode (R111, R309). -/
def granuleUnits (single : Bool) (elems : Nat) : Nat :=
  if single then 4 else if elems ≤ 256 then 1 else if elems ≤ 1024 then 4 else 16

/-- GSIZE of a granule of u units (R106). -/
def granuleClass (u : Nat) : Nat := if u = 0 then 0 else if u = 1 then 1 else if u = 4 then 2 else 3

/-- Lines of an arrival record (R109). -/
def arrivalLines (slots : Nat) : Nat := ceilDiv (16 + 4 * slots) 64

/-- Units of one granule of a context. -/
def Ctx.unit (c : Ctx) : Nat := match c.gclass with | 0 => 0 | 1 => 1 | 2 => 4 | _ => 16

/-- The runs of units held in a mill. -/
def State.unitRuns (s : State) (m : Nat) : List (Nat × Nat) :=
  ((s.ctxs.filter fun x => x.2.mill == m && x.2.gclass != 0).map fun x => x.2.granules.map fun g => (g, x.2.unit)).flatten

/-- The runs of lines held in a mill. -/
def State.lineRuns (s : State) (m : Nat) : List (Nat × Nat) :=
  (s.ctxs.filter fun x => x.2.mill == m && x.2.lines != 0).map fun x => (x.2.arrival, x.2.lines)

/-- Total length of runs. -/
def runTotal (rs : List (Nat × Nat)) : Nat := sumN (rs.map (·.2))

/-- Is [a, a + n) free of runs and inside the store? -/
def runFits (rs : List (Nat × Nat)) (size a n : Nat) : Bool :=
  decide (a + n ≤ size) && rs.all fun r => decide (a + n ≤ r.1 ∨ r.1 + r.2 ≤ a)

/-- The lowest free run of n. -/
def firstFit (rs : List (Nat × Nat)) (size n : Nat) : Option Nat :=
  let starts := 0 :: rs.map fun r => r.1 + r.2
  (starts.filter fun a => runFits rs size a n).foldl (fun b a => match b with | none => some a | some x => some (min x a)) none

/-- Place k granules of u units, one after the other. -/
def placeRuns (size u : Nat) : Nat → List (Nat × Nat) → Option (List Nat)
  | 0, _ => some []
  | k + 1, rs =>
    match firstFit rs size u with
    | none => none
    | some a => (placeRuns size u k ((a, u) :: rs)).map (a :: ·)

/-- What a job holds in a mill, with what its requests that wait for a compaction will take (R311): (units, lines). -/
def State.holdings (s : State) (m : Nat) (job : BitVec 12) : Nat × Nat :=
  let cs := s.ctxs.filter fun x => x.2.mill == m && x.2.job == job
  let ws := s.core.compacting.filter fun x => x.mill == m && x.job == job
  (sumN (cs.map fun x => x.2.unit * x.2.granules.length) + sumN (ws.map fun x => x.grans * x.units),
   sumN (cs.map fun x => x.2.lines) + sumN (ws.map (·.lines)))

/-- A job's quotas in a mill: the larger of its current and its loaded layout's, which takes over what the current one
holds (R238, R242). -/
def Job.quota (j : Job) (m : Nat) : Nat × Nat :=
  let q (l : Layout) : Nat × Nat := match l.quotas.find? fun x => x.1 == m with | some x => x.2 | none => (0, 0)
  let a := q j.cur
  match j.next with
  | none => a
  | some n => (max a.1 (q n).1, max a.2 (q n).2)

/-- Unused quota of every job in a mill (R310). -/
def State.unusedQuota (s : State) (m : Nat) : Nat × Nat :=
  let xs := s.jobs.map fun j => let h := s.holdings m j.id; let q := j.quota m; (q.1 - h.1, q.2 - h.2)
  (sumN (xs.map (·.1)), sumN (xs.map (·.2)))

/-- Free units and free lines of a mill; what requests that wait for a compaction will take is not free (R311). -/
def State.poolFree (s : State) (m : Nat) : Nat × Nat :=
  let ws := s.core.compacting.filter (·.mill == m)
  (poolUnits - runTotal (s.unitRuns m) - sumN (ws.map fun x => x.grans * x.units),
   poolLines - runTotal (s.lineRuns m) - sumN (ws.map (·.lines)))

/-- The answer to a pool request (R310, R311). -/
inductive Grant where
  | granted (granules : List Nat) (arrival : Nat) (remainder : Bool)
  | compact (remainder : Bool)
  | refused
  deriving DecidableEq, Repr

/-- The pool manager's decision on a request for k granules of u units and n lines of a job (R310, R311). -/
def State.poolRequest (s : State) (m : Nat) (job : BitVec 12) (k u n : Nat) : Grant :=
  let h := s.holdings m job
  let q := match s.job? job with | some j => j.quota m | none => (0, 0)
  let free := s.poolFree m
  let within := decide (h.1 + k * u ≤ q.1) && decide (h.2 + n ≤ q.2)
  let others := s.unusedQuota m
  -- this job's own unused quota shrinks by what the request takes of it
  let after : Nat × Nat :=
    (others.1 - min (k * u) (q.1 - h.1), others.2 - min n (q.2 - h.2))
  let spare := decide (k * u ≤ free.1) && decide (n ≤ free.2)
    && decide (after.1 ≤ free.1 - k * u) && decide (after.2 ≤ free.2 - n)
  let deferred := s.jobs.any fun j => !j.admitted
  let short := decide (free.1 < others.1) || decide (free.2 < others.2)
  if within && decide (k * u ≤ free.1) && decide (n ≤ free.2)
      || (!within && spare && !(deferred && short)) then
    match placeRuns poolUnits u k (s.unitRuns m), firstFit (s.lineRuns m) poolLines n with
    | some gs, some a => .granted gs a (!within)
    | _, _ => .compact (!within)
  else .refused

/-- Give a context its granules and arrival record (R111). -/
def Ctx.withGrant (c : Ctx) (gs : List Nat) (u a n : Nat) : Ctx :=
  { c with granules := gs, gclass := granuleClass u, arrival := a, lines := n }

/-- Return a context's granules and arrival record (R113). -/
def Ctx.freed (c : Ctx) : Ctx := { c with granules := [], gclass := 0, arrival := 0, lines := 0, acc := [] }

/-- Contexts in ascending order of a start address. -/
def insertBy {α : Type} (key : α → Nat) (x : α) : List α → List α
  | [] => [x]
  | y :: t => if key x < key y then x :: y :: t else y :: insertBy key x t

/-- Sort by a key. -/
def sortBy {α : Type} (key : α → Nat) (xs : List α) : List α := xs.foldl (fun a x => insertBy key x a) []

/-- Where an address goes. -/
def movedTo (m : List (Nat × Nat)) (a : Nat) : Nat := match m.find? fun x => x.1 == a with | some x => x.2 | none => a

/-- Move the lowest held runs of a store down, one after another in ascending order, until a test holds of the runs as they
then lie (R311). Answers where each moved run goes. -/
def packUntil (ok : List (Nat × Nat) → Bool) : Nat → List (Nat × Nat) → List (Nat × Nat) → List (Nat × Nat)
  | _, _, [] => []
  | a, done, (old, n) :: t =>
    if ok (done ++ (old, n) :: t) then []
    else (old, a) :: packUntil ok (a + n) (done ++ [(a, n)]) t

/-- Compact the stores of a mill that a request for k granules of u units and n lines is concerned with, each until the
request fits (R311). The contexts whose granules or record have moved are written back. -/
def State.compactMill (s : State) (m k u n : Nat) : State :=
  let us := packUntil (fun rs => (placeRuns poolUnits u k rs).isSome) 0 [] (sortBy (·.1) (s.unitRuns m))
  let ls := packUntil (fun rs => (firstFit rs poolLines n).isSome) 0 [] (sortBy (·.1) (s.lineRuns m))
  (s.ctxs.filter fun x => x.2.mill == m).foldl (fun s x =>
    let y := { x.2 with granules := x.2.granules.map (movedTo us)
                        arrival := if x.2.lines = 0 then 0 else movedTo ls x.2.arrival }
    if y = x.2 then s else s.setCtx x.1 y) s

/-! ## Rings in LPDDR (R538 to R541) -/

/-- Ring words of a header: PRODUCER, DROPPED, CONSUMER. -/
def State.ringProducer (s : State) (r : RingRef) : Nat := s.memLe r.base 4
/-- CONSUMER of a ring. -/
def State.ringConsumer (s : State) (r : RingRef) : Nat := s.memLe (r.base + 64) 4
/-- DROPPED of a ring. -/
def State.ringDropped (s : State) (r : RingRef) : Nat := s.memLe (r.base + 4) 4

/-- Entries a ring holds: the distance of its counts modulo 2 × ENTRIES (R539). -/
def State.ringHeld (s : State) (r : RingRef) : Nat :=
  if r.entries = 0 then 0
  else (s.ringProducer r + 2 * r.entries - s.ringConsumer r % (2 * r.entries)) % (2 * r.entries)

/-- Initialise a ring's header lines (R539). -/
def State.ringInit (s : State) (r : RingRef) : State :=
  (s.writeMem r.base (leBytes 4 0 ++ leBytes 4 0 ++ leBytes 4 r.entries ++ leBytes 2 r.entryBytes ++ zeros 50)).writeMem
    (r.base + 64) (zeros 64)

/-- Entries a record takes. -/
def ringUnits (r : RingRef) (rec : List Byte) : Nat := ceilDiv rec.length r.entryBytes

/-- Write a record's entries at consecutive indices modulo ENTRIES, the first at count p (R539). -/
def State.ringWrite (s : State) (r : RingAt) (p : Nat) (rec : List Byte) : State :=
  let w := r.ref.entryBytes
  (List.range (ringUnits r.ref rec)).foldl (fun s i =>
    s.windowWrite (r.data + ((p + i) % r.ref.entries) * w) (sliceB rec (i * w) w)) s

/-- A record finds its ring full: dropped and counted (R335, R540). -/
def State.ringDrop (s : State) (r : RingAt) : State :=
  match r.tele with
  | none => s.windowWrite (r.ref.base + 4) (leBytes 4 (satAdd 32 (s.ringDropped r.ref) 1))
  | some d =>
    let x := (s.core.samples.find? fun x => x.die == d).getD ⟨d, 0, false⟩
    (s.mapCore fun c => { c with samples := c.samples.filter (fun y => y.die != d) ++ [{ x with overrun := true }] }).bump
      F.SAMPLE_EVENTS_SAMPLE_DROPS d

/-- Is there no room in a ring for a record, by the counts in memory? -/
def State.ringFull (s : State) (r : RingRef) (rec : List Byte) : Bool := decide (r.entries < s.ringHeld r + ringUnits r rec)

/-- A record as it is written: a telemetry block has OVERRUN = 1 where one has been dropped since the last was written
(R335). -/
def State.ringRecord (s : State) (r : RingAt) (rec : List Byte) : List Byte :=
  match r.tele with
  | none => rec
  | some d => if s.core.samples.any fun x => x.die == d && x.overrun then rec.modify 9 (· ||| 2#8) else rec

/-- A record has been written: a statistics record is counted (R249), and the next telemetry block is not preceded by a drop
(R335). -/
def State.ringWrote (s : State) (r : RingAt) : State :=
  match r.tele with
  | none => if r.ref.entryBytes = 64 then s.bump F.TALLY_EVENTS_TALLY_RECORDS 0 else s
  | some d => s.mapCore fun c =>
    { c with samples := c.samples.map fun x => if x.die = d then { x with overrun := false } else x }

/-- Produce one record: written if the ring has room, else dropped (R539, R540). Bit `irq` of HOST_INT_STATUS rises with
the producer (R546). -/
def State.ringPutNow (s : State) (r : RingAt) (rec : List Byte) (irq : Nat) : State :=
  if s.ringFull r.ref rec then s.ringDrop r
  else
    let p := s.ringProducer r.ref
    let s := (s.ringWrite r p (s.ringRecord r rec)).windowWrite r.ref.base
      (leBytes 4 ((p + ringUnits r.ref rec) % (2 * r.ref.entries)))
    (s.ringWrote r).raiseInt irq

/-- Do records of a ring wait for its CONSUMER? -/
def State.ringWaits (s : State) (r : RingAt) : Bool := s.ringQueue.any fun x => x.1.ref.base == r.ref.base

/-- Produce one record. Where the ring looks full, CONSUMER is read from the companion's cache first, and the record, with
those behind it, waits for that snoop (R535, R539). -/
def State.ringPut (s : State) (r : RingAt) (rec : List Byte) (irq : Nat) : State :=
  let line := windowLine (r.ref.base + 64)
  if s.ringWaits r then { s with ringQueue := s.ringQueue ++ [(r, rec, irq)] }
  else if s.ringFull r.ref rec && s.owned line then
    { s.snoop line false with ringQueue := s.ringQueue ++ [(r, rec, irq)] }
  else s.ringPutNow r rec irq

/-- The three rings of a job, with their entries one after another from offset 512 of the region (R538). -/
def JobRings.completionAt (r : JobRings) : RingAt := ⟨r.completion, r.completion.base + 512, none⟩
/-- The statistics ring's entries follow the completion ring's. -/
def JobRings.statisticsAt (r : JobRings) : RingAt :=
  ⟨r.statistics, r.completion.base + 512 + r.completion.entries * 32, none⟩
/-- The event ring's entries follow the statistics ring's. -/
def JobRings.eventsAt (r : JobRings) : RingAt :=
  ⟨r.events, r.completion.base + 512 + r.completion.entries * 32 + r.statistics.entries * 64, none⟩

/-- The rings of a region at a memory address (R538). -/
def JobRings.ofRegion (base entries : Nat) : JobRings :=
  { completion := ⟨base, entries, 32⟩, statistics := ⟨base + 128, 4096, 64⟩, events := ⟨base + 256, 4096, 32⟩ }

/-- Bytes of a job's ring region (R430, R538). -/
def ringRegionBytes (entries : Nat) : Nat := 512 + entries * 32 + 4096 * 64 + 4096 * 32

/-- Zero a run of memory (R430). -/
def State.zeroMem (s : State) (ma n : Nat) : State :=
  { s with
    mem := s.mem.filter fun c => !(decide (ma ≤ c.1) && decide (c.1 < ma + n))
    memory := { s.memory with
      poisoned := s.memory.poisoned.filter fun l => !coversLine ma n l
      damaged := s.memory.damaged.filter fun l => !coversLine ma n l } }

/-- Zero a run of the window: the lines of it that the companion may hold are invalidated first (R535). -/
def State.windowZero (s : State) (ma n : Nat) : State :=
  let ls := (s.host.filter.map (·.1)).filter fun l =>
    decide (windowLine ma ≤ l) && decide (l < windowLine (ma + n + 63))
  (ls.foldl (fun s l => s.snoop l true) s).zeroMem ma n

/-- Zero a ring region and write its headers (R430, R538, R539). -/
def State.initRings (s : State) (r : JobRings) : State :=
  let s := s.windowZero r.completion.base (ringRegionBytes r.completion.entries)
  ((s.ringInit r.completion).ringInit r.statistics).ringInit r.events

/-- JOB_ID and LAYOUT_GEN as two bytes. -/
def jobGen (job : BitVec 12) (gen : BitVec 4) : Nat := job.toNat * 16 + gen.toNat

/-- Write a job's entry of the job directory; an entry without rings is cleared (R538). -/
def State.directory (s : State) (job : BitVec 12) (e : Option (BitVec 4 × JobRings)) : State :=
  s.windowWrite (ringsBase + job.toNat * 16)
    (match e with
     | some (gen, r) => leBytes 2 (jobGen job gen) ++ leBytes 1 1 ++ zeros 1
         ++ leBytes 4 ((r.completion.base - ringsBase) / 64) ++ leBytes 4 r.completion.entries ++ zeros 4
     | none => zeros 16)

/-- Write an event record (R361). -/
def State.event (s : State) (j : Job) (kind : Nat) (step : BitVec 32) (object rank detail waited : Nat) : State :=
  s.ringPut j.jrings.eventsAt
    (leBytes 2 kind ++ leBytes 2 (jobGen j.id j.cur.plan.gen) ++ leBytes 4 step.toNat ++ leBytes 4 object
      ++ leBytes 4 rank ++ leBytes 4 detail ++ leBytes 4 waited ++ leBytes 8 s.ns) 3

/-- The flags byte shared by completion records and ledger entries (R131, R160). -/
def ResultInfo.flags (r : ResultInfo) : Nat :=
  128 * b2n r.flushed + 64 * b2n r.reduced + 32 * b2n r.stoch + 16 * b2n (r.rescales != 0) + 8 * b2n r.fast

/-- Write a completion record (R131). -/
def State.completion (s : State) (j : Job) (c : Ctx) (r : ResultInfo) : State :=
  s.ringPut j.jrings.completionAt
    (leBytes 4 c.step.toNat ++ leBytes 4 (c.chunk.toNat * 1024) ++ leBytes 2 (jobGen c.job c.layoutGen)
      ++ leBytes 1 c.generation ++ leBytes 1 r.flags ++ leSigned 2 r.anchor ++ leSigned 2 r.maxExp
      ++ leBytes 4 (r.rescales * 2 ^ 24 + (r.contributions - 1)) ++ leBytes 8 r.resultCheck ++ leBytes 4 (s.ns % 2 ^ 32)) 2

/-- Write an abort record (R132): the chunk and generation that caused the abort, or none. -/
def State.abortRecord (s : State) (j : Job) (step : BitVec 32) (reason : Nat) (cause : Option (Nat × Nat)) : State :=
  s.ringPut j.jrings.completionAt
    (leBytes 4 step.toNat ++ leBytes 4 ((cause.map Prod.fst).getD 0 * 1024) ++ leBytes 2 (jobGen j.id j.cur.plan.gen)
      ++ leBytes 1 ((cause.map Prod.snd).getD 0) ++ leBytes 1 (1 + 2 * b2n cause.isNone) ++ leBytes 2 reason
      ++ zeros 14 ++ leBytes 4 (s.ns % 2 ^ 32)) 2

/-- The bytes of a ledger entry (R160). -/
def LedgerEntry.bytes (e : LedgerEntry) : List Byte :=
  leBytes 4 (e.chunk * 1024) ++ leBytes 1 e.gen ++ leBytes 1 e.flags ++ leSigned 2 e.anchor
    ++ leBytes 4 (e.rescales * 2 ^ 24 + e.contribM1) ++ zeros 4 ++ leBytes 8 e.sumIn ++ leBytes 8 e.resultCheck

/-- Entries in ascending CHUNK_ID; a later generation overwrites (R160). -/
def putEntry (e : LedgerEntry) : List LedgerEntry → List LedgerEntry
  | [] => [e]
  | x :: t => if e.chunk < x.chunk then e :: x :: t else if e.chunk = x.chunk then e :: t else x :: putEntry e t

/-! ## The space of a job in a partition (R165, R239, R429) -/

/-- The memory address of byte i of the space a job holds in a partition, its runs one after another. -/
def partByte (part : Nat) : List MemRegion → Nat → Nat
  | [], _ => 0
  | r :: t, i => if r.part != part then partByte part t i else if i < r.bytes then r.base + i else partByte part t (i - r.bytes)

/-- The bytes of that space in its runs. -/
def partBytes (part : Nat) (rs : List MemRegion) : Nat := sumN ((rs.filter (·.part == part)).map (·.bytes))

/-- Write into that space at an offset, 16 bytes at a time, so that a piece never leaves its run. -/
def State.writePart (s : State) (part : Nat) (rs : List MemRegion) (off : Nat) (bs : List Byte) : State :=
  (List.range (ceilDiv bs.length 16)).foldl (fun s i =>
    if off + 16 * i < partBytes part rs then s.writeMem (partByte part rs (off + 16 * i)) ((bs.drop (16 * i)).take 16) else s) s

/-- A step record in the layout of LEDGER_READ (R545). -/
def StepRecord.bytes (r : StepRecord) : List Byte :=
  sliceB r.digested 0 96 ++ sliceB r.digest 0 64 ++ leBytes 8 r.commitTime ++ leBytes 4 (b2n r.signature.isSome) ++ zeros 4
    ++ sliceB (r.signature.getD []) 0 4627 ++ zeros 61 ++ r.summaries

/-- Bytes that the step records take at a switch (R239). -/
def Plan.recordsBytes (p : Plan) (self : Nat) : Nat :=
  if p.stepRoot = self then roundUp (p.ledgerDepth * (4864 + 80 * p.releasers.length)) 64 else 0

/-- Chunks per step that a switch releases (R239). -/
def Plan.releasedChunks (p : Plan) (self : Nat) : Nat :=
  sumN ((p.buckets.filter fun b =>
    match p.group? b.group with | some g => g.releaser == self | none => false).map (·.k))

/-- Bring what the ledger partition holds of a step to what the job keeps of it: its record first, then its entry array, each at
the place of its step number modulo the depth (R165, R239; DESIGN CHOICE, log entry 110). -/
def State.syncLedger (s : State) (job : BitVec 12) (step : BitVec 32) : State :=
  match s.job? job with
  | none => s
  | some j =>
    let p := j.cur.plan
    let self := j.cur.self
    let s := match j.records.find? fun r => r.step == step with
      | some r => s.writePart 4 j.regions (step.toNat % max 1 p.ledgerDepth * (4864 + 80 * p.releasers.length)) r.bytes
      | none => s
    match j.entryArrays.find? fun a => a.step == step with
    | some a => s.writePart 4 j.regions
        (p.recordsBytes self + step.toNat % max 1 p.entryDepth * (32 * p.releasedChunks self))
        (a.entries.map LedgerEntry.bytes).flatten
    | none => s

end Sys2Proof.Machine
end

