-- ==== Sys2Proof/Machine/Mill.lean ====
section
/-! DEFINITION. The arithmetic a mill carries out on a chunk: the fold of a frame, the release check and result, the
forwarded partial, compression with error feedback, tally (spec/03_reduction_arithmetic.md R70 to R96,
05_result_checking.md R140 to R143, 06_compression.md R171 to R177, 08_job_plans.md R246). -/
namespace Sys2Proof.Machine

open Sys2Proof

/-! ## Contexts -/

/-- Window pieces of a bucket's input format (R75). -/
def PlanBucket.pieces (b : PlanBucket) : Nat := b.fmt.pieces

/-- Fraction bits of a bucket's window (R75). -/
def PlanBucket.frac (b : PlanBucket) : Nat := fracBits b.fmt.pieces

/-- A slot not yet folded. -/
def Slot.fresh (who : SlotId) (live : Bool) : Slot :=
  { who := who, live := live, exp := noExp, expHeld := false, mask := 0, complete := false, msgId := none, ext := none, parts := [] }

/-- A slot with its folded frames forgotten; the recorded exponent stays (R97, R119). -/
def Slot.cleared (x : Slot) : Slot := { x with mask := 0, complete := false, msgId := none, ext := none, parts := [] }

/-- EXPECT: slots still counted (R106). -/
def expectOf (xs : List Slot) : Nat := (xs.filter (·.live)).length

/-- A context that opens (R119, IDLE row): its slots from the group table, those fenced already not counted. FENCE_EPOCH, which
no supersession has written, is the number of the epoch whose fences the group table reflects (R150; DEDUCED, log entry 60). -/
def Ctx.open (l : Layout) (b : PlanBucket) (mill dev : Nat) (step : BitVec 32) (chunk : BitVec 22) (anchor : Int)
    (slots : List Slot) (wait : BitVec 20) (ns : Nat) (epoch : BitVec 32) : Ctx :=
  { state := .openS, step := step, job := l.plan.job, layoutGen := l.plan.gen, chunk := chunk, mill := mill,
    bucket := b.id, devBucket := dev, generation := 0, anchor := anchor, maxExp := noExp, fmt := b.fmt,
    elems := b.elems, frameCnt := none, pieces := b.pieces, expect := expectOf slots, done := 0, gclass := 0,
    granules := [], arrival := 0, lines := 0, waitStart := wait, waitNs := ns, flushed := false,
    reduced := slots.any (fun x => !x.live), held := false, fenceEpoch := epoch.setWidth 8, runCheck := 0, rescales := 0,
    contributions := 0, slots := slots, acc := [], sps := [], fastIn := false, checkFails := 0, checkFailSent := false,
    stragglerSent := false, requestSent := false, commitWait := false, tallyIn := 0, tallyClamped := 0,
    awaiting := [], result := none, parentMsg := none, resultParts := [], withdrawing := false }

/-- The chunk state of a generation cleared (R97, R99, R119): accumulator, special states, folded-frame records. -/
def Ctx.cleared (c : Ctx) : Ctx :=
  { c with acc := [], sps := [], done := 0, runCheck := 0, contributions := 0, flushed := false, maxExp := noExp,
           fastIn := false, slots := c.slots.map Slot.cleared, tallyIn := 0, tallyClamped := 0, requestSent := false,
           commitWait := false, awaiting := [], result := none, parentMsg := none, resultParts := [] }

/-- Change one slot. -/
def Ctx.mapSlot (c : Ctx) (who : SlotId) (g : Slot → Slot) : Ctx :=
  { c with slots := c.slots.map fun x => if x.who = who then g x else x }

/-- A slot of a context. -/
def Ctx.slot (c : Ctx) (who : SlotId) : Slot := (c.slots.find? fun x => x.who == who).getD (Slot.fresh who false)

/-- Record an exponent for a slot: the larger of what was recorded and what is seen (R97). -/
def Ctx.recordExp (c : Ctx) (who : SlotId) (e : Int) : Ctx :=
  c.mapSlot who fun x => { x with exp := max x.exp e, expHeld := true }

/-! ## One frame's elements -/

/-- The elements of one frame as window integers with special states: their offset in the chunk, the largest exponent
seen, input flushes, whether one breaks the anchor (R96). -/
structure Tile where
  off : Nat
  vals : List Int
  sps : List Special
  maxExp : Int
  flushes : Nat
  breach : Bool
  deriving DecidableEq, Repr

/-- The elements of a CONTRIB frame (R70, R72, R75, R77, R96). -/
def contribTile (b : PlanBucket) (x : RedExt) (payload : List Byte) : Tile :=
  let a := x.anchor.toInt
  let off := x.elemOffset.toNat
  let n := min (b.fmt.capacity payload.length) (b.elems - off)
  let es := (decodePayload b.fmt payload n).map (flushIn b.ftzIn)
  let seen := maxExpOf (es.map (·.1))
  { off := off, vals := es.map fun e => elemWindow a b.frac e.1, sps := es.map fun e => elemSpecial e.1,
    maxExp := seen, flushes := (es.filter (·.2)).length,
    breach := decide (a ≤ x.maxExp.toInt) || decide (a ≤ seen) }

/-- The elements of a PARTIAL frame: a compact exact partial (R94, R95), rounded elements in FAST mode (R124), or block
records of a compressed partial (R171, R177); none where it is malformed. -/
def partialTile (b : PlanBucket) (compressed : Bool) (x : RedExt) (payload : List Byte) : Option Tile :=
  let a := x.anchor.toInt
  let off := x.elemOffset.toNat
  let mk (vs : List Int) (sps : List Special) : Tile :=
    { off := off, vals := vs, sps := sps, maxExp := x.maxExp.toInt, flushes := 0, breach := false }
  if compressed || b.fast then
    let f := if compressed then Fmt.sign1 else b.out
    let n := min (f.capacity payload.length) (b.elems - off)
    let es := decodePayload f payload n
    some (mk (es.map (elemWindow a b.frac)) (es.map elemSpecial))
  else
    match parseCompact b.pieces (ceilDiv (b.elems - off) 32) payload with
    | none => none
    | some (vs, sps) => some (mk (vs.take (b.elems - off)) (sps.take (b.elems - off)))

/-- Add a tile to the accumulator and the special states; the first fold of a generation ignores what was there
(R72, R79, R114). -/
def Ctx.addTile (c : Ctx) (off : Nat) (vals : List Int) (sps : List Special) : Ctx :=
  let acc := if c.acc.isEmpty then List.replicate c.elems (List.replicate c.pieces 0) else c.acc
  let old := if c.acc.isEmpty then List.replicate c.elems Special.none else c.sps
  { c with
    acc := acc.zipIdx.map fun e =>
      match (if off ≤ e.2 then vals[e.2 - off]? else none) with
      | some v => addPieces e.1 (piecesOf c.pieces v) false
      | none => e.1
    sps := old.zipIdx.map fun e =>
      match (if off ≤ e.2 then sps[e.2 - off]? else none) with
      | some p => e.1.join p
      | none => e.1 }

/-- The lane whose residue check a tile's additions would fail, where one does (R81). Element i is added in lane i mod 128
(DESIGN CHOICE, log entry 84). -/
def Ctx.residueMiss (c : Ctx) (off : Nat) (vals : List Int) : Option (BitVec 7) :=
  let acc := if c.acc.isEmpty then List.replicate c.elems (List.replicate c.pieces 0) else c.acc
  (acc.zipIdx.find? fun e =>
    match (if off ≤ e.2 then vals[e.2 - off]? else none) with
    | some v => !piecesOk e.1 (piecesOf c.pieces v) false
    | none => false).map fun e => BitVec.ofNat 7 e.2

/-- The exact window sums S (R79). -/
def Ctx.sums (c : Ctx) : List Int :=
  if c.acc.isEmpty then List.replicate c.elems 0 else c.acc.map piecesInt

/-- The special states. -/
def Ctx.specials (c : Ctx) : List Special := if c.sps.isEmpty then List.replicate c.elems .none else c.sps

/-- The check of a chunk's window integers (R83, R84). -/
def PlanBucket.check (b : PlanBucket) (step : BitVec 32) (chunk : BitVec 22) (vs : List Int) : Nat :=
  checkSum b.checkSeed step chunk vs

/-- Do frames 0 to n − 1 stand in a mask? -/
def maskFull (mask : BitVec 16) (n : Nat) : Bool := decide (mask.toNat % 2 ^ n = 2 ^ n - 1)

/-! ## Tally (R246) -/

/-- A quantised value: V shifted down by `k` bits with floor, clamped to 32 bits; (z, clamped?). -/
def tallyZ (k v : Int) : Int × Bool :=
  let z := if 0 ≤ k then v / ((2 ^ k.toNat : Nat) : Int) else v * ((2 ^ (-k).toNat : Nat) : Int)
  let m : Int := max (-((2 ^ 31 : Nat) : Int)) (min ((2 ^ 31 - 1 : Nat) : Int) z)
  (m, m != z)

/-- Σ z² and the clamps over a list. -/
def tallySum (k : Int) (vs : List Int) : Nat × Nat :=
  let zs := vs.map (tallyZ k)
  (sumN (zs.map fun z => (z.1 * z.1).toNat), (zs.filter (·.2)).length)

/-- The shift of a member element (R246). -/
def PlanBucket.tallyShift (b : PlanBucket) (a : Int) : Int := b.frac - a - 31 + b.tallyExp

/-! ## The result (R85 to R92, R127, R143) -/

/-- A result ready for the spire. -/
structure Built where
  frames : List (Nat × List Byte)
  flushes : Nat
  check : Nat
  tally : Nat × Nat
  deriving DecidableEq, Repr

/-- The elements that encoded units hold. -/
def unitElems (f : Fmt) (units : List (List Byte)) (n : Nat) : List Elem :=
  if f.isBlock then ((units.map (decodeBlock f)).flatten).take n else units.map fun u => decodeScalar f (ofLe u)

/-- Elements of a payload read back as window integers (R143). An infinity released into an INT8 or INT32 output counts at the
integer it is encoded as: what is read back is the encoding, which holds no special (DESIGN CHOICE, log entry 85). -/
def readBack (f : Fmt) (a : Int) (frac : Nat) (units : List (List Byte)) (n : Nat) : List Int :=
  (unitElems f units n).map (elemWindow a frac)

/-- Group units into frames and give each its element offset. -/
def framesOf (f : Fmt) (units : List (List Byte)) : List (Nat × List Byte) :=
  (packFrames units).map fun x => (if f.isBlock then 32 * x.1 else x.1, x.2)

/-- Scale, round and encode a chunk's sums, with its result check and tally (R85, R87 to R92, R143, R246). -/
def Ctx.build (c : Ctx) (b : PlanBucket) (n : Nat) : Built :=
  let (m, sh) := scaleOf b.scaleMode n b.scaleMant b.scaleShift
  let es := (c.sums.zip c.specials).zipIdx.map fun e => (⟨scaleValue e.1.1 m sh, e.1.2, e.2⟩ : OutElem)
  let (units, fl) := encodeResult b.out b.ftzOut b.stoch (stochWord b.roundSeed c.step c.chunk) c.anchor b.frac es
  let back := readBack b.out c.anchor b.frac units c.elems
  let k : Int := b.tallyShift c.anchor + (ceilLog2 n : Nat)
  -- a special element, one released as a special, and one flushed on output count as zero
  let dead := (c.specials.zip (unitElems b.out units c.elems)).map fun x => x.1 != .none || elemSpecial x.2 != .none
  let vs := (c.sums.zip (dead.zip fl)).map fun x => if x.2.1 || x.2.2 then 0 else x.1
  { frames := framesOf b.out units, flushes := (fl.filter id).length, check := b.check c.step c.chunk back,
    tally := if b.tally then tallySum k vs else (0, 0) }

/-! ## The forwarded partial (R122, R124, R171) -/

/-- A partial ready to be sent up: (ELEM_OFFSET, payload) of each frame, its SUM_CHECK. -/
structure Forwarded where
  frames : List (Nat × List Byte)
  check : Nat
  fast : Bool
  deriving DecidableEq, Repr

/-- The exact partial (R122). -/
def Ctx.exactPartial (c : Ctx) : Forwarded :=
  let blocks := ((chunksOf 32 (ceilDiv c.elems 32) (c.sums.zip c.specials)).map fun blk =>
    compactBlock c.pieces (blk.map (·.1)) (blk.map (·.2)))
  { frames := (packFrames blocks).map fun x => (32 * x.1, x.2), check := c.runCheck, fast := false }

/-- The rounded partial of FAST mode (R124): unscaled, nearest even, no flushing. -/
def Ctx.fastPartial (c : Ctx) (b : PlanBucket) : Forwarded :=
  let es := (c.sums.zip c.specials).zipIdx.map fun e => (⟨e.1.1, e.1.2, e.2⟩ : OutElem)
  let (units, _) := encodeResult b.out false false (fun _ => 0) c.anchor b.frac es
  { frames := framesOf b.out units, check := b.check c.step c.chunk (readBack b.out c.anchor b.frac units c.elems),
    fast := true }

/-! ## Compression with error feedback (R173 to R176) -/

/-- Is q × 2^t above q' × 2^t'? -/
def powGt (q : Nat) (t : Int) (q' : Nat) (t' : Int) : Bool :=
  let g := min t t'
  decide (q' * 2 ^ (t' - g).toNat < q * 2 ^ (t - g).toNat)

/-- smax(m1, A): the largest BF16 value at most m1 × 2^A (R173). -/
def smax (m1 : Nat) (a : Int) : Nat × Int :=
  let l := bitlen m1
  let t : Int := max (a + ((l - 8 : Nat) : Int)) (-133)
  let k := t - a
  let q := if 0 ≤ k then m1 / 2 ^ k.toNat else m1 * 2 ^ (-k).toNat
  if powGt q t 255 120 then (255, 120) else (q, t)

/-- One compressed block: sign bits, scale encoding, new residual encodings, clamps, saturations, whether it was sent as
NaN (R173 to R175). -/
structure CBlock where
  signs : Nat
  scale : Nat
  res : List Nat
  clamp : Nat
  sats : Nat
  nan : Nat
  deriving DecidableEq, Repr

/-- compress_block of R173 over the elements of a block below CHUNK_ELEMS; `e` their committed residuals. -/
def compressBlock (a : Int) (frac : Nat) (m1 : Nat) (fp32 : Bool) (ss : List Int) (sps : List Special) (e : List Nat) : CBlock :=
  let rp := floatParams (if fp32 then .fp32 else .bf16)
  if sps.any (· != .none) then { signs := 0, scale := 0x7FC0, res := e, clamp := 0, sats := 0, nan := 1 }
  else
    let ys := (ss.zip e).map fun x => x.1 + elemWindow a frac (decodeFloat rp x.2)
    let tot : Int := ((sumN (ys.map Int.natAbs) : Nat) : Int)
    let bf := floatParams .bf16
    let s := roundOut tot (a - 5 - frac) (some (bf.m, bf.emin)) false 0
    let lim := smax m1 a
    let big := powGt s.q s.t lim.1 lim.2
    let qs := if big then lim.1 else s.q
    let ts := if big then lim.2 else s.t
    let zero := qs == 0
    let signs := if zero then 0 else packLow 1 (ys.map fun y => b2n (decide (y < 0)))
    let one (y : Int) : Nat × Bool :=
      let g := min (a - frac) ts
      let m : Int := ((qs * 2 ^ (ts - g).toNat : Nat) : Int)
      let d := y * ((2 ^ (a - frac - g).toNat : Nat) : Int) - (if decide (y < 0) && !zero then -m else m)
      let r := roundOut d g (some (rp.m, rp.emin)) false 0
      let v := encodeFloat rp true r
      (v, v != encodeFloat rp false r)
    let rs := ys.map one
    let norm := roundOut (qs : Nat) ts (some (bf.m, bf.emin)) false 0
    { signs := signs, scale := encodeFloat bf true norm, res := rs.map (·.1), clamp := b2n big,
      sats := (rs.filter (·.2)).length, nan := 0 }

/-- The 8-byte record of a block (R69, R171). -/
def CBlock.record (k : CBlock) : List Byte := leBytes 4 k.signs ++ leBytes 2 k.scale ++ zeros 2

/-- The residuals of a chunk in a region: the committed bank, or the staging bank (R179, R180). -/
def ErrRegion.bank (r : ErrRegion) (b : Bool) : List (Nat × BitVec 32) := if b then r.bank1 else r.bank0

/-- Committed residuals of elements i .. i + n − 1 of chunk c of the bucket. -/
def ErrRegion.committed (r : ErrRegion) (c i n : Nat) : List Nat :=
  (sgetRun 0 (c * r.elems + i) n (r.bank (r.sel.contains c))).map BitVec.toNat

/-- Write the staging bank of chunk c and set STAGED, for a step (R180). -/
def ErrRegion.stage (r : ErrRegion) (c : Nat) (step : BitVec 32) (vs : List Nat) : ErrRegion :=
  let w (m : List (Nat × BitVec 32)) := ssetRun 0 (c * r.elems) (vs.map (BitVec.ofNat 32)) m
  let r := if r.sel.contains c then { r with bank0 := w r.bank0 } else { r with bank1 := w r.bank1 }
  { r with staged := r.staged.filter (fun x => x.1 != c) ++ [(c, step)] }

/-! ### The bytes of a region in LPDDR (R179) -/

/-- w: bytes of a residual (R170). -/
def ErrRegion.width (r : ErrRegion) : Nat := if r.fp32 then 4 else 2

/-- BANK_BYTES. -/
def ErrRegion.bankBytes (r : ErrRegion) : Nat := roundUp (r.k * r.elems * r.width) 64

/-- B0, the region offset of bank 0. -/
def ErrRegion.bankAt (r : ErrRegion) : Nat := 64 + ceilDiv r.k 64 * 64

/-- Bytes of a region. -/
def ErrRegion.bytes (r : ErrRegion) : Nat := r.bankAt + 2 * r.bankBytes

/-- The header line. -/
def ErrRegion.header (r : ErrRegion) (job : BitVec 12) (gen : BitVec 4) : List Byte :=
  leBytes 2 (jobGen job gen) ++ leBytes 2 r.bucket ++ leBytes 1 (b2n r.fp32) ++ zeros 3 ++ leBytes 4 r.k ++ leBytes 2 r.elems
    ++ zeros 2 ++ leBytes 4 r.lastCommitted.toNat ++ zeros 44

/-- The control byte of a chunk: SEL and STAGED. -/
def ErrRegion.control (r : ErrRegion) (c : Nat) : Nat := b2n (r.sel.contains c) + 2 * b2n (r.staged.any fun x => x.1 == c)

/-- The places of a region whose bytes a change moves: (region offset, bytes), each within one 64-byte line. -/
def ErrRegion.changes (old new : ErrRegion) (job : BitVec 12) (gen : BitVec 4) : List (Nat × List Byte) :=
  let ctl := ((List.range new.k).filter fun c => old.control c != new.control c).map fun c =>
    (64 + c, leBytes 1 (new.control c))
  let bank (b : Bool) : List (Nat × List Byte) :=
    ((((old.bank b) ++ (new.bank b)).map (·.1)).dedup.filter fun e => sget e (old.bank b) != sget e (new.bank b)).map fun e =>
      (new.bankAt + b2n b * new.bankBytes + e * new.width, leBytes new.width ((sget e (new.bank b)).getD 0).toNat)
  (if old.header job gen = new.header job gen then [] else [(0, new.header job gen)]) ++ ctl ++ bank false ++ bank true

/-- The regions of a job lie in its space in the order of their buckets (DESIGN CHOICE, log entry 86). -/
def errOffset (rs : List ErrRegion) (bucket : Nat) : Nat := sumN ((rs.takeWhile fun r => r.bucket != bucket).map (·.bytes))

/-- The region that all zeros spell, with the places of another. -/
def ErrRegion.blank (r : ErrRegion) : ErrRegion :=
  { r with bucket := 0, fp32 := false, lastCommitted := 0, sel := [], staged := [], bank0 := [], bank1 := [] }

/-- Bring a job's error memory in LPDDR to its regions from what they were (R179 to R181). -/
def State.syncErrs (s : State) (job : BitVec 12) (old : List ErrRegion) : State :=
  match s.job? job with
  | none => s
  | some j => j.errs.foldl (fun s r =>
      let o := (old.find? fun x => x.bucket == r.bucket).getD r.blank
      (o.changes r job j.cur.plan.gen).foldl (fun s x =>
        s.writePart 5 j.regions (errOffset j.errs r.bucket + x.1) x.2) s) s

/-- Change a job, and its error memory in LPDDR with it. -/
def State.mapErrs (s : State) (job : BitVec 12) (g : Job → Job) : State :=
  match s.job? job with
  | none => s
  | some j => (s.mapJob job g).syncErrs job j.errs

/-- The error memory of a layout generation as it starts: the space zeroed, the headers written (R188, R430). -/
def State.startErrs (s : State) (job : BitVec 12) : State :=
  match s.job? job with
  | none => s
  | some j => ((j.regions.filter (·.part == 5)).foldl (fun s r => s.zeroMem r.base r.bytes) s).syncErrs job []

/-- The compressed partial of a chunk and its new residuals (R171, R173, R176). -/
def Ctx.compressed (c : Ctx) (b : PlanBucket) (r : ErrRegion) : List CBlock × Forwarded :=
  let ci := c.chunk.toNat - b.first
  let blks := (chunksOf 32 (ceilDiv c.elems 32) (c.sums.zip c.specials)).zipIdx.map fun x =>
    compressBlock c.anchor b.frac c.contributions r.fp32 (x.1.map (·.1)) (x.1.map (·.2))
      (r.committed ci (32 * x.2) x.1.length)
  let units := blks.map CBlock.record
  (blks, { frames := framesOf .sign1 units,
           check := b.check c.step c.chunk (readBack .sign1 c.anchor b.frac units c.elems), fast := true })

/-! ## Frames of a chunk (R37, R38) -/

/-- The reduction extension of a context's frames. -/
def Ctx.ext (c : Ctx) (tier : Nat) : RedExt :=
  { zeroRed with step := c.step, chunkId := c.chunk, format := BitVec.ofNat 5 c.fmt.code,
                 anchor := BitVec.ofInt 16 c.anchor, generation := BitVec.ofNat 8 c.generation,
                 tier := BitVec.ofNat 3 tier }

/-- A frame of the reduction class that the switch sends (R28, R36). -/
def redFrame (ftype : BitVec 4) (vc : BitVec 3) (job : BitVec 12) (gen : BitVec 4) (dest : BitVec 24)
    (remote : BitVec 64) (x : RedExt) (payload : List Byte) : Frame :=
  { h := { zeroHdr with ftype := ftype, vc := vc, dest := dest, src := fabricAddr false, jobId := job,
                        layoutGen := gen, remoteAddr := remote, payloadLen := BitVec.ofNat 13 payload.length,
                        msgLen := BitVec.ofNat 32 payload.length }
    ext := .red x, payload := payload, t := zeroTrailer }

/-- A control frame without payload. -/
def ctlFrame (c : BitVec 4) (job : BitVec 12) (gen : BitVec 4) (dest : BitVec 24) (x : RedExt) : Frame :=
  redFrame 4 5 job gen dest 0 { x with code := c } []

/-- The frames of a PARTIAL (R122, R171). FAST goes up with a sum that holds a compressed or rounded partial, so that the
RESULT can carry it (R172). -/
def Ctx.partialFrames (c : Ctx) (tier : Nat) (w : Forwarded) : List Frame :=
  let n := w.frames.length
  w.frames.zipIdx.map fun e =>
    redFrame 3 4 c.job c.layoutGen (fabricAddr false) 0
      { c.ext tier with
        frameIdx := BitVec.ofNat 4 e.2, frameCnt := BitVec.ofNat 4 (n - 1)
        pieces := if w.fast then 0 else BitVec.ofNat 2 (c.pieces - 1)
        memberRank := BitVec.ofNat 18 (c.contributions - 1), fast := w.fast || c.fastIn, flushed := c.flushed
        maxExp := BitVec.ofInt 16 c.maxExp, chunkElems := BitVec.ofNat 13 c.elems
        elemOffset := BitVec.ofNat 12 e.1.1, sumCheck := BitVec.ofNat 64 w.check } e.1.2

/-- The rescale request of a lower tier (R99). -/
def Ctx.requestFrame (c : Ctx) (tier : Nat) (exact : Bool) (e : Int) : Frame :=
  redFrame 3 4 c.job c.layoutGen (fabricAddr false) 0
    { c.ext tier with maxExp := BitVec.ofInt 16 e, chunkElems := BitVec.ofNat 13 c.elems,
                      pieces := if exact then BitVec.ofNat 2 (c.pieces - 1) else 0 } (zeros 8)

/-- The frames of a RESULT; `remote` gives REMOTE_ADDR from the sum of earlier PAYLOAD_LENs (R38, R197). -/
def resultFrames (job : BitVec 12) (gen : BitVec 4) (dest : BitVec 24) (x : RedExt) (frames : List (Nat × List Byte))
    (remote : Nat → BitVec 64) : List Frame :=
  let n := frames.length
  frames.zipIdx.map fun e =>
    redFrame 4 5 job gen dest (remote (sumN ((frames.take e.2).map (·.2.length))))
      { x with code := codeResult, frameIdx := BitVec.ofNat 4 e.2, frameCnt := BitVec.ofNat 4 (n - 1)
               elemOffset := BitVec.ofNat 12 e.1.1 } e.1.2

/-- REMOTE_ADDR of a member's RESULT: RESULT_BASE + j × RESULT_STRIDE + b (R197). -/
def resultAddr (b : PlanBucket) (g : PlanGroup) (chunk rank : Nat) (off : Nat) : BitVec 64 :=
  let r := (g.ranks.findIdx? (· == rank)).getD 0
  let c := chunk - b.first
  let j := if b.scatter then c - firstOwned b.k g.ranks.length r else c
  BitVec.ofNat 64 (nth b.bases r 0 + j * b.stride + off)

end Sys2Proof.Machine
end

