-- ==== Sys2Proof/Machine/Contexts.lean ====
section
/-! DEFINITION. The transitions of reduction contexts and of steps (spec/04_reduction_contexts.md R110 to R137,
05_result_checking.md R140 to R166, 03_reduction_arithmetic.md R96 to R100, 06_compression.md R180 to R188). -/
namespace Sys2Proof.Machine

open Sys2Proof

/-! ## Who is below, and sending down -/

/-- The slots of a job below this switch in the current bank: its direct members that are not fenced, and the child
switches it can reach. -/
def State.downSlots (s : State) (l : Layout) : List SlotId :=
  match l.me with
  | none => []
  | some w =>
    let k := s.curBank
    let members := (List.range l.plan.members.length).filter fun r =>
      (match l.plan.leafSw r with | some x => x.index == l.self | none => false) && !k.fenced l.plan.job r
    let kids := (l.plan.switches.filter fun x =>
      x.tier + 1 == w.tier && l.plan.above w x.place && !s.childCut k l x.index).map (·.index)
    members.map .member ++ kids.map .child

/-- The slots, in the current bank, of the groups this switch releases. -/
def State.ownSlots (s : State) (l : Layout) : List SlotId :=
  ((l.plan.groups.filter l.releases).map fun g =>
    (s.slotsIn s.curBank l g).filter (s.curBank.slotLive l.plan.job)).flatten.dedup

/-- Send one control message to slots (R36, R203): `mk` makes the frame for a DEST. -/
def State.sendSlots (s : State) (l : Layout) (xs : List SlotId) (mk : BitVec 24 → Frame) (why : SlotId → Purpose) : State :=
  s.sendMany (some l.plan.job) (xs.map fun x =>
    let t := l.toSlot x
    (t.1, [mk t.2], x.rank?, why x))

/-- The hop to the group parent (R36). Without one the frames are discarded and counted as with a parent that has no usable
port, of which R125 speaks (DEDUCED, log entry 83). -/
def State.upHop (s : State) (l : Layout) (g : PlanGroup) : Hop :=
  match s.parentIn s.curBank l g with | some t => .toSwitch t.flat | none => .nowhere

/-- Send one message up to the group parent (R36). -/
def State.sendUp (s : State) (l : Layout) (g : PlanGroup) (fs : List Frame) (why : Purpose) : State :=
  s.send (s.upHop l g) fs (some l.plan.job) none why

/-- This switch's tier in a plan. -/
def Layout.tier (l : Layout) : Nat := (l.me.map (·.tier)).getD 0

/-- The plan's bucket of a context. -/
def Layout.bucketOf (l : Layout) (c : Ctx) : Option (PlanBucket × PlanGroup) :=
  match l.plan.bucketAt c.chunk.toNat with
  | none => none
  | some b => (l.plan.group? b.group).map fun g => (b, g)

/-- The layout a context belongs to. -/
def State.layoutOf (s : State) (c : Ctx) : Option (Job × Layout) :=
  match s.job? c.job with
  | none => none
  | some j => (j.layout c.layoutGen).map fun l => (j, l)

/-- Does this switch compress a bucket: COMPRESS, and thin up-links toward the releasing tier (R168, R169)? -/
def State.compresses (s : State) (l : Layout) (b : PlanBucket) (g : PlanGroup) : Bool :=
  b.compress && !l.releases g
    && match s.parentIn s.curBank l g with
       | some t => (s.upToward s.curBank t.flat).any s.isThin
       | none => false

/-! ## The contexts of a step -/

/-- The descriptors and contexts of a step of a job. -/
def State.stepCtxs (s : State) (job : BitVec 12) (step : BitVec 32) : List (Nat × Ctx) :=
  s.ctxs.filter fun x => x.2.job == job && x.2.step == step

/-- Forget the partials of a descriptor that go up: their granules have been returned. -/
def State.dropPartials (s : State) (d : Nat) : State :=
  s.dropOuts fun o => match o.purpose with | .partialUp e _ => d == e | _ => false

/-- Forget the RESCALEs of a descriptor: none goes out below the latest SUPERSEDE (R44). -/
def State.dropRescales (s : State) (d : Nat) : State :=
  s.dropOuts fun o => match o.purpose with | .control e => d == e | _ => false

/-- Is a message a RESULT or a SUPERSEDE of a step (R46)? -/
def OutMsg.resultOf (o : OutMsg) (job : BitVec 12) (step : BitVec 32) : Bool :=
  o.job == some job
    && (match o.purpose with | .result _ _ _ | .supersede _ => true | _ => false)
    && (match o.frames.head? with | some f => (redOf f).step == step | none => false)

/-- Is a RESULT or SUPERSEDE message of a step not yet acknowledged (R46)? -/
def State.resultsOwed (s : State) (job : BitVec 12) (step : BitVec 32) : Bool :=
  s.outs.any fun o => o.resultOf job step

/-! ## Amax rings and anchor proposals (R133 to R136) -/

/-- The ring entry of a step: the largest MAX_EXP of the bucket's released chunks (R133). -/
def ringEntry (cs : List (Nat × Ctx)) (b : PlanBucket) : Int :=
  maxI noExp ((cs.filter fun x => x.2.bucket == b.id && x.2.state == .final).filterMap fun x =>
    x.2.result.map (·.maxExp))

/-- The proposal for a bucket after step `last` has ended: (ANCHOR, SOURCE_MAX) (R134). -/
def proposalOf (b : PlanBucket) (ring : List (BitVec 32 × Int)) (last : BitVec 32) : Int × Int :=
  let used := (ring.filter fun e => decide ((last - e.1).toNat < b.anchorWindow)).map (·.2)
  let top := maxI noExp used
  if b.fmt.isInt then (77, top)
  else if top = noExp then (b.initialAnchor, noExp)
  else (min 32767 (max (-32767) (1 + b.anchorMargin + top)), top)

/-- The ANCHOR_PROPOSAL payload (R136). -/
def proposalBytes (step : BitVec 32) (bucket : Nat) (p : Int × Int) : List Byte :=
  leBytes 2 0x40 ++ zeros 2 ++ leBytes 4 step.toNat ++ leBytes 2 bucket ++ leSigned 2 p.1 ++ leSigned 2 p.2 ++ zeros 2

/-- Send a bucket's proposal to every surviving member of its group (R135). -/
def State.sendProposal (s : State) (l : Layout) (b : PlanBucket) (g : PlanGroup) (step : BitVec 32) (p : Int × Int) : State :=
  s.sendMany (some l.plan.job) ((s.curBank.survivors l.plan.job g).map fun r =>
    (.routed, [mgmtFrame false (l.plan.coordOf r) (fabricAddr false) l.plan.job l.plan.gen (proposalBytes step b.id p)],
     some r, .proposal step r))

/-- Is a FOR_STEP proposal still awaited (R129)? -/
def State.proposalsAwaited (s : State) (job : BitVec 12) (step : BitVec 32) : Bool :=
  s.outs.any fun o => o.job == some job && !o.failed
    && (match o.purpose with | .proposal t r => t == step && !s.curBank.fenced job r | _ => false)

/-! ## Checks upward, supersession -/

/-- The frame of a lower tier's CHECK_FAIL (R36, R126). -/
def checkFailFrame (job : BitVec 12) (gen : BitVec 4) (step : BitVec 32) (chunk : BitVec 22) (generation cause : Nat) : Frame :=
  { h := { zeroHdr with ftype := 5, vc := 2, dest := fabricAddr false, src := fabricAddr false, jobId := job, layoutGen := gen }
    ext := .nack { zeroNack with code := nackCheckFail, checkCause := BitVec.ofNat 8 cause, step := step, chunkId := chunk,
                                 generation := BitVec.ofNat 8 generation }
    payload := [], t := zeroTrailer }

/-- A lower tier's CHECK_FAIL to its parent, once per generation (R126). -/
def State.checkFailUp (s : State) (d : Nat) (cause : Nat) : State :=
  match s.ctx? d with
  | none => s
  | some c =>
    match s.layoutOf c with
    | none => s
    | some (_, l) =>
      match l.bucketOf c with
      | none => s
      | some (_, g) =>
        if c.checkFailSent then s
        else
          let s := s.setCtx d { c with checkFailSent := true }
          s.emit (s.upHop l g) (checkFailFrame c.job c.layoutGen c.step c.chunk c.generation cause) none

/-- STAGED of a chunk that a step compressed is cleared (R181). -/
def Job.unstage (j : Job) (bucket c : Nat) (step : BitVec 32) : Job :=
  { j with errs := j.errs.map fun r =>
      if r.bucket = bucket then { r with staged := r.staged.filter (· != (c, step)) } else r }

/-- Supersede to g (R119): clear the chunk, drop the slots fenced in the newest bank, tell everyone below, go to OPEN.
`up` is the parent's SUPERSEDE that a lower tier forwards; the releasing tier sets the surviving membership itself
(R38, R151). -/
def State.supersedeTo (s : State) (d g : Nat) (up : Option RedExt) : State :=
  match s.ctx? d with
  | none => s
  | some c =>
    match s.layoutOf c with
    | none => s
    | some (_, l) =>
      match l.bucketOf c with
      | none => s
      | some (b, grp) =>
        let (bank, num) := s.newest
        let slots := c.slots.map fun x =>
          match x.who with
          | .member r => if x.live && bank.fenced c.job r then { x with live := false } else x
          | .child _ => x
        let lowered := expectOf slots < expectOf c.slots
        let c1 := { ({ c with slots := slots }).cleared with
          state := .openS, generation := g, held := false, expect := expectOf slots,
          reduced := c.reduced || lowered, waitStart := s.waitStart, waitNs := s.ns, stragglerSent := false,
          checkFailSent := false, withdrawing := false,
          fenceEpoch := if l.releases grp then num.setWidth 8 else c.fenceEpoch }
        let s := ((s.setCtx d c1).dropPartials d).dropRescales d
        let s := s.mapErrs c.job fun j => j.unstage b.id (c.chunk.toNat - b.first) c.step
        let alive := (bank.survivors c.job grp).length
        let x := { c1.ext 0 with
          anchor := BitVec.ofInt 16 c.anchor,
          memberRank := (up.map (·.memberRank)).getD (BitVec.ofNat 18 (alive - 1)),
          membershipReduced := (up.map (·.membershipReduced)).getD (decide (alive < grp.ranks.length)) }
        s.sendSlots l ((slots.filter (·.live)).map (·.who))
          (fun dest => ctlFrame codeSupersede c.job c.layoutGen dest x) (fun _ => .supersede d)

/-! ## Steps ending -/

/-- A step that committed at the step root or a switch: its ledger entries join the arrays kept (R165). -/
def Job.keepEntries (j : Job) (step : BitVec 32) : Job :=
  let xs := (j.step step).entries
  if xs.isEmpty then j
  else { j with entryArrays := ((⟨step, xs⟩ : EntryArray) :: j.entryArrays).take j.cur.plan.entryDepth }

/-- The rings of a job with a step's entries added, 16 kept (R133). -/
def Job.addRing (j : Job) (bucket : Nat) (step : BitVec 32) (e : Int) : Job :=
  let old := (j.rings.find? fun r => r.bucket == bucket).getD ⟨bucket, [], []⟩
  let new := { old with ring := ((step, e) :: old.ring).take 16 }
  { j with rings := j.rings.filter (fun r => r.bucket != bucket) ++ [new] }

/-- A bucket's tally of a step from the contexts that this switch retires (R246, R247). -/
def tallyOf (releasing : Bool) (cs : List (Nat × Ctx)) (b : PlanBucket) : TallyStep :=
  let mine := cs.filter fun x => x.2.bucket == b.id && x.2.state == .final
  let rs := mine.filterMap fun x => x.2.result
  { bucket := b.id, sumIn := sumN (mine.map (·.2.tallyIn)),
    sumSum := if releasing then sumN (rs.map (·.tallySum)) else 0,
    clamped := mine.any (fun x => x.2.tallyClamped != 0) || (releasing && rs.any fun r => r.tallyClamped != 0),
    n := maxN 0 (rs.map (·.contributions)), reduced := rs.any (·.reduced), reports := [], written := false }

/-- Lower tiers that hold direct members of a group: those that owe a TALLY_REPORT (R247). -/
def Plan.tallyOwers (p : Plan) (g : PlanGroup) : List Nat :=
  ((p.switches.filter fun w => w.index != g.releaser && !(p.direct g w.index).isEmpty).map (·.index))

/-- The TALLY_REPORT payload (R247). -/
def tallyBytes (job : BitVec 12) (gen : BitVec 4) (step : BitVec 32) (t : TallyStep) : List Byte :=
  leBytes 2 0x45 ++ leBytes 2 (jobGen job gen) ++ leBytes 4 step.toNat ++ leBytes 2 t.bucket ++ leBytes 1 (b2n t.clamped)
    ++ zeros 5 ++ leBytes 16 t.sumIn ++ zeros 16

/-- A MGMT message to a switch by its flat ID (R162). -/
def State.sendMgmt (s : State) (flat : BitVec 24) (job : BitVec 12) (gen : BitVec 4) (payload : List Byte) (why : Purpose) :
    State :=
  s.send .routed [mgmtFrame true flat s.image.ownFlat job gen payload] (some job) none why

/-- The flat ID of the step root. -/
def Layout.rootFlat (l : Layout) : BitVec 24 := ((l.plan.sw? l.plan.stepRoot).map (·.flat)).getD 0

/-- An error-memory region as a load leaves it (R179, R188). -/
def ErrRegion.fresh (b : PlanBucket) : ErrRegion :=
  { bucket := b.id, fp32 := b.resFp32, k := b.k, elems := b.elems, lastCommitted := 0, sel := [], staged := [],
    bank0 := [], bank1 := [], copying := false }

/-- The error-memory regions of a layout. -/
def Layout.freshErrs (l : Layout) : List ErrRegion :=
  (l.plan.buckets.filter fun b => l.errBuckets.contains b.id).map ErrRegion.fresh

/-- Keep regions of a partition up to a total. -/
def trimRegions (part : Nat) : Nat → List MemRegion → List MemRegion
  | _, [] => []
  | need, r :: t =>
    if r.part ≠ part then r :: trimRegions part need t
    else if need = 0 then trimRegions part 0 t
    else { r with bytes := min r.bytes need } :: trimRegions part (need - r.bytes) t

/-- A layout's partition reservations kept at a cutover: what the new layout needs of what the job holds (R242). -/
def Layout.regionsKept (l : Layout) (rs : List MemRegion) : List MemRegion :=
  ⟨3, l.jrings.completion.base, l.needs.completion⟩
    :: trimRegions 5 l.needs.errCap (trimRegions 4 l.needs.ledger (rs.filter fun r => r.part != 3))

/-- Switch the job to its loaded layout once the floor has reached its first step (R188, R244): what the old generation holds
of steps from there on is gone with it. -/
def Job.cutover (j : Job) : Job :=
  match j.next with
  | none => j
  | some n =>
    if j.floor = n.plan.firstStep then
      { j with cur := n, next := none, prev := some ⟨j.cur, j.totals⟩, rings := [], totals := [], grants := [], insts := [],
               winBases := [], bells := [], fenceReqs := [], claims := [], claimReqs := [], jrings := n.jrings,
               regions := n.regionsKept j.regions, errs := n.freshErrs, silenced := false,
               steps := j.steps.filter fun x => decide (2 ^ 31 ≤ j.ahead x.step)
               aborted := j.aborted.filter fun st => decide (2 ^ 31 ≤ j.ahead st) }
    else j

/-- A landing at the capacity and rate of a layout (R242, R374). -/
def Landing.fit (x : Landing) (n : Layout) : Landing := { x with bytes := n.needs.landing, rate := n.needs.landingRate }

/-- The fences of a job end with its layout generation, and so do the claims of every generation but one it goes on with: both
banks lose them (R354, R363). -/
def State.dropFences (s : State) (job : BitVec 12) (gen : Option (BitVec 4)) : State :=
  let without (k : Bank) : Bank :=
    { k with fences := k.fences.filter fun x => x.1 != job
             claims := k.claims.filter fun x => x.1 != job || some x.2.1 == gen }
  { s with bank0 := without s.bank0, bank1 := without s.bank1 }

/-- The cutover of a job at this switch: the old generation's contexts are IDLE and its fences end, a ring region of other size takes over freshly written, the job directory
names the new generation, and landing takes the new capacity (R242, R244, R374, R538). -/
def State.cutover (s : State) (job : BitVec 12) : State :=
  match s.job? job with
  | none => s
  | some j =>
    match j.next with
    | none => s
    | some n =>
      if j.floor = n.plan.firstStep then
        let s := ((s.ctxs.filter fun x => x.2.job == job).map (·.1)).foldl State.idleCtx s
        let s := (s.mapJob job Job.cutover).dropFences job (some n.plan.gen)
        let s := s.startErrs job
        let s := if n.jrings = j.jrings then s else s.initRings n.jrings
        let s := { s with landings := s.landings.map fun (x : Landing) => if x.job = job then x.fit n else x }
        s.directory job (some (n.plan.gen, n.jrings))
      else s

/-- Residual banks at a committed step: SEL inverted where the step has STAGED a chunk, LAST_COMMITTED set (R181). -/
def ErrRegion.commit (r : ErrRegion) (step : BitVec 32) : ErrRegion :=
  let mine := (r.staged.filter fun x => x.2 == step).map (·.1)
  { r with lastCommitted := step, staged := r.staged.filter fun x => x.2 != step,
           sel := (r.sel.filter fun c => !mine.contains c) ++ (mine.filter fun c => !r.sel.contains c) }

/-- A step commits: its residual banks swap and its entries are kept (R165, R181). -/
def Job.commitErrs (j : Job) (step : BitVec 32) : Job :=
  let k := j.keepEntries step
  { k with errs := k.errs.map fun r => r.commit step }

/-- A step aborts: STAGED is cleared for the chunks that were compressed in it (R181). -/
def Job.abortErrs (j : Job) (step : BitVec 32) : Job :=
  { j with errs := j.errs.map fun r => { r with staged := r.staged.filter fun x => x.2 != step } }

/-- Contexts of ended steps that have been waiting for the floor go to IDLE (R119). -/
def State.sweepAborted (s : State) (job : BitVec 12) : State :=
  match s.job? job with
  | none => s
  | some j =>
    ((s.ctxs.filter fun x => x.2.job == job && x.2.state == .aborted && decide (2 ^ 31 ≤ j.ahead x.2.step)).map (·.1)).foldl
      State.idleCtx s

/-- Has a step committed at this switch (R155, R368)? -/
def Job.committed (j : Job) (st : BitVec 32) : Bool :=
  (j.step st).ended == some .committed
    || (decide (2 ^ 31 ≤ j.ahead st) && decide ((st - j.startStep).toNat < 2 ^ 31) && !j.aborted.contains st)

/-- How many ended steps behind the floor the switch remembers. -/
def keepSteps : Nat := 64

/-- MA of the CONTROL partition, which follows DESCRIPTOR (R429). -/
def controlBase : Nat := 128 * 2 ^ 20

/-- The copy of a bucket's amax ring and tally totals in CONTROL: sixteen times a step and its entry, newest first, then the
two totals. -/
def Job.bucketCopy (j : Job) (b : PlanBucket) : List Byte :=
  let ring := ((j.rings.find? fun r => r.bucket == b.id).map (·.ring)).getD []
  let t := (j.totals.find? fun t => t.bucket == b.id).getD ⟨b.id, 0, 0⟩
  sliceB ((ring.map fun e => leBytes 4 e.1.toNat ++ leSigned 4 e.2).flatten) 0 128 ++ leBytes 16 t.sumIn.toNat
    ++ leBytes 16 t.sumSum.toNat

/-- The copy to LPDDR at a step's end of the amax rings and tally totals of the buckets this switch releases (R25, R133, R429).
The place of a bucket's copy, 256 bytes to a device-wide bucket index, is the model's (DESIGN CHOICE, log entry 86). -/
def State.copyRings (s : State) (job : BitVec 12) (bs : List PlanBucket) : State :=
  match s.job? job with
  | none => s
  | some j => bs.foldl (fun s b =>
      match j.cur.buckets.find? fun x => x.1 == b.id with
      | some x => s.writeMem (controlBase + 256 * x.2) (j.bucketCopy b)
      | none => s) s

/-- The end of a step at this switch, the contexts already moved: rings and their copies, residual banks, floor, cutover, and
the proposals for step t = step + STEP_DEPTH + 1 (R105, R133, R135, R181, R244). -/
def State.endStep (s : State) (job : BitVec 12) (step : BitVec 32) (how : StepEnd) (cs : List (Nat × Ctx)) : State :=
  match s.job? job with
  | none => s
  | some j =>
    let l := j.cur
    let buckets := l.plan.buckets.filter fun b => match l.plan.group? b.group with | some g => l.releases g | none => false
    let j := buckets.foldl (fun j b => if b.fmt.isInt then j else
      j.addRing b.id step (if how = .committed then ringEntry cs b else noExp)) j
    let j := if how = .committed then j.commitErrs step else { j.abortErrs step with aborted := j.aborted ++ [step] }
    let j := j.mapStep step fun x => { x with ended := some how, timerOn := false }
    let j := { j with floor := j.floorAfter (j.steps.length + 1) j.floor }
    let kept := j.steps.filter fun x => decide ((j.floor - x.step).toNat ≤ keepSteps) || decide (j.ahead x.step < 2 ^ 31)
    let j := { j with steps := kept }
    let s := (s.mapErrs job fun _ => j).copyRings job buckets
    let s := if how = .committed then s.syncLedger job step else s
    let t := step + BitVec.ofNat 32 (l.plan.depth + 1)
    let s := buckets.foldl (fun s b =>
      match l.plan.group? b.group with
      | none => s
      | some g =>
        let ring := ((j.rings.find? fun r => r.bucket == b.id).map (·.ring)).getD []
        let s := s.sendProposal l b g t (proposalOf b ring step)
        s.mapJob job fun j => { j with rings := j.rings.map fun r =>
          if r.bucket = b.id then { r with proposals := (t, (proposalOf b ring step).1) :: r.proposals.take 31 } else r }) s
    (s.cutover job).sweepAborted job

/-- The STEP_REPORT payload (R162). -/
def reportBytes (job : BitVec 12) (gen : BitVec 4) (step : BitVec 32) (idx : Nat) (r : ReportIn) (abort : Option Nat) :
    List Byte :=
  leBytes 2 0x41 ++ leBytes 2 (jobGen job gen) ++ leBytes 4 step.toNat ++ leBytes 2 idx ++ leBytes 1 r.flags
    ++ leBytes 1 (b2n abort.isSome) ++ leBytes 4 r.chunksHere ++ leBytes 2 (abort.getD 0) ++ leBytes 1 r.maxGen ++ zeros 5
    ++ sliceB r.digest 0 64 ++ zeros 8

/-- The chunks this switch releases in one step. -/
def Layout.chunksHere (l : Layout) : List Nat :=
  ((l.plan.buckets.filter fun b => match l.plan.group? b.group with | some g => l.releases g | none => false).map
    fun b => (List.range b.k).map (b.first + ·)).flatten

/-- A STEP_ABORT frame (R38, R132, R153). -/
def abortFrame (l : Layout) (step : BitVec 32) (reason : Nat) (cause : Option (Nat × Nat)) (dest : BitVec 24) : Frame :=
  ctlFrame codeAbort l.plan.job l.plan.gen dest
    { zeroRed with step := step, chunkId := BitVec.ofNat 22 ((cause.map (·.1)).getD 0), noChunk := cause.isNone,
                   anchor := BitVec.ofNat 16 reason, generation := BitVec.ofNat 8 ((cause.map (·.2)).getD 0) }

/-- Bitwise or of a list. -/
def orAll (xs : List Nat) : Nat := xs.foldl (fun a b => a ||| b) 0

/-- Why a step aborts here: what is sent to whom (R153, R240). -/
inductive AbortFrom where
  | own        -- this switch's decision as a releasing switch or as step root
  | report     -- the step root acts on another switch's abort report
  | received   -- a STEP_ABORT came down
  | unload
  deriving DecidableEq, Repr

/-- Abort a step at this switch (R119, R132, R153): contexts to ABORTED, STEP_ABORT down, the abort record, the report
to the step root, and the end of the step. At an unload the step has ended too, so that neither a commit nor a second abort
follows (R45, R132), but the floor stays (R240). -/
def State.abortStep (s : State) (job : BitVec 12) (step : BitVec 32) (reason : Nat) (cause : Option (Nat × Nat))
    (src : AbortFrom) : State :=
  match s.job? job with
  | none => s
  | some j =>
    if j.stepEnded step then s
    else
      let l := j.cur
      let cs := s.stepCtxs job step
      let s := cs.foldl (fun s x =>
        (s.setCtx x.1 { x.2.cleared.freed with state := .aborted, withdrawing := false }).dropPartials x.1) s
      let own := s.ownSlots l
      let down := s.downSlots l
      let send (s : State) (xs : List SlotId) (c : Option (Nat × Nat)) : State :=
        s.sendSlots l xs (abortFrame l step reason c) (fun _ => .plain)
      let s :=
        match src with
        | .received => send s down cause
        | .unload => send s (down.filter fun x => x.rank?.isSome) none
        | .report => send s down none
        | .own =>
          if l.isRoot then send (send s own cause) (down.filter fun x => !own.contains x) none else send s own cause
      let releasing := !(l.plan.groups.filter l.releases).isEmpty
      let s := if releasing then s.abortRecord j step reason cause else s
      let s :=
        if src = .own && releasing && !l.isRoot then
          s.sendMgmt l.rootFlat job l.plan.gen
            (reportBytes job l.plan.gen step (l.plan.releaserIndex l.self)
              { releaser := l.self, flags := orAll ((j.step step).entries.map (·.flags)), chunksHere := l.chunksHere.length, maxGen := 0, digest := [] } (some reason))
            (.stepReport step)
        else s
      let s := s.mapJob job fun j => j.mapStep step fun x => { x with entries := [], reports := [] }
      if src = .unload then
        s.mapErrs job fun j =>
          ({ j.abortErrs step with aborted := j.aborted ++ [step] }).mapStep step fun x =>
            { x with ended := some .aborted, timerOn := false }
      else s.endStep job step .aborted cs

/-- Supersede a chunk by this releasing switch's own decision: after a withdrawal where the step has been reported (R152),
and never to generation 256 (R42, R149). -/
def State.supersedeOwn (s : State) (d : Nat) : State :=
  match s.ctx? d with
  | none => s
  | some c =>
    match s.layoutOf c with
    | none => s
    | some (j, l) =>
      let st := j.step c.step
      if j.stepEnded c.step then s
      else if c.generation + 1 = 256 then s.abortStep c.job c.step 0x0005 (some (c.chunk.toNat, c.generation)) .own
      else if st.reported && !l.isRoot then
        let s := s.setCtx d { c with withdrawing := true }
        if st.withdrawn then s
        else
          let s := s.mapJob c.job fun j => j.mapStep c.step fun x => { x with withdrawn := true }
          s.sendMgmt l.rootFlat c.job l.plan.gen
            (leBytes 2 0x42 ++ leBytes 2 (jobGen c.job l.plan.gen) ++ leBytes 4 c.step.toNat
              ++ leBytes 2 (l.plan.releaserIndex l.self) ++ zeros 6) .plain
      else
        let s := s.mapJob c.job fun j => j.mapStep c.step fun x =>
          { x with reported := false, reports := x.reports.filter fun r => r.releaser != l.self }
        (s.supersedeTo d (c.generation + 1) none).bump F.SUPERSEDE_EVENTS_SUPERSESSIONS c.mill

/-- A check failure of a chunk at the releasing tier: counted, reported, superseded, the fourth aborts (R145). -/
def State.checkFailure (s : State) (d : Nat) : State :=
  match s.ctx? d with
  | none => s
  | some c =>
    let s := s.setCtx d { c with checkFails := c.checkFails + 1 }
    let s := s.millFault c.mill 0x21 c.job c.step c.chunk.toNat c.generation
    if c.checkFails + 1 ≥ 4 then s.abortStep c.job c.step 0x0002 (some (c.chunk.toNat, c.generation)) .own
    else s.supersedeOwn d

/-- What a CHECK_FAIL from below leads to at the releasing tier (R126, R145, R149, R150). -/
def State.downFailure (s : State) (d cause : Nat) : State :=
  match s.ctx? d with
  | none => s
  | some c =>
    if cause = 0 then s.checkFailure d
    else if cause = 1 && c.fenceEpoch == s.newest.2.setWidth 8 then s
    else s.supersedeOwn d

/-! ## Final (R119, R128, R131, R160) -/

/-- Does a RESULT or SUPERSEDE of a descriptor's chunk in this step still wait for an acknowledgement (R46)? -/
def State.chunkOwed (s : State) (d : Nat) (c : Ctx) : Bool :=
  s.outs.any fun o => o.resultOf c.job c.step
    && (match o.purpose with | .result e _ _ | .supersede e => d == e | _ => false)

/-- The ledger entry of a chunk with its result (R160). -/
def Ctx.ledgerEntry (c : Ctx) (r : ResultInfo) : LedgerEntry :=
  { chunk := c.chunk.toNat, gen := c.generation, flags := r.flags, anchor := r.anchor, rescales := r.rescales,
    contribM1 := r.contributions - 1, sumIn := r.sumIn, resultCheck := r.resultCheck }

/-- Put an entry into a step's array. -/
def StepSt.putEntry (x : StepSt) (e : LedgerEntry) : StepSt := { x with entries := Machine.putEntry e x.entries }

/-- RELEASED goes to FINAL once every surviving receiver has acknowledged the result (R119). A lower tier, whose
acknowledgement upward stands for its members, waits for its older RESULT and SUPERSEDE messages of the chunk as well (R46). -/
def State.maybeFinal (s : State) (d : Nat) : State :=
  match s.ctx? d with
  | none => s
  | some c =>
    if c.state != .released || !c.awaiting.isEmpty then s
    else
      match s.layoutOf c with
      | none => s
      | some (j, l) =>
        match l.bucketOf c, c.result with
        | some (_, g), some r =>
          if !l.releases g && s.chunkOwed d c then s
          else
          let s := s.setCtx d { c with state := .final }
          if l.releases g then
            let s := s.completion j c r
            s.mapJob c.job fun j => j.mapStep c.step fun x => x.putEntry (c.ledgerEntry r)
          else
            match c.parentMsg with
            | some (h, p) => s.ack p h
            | none => s
        | _, _ => s

/-- Replicate a RESULT to receivers: members at their buffers, child switches with REMOTE_ADDR 0 (R36, R196, R197). -/
def State.sendResult (s : State) (d : Nat) (l : Layout) (b : PlanBucket) (g : PlanGroup) (c : Ctx) (x : RedExt)
    (frames : List (Nat × List Byte)) (rcv : List SlotId) : State :=
  s.sendMany (some l.plan.job) (rcv.map fun w =>
    let t := l.toSlot w
    (t.1,
     resultFrames l.plan.job l.plan.gen t.2 x frames (fun off =>
       match w with
       | .member r => resultAddr b g c.chunk.toNat r off
       | .child _ => 0),
     w.rank?, .result d c.generation w))

/-- The receivers of a chunk's RESULT at this switch: the child switches of the group, and the surviving direct members
that R192 makes receivers. -/
def State.receivers (s : State) (l : Layout) (b : PlanBucket) (g : PlanGroup) (chunk : Nat) : List SlotId :=
  (s.slotsIn s.curBank l g).filter fun w =>
    match w with
    | .member r => Plan.receives b g chunk r && !s.curBank.fenced l.plan.job r
    | .child _ => true

/-! ## Release and forwarding (R119, R122, R127, R140 to R142, R182) -/

/-- Release a chunk at the releasing tier (R127). -/
def State.release (s : State) (d : Nat) (l : Layout) (b : PlanBucket) (g : PlanGroup) (c : Ctx) : State :=
  let n := c.contributions
  let r := c.build b n
  let die := c.mill / 32
  let fast := b.fast || c.fastIn
  let info : ResultInfo :=
    { contributions := n, maxExp := c.maxExp, anchor := c.anchor, flushed := c.flushed || r.flushes != 0,
      reduced := decide (n < g.ranks.length), stoch := b.stoch, fast := fast, rescales := c.rescales, sumIn := c.runCheck,
      resultCheck := r.check, tallySum := r.tally.1, tallyClamped := r.tally.2 }
  let rcv := s.receivers l b g c.chunk.toNat
  let c1 := { c.freed with state := .released, result := some info, awaiting := rcv }
  let s := (s.setCtx d c1).bumpBy F.ARITH_FLUSHES_OUTPUT_FLUSHES c.mill r.flushes
  let s := s.bumpBy F.TALLY_EVENTS_TALLY_CLAMPS die r.tally.2
  let x := { c.ext 0 with
    memberRank := BitVec.ofNat 18 (n - 1), format := BitVec.ofNat 5 b.out.code, fast := fast, flushed := info.flushed,
    membershipReduced := info.reduced, stochastic := b.stoch, maxExp := BitVec.ofInt 16 c.maxExp,
    chunkElems := BitVec.ofNat 13 c.elems, sumCheck := BitVec.ofNat 64 r.check }
  (s.sendResult d l b g c x r.frames rcv).maybeFinal d

/-- The staging bank of a chunk takes its new residuals (R180). -/
def Job.stageRes (j : Job) (bucket c : Nat) (step : BitVec 32) (vs : List Nat) : Job :=
  { j with errs := j.errs.map fun r => if r.bucket = bucket then r.stage c step vs else r }

/-- Send a lower tier's partial up (R119, R122, R124, R173). -/
def State.forward (s : State) (d : Nat) (l : Layout) (b : PlanBucket) (g : PlanGroup) (c : Ctx) (j : Job) : State :=
  let comp := s.compresses l b g
  let region := j.errs.find? fun r => r.bucket == b.id
  let (w, s) :=
    match comp, region with
    | true, some r =>
      let (blks, w) := c.compressed b r
      let s := s.mapErrs c.job fun j =>
        j.stageRes b.id (c.chunk.toNat - b.first) c.step (blks.map CBlock.res).flatten
      let s := s.bumpBy F.COMPRESS_EVENTS_SCALE_CLAMPS c.mill (sumN (blks.map CBlock.clamp))
      let s := s.bumpBy F.COMPRESS_EVENTS_SPECIAL_BLOCKS c.mill (sumN (blks.map CBlock.nan))
      (w, s.bumpBy F.COMPRESS_WAITS_RESIDUAL_SATURATIONS c.mill (sumN (blks.map CBlock.sats)))
    | _, _ => (if b.fast then c.fastPartial b else c.exactPartial, s)
  let s := s.setCtx d { c with state := .forwarded, commitWait := false }
  s.sendUp l g (c.partialFrames l.tier w) (.partialUp d c.generation)

/-- An OPEN context whose awaited slots are all done: check, then release, forward, wait, or fail (R119, R140 to R142,
R182). `dup` says that the two rounding lanes differ (R141, R176). -/
def State.tryFinish (s : State) (d : Nat) (dup : Bool) : State :=
  match s.ctx? d with
  | none => s
  | some c =>
    if c.state != .openS || c.held || c.expect = 0 || c.done != c.expect || c.withdrawing then s
    else
      match s.layoutOf c with
      | none => s
      | some (j, l) =>
        match l.bucketOf c with
        | none => s
        | some (b, g) =>
          let sumOk := b.check c.step c.chunk c.sums == c.runCheck
          if l.releases g then
            if !sumOk || dup then (s.bump F.CHECK_EVENTS_RELEASE_FAILS c.mill).checkFailure d
            else if (s.curBank.survivors c.job g).length < c.contributions then s.supersedeOwn d
            else s.release d l b g c
          else
            let comp := s.compresses l b g
            let busy := match j.errs.find? (fun r => r.bucket == b.id) with | some r => r.copying | none => false
            if !sumOk || (dup && (comp || b.fast)) then
              let s := s.bump F.CHECK_EVENTS_RELEASE_FAILS c.mill
              let s := s.millFault c.mill 0x21 c.job c.step c.chunk.toNat c.generation
              (s.setCtx d { c with held := true }).checkFailUp d 0
            else if comp && (!j.stepEnded (c.step - 1) && c.step != l.plan.firstStep || busy) then
              if c.commitWait then s
              else (s.setCtx d { c with commitWait := true }).bump F.COMPRESS_WAITS_COMMIT_WAITS c.mill
            else s.forward d l b g c j

/-! ## Rescale (R97 to R100) -/

/-- A rescale-waiting context once every surviving slot's exponent is held (R98, R99). -/
def State.rescaleCheck (s : State) (d : Nat) : State :=
  match s.ctx? d with
  | none => s
  | some c =>
    let live := c.slots.filter (·.live)
    if c.state != .rescaleWait || !(live.all (·.expHeld)) || live.isEmpty then s
    else
      match s.layoutOf c with
      | none => s
      | some (_, l) =>
        match l.bucketOf c with
        | none => s
        | some (b, g) =>
          let top := maxI noExp (c.slots.map (·.exp))
          if l.releases g then
            let a := max (c.anchor + 1) (1 + top)
            if 32767 < a then s.abortStep c.job c.step 0x0007 (some (c.chunk.toNat, c.generation)) .own
            else
              let s := s.setCtx d { c.cleared with state := .openS, anchor := a }
              let x := { c.ext 0 with anchor := BitVec.ofInt 16 a, chunkElems := BitVec.ofNat 13 c.elems }
              s.sendSlots l (live.map (·.who)) (fun dest => ctlFrame codeRescale c.job c.layoutGen dest x)
                (fun _ => .control d)
          else if c.requestSent then s
          else (s.setCtx d { c with requestSent := true }).sendUp l g [c.requestFrame l.tier (!b.fast && !s.compresses l b g) top] (.control d)

/-- A breach of the anchor: the chunk enters rescale wait (R97). A further breach by a direct member is reported, naming it; a
child's request is none of its own members', which the child has reported (R100). -/
def State.enterRescale (s : State) (d : Nat) (who : SlotId) : State :=
  match s.ctx? d with
  | none => s
  | some c =>
    let s := s.bump F.ARITH_EVENTS_RESCALES c.mill
    let s := match who.rank? with
      | some r => if c.rescales = 0 then s else s.millFault c.mill 0x23 c.job c.step r 0
      | none => s
    s.setCtx d { c.cleared with state := .rescaleWait, rescales := satAdd 8 c.rescales 1 }

/-! ## Residue mismatches and storage faults (R82, R119, R440) -/

/-- A residue mismatch, or an uncorrectable accumulator word, met in a context: the chunk state is cleared; the
releasing tier supersedes, a lower tier holds and reports (R82, R119, R126). -/
def State.residueFault (s : State) (d : Nat) (lane : BitVec 7) : State :=
  match s.ctx? d with
  | none => s
  | some c =>
    let s := (s.setFlag F.RESIDUE_STATUS_RESIDUE_ERR c.mill true).setFld F.RESIDUE_STATUS_LAST_LANE c.mill lane.toNat
    let s := s.bump F.RESIDUE_STATUS_RESIDUE_FAULTS c.mill
    let s := s.millFault c.mill 0x20 c.job c.step c.chunk.toNat lane.toNat
    let s := s.setCtx d c.cleared
    match s.layoutOf c with
    | none => s
    | some (_, l) =>
      match l.bucketOf c with
      | none => s
      | some (_, g) =>
        if l.releases g then s.supersedeOwn d
        else (s.setCtx d { c.cleared with held := true }).checkFailUp d 2

/-- A context finishes in a command that brings no word of its mill: whether the lanes differ in what is formed now is a free
value (R141, R176; log entry 87). -/
def State.finishFree (s : State) (d : Nat) : State :=
  match s.ctx? d with
  | none => s
  | some c =>
    if c.state != .openS || c.held || c.expect = 0 || c.done != c.expect || c.withdrawing then s
    else
      let (k, s) := s.draw1
      s.tryFinish d (Config.freeLaneDiff k)

/-- Contexts held back until the previous step ended, or a bank was copied, go on (R182, R190). -/
def State.settle (s : State) (dup : Bool) : State :=
  ((s.ctxs.filter fun x => x.2.commitWait).map (·.1)).foldl (fun s d => s.tryFinish d dup) s

/-- The same in a command that brings no word of the lanes. -/
def State.settleFree (s : State) : State :=
  ((s.ctxs.filter fun x => x.2.commitWait).map (·.1)).foldl State.finishFree s

/-! ## Stranded jobs (R353) -/

/-- Strand a job: its uncommitted steps abort with 0x0006, the plan loader raises JOB_STRANDED, and its frames draw
NO_CONTEXT from then on (R353, R439, R440). -/
def State.strand (s : State) (job : BitVec 12) : State :=
  match s.job? job with
  | none => s
  | some j =>
    if j.stranded then s
    else
      let live := (List.range j.depth).map fun i => j.floor + BitVec.ofNat 32 i
      let open_ := live.filter fun st => !j.stepEnded st && ((j.step st).opened || !(s.stepCtxs job st).isEmpty)
      let s := open_.foldl (fun s st => s.abortStep job st 0x0006 none .own) s
      let s := s.raise dieCD blkPlan 0 0x28 (addrJ job (open_.headD j.floor)) 0
      s.mapJob job fun j => { j with stranded := true }

end Sys2Proof.Machine
end

