-- ==== Sys2Proof/Machine/Reduction.lean ====
section
/-! DEFINITION. Contributions and partials at a mill: classification and the context's machine
(spec/04_reduction_contexts.md R108 to R116, R119 to R125, R588, R589; 03_reduction_arithmetic.md R96 to R100). -/
namespace Sys2Proof.Machine

open Sys2Proof

/-! ## Frames leave their queue -/

/-- The copy of a frame that came in on a port and waits for a mill or for the control firmware. -/
def State.queuedCopy (s : State) (dest : Dest) (p : Nat) (f : Frame) : Option Copy :=
  s.core.copies.find? fun c => c.die == dieOf p && c.src == localOf p && c.dest == dest && c.out == f

/-- Does the frame wait, because what takes it does (R460, R479) or behind others of its VOQ (R293), so that it cannot be taken
yet? -/
def State.queuedBehind (s : State) (dest : Dest) (p : Nat) (f : Frame) : Bool :=
  s.takerWaits dest f ||
  match s.queuedCopy dest p f with
  | some c => !s.isHead c
  | none => false

/-- A frame that has been taken by a mill or by the control firmware leaves its queue (R290, R306). -/
def State.takeFrom (s : State) (dest : Dest) (p : Nat) (f : Frame) : State :=
  match s.queuedCopy dest p f with
  | some c => s.releaseCopy c.cid
  | none => s

/-- Does the frame wait behind others for a mill? -/
def State.millBehind (s : State) (p : Nat) (f : Frame) : Bool :=
  (List.range 4).any fun d => s.queuedBehind (.mill d) p f

/-- The frame leaves whichever mill queue of its die it waits in. -/
def State.takeMill (s : State) (p : Nat) (f : Frame) : State :=
  (List.range 4).foldl (fun s d => s.takeFrom (.mill d) p f) s

/-! ## Classification (R108) -/

/-- The verdict of R108 on a reduction frame. -/
inductive RedVerdict where
  | nack (x : NackExt) (bump : Option (Fld × Nat))
  | discard (bump : Fld × Nat) (separation : Bool)
  | pass (l : Layout) (b : PlanBucket) (g : PlanGroup) (d : Nat) (who : SlotId)
  deriving DecidableEq, Repr

/-- Is a PARTIAL a rescale request (R99)? -/
def isRequest (x : RedExt) : Bool := decide (x.anchor.toInt ≤ x.maxExp.toInt)

/-- Row 11 of R108: is a frame consistent with its bucket and descriptor, and decodable? `c` is the descriptor's context. -/
def redConsistent (b : PlanBucket) (compressed isPartial : Bool) (rankAtSrc : Option Nat) (c : Option Ctx) (x : RedExt)
    (payload : List Byte) : Bool :=
  let exact := isPartial && !compressed && !b.fast
  let layout := if isPartial then (if compressed then Fmt.sign1 else b.out) else b.fmt
  let unit := if layout.isBlock then layout.record else layout.width
  x.format.toNat == b.fmt.code && x.chunkElems.toNat == b.elems
    && (isPartial || (match c with | some c => (match c.frameCnt with | some n => x.frameCnt.toNat == n | none => true) | none => true))
    && decide (x.frameIdx.toNat ≤ x.frameCnt.toNat)
    && decide (x.elemOffset.toNat < b.elems)
    && x.pieces.toNat == (if exact then b.pieces - 1 else 0)
    && (isPartial || rankAtSrc == some x.memberRank.toNat)
    && (if exact || layout.isBlock then x.elemOffset.toNat % 32 == 0 else true)
    && (if isPartial && isRequest x then true
        else if exact then (parseCompact b.pieces (ceilDiv (b.elems - x.elemOffset.toNat) 32) payload).isSome
        else decide (unit ≤ payload.length))

/-- Is a switch answering a job's reduction, bell and set-tagged frames of a step BUSY: (RETRY_HINT), during a
re-parenting change (R351), a save (R375) or a restore (R380)? -/
def Job.busyHint (j : Job) (step : BitVec 32) : Option Nat :=
  if j.reparenting then some 10
  else if j.restoring then some 1000
  else match j.save with
    | some v => if 0 < (step - v.p).toNat && (step - v.p).toNat < 2 ^ 31 then some 1000 else none
    | none => none

/-- The current generation of the chunk a frame names, which a NACK carries (R47): 0 where the chunk has no context. -/
def State.chunkGen (s : State) (j : Job) (l : Layout) (x : RedExt) : Nat :=
  match s.ctx? (l.desc x.step x.chunkId.toNat) with
  | some c => if c.job = j.id ∧ c.step = x.step ∧ c.chunk = x.chunkId then c.generation else 0
  | none => 0

/-- The classification of R108, with R243, R351, R353, R375 and R380 at their points: the BUSY of a save and of a restore goes
before the one of row 5. -/
def State.classify (s : State) (p : Nat) (f : Frame) (isPartial : Bool) : RedVerdict :=
  let x := redOf f
  let chunk := x.chunkId.toNat
  match s.job? f.h.jobId with
  | none => .nack (nackRed nackNoContext x 0) none
  | some j =>
    let gen0 := s.chunkGen j j.cur x
    if j.stranded || j.unloading.isSome then .nack (nackRed nackNoContext x gen0) none
    else
      match j.layout f.h.layoutGen with
      | none => .nack (nackRed nackStaleLayout x 0) none
      | some l =>
        let beyond := match j.next with | some n => decide ((x.step - n.plan.firstStep).toNat < 2 ^ 31) | none => false
        if l.plan.gen = j.cur.plan.gen && beyond then .nack (nackRed nackStaleLayout x gen0) none
        else if l.plan.gen != j.cur.plan.gen then
          .nack { nackRed nackBusy x 0 with retryHint := 10 } none
        else
          let m := s.millOf f.h.jobId chunk
          match l.plan.bucketAt chunk with
          | none => .nack (nackRed nackNoContext x 0) none
          | some b =>
            match l.plan.group? b.group with
            | none => .nack (nackRed nackNoContext x 0) none
            | some g =>
              let rank := l.plan.rankAt f.h.src
              let who : Option SlotId :=
                if isPartial then (s.childOn l p).map .child else rank.map .member
              let slots := s.slotsIn (s.bank f.h.epoch) l g
              match who with
              | none => .nack (nackRed nackNoContext x 0) none
              | some w =>
                if l.plan.chunks ≤ chunk || !slots.contains w then .nack (nackRed nackNoContext x 0) none
                else if 2 ^ 31 ≤ j.ahead x.step then .discard (F.MILL_DISCARDS_STALE_DISCARDS, m) false
                else
                  match j.busyHint x.step with
                  | some h => .nack { nackRed nackBusy x gen0 with retryHint := BitVec.ofNat 16 h } none
                  | none =>
                    if j.depth ≤ j.ahead x.step then .nack { nackRed nackBusy x gen0 with retryHint := 10 } none
                    else if !(s.bank f.h.epoch).slotLive j.id w then .nack (nackRed nackFenced x gen0) none
                    else
                      let d := l.desc x.step chunk
                      let c := s.ctx? d
                      let gen := match c with | some c => c.generation | none => 0
                      let compressed := isPartial && b.compress && s.isThin p
                      if (match c with | some c => c.job != j.id || c.step != x.step | none => false) then
                        .discard (F.MILL_DISCARDS_SEPARATION_DISCARDS, m) true
                      else if x.generation.toNat < gen then .nack (nackRed nackGenSuperseded x gen) none
                      else if gen < x.generation.toNat then .discard (F.MILL_DISCARDS_STALE_DISCARDS, m) false
                      else if x.anchor.toInt = -32768
                          || ((match fmtOf x.format.toNat with | some m => m.isInt | none => false) && x.anchor.toInt != 77)
                          || (match c with | some c => x.anchor.toInt != c.anchor | none => false) then
                        .discard (F.ARITH_EVENTS_ANCHOR_MISMATCHES, m) false
                      else if !redConsistent b compressed isPartial rank c x f.payload then
                        .nack (nackRed nackCheckFail x gen) (if isPartial then some (F.CHECK_EVENTS_PARTIAL_FAILS, m) else none)
                      else .pass l b g d w

/-- Has the attempt a frame belongs to been refused (R41, R48)? -/
def State.refused (s : State) (p : Nat) (h : BaseHdr) : Bool :=
  let r := s.rxOf p h
  r.nacked && r.attempt == h.attempt

/-- Refuse a frame with a NACK and count the refusal, once per attempt (R48). -/
def State.refuse (s : State) (p : Nat) (h : BaseHdr) (x : NackExt) (bump : Option (Fld × Nat)) : State :=
  if s.refused p h then s
  else
    let s := match bump with | some b => s.bump b.1 b.2 | none => s
    s.nack p h x

/-- The consequence of a verdict other than pass. -/
def State.rejectRed (s : State) (p : Nat) (f : Frame) (v : RedVerdict) : State :=
  match v with
  | .nack x b => s.refuse p f.h x b
  | .discard (fl, m) sep =>
    let s := s.bump fl m
    if sep then s.millFault m 0x22 f.h.jobId (redOf f).step (redOf f).chunkId.toNat 0 else s
  | .pass _ _ _ _ _ => s

/-! ## Opening a context and taking granules (R111, R112, R119, R234, R311) -/

/-- The device-wide bucket index of a bucket (R230). -/
def Layout.devBucket (l : Layout) (b : Nat) : Nat := match l.buckets.find? fun x => x.1 == b with | some x => x.2 | none => 0

/-- A context as it opens for a chunk: slots from the group table of the current bank. A lower tier that passed a child's CHECK_FAIL
up while the descriptor was IDLE has sent the one of this generation (R126). -/
def State.freshCtx (s : State) (l : Layout) (b : PlanBucket) (g : PlanGroup) (step : BitVec 32) (chunk : BitVec 22)
    (anchor : Int) : Ctx :=
  let slots := (s.slotsIn s.curBank l g).map fun w => Slot.fresh w (s.curBank.slotLive l.plan.job w)
  let told := match s.job? l.plan.job with
    | some j => !l.releases g && (j.step step).heldFails.any fun x => x.1 == chunk.toNat
    | none => false
  let c : Ctx := Ctx.open l b (s.millOf l.plan.job chunk.toNat) (l.devBucket b.id) step chunk anchor slots s.waitStart s.ns
    (if l.releases g then s.epoch.num else 0)
  { c with checkFailSent := told }

/-- Contexts of a bucket that hold granules here (R234). -/
def State.bucketOpen (s : State) (job : BitVec 12) (bucket : Nat) : Nat :=
  (s.ctxs.filter fun x => x.2.job == job && x.2.bucket == bucket && x.2.gclass != 0).length

/-- What a request for a context's granules comes to. -/
inductive Taken where
  | ok (c : Ctx) (s : State)
  | busy (s : State)
  | waits (s : State)

/-- Take a context's granules and arrival record if it holds none (R111, R112, R310, R311). -/
def State.takePool (s : State) (b : PlanBucket) (d : Nat) (c : Ctx) (p : Nat) (f : Frame) : Taken :=
  if c.gclass != 0 then .ok c s
  else
    let single := s.image.policies.singleSize
    let u := granuleUnits single c.elems
    let n := arrivalLines c.slots.length
    let busy : Taken :=
      let hint := max 1 (s.fld F.POOL_RETRY_HINT_HINT c.mill)
      .busy (s.refuse p f.h { nackRed nackBusy (redOf f) c.generation with retryHint := BitVec.ofNat 16 hint }
        (some (F.MILL_CONTEXTS_BUSY_NACKS, c.mill)))
    if b.openCap != 0 && decide (b.openCap ≤ s.bucketOpen c.job c.bucket) then busy
    else
      match s.poolRequest c.mill c.job c.pieces u n with
      | .granted gs a rem =>
        .ok (c.withGrant gs u a n) (if rem then s.bump F.POOL_EVENTS_REMAINDER_GRANTS c.mill else s)
      | .compact _ =>
        -- a further frame of the context waits with the first, which has asked for its granules
        let asked := s.core.compacting.any fun x => x.job == c.job && x.desc == d
        .waits (s.mapCore fun k => { k with compacting := k.compacting ++
          [⟨c.mill, f, p, c.job, d, if asked then 0 else c.pieces, u, if asked then 0 else n⟩] })
      | .refused => busy

/-- A context of the job opens. The step timer starts when the first context of a step that this switch releases opens
(R267). -/
def State.startTimer (s : State) (l : Layout) (g : PlanGroup) (step : BitVec 32) : State :=
  let s := s.mapJob l.plan.job fun j => ({ j with opened := true } : Job).mapStep step fun x => { x with opened := true }
  if l.releases g then s.mapJob l.plan.job fun j => j.mapStep step fun x => { x with timerOn := true } else s

/-! ## The fold of a contribution (R41, R57, R96, R97, R110, R115) -/

/-- Do two frames of one message carry the same extension but for FRAME_IDX and ELEM_OFFSET (R41)? -/
def sameExt (a b : RedExt) : Bool := { a with frameIdx := 0, elemOffset := 0 } == { b with frameIdx := 0, elemOffset := 0 }

/-- A completed slot: DONE, RUN_CHECK and CONTRIBUTIONS rise (R109, R110, R123). -/
def Ctx.complete (c : Ctx) (who : SlotId) (x : RedExt) (n : Nat) : Ctx :=
  let c := c.mapSlot who fun y => { y with complete := true, parts := [] }
  { c with done := c.done + 1, runCheck := (c.runCheck + x.sumCheck.toNat) % checkP,
           contributions := c.contributions + n }

/-- An anchor breach by a slot's frame: rescale wait, its exponent, and the answer (R97, R99). -/
def State.breach (s : State) (d : Nat) (who : SlotId) (e : Int) (p : Nat) (f : Frame) (c : Ctx) (request : Bool) : State :=
  let s := if c.state = .rescaleWait then s else s.enterRescale d who
  let s := match s.ctx? d with | some c => s.setCtx d (c.recordExp who e) | none => s
  let s := if request then s else s.nack p f.h (nackRed nackScaleExceeded (redOf f) c.generation)
  s.rescaleCheck d

/-- The lane, if any, whose residue check fails as a tile is added (R81, R82): the one that faults, or one whose sums do not
check. -/
def Ctx.laneFault (c : Ctx) (flt : MillFault) (off : Nat) (vals : List Int) : Option (BitVec 7) :=
  match flt.residue with
  | some lane => some lane
  | none => c.residueMiss off vals

/-- An uncorrectable word of the accumulator or the arrival store counts as a residue mismatch (R440); which lane LAST_LANE then
names is a free value. -/
def State.accFault (s : State) (d : Nat) : State :=
  let (k, s) := s.draw1
  s.residueFault d (Config.freeLane k)

/-- Read a descriptor through its cache: uncorrectable, it strands the job (R439, R440). -/
def State.withDesc (s : State) (f : Frame) (flt : MillFault) (k : State → State) : State :=
  let m := s.millOf f.h.jobId (redOf f).chunkId.toNat
  match s.sramRead (m / 32) blkMill m flt.desc with
  | (true, s) => s.strand f.h.jobId
  | (false, s) => k s

/-- One CONTRIB frame in the OPEN state (R115, R119). -/
def State.foldContrib (s : State) (p : Nat) (f : Frame) (flt : MillFault) (b : PlanBucket) (d : Nat)
    (who : SlotId) (c : Ctx) : State :=
  let x := redOf f
  let y := c.slot who
  let t := contribTile b x f.payload
  let s1 := s.setCtx d c
  if flt.tagBad then
    (s1.bump F.MILL_DISCARDS_SEPARATION_DISCARDS c.mill).millFault c.mill 0x22 c.job c.step c.chunk.toNat 0
  else if y.complete then s1.ack p f.h
  else if (match y.ext with | some e => y.msgId == some f.h.msgId && !sameExt e x | none => false)
      || decide (checkP ≤ x.sumCheck.toNat) then
    s1.nack p f.h (nackRed nackCheckFail x c.generation)
  else if t.breach then s1.breach d who (max x.maxExp.toInt t.maxExp) p f c false
  else if y.mask.getLsbD x.frameIdx.toNat then s1
  else
    match s1.sramRead (c.mill / 32) blkMill c.mill flt.word with
    | (true, s1) => s1.accFault d
    | (false, s1) =>
    match c.laneFault flt t.off t.vals with
    | some lane => s1.residueFault d lane
    | none =>
      let tally := if b.tally then tallySum (b.tallyShift c.anchor) t.vals else (0, 0)
      let c1 := (c.addTile t.off t.vals t.sps).recordExp who (max x.maxExp.toInt t.maxExp)
      let c1 := c1.mapSlot who fun z =>
        { z with mask := z.mask ||| BitVec.ofNat 16 (2 ^ x.frameIdx.toNat), msgId := some f.h.msgId,
                 ext := if z.msgId = some f.h.msgId then z.ext else some x }
      let c1 := { c1 with maxExp := max c1.maxExp x.maxExp.toInt,
                          flushed := c1.flushed || t.flushes != 0, tallyIn := c1.tallyIn + tally.1,
                          tallyClamped := c1.tallyClamped + tally.2 }
      let s := (s1.bumpBy F.ARITH_FLUSHES_INPUT_FLUSHES c.mill t.flushes).bumpBy F.TALLY_EVENTS_TALLY_CLAMPS
        (c.mill / 32) tally.2
      if maskFull (c1.slot who).mask (x.frameCnt.toNat + 1) then
        let s := (s.setCtx d (c1.complete who x 1)).ack p f.h
        s.tryFinish d flt.dupDiff
      else s.setCtx d c1

/-- FRAME_CNT is taken from the first CONTRIB that reaches the context, and kept (R108, R119). -/
def Ctx.countFrames (c : Ctx) (x : RedExt) : Ctx :=
  { c with frameCnt := match c.frameCnt with | some n => some n | none => some x.frameCnt.toNat }

/-- A CONTRIB frame at row 12 (R119, R588). -/
def State.runContrib (s : State) (p : Nat) (f : Frame) (flt : MillFault) (l : Layout) (b : PlanBucket) (g : PlanGroup)
    (d : Nat) (who : SlotId) : State :=
  let x := redOf f
  let c := (s.ctx? d).getD (s.freshCtx l b g x.step x.chunkId x.anchor.toInt)
  let isNew := (s.ctx? d).isNone
  let m := c.mill
  match c.state with
  | .openS =>
    if c.held then
      if (c.slot who).complete then s.ack p f.h else s.bump F.MILL_DISCARDS_STALE_DISCARDS m
    else if s.refused p f.h then s
    else if isNew && decide (checkP ≤ x.sumCheck.toNat) then s.nack p f.h (nackRed nackCheckFail x 0)
    else
      match s.takePool b d c p f with
      | .busy s => s
      | .waits s => s
      | .ok c s => (if isNew then s.startTimer l g x.step else s).foldContrib p f flt b d who (c.countFrames x)
  | .rescaleWait =>
    let t := contribTile b x f.payload
    (s.setCtx d (c.countFrames x)).breach d who (max x.maxExp.toInt t.maxExp) p f (c.countFrames x) false
  | _ => if (c.slot who).complete then s.ack p f.h else s.bump F.MILL_DISCARDS_STALE_DISCARDS m

/-! ## The fold of a partial (R99, R123, R125, R177) -/

/-- Join the held frames of a partial into one vector over the chunk. -/
def joinParts (n : Nat) (ps : List PartFrame) : List Int × List Special :=
  ps.foldl (fun a q =>
    (a.1.zipIdx.map fun e => match (if q.off ≤ e.2 then q.vals[e.2 - q.off]? else none) with | some v => v | none => e.1,
     a.2.zipIdx.map fun e => match (if q.off ≤ e.2 then q.sps[e.2 - q.off]? else none) with | some v => v | none => e.1))
    (List.replicate n 0, List.replicate n Special.none)

/-- One PARTIAL frame in the OPEN state: held until the whole partial's check can be compared, then folded (R123). -/
def State.foldPartial (s : State) (p : Nat) (f : Frame) (flt : MillFault) (b : PlanBucket) (d : Nat)
    (who : SlotId) (c : Ctx) : State :=
  let x := redOf f
  let y := c.slot who
  let compressed := b.compress && s.isThin p
  let s1 := s.setCtx d c
  if flt.tagBad then
    (s1.bump F.MILL_DISCARDS_SEPARATION_DISCARDS c.mill).millFault c.mill 0x22 c.job c.step c.chunk.toNat 0
  else if y.complete then s1.ack p f.h
  else if (match y.ext with | some e => y.msgId == some f.h.msgId && !sameExt e x | none => false)
      || decide (checkP ≤ x.sumCheck.toNat) then
    s1.nack p f.h (nackRed nackCheckFail x c.generation)
  else
    match partialTile b compressed x f.payload with
    | none => s1.nack p f.h (nackRed nackCheckFail x c.generation)
    | some t =>
      let part : PartFrame := ⟨x.frameIdx.toNat, t.off, t.vals, t.sps⟩
      let old := if y.msgId = some f.h.msgId then y.parts else []
      if old.any fun q => q.idx == part.idx then s1
      else
        let parts := old ++ [part]
        let c1 := c.mapSlot who fun z =>
          { z with msgId := some f.h.msgId, ext := if y.msgId = some f.h.msgId then z.ext else some x, parts := parts }
        if parts.length < x.frameCnt.toNat + 1 then s.setCtx d c1
        else
          let v := joinParts c.elems parts
          if b.check c.step c.chunk v.1 != x.sumCheck.toNat then
            let c2 := c.mapSlot who fun z => { z with msgId := none, ext := none, parts := [] }
            ((s.setCtx d c2).bump F.CHECK_EVENTS_PARTIAL_FAILS c.mill).nack p f.h (nackRed nackCheckFail x c.generation)
          else
            match s1.sramRead (c.mill / 32) blkMill c.mill flt.word with
            | (true, s1) => s1.accFault d
            | (false, s1) =>
            match c1.laneFault flt 0 v.1 with
            | some lane => s1.residueFault d lane
            | none =>
              let c2 := ((c1.addTile 0 v.1 v.2).recordExp who x.maxExp.toInt).complete who x (x.memberRank.toNat + 1)
              let c2 := { c2 with maxExp := max c2.maxExp x.maxExp.toInt, flushed := c2.flushed || x.flushed,
                                  fastIn := c2.fastIn || x.fast }
              let c2 := c2.mapSlot who fun z => { z with mask := BitVec.ofNat 16 (2 ^ (x.frameCnt.toNat + 1) - 1) }
              ((s1.setCtx d c2).ack p f.h).tryFinish d flt.dupDiff

/-- A PARTIAL frame at row 12 (R99, R119, R123). R588 speaks of CONTRIB frames only; a PARTIAL that reaches row 12 for a HELD,
FORWARDED, RELEASED, FINAL or ABORTED context is answered in the same way: acknowledged if its slot is complete, else dropped and
counted in STALE_DISCARDS (DESIGN CHOICE, log entry 88). -/
def State.runPartial (s : State) (p : Nat) (f : Frame) (flt : MillFault) (l : Layout) (b : PlanBucket) (g : PlanGroup)
    (d : Nat) (who : SlotId) : State :=
  let x := redOf f
  let c := (s.ctx? d).getD (s.freshCtx l b g x.step x.chunkId x.anchor.toInt)
  let isNew := (s.ctx? d).isNone
  let request := isRequest x
  -- a rescale request is acknowledged once complete (R99)
  let answer (s : State) : State :=
    if request then
      match s.receive p f with
      | (.complete, s) => s.ack p f.h
      | (.again, s) => s.ack p f.h
      | (_, s) => s
    else s
  match c.state with
  | .openS =>
    if c.held then
      if (c.slot who).complete then s.ack p f.h else s.bump F.MILL_DISCARDS_STALE_DISCARDS c.mill
    else if s.refused p f.h then s
    else if isNew && !request && decide (checkP ≤ x.sumCheck.toNat) then s.nack p f.h (nackRed nackCheckFail x 0)
    else
      match s.takePool b d c p f with
      | .busy s => s
      | .waits s => s
      | .ok c s =>
        let s := if isNew then s.startTimer l g x.step else s
        if request then
          let s := s.setCtx d c
          answer (s.breach d who x.maxExp.toInt p f c true)
        else s.foldPartial p f flt b d who c
  | .rescaleWait => answer (s.breach d who x.maxExp.toInt p f c request)
  | _ => if (c.slot who).complete then s.ack p f.h else s.bump F.MILL_DISCARDS_STALE_DISCARDS c.mill

/-! ## The two commands, and a compaction's end -/

/-- Groups that this switch releases and that have fallen below MIN_SURVIVORS abort their steps (R229). -/
def State.minSurvivors (s : State) (l : Layout) : State :=
  let short := l.plan.groups.filter fun g =>
    l.releases g && decide ((s.curBank.survivors l.plan.job g).length < g.minSurvivors)
  let steps := ((s.ctxs.filter fun x => x.2.job == l.plan.job
    && (match l.bucketOf x.2 with | some (_, g) => short.any fun h => h.id == g.id | none => false)).map (·.2.step)).dedup
  steps.foldl (fun s st => s.abortStep l.plan.job st 4 none .own) s

/-- A child's CHECK_FAIL came while the releasing tier's descriptor was IDLE, where R119 lists no supersession: it supersedes the
chunk, as R126 has it in every case, once a frame has opened the context (DESIGN CHOICE, log entry 101). -/
def State.takeHeldFail (s : State) (l : Layout) (g : PlanGroup) (d : Nat) : State :=
  match s.ctx? d with
  | none => s
  | some c =>
    match (s.job? c.job).bind fun j => (j.step c.step).heldFails.find? fun x => x.1 == c.chunk.toNat with
    | none => s
    | some x =>
      if !l.releases g then s
      else
        let s := s.mapJob c.job fun j => j.mapStep c.step fun y =>
          { y with heldFails := y.heldFails.filter fun z => z.1 != c.chunk.toNat }
        if x.2 = 0 then s.checkFailure d else s.supersedeOwn d

/-- A CONTRIB frame with a good tail, classified and run (R23, R108). -/
def State.contrib (s : State) (p : Nat) (f : Frame) (flt : MillFault) : State :=
  match s.classify p f false with
  | .pass l b g d w =>
    (s.withDesc f flt fun (s : State) => ((s.runContrib p f flt l b g d w).takeHeldFail l g d).minSurvivors l).settleFree
  | v => (s.rejectRed p f v).settleFree

/-- A PARTIAL frame with a good tail, classified and run; a request that was complete before is acknowledged again
(R99). -/
def State.partialIn (s : State) (p : Nat) (f : Frame) (flt : MillFault) : State :=
  if isRequest (redOf f) && (s.rxOf p f.h).done then s.ack p f.h
  else
    match s.classify p f true with
    | .pass l b g d w =>
      (s.withDesc f flt fun (s : State) => ((s.runPartial p f flt l b g d w).takeHeldFail l g d).minSurvivors l).settleFree
    | v => (s.rejectRed p f v).settleFree

/-- CONTRIB_FRAME (R108). A frame whose tail is bad never reaches the mill (R23). -/
def execContribFrame (port : Nat) (f : Frame) (flt : MillFault) (s : State) : Host.Outcome State Fault Refusal :=
  if s.millBehind port f then .next s else
  let s := s.takeMill port f
  if tailGood f then .next (s.contrib port f flt) else .next s

/-- PARTIAL_FRAME (R123). -/
def execPartialFrame (port : Nat) (f : Frame) (flt : MillFault) (s : State) : Host.Outcome State Fault Refusal :=
  if s.millBehind port f then .next s else
  let s := s.takeMill port f
  if tailGood f then .next (s.partialIn port f flt) else .next s

/-- The frame that waited for a compaction is taken up again. Whether the lanes differ in what it completes is a free value
(R141; log entry 87). -/
def State.retry (s : State) (f : Frame) (p : Nat) : State :=
  let (k, s) := s.draw1
  let flt : MillFault := ⟨none, Config.freeLaneDiff k, false, [], []⟩
  if f.h.ftype = FType.partialF.code then s.partialIn p f flt else s.contrib p f flt

/-- COMPACTION_DONE (R311): held granules and records have moved down, COMPACTIONS rises, and the frames whose request
waited are taken. -/
def execCompactionDone (mill : Nat) (s : State) : Host.Outcome State Fault Refusal :=
  match s.core.compacting.filter fun x => x.mill == mill with
  | [] => .next s
  | x :: xs =>
    let s := (s.compactMill mill x.grans x.units x.lines).bump F.POOL_EVENTS_COMPACTIONS mill
    let s := s.mapCore fun k => { k with compacting := k.compacting.filter fun x => x.mill != mill }
    .next ((x :: xs).foldl (fun s x => s.retry x.frame x.port) s)

end Sys2Proof.Machine
end

