-- ==== Sys2Proof/Machine/Bells.lean ====
section
/-! DEFINITION. Bells: arrivals, aggregation, release and fences (spec/09_belfry_and_time.md R257 to R266). -/
namespace Sys2Proof.Machine

open Sys2Proof

/-! ## Records -/

/-- A job's bell that is not free. -/
def Job.bell? (j : Job) (b : Nat) : Option Bell := j.bells.find? fun x => x.bell == b

/-- Write a bell. -/
def Job.setBell (j : Job) (x : Bell) : Job := { j with bells := j.bells.filter (fun y => y.bell != x.bell) ++ [x] }

/-- The BELLS a switch reserves for the job (R257). -/
def Layout.bellCount (l : Layout) : Nat := l.bells.length

/-- The fabric die that holds a job's bell: the one of its device bell (R16). -/
def Layout.bellDie (l : Layout) (b : Nat) : Nat := nth l.bells b 0 / 16384

/-- A record cleared for the next phase (R263, R352): OPENED stays until the phase's first arrival sets it. -/
def Bell.cleared (x : Bell) : Bell :=
  { x with arrived := [], lead := 0, at_ := 0, late := false, stragglerSent := false, begun := false }

/-- The fields of a BELL_ARRIVE payload (R259). -/
structure BellMsg where
  job : BitVec 12
  gen : BitVec 4
  bell : Nat
  group : Nat
  kind : Nat
  aggregate : Bool
  phase : Nat
  lead : Nat
  at_ : Nat
  threshold : Nat
  delta : Nat
  deriving DecidableEq, Repr

/-- Read a BELL_ARRIVE payload. -/
def bellMsg (p : List Byte) : BellMsg :=
  { job := BitVec.ofNat 12 (leAt p 2 2 / 16), gen := BitVec.ofNat 4 (leAt p 2 2), bell := leAt p 4 2, group := leAt p 6 2,
    kind := leAt p 8 1, aggregate := bitOf (leAt p 9 1) 0, phase := leAt p 10 2, lead := leAt p 12 4, at_ := leAt p 16 8,
    threshold := leAt p 24 8, delta := leAt p 32 8 }

/-- Can the arrival be recorded at all: is KIND one of R259's two, and a counter's THRESHOLD not 0? R260 has no row for such a
frame; it draws CHECK_FAIL and is counted nowhere (DESIGN CHOICE, log entry 89). Any other field is recorded as it stands. -/
def BellMsg.ok (m : BellMsg) : Bool := m.kind == 1 || (m.kind == 2 && m.threshold != 0)

/-- The payload of an aggregated barrier arrival (R261). -/
def aggregateBytes (job : BitVec 12) (gen : BitVec 4) (x : Bell) : List Byte :=
  leBytes 2 0x61 ++ leBytes 2 (jobGen job gen) ++ leBytes 2 x.bell ++ leBytes 2 x.group ++ leBytes 1 1 ++ leBytes 1 1
    ++ leBytes 2 x.phase.toNat ++ leBytes 4 x.lead ++ leBytes 8 x.at_ ++ zeros 24

/-- The BELL_RELEASE payload (R264). -/
def releaseBytes (job : BitVec 12) (gen : BitVec 4) (x : Bell) (time : Nat) (reduced late : Bool) (members count : Nat) :
    List Byte :=
  leBytes 2 0x62 ++ leBytes 2 (jobGen job gen) ++ leBytes 2 x.bell ++ leBytes 2 x.phase.toNat ++ leBytes 8 time
    ++ leBytes 2 0 ++ leBytes 1 (b2n reduced + 2 * b2n late) ++ zeros 1 ++ leBytes 4 members ++ leBytes 8 count

/-! ## Release (R261 to R263) -/

/-- The default lead in nanoseconds: TIME_CONTROL in microseconds, 0 treated as 1. -/
def State.defaultLead (s : State) : Nat := 1000 * max 1 (s.fld F.TIME_CONTROL_DEFAULT_LEAD 0)

/-- Release the phase of a bell at its home (R263). -/
def State.releaseBell (s : State) (l : Layout) (g : PlanGroup) (x : Bell) : State :=
  let job := l.plan.job
  let lead := if x.lead = 0 then s.defaultLead else x.lead
  let time := max (s.ns + lead) x.at_
  let late := x.at_ != 0 && decide (x.at_ < s.ns + 100)
  let alive := s.curBank.survivors job g
  let reduced := x.reduced || decide (alive.length < g.ranks.length)
  let counter := x.kind == .counter
  let pay := releaseBytes job l.plan.gen x time reduced late (if counter then 0 else alive.length)
    (if counter then x.count.toNat else 0)
  let s := s.mapJob job fun j => j.setBell { x.cleared with phase := x.phase + 1, passed := x.passed + 1 }
  if counter then
    s.sendMany (some job) (alive.map fun r =>
      (.routed, [mgmtFrame false (l.plan.coordOf r) (fabricAddr false) job l.plan.gen pay], some r, .bell))
  else
    let to_ := (s.slotsIn s.curBank l g).filter (s.curBank.slotLive job)
    s.sendSlots l to_ (fun dest => mgmtFrame false dest (fabricAddr false) job l.plan.gen pay) (fun _ => .bell)

/-- A barrier phase whose arrivals may be complete: aggregate up, or release (R261). -/
def State.bellDone (s : State) (job : BitVec 12) (b : Nat) : State :=
  match s.job? job with
  | none => s
  | some j =>
    match j.bell? b, j.bell? b |>.bind (fun x => j.cur.plan.group? x.group) with
    | some x, some g =>
      if x.kind != .barrier || x.slots.isEmpty || x.arrived.length != x.slots.length then s
      else if x.home then s.releaseBell j.cur g x
      else
        match s.parentIn s.curBank j.cur g with
        | none => s.bumpDies F.ROUTE_DISCARDS_NO_ROUTE
        | some t => s.sendMgmt t.flat job j.cur.plan.gen (aggregateBytes job j.cur.plan.gen x) .bell
    | _, _ => s

/-- The phases that a counter's COUNT releases (R262): each phase p, counted from the bell's first arrival, for which COUNT
has reached (p + 1) × THRESHOLD. `passed` phases have been released before. -/
def phasesPassed (threshold passed count : Nat) : Nat := count / threshold - passed

/-- Release n phases of a counter, one after another (R262). -/
def State.counterDone (s : State) (l : Layout) (g : PlanGroup) (b : Nat) : Nat → State
  | 0 => s
  | n + 1 =>
    match (s.job? l.plan.job).bind (·.bell? b) with
    | none => s
    | some x => (s.releaseBell l g x).counterDone l g b n

/-! ## Arrivals (R259 to R262) -/

/-- The slot a BELL_ARRIVE comes from: a member by its coordinate, a child switch by its flat ID (R259). -/
def State.bellSlot (l : Layout) (h : BaseHdr) : Option SlotId :=
  if h.amode then (l.plan.swByFlat h.src).map fun w => .child w.index else (l.plan.rankAt h.src).map .member

/-- A BELL_ARRIVE as its source sent it: a member's counter arrival that a lower tier has passed on comes with AMODE 1 and the
home's flat ID, and is judged and answered as the member's, in AMODE 0 (R262; DEDUCED, log entry 72). -/
def bellFrame (f : Frame) : Frame :=
  if f.h.amode && !(bellMsg f.payload).aggregate then { f with h := { f.h with amode := false } } else f

/-- The verdict on a BELL_ARRIVE (R260). -/
inductive BellVerdict where
  | nack (x : NackExt) (mismatch : Bool)
  | stale
  | again
  | forward (home : PlanSwitch)
  | record (l : Layout) (g : PlanGroup) (who : SlotId)
  deriving DecidableEq, Repr

/-- The rows of R260 from the fourth on, for an arrival whose job, group, source, layout and fence are in order. -/
def bellRows (j : Job) (l : Layout) (g : PlanGroup) (w : SlotId) (m : BellMsg) : BellVerdict :=
  if !m.ok then .nack (nackPlain nackCheckFail 0) false
  else if m.kind = 2 && !l.releases g then
    match l.plan.sw? g.releaser with
    | some home => .forward home
    | none => .nack (nackPlain nackNoContext 0) false
  else
    match j.bell? m.bell with
    | none => .record l g w
    | some x =>
      let kind := if x.kind = .counter then 2 else 1
      if x.group != m.group || kind != m.kind || x.threshold != m.threshold then .nack (nackPlain nackCheckFail 0) true
      else if m.kind = 1 && x.phase.toNat != m.phase then .stale
      else if m.kind = 1 && x.arrived.contains w then .again
      else .record l g w

/-- The classification of R260. A frame of a retired layout is held to row 1 by the current one. An arrival names no step, so a
save answers it BUSY from its start on (R375; DEDUCED, log entry 112). -/
def State.classifyBell (s : State) (h : BaseHdr) (m : BellMsg) : BellVerdict :=
  match s.job? m.job with
  | none => .nack (nackPlain nackNoContext 0) false
  | some j =>
    let l := (j.layout m.gen).getD j.cur
    match l.plan.group? m.group, State.bellSlot l h with
    | some g, some w =>
      let member : Bool := match w with | .member r => g.ranks.contains r | .child _ => false
      let slot := (s.slotsIn (s.bank h.epoch) l g).contains w
      if j.stranded || j.unloading.isSome || decide (l.bellCount ≤ m.bell) || !(slot || (m.kind == 2 && member)) then
        .nack (nackPlain nackNoContext 0) false
      else if (j.layout m.gen).isNone then .nack (nackPlain nackStaleLayout 0) false
      else if !(s.bank h.epoch).slotLive j.id w then .nack (nackPlain nackFenced 0) false
      else if l.plan.gen != j.cur.plan.gen || j.reparenting then .nack (nackPlain nackBusy 10) false
      else if j.restoring || (match j.save with | some v => v.running | none => false) then
        .nack (nackPlain nackBusy 1000) false
      else bellRows j l g w m
    | _, _ => .nack (nackPlain nackNoContext 0) false

/-- The record an arrival is counted in: the bound one, or a fresh one set from the frame (R260). -/
def State.bellFor (s : State) (j : Job) (l : Layout) (g : PlanGroup) (m : BellMsg) : Bell :=
  match j.bell? m.bell with
  | some x => x
  | none =>
    { bell := m.bell, kind := if m.kind = 2 then .counter else .barrier, group := g.id, home := l.releases g,
      reduced := (l.plan.direct g l.self).any fun r => s.curBank.fenced j.id r, late := false,
      phase := BitVec.ofNat 16 m.phase, lead := 0, at_ := 0, count := 0, threshold := m.threshold, opened := s.ns,
      begun := false, passed := 0,
      slots := if m.kind = 2 then [] else (s.slotsIn s.curBank l g).filter (s.curBank.slotLive j.id), arrived := [],
      stragglerSent := false }

/-- Record an arrival (R261, R262). -/
def State.recordBell (s : State) (l : Layout) (g : PlanGroup) (w : SlotId) (m : BellMsg) : State :=
  match s.job? m.job with
  | none => s
  | some j =>
    let x := s.bellFor j l g m
    let x := if x.begun then x else { x with opened := s.ns, begun := true }
    let x := { x with lead := max x.lead m.lead, at_ := max x.at_ m.at_ }
    match x.kind with
    | .barrier =>
      let x := { x with arrived := x.arrived ++ [w] }
      (s.mapJob m.job fun j => j.setBell x).bellDone m.job m.bell
    | .counter =>
      let y := { x with count := x.count + BitVec.ofNat 64 m.delta }
      (s.mapJob m.job fun j => j.setBell y).counterDone l g m.bell (phasesPassed m.threshold y.passed y.count.toNat)

/-- Pass a member's frame on, unchanged but for where it goes (R262): it keeps its SEQ, and is routed by the tables of the epoch
it carries (R284). -/
def State.passOn (s : State) (hop : Hop) (f : Frame) : State :=
  match s.spray (s.hopPortsIn (s.bank f.h.epoch) hop f.h) f.h with
  | none => s.bumpDies F.ROUTE_DISCARDS_NO_ROUTE
  | some p => s.takeLocal (dieOf p) f [⟨.port p, f, false, true, none⟩]

/-- Take a BELL_ARRIVE, as its source sent it. -/
def State.bellIn (s : State) (p : Nat) (f : Frame) : State :=
  let m := bellMsg f.payload
  if (s.rxOf p f.h).done then s.ack p f.h
  else
    match s.classifyBell f.h m with
    | .nack x mis =>
      let s := if mis && !s.refused p f.h then s.bump F.BELL_EVENTS_BELL_MISMATCHES 0 else s
      s.nack p f.h x
    | .stale => s.bump F.BELL_EVENTS_BELL_STALE 0
    | .again => s.ack p f.h
    | .forward home =>
      s.passOn .routed { f with h := { f.h with amode := true, dest := home.flat } }
    | .record l g w =>
      let s := (s.receive p f).2
      (s.recordBell l g w m).ack p f.h

/-- The die whose belfry share keeps a bell of a job; the first, where the job has no such bell (R16). -/
def State.bellDie (s : State) (job : BitVec 12) (b : Nat) : Nat :=
  match s.job? job with | some j => j.cur.bellDie b | none => 0

/-- BELL_ARRIVE (R260). `store` is what the bell's word of SRAM has suffered: uncorrectable, it is fatal to the job (R440). -/
def execBellArrive (port : Nat) (f : Frame) (store : WordErr) (s : State) : Host.Outcome State Fault Refusal :=
  if s.queuedBehind .firmware port f then .next s else
  let s := s.takeFrom .firmware port f
  if !tailGood f then .next s
  else
    let m := bellMsg f.payload
    match s.sramRead (s.bellDie m.job m.bell) blkBelfry 0 store with
    | (true, s) => .next (s.strand m.job).settleFree
    | (false, s) => .next (s.bellIn port (bellFrame f))

/-- Take a BELL_RELEASE at a lower tier: clear the record, then pass the release down (R263). -/
def State.bellReleaseIn (s : State) (p : Nat) (f : Frame) : State :=
  let job := BitVec.ofNat 12 (leAt f.payload 2 2 / 16)
  let b := leAt f.payload 4 2
  let phase := BitVec.ofNat 16 (leAt f.payload 6 2)
  match s.receive p f with
  | (.complete, s) =>
    let s := s.ack p f.h
    match s.job? job with
    | none => s
    | some j =>
      match j.bell? b, j.bell? b |>.bind (fun x => j.cur.plan.group? x.group) with
      | some x, some g =>
        if x.phase != phase then s
        else
          let s := s.mapJob job fun j => j.setBell { x.cleared with phase := phase + 1, passed := x.passed + 1 }
          let to_ := (s.slotsIn s.curBank j.cur g).filter (s.curBank.slotLive job)
          s.sendSlots j.cur to_ (fun dest => mgmtFrame false dest (fabricAddr false) job j.cur.plan.gen f.payload)
            (fun _ => .bell)
      | _, _ => s
  | (.again, s) => s.ack p f.h
  | (_, s) => s

/-- BELL_RELEASE (R263). -/
def execBellRelease (port : Nat) (f : Frame) (s : State) : Host.Outcome State Fault Refusal :=
  if s.queuedBehind .firmware port f then .next s else
  let s := s.takeFrom .firmware port f
  if tailGood f then .next (s.bellReleaseIn port f) else .next s

/-! ## Fences and re-parenting (R266, R352) -/

/-- A slot leaves a bell: EXPECT and, where it had arrived, DONE fall; the phase may be complete (R266). -/
def State.bellDrop (s : State) (job : BitVec 12) (b : Nat) (w : SlotId) : State :=
  match (s.job? job).bind (·.bell? b) with
  | none => s
  | some x =>
    if !x.slots.contains w then s
    else
      let x := { x with slots := x.slots.filter (· != w), arrived := x.arrived.filter (· != w), reduced := true }
      (s.mapJob job fun j => j.setBell x).bellDone job b

/-- A slot leaves every bell of a job. -/
def State.bellsDrop (s : State) (job : BitVec 12) (w : SlotId) : State :=
  match s.job? job with
  | none => s
  | some j => (j.bells.map (·.bell)).foldl (fun s b => s.bellDrop job b w) s

/-- On EPOCH_RETIRE after a re-parenting change: barrier bells are cleared and each home sends BELL_RESTART (R352). -/
def State.bellRestart (s : State) (job : BitVec 12) : State :=
  match s.job? job with
  | none => s
  | some j =>
    let slots (x : Bell) : List SlotId :=
      match j.cur.plan.group? x.group with
      | some g => (s.slotsIn s.curBank j.cur g).filter (s.curBank.slotLive job)
      | none => []
    let s := s.mapJob job fun j =>
      { j with bells := j.bells.map fun x => if x.kind = .barrier then { x.cleared with slots := slots x } else x
               reparenting := false }
    (j.bells.filter fun x => x.kind == .barrier && x.home).foldl (fun s x =>
      match j.cur.plan.group? x.group with
      | none => s
      | some g =>
        let pay := leBytes 2 0x63 ++ leBytes 2 (jobGen job j.cur.plan.gen) ++ leBytes 2 x.bell ++ leBytes 2 x.phase.toNat
          ++ zeros 8
        s.sendMany (some job) ((s.curBank.survivors job g).map fun r =>
          (.routed, [mgmtFrame false (j.cur.plan.coordOf r) (fabricAddr false) job j.cur.plan.gen pay], some r, .bell))) s

end Sys2Proof.Machine
end

