-- ==== Sys2Proof/Machine/Spire.lean ====
section
/-! DEFINITION. Set-tagged frames: multicast sets and their records, and expert dispatch
(spec/07_collectives.md R199 to R219; 08_job_plans.md R243; 14_failure_survival.md R375, R380). -/
namespace Sys2Proof.Machine

open Sys2Proof

/-! ## The set tag (R199) -/

/-- The fields of a set tag in REMOTE_ADDR. -/
structure SetTag where
  set : Nat
  offset : Nat
  dest : Nat
  expert : Nat
  order : Nat
  part : Nat
  inst : BitVec 8
  deriving DecidableEq, Repr

/-- Read a set tag. -/
def setTag (a : BitVec 64) : SetTag :=
  { set := bitsOf a.toNat 63 52, offset := bitsOf a.toNat 51 0, dest := bitsOf a.toNat 51 36,
    expert := bitsOf a.toNat 35 28, order := bitsOf a.toNat 27 14, part := bitsOf a.toNat 13 12,
    inst := BitVec.ofNat 8 (bitsOf a.toNat 11 4) }

/-- Is a frame a set-tagged WRITE? -/
def isSetTagged (h : BaseHdr) : Bool :=
  h.ftype == 1#4 && h.vc == 6#3 && !h.amode && h.dest == fabricAddr false

/-- The multicast set of an index. -/
def Plan.mcset? (p : Plan) (i : Nat) : Option PlanMcSet := p.mcsets.find? fun m => m.id == i

/-- The dispatch set of an index. -/
def Plan.dset? (p : Plan) (i : Nat) : Option PlanDispatch := p.dsets.find? fun m => m.id == i

/-- Why a set-tagged frame is refused before its set is looked at (R240, R243, R353, R375, R380). It names no
step, so a save answers it BUSY from its start on (DEDUCED, log entry 112). -/
def Job.setRefusal (j : Job) (gen : BitVec 4) : Option NackExt :=
  if j.stranded || j.unloading.isSome then some (nackPlain nackNoContext 0)
  else if (j.layout gen).isNone then some (nackPlain nackStaleLayout 0)
  else if j.cur.plan.gen != gen then some (nackPlain nackBusy 10)
  else if j.restoring || (match j.save with | some v => v.running | none => false) then some (nackPlain nackBusy 1000)
  else none

/-! ## Multicast (R201 to R206) -/

/-- Is a switch of the plan a switch of a multicast set: the APEX, or below it and above a source or a receiver (R201)? -/
def Plan.mcOn (p : Plan) (m : PlanMcSet) (w : PlanSwitch) : Bool :=
  w.index == m.apex || match p.sw? m.apex with
    | none => false
    | some a => decide (w.tier < a.tier) && p.above a w.place
        && (m.sources ++ m.recvs.map (·.1)).any fun r => p.above w (p.coordOf r)

/-- Multicast records a job may hold at a switch (R201, R205). -/
def Layout.mcCap (l : Layout) : Nat :=
  match l.me with
  | none => 0
  | some w => sumN ((l.plan.mcsets.filter fun m => l.plan.mcOn m w).map (·.mcRecords))

/-- The child switch through which a receiver is reached: the lowest-index switch one tier down, above the receiver, to
which this switch has links in the bank. -/
def State.childToward (s : State) (k : Bank) (l : Layout) (rank : Nat) : Option Nat :=
  match l.me with
  | none => none
  | some w =>
    (l.plan.switches.find? fun x =>
      x.tier + 1 == w.tier && l.plan.above x (l.plan.coordOf rank) && !(s.linksTo k x.flat).isEmpty).map (·.index)

/-- Where this switch replicates a multicast frame of a source (R202): its own members among the receivers, and the
children that lead to receivers; never the source itself. A copy may return to the child it climbed from (R206's example), so
R277's arrival port bars no copy. -/
def State.mcTargets (s : State) (k : Bank) (l : Layout) (m : PlanMcSet) (src : BitVec 24) : List SlotId :=
  let rs := (m.recvs.map (·.1)).filter fun r => l.plan.coordOf r != src
  let here (r : Nat) : Bool := match l.plan.leafSw r with | some w => w.index == l.self | none => false
  let mine := rs.filter fun r => here r && !k.fenced l.plan.job r
  let kids := ((rs.filter fun r => !here r).filterMap (s.childToward k l)).dedup
  mine.map .member ++ kids.map .child

/-- The copy of a frame for one target (R202). -/
def mcCopy (l : Layout) (m : PlanMcSet) (f : Frame) (x : SlotId) : Frame :=
  match x with
  | .child _ => f
  | .member r =>
    let base := ((m.recvs.find? fun e => e.1 == r).map (·.2)).getD 0
    { f with h := { f.h with dest := l.plan.coordOf r,
                             remoteAddr := BitVec.ofNat 64 (base + (setTag f.h.remoteAddr).offset) } }

/-- The port a copy leaves by; none where no usable port leads to the target. -/
def State.slotPort (s : State) (k : Bank) (l : Layout) (f : Frame) (x : SlotId) : Option Nat :=
  match x with
  | .child c => s.spray (s.linksTo k (((l.plan.sw? c).map (·.flat)).getD 0)) f.h
  | .member _ =>
    match s.route k f.h false with
    | .group ps => s.spray ps f.h
    | _ => none

/-- Copies with their ports; those without a usable port count as NO_ROUTE, which every die shows (R277). -/
def State.placeCopies (s : State) (k : Bank) (l : Layout) (xs : List (SlotId × Frame)) : List (Nat × Frame) × State :=
  let ps := xs.map fun x => (s.slotPort k l x.2 x.1, x.2)
  (ps.filterMap fun x => x.1.map fun p => (p, x.2),
   (ps.filter fun x => x.1.isNone).foldl (fun s _ => s.bumpDies F.ROUTE_DISCARDS_NO_ROUTE) s)

/-- The multicast record of a message. -/
def State.mc? (s : State) (h : BaseHdr) : Option McRecord := s.mcs.find? fun r => r.src == h.src && r.msgId == h.msgId

/-- Replace a record. -/
def State.setMc (s : State) (r : McRecord) : State :=
  { s with mcs := s.mcs.filter (fun x => !(x.src == r.src && x.msgId == r.msgId)) ++ [r] }

/-- Free a record. -/
def State.freeMc (s : State) (r : McRecord) : State :=
  { s with mcs := s.mcs.filter fun x => !(x.src == r.src && x.msgId == r.msgId) }

/-- A record whose bits are all clear: the ACK goes back over the link the copy arrived on, or from the APEX to SRC, and
the record is freed (R204). -/
def State.mcDone (s : State) (r : McRecord) : State :=
  if !r.owed.isEmpty then s
  else
    let apex := match (s.job? r.job).bind fun j => (j.cur.plan.mcset? r.set).map fun m => m.apex == j.cur.self with
      | some b => b
      | none => false
    let h := { r.hdr with attempt := r.attempt }
    (s.freeMc r).emit (if apex then .routed else .onPort r.inPort) (ackFor h (fabricAddr false)) none

/-- The frame's record: created by the first frame, its bits reset by a higher ATTEMPT; none where the job or the die has
no record left (R204, R205). The rule discards an acknowledgement below the record's ATTEMPT and says nothing of such a frame:
it is replicated, and keeps the record alive, as any other (DESIGN CHOICE, log entry 91). -/
def State.mcRecord (s : State) (p : Nat) (h : BaseHdr) (l : Layout) (m : PlanMcSet) (targets : List SlotId) : Option State :=
  match s.mc? h with
  | some r =>
    if r.attempt < h.attempt then
      some (s.setMc { r with attempt := h.attempt, hdr := h, inPort := p, owed := targets, nackPassed := false,
                             lastNs := s.ns })
    else some (s.setMc { r with lastNs := s.ns })
  | none =>
    if decide (l.mcCap ≤ (s.mcs.filter fun r => r.job == h.jobId).length)
        || decide (16384 ≤ (s.mcs.filter fun r => r.die == dieOf p).length) then none
    else
      some (s.setMc { die := dieOf p, job := h.jobId, set := m.id, src := h.src, msgId := h.msgId, attempt := h.attempt,
                      hdr := h, inPort := p, owed := targets, nackPassed := false, lastNs := s.ns })

/-- A multicast frame (R200, R202 to R205). -/
def State.mcFrame (s : State) (p : Nat) (f : Frame) (l : Layout) (m : PlanMcSet) : List (Nat × Frame) × State :=
  let d := dieOf p
  let t := setTag f.h.remoteAddr
  let ingress := s.isEndpoint p
  let k := s.dieBank d f.h.epoch
  let isSource := match l.plan.rankAt f.h.src with | some r => m.sources.contains r | none => false
  if ingress && (!isSource || decide (m.setBytes < t.offset + f.payload.length)) then
    ([], s.refuse p f.h (nackPlain nackNoContext 0) (some (F.SPIRE_EVENTS_SET_REFUSALS, d)))
  else if m.apex = l.self || (s.cable p).uplink then
    let targets := s.mcTargets k l m f.h.src
    match s.mcRecord p f.h l m targets with
    | none => ([], s.refuse p f.h (nackPlain nackBusy 5) (some (F.SPIRE_EVENTS_RECORD_BUSY, d)))
    | some s =>
      let (xs, s) := s.placeCopies k l (targets.map fun x => (x, mcCopy l m f x))
      (xs, match s.mc? f.h with | some r => s.mcDone r | none => s)
  else
    match (l.plan.sw? m.apex).bind fun a => s.spray (s.upToward k a.flat) f.h with
    | some q => if q = p then ([], s.bumpDies F.ROUTE_DISCARDS_NO_ROUTE) else ([(q, f)], s)
    | none => ([], s.bumpDies F.ROUTE_DISCARDS_NO_ROUTE)

/-- MC_RECORD_TIMEOUT (R205): the 500 µs without a frame or an acknowledgement have passed; the record is freed. -/
def execMcRecordTimeout (die : Nat) (src : BitVec 24) (msgId : BitVec 16) (s : State) : Host.Outcome State Fault Refusal :=
  match s.mcs.find? fun r => r.die == die && r.src == src && r.msgId == msgId with
  | none => .next s
  | some r => .next ((s.freeMc r).setFlag F.SPIRE_RECORDS_RECORD_TIMEOUT r.die true)

/-- Does this switch's record absorb an ACK or a NACK that came in on a port (R204, R206)? -/
def State.mcAbsorbs (s : State) (p : Nat) (h : BaseHdr) : Bool :=
  (h.ftype == 5#4 || h.ftype == 6#4) && !h.amode && !(s.cable p).uplink
    && s.mcs.any fun r => r.src == h.dest && r.msgId == h.msgId && r.job == h.jobId

/-- The record an absorbed ACK or NACK belongs to. -/
def State.mcFor (s : State) (h : BaseHdr) : Option McRecord :=
  s.mcs.find? fun r => r.src == h.dest && r.msgId == h.msgId && r.job == h.jobId

/-- Who sent a frame that came in on a port, as a slot of a layout. -/
def State.slotOn (s : State) (l : Layout) (p : Nat) (src : BitVec 24) : Option SlotId :=
  if (s.cable p).role == .switch then (s.childOn l p).map .child else (l.plan.rankAt src).map .member

/-- An acknowledgement for a record (R204). -/
def State.mcAck (s : State) (p : Nat) (h : BaseHdr) (r : McRecord) : State :=
  if h.attempt < r.attempt then s
  else
    match (s.job? r.job).bind fun j => s.slotOn j.cur p h.src with
    | none => s
    | some w =>
      let r := { r with owed := r.owed.filter (· != w), lastNs := s.ns }
      (s.setMc r).mcDone r

/-- A NACK for a record: the first of an attempt is passed on to SRC, the others are discarded (R206). -/
def State.mcNack (s : State) (f : Frame) (r : McRecord) : State :=
  if f.h.attempt < r.attempt || r.nackPassed then s
  else (s.setMc { r with nackPassed := true, lastNs := s.ns }).passOn .routed f

/-- A fenced receiver's bit drops from every record of the job (R206). -/
def State.mcDrop (s : State) (job : BitVec 12) (w : SlotId) : State :=
  (s.mcs.filter fun r => r.job == job && r.owed.contains w).foldl (fun s r =>
    let r := { r with owed := r.owed.filter (· != w) }
    (s.setMc r).mcDone r) s

/-! ## Dispatch: slots and quotas (R208 to R214) -/

/-- First-round quota of a source (R210). -/
def PlanDispatch.quota (d : PlanDispatch) (src : Nat) : Nat :=
  let n := d.sources.length
  if src < d.cap % n then d.cap / n + 1 else d.cap / n

/-- First slot of a source (R210). -/
def PlanDispatch.base (d : PlanDispatch) (src : Nat) : Nat :=
  let n := d.sources.length
  src * (d.cap / n) + min src (d.cap % n)

/-- Source rank of a coordinate. -/
def PlanDispatch.sourceAt (d : PlanDispatch) (p : Plan) (c : BitVec 24) : Option Nat :=
  (p.rankAt c).bind fun r => d.sources.findIdx? (· == r)

/-- Frames of one token (R209). -/
def PlanDispatch.parts (d : PlanDispatch) : Nat := ceilDiv d.tokenBytes 4096

/-- Is a source of a set not fenced in a bank? -/
def Bank.sourceOk (k : Bank) (job : BitVec 12) (d : PlanDispatch) (src : Nat) : Bool :=
  match d.sources[src]? with | some r => !k.fenced job r | none => false

/-- Is a source still to be heard: its member not fenced in the current bank? -/
def State.sourceAlive (s : State) (job : BitVec 12) (d : PlanDispatch) (src : Nat) : Bool := s.curBank.sourceOk job d src

/-- Grants recorded at the ingress leaf for a token; those of instances 16 or more away are forgotten (assumption 11). -/
def Job.grantOf (j : Job) (set : Nat) (inst : BitVec 8) (src dest e : Nat) : Nat :=
  match j.grants.find? fun g => g.set == set && g.inst == inst.toNat && g.source == src && g.dest == dest with
  | some g => nth g.grants e 0
  | none => 0

/-- Is an instance within 16 of another, modulo 256? -/
def instNear (a b : BitVec 8) : Bool := decide ((a - b).toNat < 16) || decide ((b - a).toNat < 16)

/-- Record a grant (R215). -/
def Job.putGrant (j : Job) (g : GrantRec) : Job :=
  { j with grants := j.grants.filter (fun x =>
      !(x.set == g.set && x.source == g.source && x.dest == g.dest
        && (x.inst == g.inst || !instNear (BitVec.ofNat 8 x.inst) (BitVec.ofNat 8 g.inst)))) ++ [g] }

/-- Grants of far instances go as a source's frame of an instance passes. -/
def Job.ageGrants (j : Job) (set src : Nat) (inst : BitVec 8) : Job :=
  { j with grants := j.grants.filter fun x =>
      !(x.set == set && x.source == src && !instNear (BitVec.ofNat 8 x.inst) inst) }

/-- Lowest instance that has not closed at the egress leaf. -/
def Job.winBase (j : Job) (set dest : Nat) : BitVec 8 :=
  ((j.winBases.find? fun x => x.1 == set && x.2.1 == dest).map (·.2.2)).getD 0

/-- An instance's record at the egress leaf. -/
def Job.inst? (j : Job) (set : Nat) (inst : BitVec 8) (dest : Nat) : Option DispInst :=
  j.insts.find? fun x => x.set == set && x.inst == inst && x.dest == dest

/-- Write an instance's record. -/
def Job.setInst (j : Job) (x : DispInst) : Job :=
  { j with insts := j.insts.filter (fun y => !(y.set == x.set && y.inst == x.inst && y.dest == x.dest)) ++ [x] }

/-- A fresh instance. -/
def DispInst.fresh (set : Nat) (inst : BitVec 8) (dest ns : Nat) : DispInst :=
  { set := set, inst := inst, dest := dest, phase := .collecting, ends := [], second := [], granted := [],
    secondRan := false, reduced := false, pendingWrites := 0, opened := ns, stragglerSent := false }

/-- The END of a source and round. -/
def DispInst.endOf (x : DispInst) (src round : Nat) : Option EndRec :=
  x.ends.find? fun e => e.source == src && e.round == round

/-- n_s,e of a source: 0 where its END has not come. -/
def DispInst.count (x : DispInst) (src round e : Nat) : Nat :=
  match x.endOf src round with | some r => nth r.counts e 0 | none => 0

/-- The slot of an admitted token (R210, R213, R214). -/
def Job.tokenSlot (j : Job) (d : PlanDispatch) (t : SetTag) (src : Nat) : Option Nat :=
  if t.order < d.quota src then some (d.base src + t.order)
  else
    (j.inst? d.id t.inst t.dest).bind fun x =>
      (x.second.find? fun y => y.1 == t.expert && y.2.2.1 == src && y.2.2.2 == t.order).map (·.2.1)

/-- The rewritten token (R213). -/
def tokenCopy (l : Layout) (d : PlanDispatch) (dst : DispatchDest) (t : SetTag) (slot : Nat) (f : Frame) : Frame :=
  { f with h := { f.h with dest := l.plan.coordOf dst.rank,
                           remoteAddr := BitVec.ofNat 64 (dst.buf + (t.expert * d.cap + slot) * d.tokenBytes + t.part * 4096) } }

/-- Acknowledge a message that the switch takes in a receiver's place, once its good frames make it whole (R56, R211). -/
def State.ackWhole (s : State) (p : Nat) (f : Frame) : State :=
  if !tailGood f then s
  else
  match s.receive p f with
  | (.complete, s) => s.ack p f.h
  | (.again, s) => s.ack p f.h
  | (_, s) => s

/-- A dispatch frame at the ingress leaf: none where it is dropped, with its ACK (R211). R211 names tokens; an END bound for a
fenced destination is dropped and acknowledged too, and counted nowhere (DESIGN CHOICE, log entry 92). -/
def State.tokenIngress (s : State) (p : Nat) (f : Frame) (j : Job) (d : PlanDispatch) (dst : DispatchDest) (t : SetTag)
    (src : Nat) : Bool × State :=
  let die := dieOf p
  let s := s.mapJob j.id fun j => j.ageGrants d.id src t.inst
  let first (s : State) (fl : Fld) : State := if t.part = 0 then s.bump fl die else s
  if (s.bank f.h.epoch).fenced j.id dst.rank then (false, (first s F.DISPATCH_EVENTS_FENCED_DROPS).ackWhole p f)
  else if t.part != 3 && decide (d.quota src + j.grantOf d.id t.inst src t.dest t.expert ≤ t.order) then
    (false, (first s F.DISPATCH_EVENTS_DISPATCH_DROPS).ackWhole p f)
  else (true, s)

/-- The egress leaf knows of an instance from its first token on (R218: a fence from then on is a fence during it). -/
def State.knowInst (s : State) (job : BitVec 12) (set : Nat) (inst : BitVec 8) (dest : Nat) : State :=
  s.mapJob job fun j => match j.inst? set inst dest with
    | some _ => j
    | none => j.setInst (DispInst.fresh set inst dest s.ns)

/-- A frame on its way to a port, where it has one that it did not come in on (R277). -/
def State.onward (s : State) (p : Nat) (f : Frame) (q : Option Nat) : List (Nat × Frame) × State :=
  match q with
  | none => ([], s.bumpDies F.ROUTE_DISCARDS_NO_ROUTE)
  | some q => if q = p then ([], s.bumpDies F.ROUTE_DISCARDS_NO_ROUTE) else ([(q, f)], s)

/-- A dispatch frame (R199, R211, R213): toward the destination's leaf, or there onto the destination's port. Membership is
checked in the bank of the frame's epoch (R284). A tag whose DEST_RANK, EXPERT or PART the set does not have is none of R200's
three cases; it is refused like them (DESIGN CHOICE, log entry 90). -/
def State.dispatchFrame (s : State) (p : Nat) (f : Frame) (j : Job) (l : Layout) (d : PlanDispatch) :
    List (Nat × Frame) × State :=
  let die := dieOf p
  let t := setTag f.h.remoteAddr
  let ingress := s.isEndpoint p
  match d.dests[t.dest]?, d.sourceAt l.plan f.h.src with
  | some dst, some src =>
    if decide (d.experts ≤ t.expert) || (t.part != 3 && decide (d.parts ≤ t.part)) then
      ([], s.refuse p f.h (nackPlain nackNoContext 0) (some (F.SPIRE_EVENTS_SET_REFUSALS, die)))
    else
      let (go, s) := if ingress then s.tokenIngress p f j d dst t src else (true, s)
      if !go then ([], s)
      else
        let k := s.dieBank die f.h.epoch
        let to_ := { f.h with dest := l.plan.coordOf dst.rank }
        let mine := match l.plan.leafSw dst.rank with | some w => w.index == l.self | none => false
        if !mine then
          match s.route k to_ (s.cable p).uplink with
          | .group ps => s.onward p f (s.spray ps f.h)
          | .violation => ([], s.bumpDies F.ROUTE_DISCARDS_ROUTE_VIOLATIONS)
          | _ => ([], s.bumpDies F.ROUTE_DISCARDS_NO_ROUTE)
        else if t.part = 3 then ([], s)
        else if !k.sourceOk j.id d src then ([], s)
        else if decide (d.window ≤ (t.inst - j.winBase d.id t.dest).toNat) then
          ([], s.refuse p f.h (nackPlain nackBusy 10) none)
        else
          let s := s.knowInst j.id d.id t.inst t.dest
          match j.tokenSlot d t src with
          | none => ([], s)
          | some slot =>
            let g := tokenCopy l d dst t slot f
            s.onward p g (s.slotPort k l g (.member dst.rank))
  | _, _ => ([], s.refuse p f.h (nackPlain nackNoContext 0) (some (F.SPIRE_EVENTS_SET_REFUSALS, die)))

/-- The spire's handling of a set-tagged frame: the copies to enqueue, each with its port (R199 to R213, R243). -/
def State.setTagged (s : State) (p : Nat) (f : Frame) : List (Nat × Frame) × State :=
  let d := dieOf p
  let refusal : State := s.refuse p f.h (nackPlain nackNoContext 0) (some (F.SPIRE_EVENTS_SET_REFUSALS, d))
  match s.job? f.h.jobId with
  | none => ([], refusal)
  | some j =>
    match j.setRefusal f.h.layoutGen with
    | some x => ([], s.refuse p f.h x none)
    | none =>
      let t := setTag f.h.remoteAddr
      match j.cur.plan.mcset? t.set, j.cur.plan.dset? t.set with
      | some m, _ => s.mcFrame p f j.cur m
      | none, some e => s.dispatchFrame p f j j.cur e
      | none, none => ([], refusal)

/-! ## Second chance and closing (R214 to R217) -/

/-- Surviving sources of a set. -/
def State.aliveSources (s : State) (job : BitVec 12) (d : PlanDispatch) : List Nat :=
  (List.range d.sources.length).filter (s.sourceAlive job d)

/-- Unused slots of an expert in the first round, ascending (R214, R218). -/
def DispInst.unused (x : DispInst) (d : PlanDispatch) (e : Nat) : List Nat :=
  ((List.range d.sources.length).map fun src =>
    ((List.range (d.quota src)).filter fun t => x.count src 1 e ≤ t).map fun t => d.base src + t).flatten

/-- The second-chance slots of an expert: (expert, slot, source, ORDER) (R214). -/
def secondSlots (d : PlanDispatch) (x : DispInst) (e : Nat) : List Nat → List Nat → List (Nat × Nat × Nat × Nat)
  | [], _ => []
  | src :: rest, free =>
    let more := x.count src 1 e - d.quota src
    let g := min more free.length
    ((free.take g).zipIdx.map fun y => (e, y.1, src, d.quota src + y.2)) ++ secondSlots d x e rest (free.drop g)

/-- The grant of a source for an expert. -/
def DispInst.grantOf (x : DispInst) (src e : Nat) : Nat :=
  (x.second.filter fun y => y.1 == e && y.2.2.1 == src).length

/-- The DISPATCH_GRANT payload (R215). -/
def grantBytes (d : PlanDispatch) (x : DispInst) (src : Nat) : List Byte :=
  padTo 8 (leBytes 2 0x44 ++ leBytes 2 d.id ++ leBytes 1 x.inst.toNat ++ zeros 3 ++ leBytes 2 x.dest ++ zeros 6
    ++ ((List.range d.experts).map fun e => leBytes 2 (x.grantOf src e)).flatten)

/-- The grants a DISPATCH_GRANT payload carries, as the ingress leaf records them. -/
def grantRec (d : PlanDispatch) (src : Nat) (payload : List Byte) : GrantRec :=
  { set := d.id, inst := leAt payload 4 1, source := src, dest := leAt payload 8 2,
    grants := (List.range d.experts).map fun e => leAt payload (16 + 2 * e) 2 }

/-- Send a DISPATCH_GRANT to a source; where this switch is the source's leaf too, the grant is in force as the frame
passes (R215). -/
def State.sendGrant (s : State) (l : Layout) (d : PlanDispatch) (x : DispInst) (src : Nat) : State :=
  match d.sources[src]? with
  | none => s
  | some rank =>
    let pay := grantBytes d x src
    let here := match l.plan.leafSw rank with | some w => w.index == l.self | none => false
    let s := if here then s.mapJob l.plan.job fun j => j.putGrant (grantRec d src pay) else s
    s.send .routed [mgmtFrame false (l.plan.coordOf rank) (fabricAddr false) l.plan.job l.plan.gen pay]
      (some l.plan.job) (some rank) .grant

/-- The KIND, source and ORDER of a slot of an expert: none where it is padded (R216). -/
def DispInst.slotOf (x : DispInst) (d : PlanDispatch) (e k : Nat) : Option (Nat × Nat × Nat) :=
  let first := (List.range d.sources.length).find? fun src => decide (d.base src ≤ k) && decide (k < d.base src + d.quota src)
  match x.second.find? fun y => y.1 == e && y.2.1 == k with
  | some y =>
    if y.2.2.2 - d.quota y.2.2.1 < x.count y.2.2.1 2 e then some (2, y.2.2.1, y.2.2.2) else none
  | none =>
    first.bind fun src => if k - d.base src < x.count src 1 e then some (1, src, k - d.base src) else none

/-- Every slot with its content, expert by expert. -/
def DispInst.slots (x : DispInst) (d : PlanDispatch) : List (Option (Nat × Nat × Nat)) :=
  ((List.range d.experts).map fun e => (List.range d.cap).map (x.slotOf d e)).flatten

/-- A WRITE message of the switch's own: its payload in frames of at most 4,096 bytes (R29, R216). -/
def writeFrames (vc : BitVec 3) (dest : BitVec 24) (job : BitVec 12) (gen : BitVec 4) (addr : Nat) (bytes : List Byte) :
    List Frame :=
  (chunksOf 4096 (ceilDiv bytes.length 4096) bytes).zipIdx.map fun x =>
    { h := { zeroHdr with ftype := 1, vc := vc, dest := dest, src := fabricAddr false, jobId := job, layoutGen := gen,
                          remoteAddr := BitVec.ofNat 64 (addr + 4096 * x.2) }
      ext := .none, payload := x.1, t := zeroTrailer }

/-- The word of a map entry (R216). -/
def mapWord : Option (Nat × Nat × Nat) → Nat
  | none => 0
  | some (k, src, ord) => k * 2 ^ 30 + src * 2 ^ 14 + ord

/-- Σ max(0, n − q − g) over surviving sources and experts (R217). -/
def State.dropped (s : State) (job : BitVec 12) (d : PlanDispatch) (x : DispInst) : Nat :=
  sumN ((s.aliveSources job d).map fun src =>
    sumN ((List.range d.experts).map fun e => x.count src 1 e - d.quota src - x.grantOf src e))

/-- The DONE record (R217). -/
def State.doneBytes (s : State) (job : BitVec 12) (d : PlanDispatch) (x : DispInst) : List Byte :=
  let ks := (x.slots d).map fun y => (y.map (·.1)).getD 0
  let n (k : Nat) : Nat := (ks.filter (· == k)).length
  leBytes 2 d.id ++ leBytes 1 x.inst.toNat ++ leBytes 1 (b2n x.reduced + 2 * b2n x.secondRan)
    ++ leBytes 4 (n 1) ++ leBytes 4 (n 2) ++ leBytes 4 (n 0) ++ leBytes 4 (s.dropped job d x) ++ zeros 44

/-- The fabric die of a destination's port: the die that counts as egress leaf. -/
def State.dieOfCoord (s : State) (c : BitVec 24) : Nat :=
  match s.ports.find? fun x => (s.cable x.num).role == .endpoint && (s.cable x.num).coord == c with
  | some x => dieOf x.num
  | none => 0

/-- Close an instance: the padding of every unfilled slot, then the slot map (R216). A fenced destination is written
nothing (R218). -/
def State.closeInst (s : State) (l : Layout) (d : PlanDispatch) (dst : DispatchDest) (x : DispInst) : State :=
  let job := l.plan.job
  let dest := l.plan.coordOf dst.rank
  let why : Purpose := .dispatchWrite d.id x.inst x.dest
  let sl := x.slots d
  let holes := (sl.zipIdx.filter fun y => y.1.isNone).map (·.2)
  let reduced := x.reduced || decide ((s.aliveSources job d).length < d.sources.length)
  let s := s.mapJob job fun j => j.setInst { x with phase := .closing, reduced := reduced, pendingWrites := holes.length + 1 }
  let s := s.bumpBy F.DISPATCH_CLOSES_PADDED_SLOTS (s.dieOfCoord dest) holes.length
  let s := holes.foldl (fun s i =>
    s.send .routed (writeFrames 6 dest job l.plan.gen (dst.buf + i * d.tokenBytes) (zeros d.tokenBytes)) (some job)
      (some dst.rank) why) s
  s.send .routed (writeFrames 6 dest job l.plan.gen dst.map ((sl.map fun y => leBytes 4 (mapWord y)).flatten)) (some job)
    (some dst.rank) why

/-- Go on with an instance as far as the ENDs held allow (R214, R216). -/
def State.dispatchGo (s : State) (l : Layout) (d : PlanDispatch) (inst : BitVec 8) (dest : Nat) : State :=
  match (s.job? l.plan.job).bind fun j => j.inst? d.id inst dest, d.dests[dest]? with
  | some x, some dst =>
    let alive := s.aliveSources l.plan.job d
    if s.curBank.fenced l.plan.job dst.rank then s
    else
      match x.phase with
      | .collecting =>
        if !(alive.all fun src => (x.endOf src 1).isSome) then s
        else if !d.second then s.closeInst l d dst x
        else
          let sec := ((List.range d.experts).map fun e => secondSlots d x e alive (x.unused d e)).flatten
          let granted := alive.filter fun src => sec.any fun y => y.2.2.1 == src
          let more := alive.filter fun src => (List.range d.experts).any fun e => decide (d.quota src < x.count src 1 e)
          let x := { x with second := sec, granted := granted, secondRan := true, phase := .second }
          let s := s.mapJob l.plan.job fun j => j.setInst x
          let s := s.bumpBy F.DISPATCH_CLOSES_GRANTED_SLOTS (s.dieOfCoord (l.plan.coordOf dst.rank)) sec.length
          let s := more.foldl (fun s src => s.sendGrant l d x src) s
          if granted.isEmpty then s.closeInst l d dst x else s
      | .second =>
        if (x.granted.filter alive.contains).all fun src => (x.endOf src 2).isSome then s.closeInst l d dst x else s
      | _ => s
  | _, _ => s

/-- A padding or map write is acknowledged; after the last, the DONE record is written (R216). -/
def State.dispatchWritten (s : State) (job : BitVec 12) (set : Nat) (inst : BitVec 8) (dest : Nat) : State :=
  match s.job? job with
  | none => s
  | some j =>
    match j.inst? set inst dest, j.cur.plan.dset? set with
    | some x, some d =>
      match d.dests[dest]? with
      | none => s
      | some dst =>
        let x := { x with pendingWrites := x.pendingWrites - 1 }
        let s := s.mapJob job fun j => j.setInst x
        if x.phase != .closing || x.pendingWrites != 0 || s.curBank.fenced job dst.rank then s
        else
          s.send .routed (writeFrames 6 (j.cur.plan.coordOf dst.rank) job j.cur.plan.gen dst.doneAddr (s.doneBytes job d x))
            (some job) (some dst.rank) (.dispatchDone set inst dest)
    | _, _ => s

/-- The window moves past the instances that are done. R213 does not say which instances are open: here the window starts at
instance 0 of a layout and moves on past an instance, in order, once its DONE has been acknowledged (DESIGN CHOICE, log entry
94). -/
def Job.advanceWin (j : Job) (set dest : Nat) : Nat → Job
  | 0 => j
  | n + 1 =>
    let b := j.winBase set dest
    match j.inst? set b dest with
    | some x =>
      if x.phase = .done then
        Job.advanceWin
          { j with insts := j.insts.filter (fun y => !(y.set == set && y.dest == dest && y.inst == b)),
                   winBases := j.winBases.filter (fun y => !(y.1 == set && y.2.1 == dest)) ++ [(set, dest, b + 1)] }
          set dest n
      else j
    | none => j

/-- The DONE record is acknowledged: the instance is over. -/
def State.dispatchDone (s : State) (job : BitVec 12) (set : Nat) (inst : BitVec 8) (dest : Nat) : State :=
  s.mapJob job fun j =>
    match j.inst? set inst dest with
    | none => j
    | some x => (j.setInst { x with phase := .done }).advanceWin set dest 16

/-! ## The commands -/

/-- Record an END (R212, R218). -/
def State.recordEnd (s : State) (l : Layout) (d : PlanDispatch) (t : SetTag) (src : Nat) (payload : List Byte) : State :=
  let job := l.plan.job
  let round := leAt payload 0 1
  match s.job? job with
  | none => s
  | some j =>
    let x := (j.inst? d.id t.inst t.dest).getD (DispInst.fresh d.id t.inst t.dest s.ns)
    if (round != 1 && round != 2) || (x.endOf src round).isSome then s
    else
      let e : EndRec := ⟨src, round, (List.range d.experts).map fun e => leAt payload (8 + 2 * e) 2⟩
      (s.mapJob job fun j => j.setInst { x with ends := x.ends ++ [e] }).dispatchGo l d t.inst t.dest

/-- An END at the egress leaf. One whose source or destination is fenced, in the bank of its epoch or by now, is discarded
(R218, R284). R213 names tokens; an END whose instance lies ahead of the window draws NACK BUSY with hint 10 as well, and one
behind it is acknowledged (DESIGN CHOICE, log entry 93). -/
def State.endIn (s : State) (p : Nat) (f : Frame) : State :=
  match s.job? f.h.jobId with
  | none => s
  | some j =>
    let l := j.cur
    let t := setTag f.h.remoteAddr
    if (j.setRefusal f.h.layoutGen).isSome || t.part != 3 then s
    else
      match l.plan.dset? t.set with
      | none => s
      | some d =>
        match d.dests[t.dest]?, d.sourceAt l.plan f.h.src with
        | some dst, some src =>
          let mine := match l.plan.leafSw dst.rank with | some w => w.index == l.self | none => false
          let ahead := (t.inst - j.winBase d.id t.dest).toNat
          if !mine || s.curBank.fenced j.id dst.rank || !s.sourceAlive j.id d src
              || !(s.bank f.h.epoch).sourceOk j.id d src then s
          else if 128 ≤ ahead then s.ackWhole p f
          else if d.window ≤ ahead then s.refuse p f.h (nackPlain nackBusy 10) none
          else
            match s.receive p f with
            | (.complete, s) => (s.recordEnd l d t src f.payload).ack p f.h
            | (.again, s) => s.ack p f.h
            | (_, s) => s
        | _, _ => s

/-- DISPATCH_END (R212). -/
def execDispatchEnd (port : Nat) (f : Frame) (s : State) : Host.Outcome State Fault Refusal :=
  if s.queuedBehind .firmware port f then .next s else
  let s := s.takeFrom .firmware port f
  if tailGood f && isSetTagged f.h then .next (s.endIn port f) else .next s

/-- The ingress leaf records the grants of a DISPATCH_GRANT on its last hop (R215). -/
def State.grantIn (s : State) (f : Frame) : State :=
  match s.job? f.h.jobId with
  | none => s
  | some j =>
    let l := j.cur
    match l.plan.dset? (leAt f.payload 2 2 % 4096) with
    | none => s
    | some d =>
      match d.sourceAt l.plan f.h.dest with
      | none => s
      | some src =>
        let here := match d.sources[src]?.bind l.plan.leafSw with | some w => w.index == l.self | none => false
        if here then s.mapJob j.id fun j => j.putGrant (grantRec d src f.payload) else s

/-- DISPATCH_GRANT (R215). -/
def execDispatchGrant (_port : Nat) (f : Frame) (s : State) : Host.Outcome State Fault Refusal :=
  if tailGood f && f.h.ftype == 8#4 && mgmtKind f == 0x44 then .next (s.grantIn f) else .next s

/-! ## Fences (R211, R218) -/

/-- A fence of a member reaches the dispatch instances at this switch: each open one is marked reduced and goes on as
far as the remaining sources allow. -/
def State.dispatchFence (s : State) (job : BitVec 12) : State :=
  match s.job? job with
  | none => s
  | some j =>
    let s := s.mapJob job fun j => { j with insts := j.insts.map fun x => { x with reduced := true } }
    (j.insts.map fun x => (x.set, x.inst, x.dest)).foldl (fun s k =>
      match j.cur.plan.dset? k.1 with
      | some d => s.dispatchGo j.cur d k.2.1 k.2.2
      | none => s) s

end Sys2Proof.Machine
end

