-- ==== Sys2Proof/Machine/Landing.lean ====
section
/-! DEFINITION. Landing: checkpoint shards in a switch's LPDDR (spec/14_failure_survival.md R365 to R374). -/
namespace Sys2Proof.Machine

open Sys2Proof

/-! ## Tags and slots -/

/-- The landing tag (R365). -/
structure LandTag where
  op : Nat
  slot : Nat
  offset : Nat
  deriving DecidableEq, Repr

/-- Read a landing tag. -/
def landTag (a : BitVec 64) : LandTag := ⟨bitsOf a.toNat 63 60, bitsOf a.toNat 59 58, bitsOf a.toNat 39 0⟩

/-- Is a frame a landing request to this switch (R365)? -/
def isLanding (own : BitVec 24) (h : BaseHdr) : Bool :=
  h.ftype == 1#4 && h.vc == 7#3 && (if h.amode then h.dest == own || h.dest == 0xFFFFFF else h.dest == fabricAddr false)

/-- The switch's own owner rank (R364). -/
def switchOwner : Nat := 0x3FFFF

/-- The landing of a job. -/
def State.landing? (s : State) (job : BitVec 12) : Option Landing := s.landings.find? fun x => x.job == job

/-- Replace a landing. -/
def State.mapLanding (s : State) (job : BitVec 12) (g : Landing → Landing) : State :=
  { s with landings := s.landings.map fun x => if x.job = job then g x else x }

/-- The shard of an owner in a slot. -/
def Landing.shard? (x : Landing) (owner : Nat) (gen : BitVec 4) (slot : Nat) : Option Shard :=
  x.shards.find? fun y => y.owner == owner && y.gen == gen && y.slot == slot

/-- Free the shard of an owner in a slot. -/
def Landing.free (x : Landing) (owner : Nat) (gen : BitVec 4) (slot : Nat) : Landing :=
  { x with shards := x.shards.filter fun y => !(y.owner == owner && y.gen == gen && y.slot == slot) }

/-- Put a shard. -/
def Landing.put (x : Landing) (y : Shard) : Landing :=
  { x.free y.owner y.gen y.slot with shards := (x.free y.owner y.gen y.slot).shards ++ [y] }

/-- Bytes held by shards (R374). -/
def Landing.held (x : Landing) : Nat := sumN (x.shards.map fun y => roundUp y.bytes 64)

/-- First-fit allocation for an owner's slot, its previous shard counted as free (R367). -/
def Landing.place (x : Landing) (owner : Nat) (gen : BitVec 4) (slot bytes : Nat) : Option Nat :=
  firstFit ((x.free owner gen slot).shards.map fun y => (y.base, roundUp y.bytes 64)) x.bytes (roundUp bytes 64)

/-- The bytes of a shard: those written, and a free value for every other (R367). -/
def Shard.content (y : Shard) : List Byte :=
  (List.range y.bytes).map fun i => match sget i y.data with | some b => b | none => Config.freeShardByte y.draw i

/-- A shard as OPEN makes it. -/
def Shard.fresh (owner : Nat) (gen : BitVec 4) (slot base bytes : Nat) (step : BitVec 32) (draw : Nat) : Shard :=
  { owner := owner, gen := gen, slot := slot, state := .openS, base := base, bytes := bytes, step := step, digest := [],
    dataPos := [], data := [], draw := draw }

/-- Write bytes at an offset. -/
def Shard.write (y : Shard) (off : Nat) (bs : List Byte) : Shard :=
  { y with data := bs.zipIdx.foldl (fun m e => sput (off + e.2) e.1 m) y.data }

/-- Store bytes at an offset of a shard: in its record, and in the landing partition where the shard lies (R365, R429). -/
def State.storeShard (s : State) (job : BitVec 12) (owner : Nat) (gen : BitVec 4) (slot off : Nat) (bs : List Byte) : State :=
  match s.landing? job with
  | none => s
  | some x =>
    match x.shard? owner gen slot with
    | none => s
    | some y => (s.writeMem (x.base + y.base + off) bs).mapLanding job fun x => x.put (y.write off bs)

/-! ## Status records (R366, R372) -/

/-- CODE values of R372. -/
inductive LandCode where
  | ok | noSpace | notCommitted | digestMismatch | noShard | corrupt | stepMismatch
  deriving DecidableEq, Repr

/-- The code's number. -/
def LandCode.num : LandCode → Nat
  | .ok => 0
  | .noSpace => 1
  | .notCommitted => 2
  | .digestMismatch => 3
  | .noShard => 4
  | .corrupt => 5
  | .stepMismatch => 6

/-- The 160 bytes of a status record. -/
def landStatus (op slot : Nat) (code : LandCode) (step : BitVec 32) (bytes owner : Nat) (gen : BitVec 4)
    (digest dataPos : List Byte) : List Byte :=
  let ok := code = .ok
  leBytes 1 op ++ leBytes 1 slot ++ leBytes 2 code.num ++ leBytes 4 step.toNat ++ leBytes 8 bytes
    ++ leBytes 4 (owner + gen.toNat * 2 ^ 18) ++ zeros 12 ++ (if ok then sliceB digest 0 64 else zeros 64)
    ++ (if ok then sliceB dataPos 0 64 else zeros 64)

/-- Write a status record to a member's STATUS_ADDR (R366). -/
def State.landReply (s : State) (l : Layout) (rank : Option Nat) (dest : BitVec 24) (addr : Nat) (bytes : List Byte) :
    State :=
  s.send .routed (writeFrames 7 dest l.plan.job l.plan.gen addr bytes) (some l.plan.job) rank .plain

/-- The member that a landing request comes from: by coordinate, or by flat ID in flat mode (R32, R365). -/
def Plan.senderOf (p : Plan) (h : BaseHdr) : Option Nat :=
  if h.amode then p.members.findIdx? fun m => m.flat == h.src else p.rankAt h.src

/-- What a landing request is taken as. -/
inductive LandReq where
  | refuse
  | take (j : Job) (x : Landing) (rank : Nat) (t : LandTag)
  deriving DecidableEq, Repr

/-- Judge a landing request (R365). LAYOUT_GEN of the frame is not looked at (R243). -/
def State.landReq (s : State) (f : Frame) : LandReq :=
  match s.job? f.h.jobId, s.landing? f.h.jobId with
  | some j, some x =>
    let t := landTag f.h.remoteAddr
    match j.cur.plan.senderOf f.h with
    | none => .refuse
    | some r =>
      if 4 < t.op then .refuse
      else if t.op = 0 then
        match x.shard? r j.cur.plan.gen t.slot with
        | some y =>
          if y.state != .openS || decide (y.bytes < t.offset + f.payload.length) then .refuse else .take j x r t
        | none => .refuse
      else .take j x r t
  | _, _ => .refuse

/-- NACK NO_CONTEXT to a landing request. -/
def State.landRefuse (s : State) (p : Nat) (f : Frame) : State := s.nack p f.h (nackPlain nackNoContext 0)

/-- Take a landing request of one operation: refused, counted, or carried out once its message is complete (R56, R365,
R366). -/
def State.landing (s : State) (p : Nat) (f : Frame) (op : Nat)
    (act : State → Job → Landing → Nat → LandTag → State) : State :=
  if !isLanding s.image.ownFlat f.h then s
  else if (s.rxOf p f.h).done then s.ack p f.h
  else
    match s.landReq f with
    | .refuse => s.landRefuse p f
    | .take j x r t =>
      if t.op != op then s
      else
        match s.receive p f with
        | (.complete, s) => (act s j x r t).ack p f.h
        | (.again, s) => s.ack p f.h
        | (_, s) => s

/-! ## The operations -/

/-- LANDING_DATA (R365): every good frame's bytes are stored at OFFSET, and the message is acknowledged once complete. -/
def execLandingData (port : Nat) (f : Frame) (s : State) : Host.Outcome State Fault Refusal :=
  if s.queuedBehind .firmware port f then .next s else
  let s := s.takeFrom .firmware port f
  if !tailGood f then .next s
  else
    let s' := match s.landReq f with
      | .take j _ r t =>
        if isLanding s.image.ownFlat f.h && t.op == 0 && !(s.rxOf port f.h).done then
          s.storeShard j.id r j.cur.plan.gen t.slot t.offset f.payload
        else s
      | .refuse => s
    .next (s'.landing port f 0 fun s _ _ _ _ => s)

/-- OPEN (R367). -/
def State.landOpen (s : State) (f : Frame) (j : Job) (x : Landing) (r : Nat) (t : LandTag) : State :=
  let gen := j.cur.plan.gen
  let step := BitVec.ofNat 32 (leAt f.payload 0 4)
  let bytes := leAt f.payload 8 8
  let status := leAt f.payload 16 8
  let reply (s : State) (c : LandCode) : State :=
    s.landReply j.cur (some r) (j.cur.plan.coordOf r) status (landStatus 1 t.slot c step bytes r gen (zeros 64) (zeros 64))
  match x.place r gen t.slot bytes with
  | none => reply s .noSpace
  | some base =>
    let (k, s) := s.draw1
    reply (s.mapLanding j.id fun x => x.put (Shard.fresh r gen t.slot base bytes step k)) .ok

/-- LANDING_OPEN (R367). -/
def execLandingOpen (port : Nat) (f : Frame) (s : State) : Host.Outcome State Fault Refusal :=
  if s.queuedBehind .firmware port f then .next s else
  let s := s.takeFrom .firmware port f
  if tailGood f then .next (s.landing port f 1 fun s j x r t => s.landOpen f j x r t) else .next s

/-- SEAL (R368): its checks, then SEALING, and the shard is hashed. -/
def State.landSeal (s : State) (f : Frame) (j : Job) (x : Landing) (r : Nat) (t : LandTag) : State :=
  let gen := j.cur.plan.gen
  let step := BitVec.ofNat 32 (leAt f.payload 0 4)
  let status := leAt f.payload 8 8
  let reply (s : State) (c : LandCode) (bytes : Nat) : State :=
    s.landReply j.cur (some r) (j.cur.plan.coordOf r) status (landStatus 2 t.slot c step bytes r gen (zeros 64) (zeros 64))
  match x.shard? r gen t.slot with
  | none => reply s .noShard 0
  | some y =>
    if y.state != .openS then reply s .noShard y.bytes
    else if !j.committed step then reply s .notCommitted y.bytes
    else
      let o : SealOp :=
        { owner := r, gen := gen, slot := t.slot, draw := y.draw, step := step, bytes := y.bytes,
          digest := sliceB f.payload 16 64, dataPos := sliceB f.payload 80 64, statusAddr := status, dropped := false }
      s.mapLanding j.id fun x => { x.put { y with state := .sealing } with seals := x.seals ++ [o] }

/-- LANDING_SEAL (R368). -/
def execLandingSeal (port : Nat) (f : Frame) (s : State) : Host.Outcome State Fault Refusal :=
  if s.queuedBehind .firmware port f then .next s else
  let s := s.takeFrom .firmware port f
  if tailGood f then .next (s.landing port f 2 fun s j x r t => s.landSeal f j x r t) else .next s

/-- The earliest SEAL of an owner's slot whose hashing runs (R373). -/
def Landing.seal? (x : Landing) (owner : Nat) (gen : BitVec 4) (slot : Nat) : Option SealOp :=
  x.seals.find? fun o => o.owner == owner && o.gen == gen && o.slot == slot

/-- A SEAL's hashing has ended: the landing without it. -/
def Landing.unseal (x : Landing) (o : SealOp) : Landing := { x with seals := x.seals.erase o }

/-- How a SEAL ends: the status, and the shard as it then stands; no shard where the slot no longer holds the one that was
hashed, which ends the SEAL with NO_SHARD (DESIGN CHOICE, log entry 96). A shard that memory has made CORRUPT stays so (R439). -/
def SealOp.outcome (o : SealOp) (y : Option Shard) : LandCode × Option Shard :=
  match y with
  | none => (.noShard, none)
  | some y =>
    if y.draw != o.draw then (.noShard, none)
    else if y.state == .corrupt then (.corrupt, some y)
    else
      let digest := sha3 y.content
      if digest == o.digest then
        (.ok, some { y with state := .sealed, digest := digest, step := o.step, dataPos := o.dataPos })
      else (.digestMismatch, some { y with state := .openS })

/-- SEAL_HASH_DONE (R368, R371): the slot becomes SEALED, or OPEN again, and the status is written; a shard that was dropped
meanwhile is freed without a status record. -/
def execSealHashDone (job : BitVec 12) (owner : Nat) (gen : BitVec 4) (slot : Nat) (s : State) :
    Host.Outcome State Fault Refusal :=
  match s.landing? job with
  | none => .next s
  | some x =>
    match x.seal? owner gen slot with
    | none => .next s
    | some o =>
      let s := s.mapLanding job fun x => x.unseal o
      if o.dropped then
        .next (s.mapLanding job fun x => { x with shards := x.shards.filter fun y =>
          !(y.owner == owner && y.gen == gen && y.slot == slot && y.draw == o.draw) })
      else
        let r := o.outcome (x.shard? owner gen slot)
        let s := match r.2 with
          | some y => s.mapLanding job fun x => x.put y
          | none => s
        match s.job? job with
        | none => .next s
        | some j =>
          .next (s.landReply j.cur (some owner) (j.cur.plan.coordOf owner) o.statusAddr
            (landStatus 2 slot r.1 o.step o.bytes owner gen o.digest o.dataPos))

/-- The status of a READ whose bytes have all been acknowledged (R369); a line of the shard that proved uncorrectable meanwhile
is one whose bytes cannot match (R439). -/
def State.readStatus (s : State) (j : Job) (o : ReadOp) : State :=
  let y := o.shard
  let ok := o.digest == y.digest && y.state != .corrupt
  let s :=
    if ok then s
    else
      let s := s.mapLanding j.id fun x =>
        { x with shards := x.shards.map fun z =>
            if z.owner = y.owner ∧ z.gen = y.gen ∧ z.slot = y.slot ∧ z.draw = y.draw then { z with state := .corrupt } else z }
      (s.bump F.LANDING_EVENTS_LANDING_CORRUPT 0).raise dieCD 0x08 0 0x29 (addrJ j.id y.step) (detailJ y.owner 0)
  let s := s.mapLanding j.id fun x => { x with reads := x.reads.filter fun z => z.rid != o.rid }
  s.landReply j.cur (some o.rank) o.reader o.statusAddr
    (landStatus 3 y.slot (if ok then .ok else .corrupt) y.step y.bytes y.owner y.gen y.digest y.dataPos)

/-- READ (R369). -/
def State.landRead (s : State) (f : Frame) (j : Job) (x : Landing) (r : Nat) (t : LandTag) : State :=
  let p := f.payload
  let owner := leAt p 0 4 % 2 ^ 18
  let gen := BitVec.ofNat 4 (leAt p 4 4)
  let expStep := BitVec.ofNat 32 (leAt p 8 4)
  let reader := BitVec.ofNat 24 (leAt p 12 4 % 2 ^ 22)
  let base := leAt p 16 8
  let status := leAt p 24 8
  let expPos := sliceB p 32 64
  let reply (s : State) (c : LandCode) (y : Option Shard) : State :=
    s.landReply j.cur (some r) reader status
      (landStatus 3 t.slot c ((y.map (·.step)).getD 0) ((y.map (·.bytes)).getD 0) owner gen (zeros 64) (zeros 64))
  match x.shard? owner gen t.slot with
  | none => reply s .noShard none
  | some y =>
    match y.state with
    | .corrupt => reply s .corrupt (some y)
    | .sealed =>
      if y.step != expStep || y.dataPos != expPos then reply s .stepMismatch (some y)
      else
        let bytes := y.content
        let parts := chunksOf (2 ^ 20) (ceilDiv bytes.length (2 ^ 20)) bytes
        let (rid, s) := s.draw1
        let o : ReadOp := { rid := rid, shard := y, rank := r, reader := reader, statusAddr := status,
                            left := parts.length, digest := sha3 bytes }
        let s := s.mapLanding j.id fun x => { x with reads := x.reads ++ [o] }
        parts.zipIdx.foldl (fun s e =>
          s.send .routed (writeFrames 7 reader j.id j.cur.plan.gen (base + e.2 * 2 ^ 20) e.1) (some j.id) (some r)
            (.landingRead rid)) s
    | _ => reply s .noShard (some y)

/-- LANDING_READ (R369). -/
def execLandingRead (port : Nat) (f : Frame) (s : State) : Host.Outcome State Fault Refusal :=
  if s.queuedBehind .firmware port f then .next s else
  let s := s.takeFrom .firmware port f
  if tailGood f then .next (s.landing port f 3 fun s j x r t => s.landRead f j x r t) else .next s

/-- A READ message is acknowledged; after the last, the status is written (R369). -/
def State.readAcked (s : State) (job : BitVec 12) (rid : Nat) : State :=
  match s.job? job, (s.landing? job).bind fun x => x.reads.find? fun o => o.rid == rid with
  | some j, some o =>
    if o.left ≤ 1 then s.readStatus j o
    else s.mapLanding job fun x =>
      { x with reads := x.reads.map fun z => if z.rid = rid then { z with left := z.left - 1 } else z }
  | _, _ => s

/-- DROP (R371): the shard goes; one that is being hashed goes once its hashing ends. -/
def Landing.drop (x : Landing) (owner : Nat) (gen : BitVec 4) (slot : Nat) : Landing :=
  match x.shard? owner gen slot with
  | none => x
  | some y =>
    let hashed (o : SealOp) : Bool := o.owner == owner && o.gen == gen && o.slot == slot && o.draw == y.draw
    if x.seals.any hashed then { x with seals := x.seals.map fun o => if hashed o then { o with dropped := true } else o }
    else x.free owner gen slot

/-- LANDING_DROP (R371). -/
def execLandingDrop (port : Nat) (f : Frame) (s : State) : Host.Outcome State Fault Refusal :=
  if s.queuedBehind .firmware port f then .next s else
  let s := s.takeFrom .firmware port f
  if tailGood f then
    .next (s.landing port f 4 fun s j _ r t => s.mapLanding j.id fun x => x.drop r j.cur.plan.gen t.slot)
  else .next s

end Sys2Proof.Machine
end

