-- ==== Sys2Proof/Machine/Epochs.lean ====
section
/-! DEFINITION. Epoch changes: items, banks, the coordinator, and what a change does to jobs
(spec/10_addressing_routing.md R273, R274, R282 to R287; 13_topology.md R347 to R355; 14_failure_survival.md R361,
R363; 04_reduction_contexts.md R117; 05_result_checking.md R149, R150). -/
namespace Sys2Proof.Machine

open Sys2Proof

/-! ## Items (R283, R348) -/

/-- The eight bytes of an item. -/
def EpochItem.bytes (i : EpochItem) : List Byte :=
  leBytes 1 i.kind ++ leBytes 1 i.port ++ leBytes 2 i.jobGen ++ leBytes 4 i.word.toNat

/-- Read n items from an offset of a payload. -/
def itemsAt (p : List Byte) (off n : Nat) : List EpochItem :=
  (List.range n).map fun i =>
    let o := off + 8 * i
    ⟨leAt p o 1, leAt p (o + 1) 1, leAt p (o + 2) 2, BitVec.ofNat 32 (leAt p (o + 4) 4)⟩

/-- The items of an EPOCH_REQUEST or EPOCH_PREPARE payload. -/
def itemsOf (p : List Byte) : List EpochItem := itemsAt p 12 (min (leAt p 8 4) ((p.length - 12) / 8))

/-- Item 0x01: fence a member. -/
def itemFence (job : BitVec 12) (rank : Nat) : EpochItem := ⟨1, 0, job.toNat * 16, BitVec.ofNat 32 rank⟩
/-- Item 0x02: cut out a switch. -/
def itemCutSwitch (flat : BitVec 24) : EpochItem := ⟨2, 0, 0, flat.setWidth 32⟩
/-- Item 0x03: cut out a link. -/
def itemCutLink (flat : BitVec 24) (port : Nat) : EpochItem := ⟨3, port, 0, flat.setWidth 32⟩
/-- Item 0x04: return a link. -/
def itemReturnLink (flat : BitVec 24) (port : Nat) : EpochItem := ⟨4, port, 0, flat.setWidth 32⟩
/-- Item 0x05: return a switch. -/
def itemReturnSwitch (flat : BitVec 24) : EpochItem := ⟨5, 0, 0, flat.setWidth 32⟩
/-- Item 0x06: claim a spare. -/
def itemClaim (job : BitVec 12) (gen : BitVec 4) (rank idx : Nat) : EpochItem :=
  ⟨6, 0, jobGen job gen, BitVec.ofNat 32 (rank + idx * 2 ^ 18)⟩

/-- The job an item names. -/
def EpochItem.job (i : EpochItem) : BitVec 12 := BitVec.ofNat 12 (i.jobGen / 16)
/-- The rank an item names. -/
def EpochItem.rank (i : EpochItem) : Nat := bitsOf i.word.toNat 17 0
/-- The flat ID an item names. -/
def EpochItem.flat (i : EpochItem) : BitVec 24 := i.word.setWidth 24

/-- SPARE_INDEX of an item. -/
def EpochItem.spare (i : EpochItem) : Nat := bitsOf i.word.toNat 31 18

/-- Has a bank already taken an item in (R347)? A claim is taken in once for its rank and once for its entry (R354). -/
def Bank.applied (k : Bank) (i : EpochItem) : Bool :=
  match i.kind with
  | 1 => k.fenced i.job i.rank
  | 2 => k.cutSwitches.contains i.flat
  | 3 => k.cutLinks.contains (i.flat, i.port)
  | 4 => k.backLinks.contains (i.flat, i.port)
  | 5 => k.backSwitches.contains i.flat
  | 6 => k.claims.any fun c =>
      c.1 == i.job && c.2.1 == BitVec.ofNat 4 i.jobGen && (c.2.2.1 == i.rank || c.2.2.2 == i.spare)
  | _ => true

/-- The ends of the link of an item, each by its switch and port, as far as this switch knows them. -/
def State.linkEnds (s : State) (i : EpochItem) : List (BitVec 24 × Nat) :=
  (i.flat, i.port) :: (s.image.cable.zipIdx.filterMap fun c =>
    if i.flat = s.image.ownFlat ∧ c.2 = i.port then some (c.1.peerFlat, c.1.peerPort)
    else if c.1.role = .switch ∧ c.1.peerFlat = i.flat ∧ c.1.peerPort = i.port then some (s.image.ownFlat, c.2)
    else none)

/-- The membership part of a bank with one item taken in. A link that returns takes the cut of either of its ends away. -/
def State.applyItem (s : State) (k : Bank) (i : EpochItem) : Bank :=
  if k.applied i then k
  else
    match i.kind with
    | 1 => { k with fences := k.fences ++ [(i.job, i.rank)] }
    | 2 => { k with cutSwitches := k.cutSwitches ++ [i.flat], backSwitches := k.backSwitches.filter (· != i.flat) }
    | 3 => { k with cutLinks := k.cutLinks ++ [(i.flat, i.port)]
                    backLinks := k.backLinks.filter fun e => !(s.linkEnds i).contains e }
    | 4 => { k with cutLinks := k.cutLinks.filter fun e => !(s.linkEnds i).contains e
                    backLinks := k.backLinks ++ [(i.flat, i.port)] }
    | 5 => { k with cutSwitches := k.cutSwitches.filter (· != i.flat), backSwitches := k.backSwitches ++ [i.flat] }
    | 6 => { k with claims := k.claims ++ [(i.job, BitVec.ofNat 4 i.jobGen, i.rank, i.spare)] }
    | _ => k

/-! ## Tables (R273, R274) -/

/-- A link group's index, by the place of its neighbour among the neighbours: 255 is kept for the up set. -/
def groupIndex (i : Nat) : Nat := if i < 255 then i else i + 1

/-- The neighbours of this switch in the order of their lowest ports: the first port of each. -/
def State.neighbourPorts (s : State) : List Nat :=
  (List.range 256).filter fun p =>
    (s.cable p).role != .unused && (s.port? p).isSome
      && !((List.range p).any fun q => (s.cable q).role == (s.cable p).role && (s.cable q).peerFlat == (s.cable p).peerFlat
            && (s.port? q).isSome)

/-- The ports of a neighbour that are in a bank: an endpoint's ports, or the links to a switch that are not cut out. -/
def State.neighbourGroup (s : State) (k : Bank) (p : Nat) : List Nat :=
  let c := s.cable p
  if c.role == .switch then s.linksTo k c.peerFlat
  else ((s.ports.map (·.num)).filter fun q => (s.cable q).role == .endpoint && (s.cable q).peerFlat == c.peerFlat)

/-- The child index a down port serves (R272, R337): an endpoint's port field, or the peer's place in the FLAT list. -/
def State.childOf (s : State) (p : Nat) : Option Nat :=
  let c := s.cable p
  if c.uplink then none
  else if c.role == .endpoint then some (s.childIndex c.coord)
  else if c.role == .switch then
    match s.image.flats.find? fun x => x.2 == c.peerFlat with
    | some x => some x.1
    | none => some p
  else none

/-- The tables of a bank from its membership part: DOWN, the link groups with the up set, and FLAT (R273, R274). -/
def State.buildTables (s : State) (k : Bank) : Bank :=
  let ns := s.neighbourPorts
  let groups := (ns.zipIdx.map fun x => (groupIndex x.2, s.neighbourGroup k x.1))
  let ups := (s.ports.map (·.num)).filter fun p => (s.cable p).uplink && !s.linkCut k p
  let idxOf (p : Nat) : Nat :=
    match ns.zipIdx.find? fun x => (s.cable x.1).role == (s.cable p).role && (s.cable x.1).peerFlat == (s.cable p).peerFlat with
    | some x => groupIndex x.2
    | none => upSet
  let down := ns.filterMap fun p => (s.childOf p).map fun c => (⟨c, true, idxOf p⟩ : DownEntry)
  -- toward a switch of the FLAT list: by its child index, or at a leaf by its up-link index
  let far (x : Nat × BitVec 24) : Option FlatEntry :=
    if s.image.tier = 0 then
      match (List.range 256).find? fun p => (s.cable p).uplink && (s.cable p).upIndex == x.1 with
      | some p => some ⟨true, false, idxOf p, x.2⟩
      | none => none
    else (down.find? fun e => e.child == x.1).map fun e => ⟨true, false, e.group, x.2⟩
  let near := ns.map fun p => (⟨true, false, idxOf p, (s.cable p).peerFlat⟩ : FlatEntry)
  let rest := (s.image.flats.filter fun x => !(near.any fun e => e.flat == x.2)).filterMap far
  { k with down := down, groups := groups ++ [(upSet, ups)], flat := ⟨true, true, 0, s.image.ownFlat⟩ :: near ++ rest }

/-- The bank that follows from a bank and the items of a change. -/
def State.nextBank (s : State) (k : Bank) (items : List EpochItem) : Bank := s.buildTables (items.foldl s.applyItem k)

/-! ## The time root and the switches of the fabric (R251, R282) -/

/-- The switches of the fabric, with their tiers: this one, its neighbours, the switches of its jobs, and the rest, which its
image does not give (log entry 97). -/
def State.knownTiers (s : State) : List (BitVec 24 × Nat) :=
  (s.image.ownFlat, s.image.tier)
    :: ((s.image.cable.filter fun c => c.role == .switch).map fun c => (c.peerFlat, c.peerTier))
    ++ (s.jobs.map fun j => j.cur.plan.switches.map fun w => (w.flat, w.tier)).flatten
    ++ Config.farSwitches s.image.ownFlat

/-- Is a switch absent from the fabric as cruise shows it here: no usable port leads toward it (R251, R275, R345)? A neighbour
whose last link fails is cut out of the fabric (R347), and until that change this switch judges by its own links (DEDUCED, log
entry 98). -/
def State.absent (s : State) (flat : BitVec 24) : Bool :=
  flat != s.image.ownFlat &&
    match s.route s.curBank (mgmtFrame true flat s.image.ownFlat 0 0 []).h false with
    | .consume => false
    | .group ps => (s.usable ps).isEmpty
    | .relay => (s.relayLeaf s.curBank).isNone
    | _ => true

/-- Is a switch in the fabric: neither cut out of the newest bank nor absent? -/
def State.present (s : State) (flat : BitVec 24) : Bool :=
  !s.newest.1.cutSwitches.contains flat && !s.absent flat

/-- The time root (R251): TIME_ROOT, or where that switch is not in the fabric the top switch of the lowest flat ID. -/
def State.timeRoot (s : State) : BitVec 24 :=
  if s.present s.image.timeRoot then s.image.timeRoot
  else
    let ks := s.knownTiers.filter fun x => s.present x.1
    let top := maxN 0 (ks.map (·.2))
    let flats := (ks.filter fun x => x.2 == top).map (·.1)
    flats.foldl (fun a b => if b < a then b else a) (flats.headD s.image.ownFlat)

/-- Is this switch the time root? -/
def State.isTimeRoot (s : State) : Bool := s.timeRoot == s.image.ownFlat

/-- The other switches that the coordinator addresses: every switch of the fabric that is not cut out (R283). -/
def State.otherSwitches (s : State) : List (BitVec 24) :=
  ((s.knownTiers.map (·.1)) ++ s.image.flats.map (·.2)).dedup.filter fun f =>
    f != s.image.ownFlat && !s.curBank.cutSwitches.contains f

/-! ## Sending -/

/-- The frames of an epoch message (R283): more than 510 items take further frames of up to 512 items each (R29). -/
def State.epochFrames (s : State) (dest : BitVec 24) (payload : List Byte) : List Frame :=
  (payload.take 4092 :: chunksOf 4096 (ceilDiv (payload.length - 4092) 4096) (payload.drop 4092)).map
    (mgmtFrame true dest s.image.ownFlat 0 0)

/-- Send one epoch message (R283). -/
def State.epochSend (s : State) (dest : BitVec 24) (kind : Nat) (num : BitVec 32) (rest : List Byte) : State :=
  s.send .routed (s.epochFrames dest (leBytes 2 kind ++ zeros 2 ++ leBytes 4 num.toNat ++ rest)) none none .plain

/-- Send one epoch message to every other switch. -/
def State.epochAll (s : State) (to_ : List (BitVec 24)) (kind : Nat) (num : BitVec 32) (rest : List Byte) : State :=
  to_.foldl (fun s d => s.epochSend d kind num rest) s

/-- EPOCH_RETIRE to every other switch: the change runs until each has acknowledged it (R282, R283 step 7). -/
def State.retireAll (s : State) (to_ : List (BitVec 24)) (num : BitVec 32) : State :=
  to_.foldl (fun s d =>
    s.send .routed [mgmtFrame true d s.image.ownFlat 0 0 (leBytes 2 0x75 ++ zeros 2 ++ leBytes 4 num.toNat ++ zeros 8)]
      none none .epochRetire) s

/-- Is an EPOCH_RETIRE of this coordinator not yet acknowledged? -/
def State.retiring (s : State) : Bool := s.outs.any fun o => o.purpose == .epochRetire

/-- The items part of a payload. -/
def itemBytes (items : List EpochItem) : List Byte := leBytes 4 items.length ++ (items.map EpochItem.bytes).flatten

/-- Update the epoch state. -/
def State.mapEpoch (s : State) (g : EpochSt → EpochSt) : State := { s with epoch := g s.epoch }

/-- Request items (R282): the coordinator gathers them, another switch sends EPOCH_REQUEST. -/
def State.ask (s : State) (items : List EpochItem) : State :=
  if items.isEmpty then s
  else if s.isTimeRoot then s.mapEpoch fun e => { e with asked := e.asked ++ items }
  else s.epochSend s.timeRoot 0x70 s.epoch.num (itemBytes items)

/-! ## Re-parenting and claims at EPOCH_PREPARE (R349, R350, R354) -/

/-- Does a switch of the plan hold a slot of a group in a bank, or release it? -/
def State.inGroup (s : State) (k : Bank) (l : Layout) (g : PlanGroup) (w : PlanSwitch) : Bool :=
  g.releaser == w.index || !(l.plan.direct g w.index).isEmpty || !(s.childrenIn k l g w.index).isEmpty

/-- The switches of a group in a bank that are still in the fabric, each with its group parent and its child switches
(R276). -/
def State.groupTree (s : State) (k : Bank) (l : Layout) (g : PlanGroup) : List (Nat × Option Nat × List Nat) :=
  match l.plan.sw? g.releaser with
  | none => []
  | some rel =>
    (l.plan.switches.filter fun w => !k.cutSwitches.contains w.flat && s.inGroup k l g w).map fun w =>
      (w.index, (s.upIn k l rel w).map (·.index), s.childrenIn k l g w.index)

/-- Is a change a re-parenting change for a job (R349): does a group parent or a set of child switches differ at any of its
switches, or the set of its switches in the fabric? -/
def State.reparents (s : State) (l : Layout) (old new : Bank) : Bool :=
  (l.plan.groups.any fun g => s.groupTree old l g != s.groupTree new l g)
    || (l.plan.switches.any fun w => old.cutSwitches.contains w.flat != new.cutSwitches.contains w.flat)

/-- Abort every step of a job's window that has not ended (R350). -/
def State.abortWindow (s : State) (j : Job) (reason : Nat) : State :=
  (List.range j.depth).foldl (fun s i => s.abortStep j.id (j.floor + BitVec.ofNat 32 i) reason none .own) s

/-- The items 0x06 that a step root requests for the members a change fences (R354). -/
def Job.claimItems (j : Job) (ranks : List Nat) : Job × List EpochItem :=
  let p := j.cur.plan
  if !(p.axes.all fun a => decide (a.size ≤ 1) || a.close) then (j, [])
  else
    ranks.foldl (fun (a : Job × List EpochItem) r =>
      let taken := (a.1.claims ++ a.1.claimReqs)
      if taken.any fun c => c.1 == r then a
      else
        match (List.range p.spares.length).find? fun i => !(taken.any fun c => c.2 == i) with
        | none => a
        | some i => ({ a.1 with claimReqs := a.1.claimReqs ++ [(r, i)] }, a.2 ++ [itemClaim j.id p.gen r i])) (j, [])

/-- What an EPOCH_PREPARE does to one job (R350, R351, R354). -/
def State.prepareJob (s : State) (old new : Bank) (items : List EpochItem) (id : BitVec 12) : State :=
  match s.job? id with
  | none => s
  | some j =>
    let s :=
      if s.reparents j.cur old new then
        let s := s.mapJob id fun j => { j with reparenting := true }
        if j.cur.isRoot then s.abortWindow j 6 else s
      else s
    if !j.cur.isRoot then s
    else
      let ranks := (items.filter fun i => i.kind == 1 && i.job == id && !old.fenced id i.rank).map (·.rank)
      match s.job? id with
      | none => s
      | some j =>
        let (j, asks) := j.claimItems ranks.dedup
        (s.mapJob id fun _ => j).ask asks

/-- Prepare: write the standby bank for the new epoch (R283). -/
def State.prepareLocal (s : State) (items : List EpochItem) : State :=
  let old := s.curBank
  let new := s.nextBank old items
  let s := (s.setBank (!s.curBit) new).mapEpoch fun e => { e with phase := .prepared, items := items }
  (s.jobs.map (·.id)).foldl (fun s id => s.prepareJob old new items id) s

/-! ## Fences at EPOCH_COMMIT (R117, R149, R150, R229, R266, R361, R363) -/

/-- A fenced member's slot in one context (R117, R128). -/
def State.fenceCtx (s : State) (rank d : Nat) : State :=
  match s.ctx? d with
  | none => s
  | some c =>
    let w : SlotId := .member rank
    match c.state with
    | .openS | .rescaleWait =>
      let y := c.slot w
      if !y.live then s
      else if y.mask != 0 then
        let s := s.setCtx d { c with held := true }
        match s.layoutOf c with
        | none => s
        | some (_, l) =>
          match l.bucketOf c with
          | none => s
          | some (_, g) => if l.releases g then s else s.checkFailUp d 1
      else
        let c := c.mapSlot w fun y => { y with live := false }
        let s := s.setCtx d { c with expect := expectOf c.slots, reduced := true }
        (s.rescaleCheck d).finishFree d
    | .released => s.setCtx d { c with awaiting := c.awaiting.filter (· != w) }
    | _ => s

/-- Membership supersession by a new epoch (R149, R150): `num` is the epoch's number. -/
def State.fenceSupersede (s : State) (num : BitVec 32) (d : Nat) : State :=
  match s.ctx? d with
  | none => s
  | some c =>
    match s.layoutOf c with
    | none => s
    | some (j, l) =>
      match l.bucketOf c with
      | none => s
      | some (_, g) =>
        let alive := (s.curBank.survivors c.job g).length
        let over_ := match c.result with | some r => decide (alive < r.contributions) | none => false
        if !l.releases g || j.stepEnded c.step || c.fenceEpoch == num.setWidth 8 then s
        else if c.state = .openS && c.held || ((c.state = .released || c.state = .final) && over_) then s.supersedeOwn d
        else s

/-- A fence takes effect at this switch (R363): a released result that contains the member is superseded before the
member's missing acknowledgement could make it FINAL. -/
def State.fenceTake (s : State) (num : BitVec 32) (job : BitVec 12) (rank : Nat) : State :=
  match s.job? job with
  | none => s
  | some j =>
    let s := s.dropOuts fun o => o.job == some job && o.rank == some rank
    let ds := (s.ctxs.filter fun x => x.2.job == job).map (·.1)
    let s := ds.foldl (fun s d => s.fenceCtx rank d) s
    let s := ds.foldl (fun s d => s.fenceSupersede num d) s
    let s := ds.foldl (fun s d => s.maybeFinal d) s
    let s := (s.minSurvivors j.cur).settleFree
    let s := s.bellsDrop job (.member rank)
    (s.mcDrop job (.member rank)).dispatchFence job

/-- A child switch that the new group tables drop leaves open contexts and bells (R117, R266). -/
def State.childTake (s : State) (old : Bank) (l : Layout) : State :=
  let gone := (l.plan.groups.map fun g =>
    (s.slotsIn old l g).filter fun w => !(s.slotsIn s.curBank l g).contains w).flatten.dedup
  gone.foldl (fun s w =>
    let s := s.dropOuts fun o => o.job == some l.plan.job && o.hop == (l.toSlot w).1 && w.rank?.isNone
    let ds := (s.ctxs.filter fun x => x.2.job == l.plan.job && (x.2.slot w).live).map (·.1)
    let s := ds.foldl (fun s d =>
      match s.ctx? d with
      | none => s
      | some c =>
        match c.state with
        | .openS | .rescaleWait =>
          let c := c.mapSlot w fun y => { y with live := false }
          ((s.setCtx d { c with expect := expectOf c.slots }).rescaleCheck d).finishFree d
        | .released => (s.setCtx d { c with awaiting := c.awaiting.filter (· != w) }).maybeFinal d
        | _ => s) s
    (s.bellsDrop l.plan.job w).mcDrop l.plan.job w) s

/-- Does a change strand a job (R353): does it cut out the step root, a releasing switch or a bell home, or leave a switch of
the job that stays in the fabric with no group parent for a group that it does not release? -/
def State.strands (s : State) (old new : Bank) (l : Layout) : Bool :=
  let lost (i : Nat) : Bool := match l.plan.sw? i with
    | some w => new.cutSwitches.contains w.flat && !old.cutSwitches.contains w.flat
    | none => false
  lost l.plan.stepRoot || (l.plan.groups.any fun g => lost g.releaser)
    || l.plan.groups.any fun g =>
      match l.plan.sw? g.releaser with
      | none => false
      | some rel => l.plan.switches.any fun w =>
          w.index != rel.index && !new.cutSwitches.contains w.flat && s.inGroup old l g w
            && (s.upIn old l rel w).isSome && (s.upIn new l rel w).isNone

/-- The fences that this switch requested and that a change commits: a FENCE_IN_FORCE record for each (R361). -/
def State.fencesInForce (s : State) (num : BitVec 32) (items : List EpochItem) (id : BitVec 12) : State :=
  match s.job? id with
  | none => s
  | some j =>
    let ranks := ((items.filter fun i => i.kind == 1 && i.job == id && j.fenceOwed.contains i.rank).map (·.rank)).dedup
    let s := s.mapJob id fun j => { j with fenceOwed := j.fenceOwed.filter fun r => !ranks.contains r }
    ranks.foldl (fun s r => s.event j 3 0 0 r num.toNat 0) s

/-- The claims of a change are recorded, each rank's and each entry's first (R354); the step root reports each (R355). -/
def State.recordClaims (s : State) (items : List EpochItem) (id : BitVec 12) : State :=
  items.foldl (fun s i =>
    match s.job? id with
    | none => s
    | some j =>
      let c := (i.rank, i.spare)
      if i.kind != 6 || i.job != id || BitVec.ofNat 4 i.jobGen != j.cur.plan.gen then s
      else
        let s := s.mapJob id fun j => { j with claimReqs := j.claimReqs.filter (· != c) }
        if j.claims.any fun d => d.1 == c.1 || d.2 == c.2 then s
        else
          let s := s.mapJob id fun j => { j with claims := j.claims ++ [c] }
          if j.cur.isRoot then s.event j 9 0 0 c.1 c.2 0 else s) s

/-- What an EPOCH_COMMIT does to one job. -/
def State.commitJob (s : State) (old : Bank) (num : BitVec 32) (items : List EpochItem) (id : BitVec 12) : State :=
  let s := s.fencesInForce num items id
  match s.job? id with
  | none => s
  | some j =>
    if s.strands old s.curBank j.cur then (s.strand id).settleFree
    else
      let s := s.childTake old j.cur
      let fences := (s.curBank.fences.filter fun x => x.1 == id && !old.fenced x.1 x.2).map (·.2)
      let s := fences.foldl (fun s r => s.fenceTake num id r) s
      s.recordClaims items id

/-- Send EPOCH_ANNOUNCE to the endpoint on each of the switch's ports (R283 step 4). -/
def State.announceAll (s : State) : State :=
  let ps := (s.ports.map (·.num)).filter s.isEndpoint
  let bit := b2n s.curBit
  let s := s.mapEpoch fun e => { e with announce := ps, announceFailed := 0, drainFrom := s.ns, drainedSent := false }
  ps.foldl (fun s p =>
    s.send (.onPort p)
      [mgmtFrame true (s.cable p).peerFlat s.image.ownFlat 0 0
        (leBytes 2 0x76 ++ zeros 2 ++ leBytes 4 s.epoch.num.toNat ++ leBytes 1 bit ++ zeros 7)] none none (.announce p)) s

/-- HOLDOVER is entered from LOCKED or ROOT: HOLDOVER_SEEN, and TIME_UNLOCKED on every die (R255, R269, REPEAT_STATUS after
R398). -/
def State.intoHoldover (s : State) : State :=
  ({ s with time := { s.time with state := .holdover, slew := 0, good := 0 } }.setFlag F.TIME_STATUS_HOLDOVER_SEEN 0
    true).setAll F.REPEAT_STATUS_TIME_UNLOCKED 4 1

/-- The switch takes or loses the role of time root (R251, R255): it enters ROOT keeping its time, or HOLDOVER. Before
epoch 0 there is no role. -/
def State.timeRole (s : State) : State :=
  if !s.flag F.CRUISE_STATUS_FIRST_DONE 0 then s
  else if s.isTimeRoot then
    if s.time.state = .root then s
    else { s with time := { s.time with state := .root, parent := none, slew := 0, good := 0 } }
  else if s.time.state = .root then
    { s with time := { s.time with parent := none } }.intoHoldover
  else s

/-- The neighbouring switches whose last port a change has cut out are to be cut out themselves (R347). -/
def State.askCuts (s : State) (old : Bank) : State :=
  let flats := ((s.image.cable.filter fun c => c.role == .switch).map (·.peerFlat)).dedup
  let gone := flats.filter fun f =>
    !(s.linksTo old f).isEmpty && (s.linksTo s.curBank f).isEmpty && !s.curBank.cutSwitches.contains f
  s.ask (gone.map itemCutSwitch)

/-- Put the fences of the current bank into the draining one (R285); the tables of neither are written. -/
def State.copyFences (s : State) : State :=
  let fs := s.curBank.fences
  if s.curBit then { s with bank0 := { s.bank0 with fences := fs } } else { s with bank1 := { s.bank1 with fences := fs } }

/-- Commit: the standby bank becomes current, fences go into the draining bank too, and take effect (R283, R285). -/
def State.commitLocal (s : State) : State :=
  let old := s.curBank
  let items := s.epoch.items
  let s := (s.mapEpoch fun e => { e with num := e.num + 1, phase := .switched }).copyFences
  let s := (s.jobs.map (·.id)).foldl (fun s id => s.commitJob old s.epoch.num items id) s
  ((s.setAll F.REPEAT_STATUS_EPOCH_CHANGED 4 1).timeRole.askCuts old).announceAll

/-- The frames that wait in the queues with an EPOCH bit. -/
def State.waitingWith (s : State) (bit : Bool) : List Nat :=
  (((s.core.copies.filter fun c => !c.started && c.out.h.epoch == bit).map (·.fid))
    ++ (s.core.backlog.filter fun x => x.2.any fun c => c.out.h.epoch == bit).map (·.1.fid)).dedup

/-- Retire: the old bank is retired and its frames are purged from the queues, each counted once (R283 step 7, R352). -/
def State.retireLocal (s : State) : State :=
  let bit := !s.curBit
  let s := (s.waitingWith bit).foldl (fun s _ => s.bumpDies F.EPOCH_DISCARDS_STALE_EPOCH) s
  let s := s.dropCopies fun c => !c.started && c.out.h.epoch == bit
  let s := s.mapEpoch fun e => { e with phase := .idle, retiredOnce := true, items := [], announce := [] }
  ((s.jobs.filter (·.reparenting)).map (·.id)).foldl State.bellRestart s

/-! ## The coordinator (R282, R283, R287) -/

/-- Start a change when none is running and items are waiting (R282): the last one runs until its EPOCH_RETIRE has reached
every switch. -/
def State.coordStart (s : State) : State :=
  let fresh := s.epoch.asked.dedup.filter fun i => !s.curBank.applied i
  if !s.isTimeRoot || s.epoch.coord != .idle || s.epoch.phase != .idle || s.retiring || fresh.isEmpty then
    (if s.isTimeRoot && s.epoch.coord = .idle && fresh.isEmpty then s.mapEpoch fun e => { e with asked := [] } else s)
  else
    let num := s.epoch.num + 1
    let all := s.otherSwitches
    let s := s.mapEpoch fun e =>
      { e with coord := .preparing, coordNum := num, owing := all, running := fresh, asked := [],
               coordinator := s.image.ownFlat }
    (s.epochAll all 0x71 num (itemBytes fresh)).prepareLocal fresh

/-- The coordinator holds EPOCH_PREPARED from every switch: EPOCH_COMMIT (R283 step 3). -/
def State.coordPrepared (s : State) : State :=
  if s.epoch.coord != .preparing || !s.epoch.owing.isEmpty then s
  else
    let all := s.otherSwitches
    let num := s.epoch.coordNum
    let s := s.mapEpoch fun e => { e with coord := .committing, owing := all }
    let s := s.epochAll all 0x73 num (zeros 8)
    if s.epoch.phase = .prepared && s.epoch.num + 1 == num then s.commitLocal else s

/-- The coordinator holds EPOCH_DRAINED from every switch, itself included: EPOCH_RETIRE (R283 step 7). -/
def State.coordDrained (s : State) : State :=
  if s.epoch.coord != .committing || !s.epoch.owing.isEmpty || !s.epoch.drainedSent then s
  else
    let s := s.retireAll s.otherSwitches s.epoch.coordNum
    let s := s.mapEpoch fun e => { e with coord := .idle, running := [] }
    if s.epoch.phase = .switched then s.retireLocal else s

/-- Let the coordinator go as far as it can, while the control firmware runs (R460). -/
def State.coordGo (s : State) : State := if s.fwWaits then s else s.coordStart.coordPrepared.coordDrained.coordStart.coordPrepared

/-- Request items, and let a coordinator act on them at once. -/
def State.askGo (s : State) (items : List EpochItem) : State := if items.isEmpty then s else (s.ask items).coordGo

/-- Tell the coordinator, or record where this switch is the coordinator. -/
def State.tellCoord (s : State) (kind : Nat) (num : BitVec 32) (rest : List Byte) : State :=
  if s.epoch.coordinator = s.image.ownFlat then s else s.epochSend s.epoch.coordinator kind num rest

/-- May the drain condition of R283 step 6 come to hold: no endpoint's acknowledgement is owed? That MAX_FRAME_AGE has
passed since `drainFrom` is the event EPOCH_DRAIN_CONDITION. -/
def State.drained (s : State) : Bool := s.epoch.phase == .switched && s.epoch.announce.isEmpty

/-- What this switch would answer to EPOCH_QUERY: its phase (1 prepared, 2 drained, 3 retired) and EPOCH_NUM; none in IDLE
before any change has ended (R287). -/
def EpochSt.standing (e : EpochSt) : Option (Nat × BitVec 32) :=
  match e.phase with
  | .prepared => some (1, e.num + 1)
  | .switched => some (if e.drainedSent then 2 else 1, e.num)
  | .idle => if e.retiredOnce then some (3, e.num) else none

/-- A new time root sends EPOCH_QUERY to every switch (R287): a change may be running elsewhere though none runs here. Before any
change has ended a switch in IDLE would not answer, and a root in IDLE then sends none (DESIGN CHOICE, log entry 100). -/
def State.takeOver (s : State) : State :=
  if !s.isTimeRoot || s.epoch.coord != .idle || s.epoch.coordinator = s.image.ownFlat then s
  else
    match s.epoch.standing with
    | none => s
    | some x =>
      let all := s.otherSwitches
      let s := s.mapEpoch fun e =>
        { e with coord := .querying, coordinator := s.image.ownFlat, owing := all, reports := [(s.image.ownFlat, x.1, x.2)] }
      s.epochAll all 0x77 s.epoch.num (zeros 8)

/-- Every switch has answered EPOCH_QUERY: resume from the furthest phase at the highest EPOCH_NUM (R287). A root that has not
seen the EPOCH_PREPARE of that change learns its items from no answer; it prepares with none (log entry 100). -/
def State.resume (s : State) : State :=
  if s.epoch.coord != .querying || !s.epoch.owing.isEmpty then s
  else
    let num := BitVec.ofNat 32 (maxN 0 (s.epoch.reports.map fun r => r.2.2.toNat))
    let mine := s.epoch.reports.filter fun r => r.2.2 == num
    let phase := maxN 0 (mine.map (·.2.1))
    let all := s.otherSwitches
    let left (p : Nat) : List (BitVec 24) := all.filter fun f => !(mine.any fun r => r.1 == f && decide (p ≤ r.2.1))
    let s := s.mapEpoch fun e => { e with coordNum := num, running := e.items }
    if phase = 3 then
      let s := s.retireAll all num
      let s := s.mapEpoch fun e => { e with coord := .idle }
      if s.epoch.phase = .switched && s.epoch.num == num then s.retireLocal else s
    else if phase = 2 || (s.epoch.phase = .switched && s.epoch.num == num) then
      let s := s.mapEpoch fun e => { e with coord := .committing, owing := left 2 }
      let s := s.epochAll all 0x73 num (zeros 8)
      (if s.epoch.phase = .prepared && s.epoch.num + 1 == num then s.commitLocal else s).coordDrained
    else
      let s := s.mapEpoch fun e => { e with coord := .preparing, owing := left 1 }
      let s := if s.epoch.phase = .idle && s.epoch.num + 1 == num then s.prepareLocal [] else s
      (s.epochAll (left 1) 0x71 num (itemBytes s.epoch.items)).coordPrepared

/-! ## The commands -/

/-- Take an epoch message whole: acknowledged under R56, carried out once. `act` gets its EPOCH_NUM and its payload. -/
def State.epochIn (s : State) (p : Nat) (f : Frame) (kind : Nat) (act : State → BitVec 32 → List Byte → State) : State :=
  let q := s.mgmtBody p f
  if !tailGood f || f.h.ftype != 8#4 || !f.h.amode then s
  else
    match s.receive p f with
    | (.complete, s) =>
      if leAt q 0 2 != kind then s else act (s.ack p f.h) (BitVec.ofNat 32 (leAt q 4 4)) q
    | (.again, s) => s.ack p f.h
    | (_, s) => s

/-- EPOCH_REQUEST (R282). -/
def execEpochRequest (port : Nat) (f : Frame) (s : State) : Host.Outcome State Fault Refusal :=
  if s.queuedBehind .firmware port f then .next s else
  .next ((s.takeFrom .firmware port f).epochIn port f 0x70 fun s _ q =>
    if s.isTimeRoot then (s.mapEpoch fun e => { e with asked := e.asked ++ itemsOf q }).coordGo else s)

/-- EPOCH_PREPARE (R283). -/
def execEpochPrepare (port : Nat) (f : Frame) (s : State) : Host.Outcome State Fault Refusal :=
  if s.queuedBehind .firmware port f then .next s else
  .next ((s.takeFrom .firmware port f).epochIn port f 0x71 fun s num q =>
    if num = s.epoch.num + 1 && s.epoch.phase == .prepared then
      s.epochSend f.h.src 0x72 num (zeros 8)
    else if num = s.epoch.num + 1 && s.epoch.phase == .idle then
      let s := s.mapEpoch fun e => { e with coordinator := f.h.src }
      (s.prepareLocal (itemsOf q)).epochSend f.h.src 0x72 num (zeros 8)
    else s)

/-- The coordinator records an answer to EPOCH_QUERY. -/
def State.report (s : State) (src : BitVec 24) (phase : Nat) (num : BitVec 32) : State :=
  (s.mapEpoch fun e => { e with owing := e.owing.filter (· != src)
                                reports := e.reports.filter (fun r => r.1 != src) ++ [(src, phase, num)] }).resume

/-- EPOCH_PREPARED (R283, R287). -/
def execEpochPrepared (port : Nat) (f : Frame) (s : State) : Host.Outcome State Fault Refusal :=
  if s.queuedBehind .firmware port f then .next s else
  .next ((s.takeFrom .firmware port f).epochIn port f 0x72 fun s num _ =>
    if s.epoch.coord = .querying then s.report f.h.src 1 num
    else if s.epoch.coord = .preparing && num == s.epoch.coordNum then
      (s.mapEpoch fun e => { e with owing := e.owing.filter (· != f.h.src) }).coordGo
    else s)

/-- EPOCH_COMMIT (R283, R285). -/
def execEpochCommit (port : Nat) (f : Frame) (s : State) : Host.Outcome State Fault Refusal :=
  if s.queuedBehind .firmware port f then .next s else
  .next ((s.takeFrom .firmware port f).epochIn port f 0x73 fun s num _ =>
    if num = s.epoch.num + 1 && s.epoch.phase == .prepared then
      (s.mapEpoch fun e => { e with coordinator := f.h.src }).commitLocal
    else s)

/-- EPOCH_DRAIN_CONDITION (R283 step 6). -/
def execEpochDrainCondition (s : State) : Host.Outcome State Fault Refusal :=
  if s.fwWaits || !s.drained || s.epoch.drainedSent then .next s
  else
    let s := s.mapEpoch fun e => { e with drainedSent := true }
    .next ((s.tellCoord 0x74 s.epoch.num (leBytes 4 s.epoch.announceFailed ++ zeros 4)).coordGo)

/-- EPOCH_DRAINED (R283, R287). -/
def execEpochDrained (port : Nat) (f : Frame) (s : State) : Host.Outcome State Fault Refusal :=
  if s.queuedBehind .firmware port f then .next s else
  .next ((s.takeFrom .firmware port f).epochIn port f 0x74 fun s num _ =>
    if s.epoch.coord = .querying then s.report f.h.src 2 num
    else if s.epoch.coord = .committing && num == s.epoch.coordNum then
      (s.mapEpoch fun e => { e with owing := e.owing.filter (· != f.h.src) }).coordGo
    else s)

/-- EPOCH_RETIRE (R283), or the answer to EPOCH_QUERY of a switch that has retired (R287). -/
def execEpochRetire (port : Nat) (f : Frame) (s : State) : Host.Outcome State Fault Refusal :=
  if s.queuedBehind .firmware port f then .next s else
  .next ((s.takeFrom .firmware port f).epochIn port f 0x75 fun s num _ =>
    if s.epoch.coord = .querying then s.report f.h.src 3 num
    else if num = s.epoch.num && s.epoch.phase == .switched then s.retireLocal
    else s)

/-- EPOCH_QUERY (R287). -/
def execEpochQuery (port : Nat) (f : Frame) (s : State) : Host.Outcome State Fault Refusal :=
  if s.queuedBehind .firmware port f then .next s else
  .next ((s.takeFrom .firmware port f).epochIn port f 0x77 fun s _ _ =>
    let s := s.mapEpoch fun e => { e with coordinator := f.h.src }
    match s.epoch.phase with
    | .prepared => s.epochSend f.h.src 0x72 (s.epoch.num + 1) (zeros 8)
    | .switched =>
      if s.epoch.drainedSent then
        s.epochSend f.h.src 0x74 s.epoch.num (leBytes 4 s.epoch.announceFailed ++ zeros 4)
      else s.epochSend f.h.src 0x72 s.epoch.num (zeros 8)
    | .idle => if s.epoch.retiredOnce then s.epochSend f.h.src 0x75 s.epoch.num (zeros 8) else s)

/-! ## Announcements (R283 steps 4 to 6) -/

/-- An endpoint has acknowledged EPOCH_ANNOUNCE. -/
def State.announceDone (s : State) (p : Nat) : State :=
  if s.epoch.announce.contains p then
    s.mapEpoch fun e => { e with announce := e.announce.filter (· != p), drainFrom := s.ns }
  else s

/-- An endpoint has failed all attempts: a contained fault, and it is no longer awaited. -/
def State.announceFail (s : State) (p : Nat) : State :=
  if s.epoch.announce.contains p then
    (s.mapEpoch fun e => { e with announce := e.announce.filter (· != p), announceFailed := e.announceFailed + 1 }).raise
      (dieOf p) blkSwitch p 0x1E (addrP p 0) 0
  else s

/-! ## Fence requests (R359, R360) -/

/-- Request a member's fence once per layout generation, counted, with its FENCE_REQUESTED record (R359, R360): not where this
switch has requested it, or a bank shows that another has. -/
def State.requestFence (s : State) (job : BitVec 12) (rank : Nat) (step : BitVec 32) (object waited : Nat) : State :=
  match s.job? job with
  | none => s
  | some j =>
    if j.fenceReqs.contains rank || s.newest.1.fenced job rank then s
    else
      let s := s.mapJob job fun j => { j with fenceReqs := j.fenceReqs ++ [rank], fenceOwed := j.fenceOwed ++ [rank] }
      ((s.bump F.SURVIVAL_EVENTS_FENCE_REQUESTS 0).event j 2 step object rank 0 waited).ask [itemFence job rank]

/-! ## MGMT kinds by role (R356) -/

/-- Does this switch consume a MGMT frame in its role? A step root takes step reports and withdrawals, a releasing switch tally
reports and the replies to its withdrawals, a switch below a bell's home its releases, the coordinator what is sent to it; every
switch takes the kinds of cruise, of fabric time, BELL_ARRIVE and what a coordinator sends. A further frame of a message is
taken with its first. -/
def State.consumes (s : State) (f : Frame) : Bool :=
  let l : Option Layout := (s.job? (BitVec.ofNat 12 (leAt f.payload 2 2 / 16))).map (·.cur)
  let role (q : Layout → Bool) : Bool := match l with | some l => q l | none => false
  let coord := s.isTimeRoot || s.epoch.coord != .idle
  decide (f.payload.length < f.h.msgLen.toNat) ||
    match mgmtKind f with
    | 0x20 | 0x21 | 0x50 | 0x51 | 0x61 | 0x71 | 0x73 | 0x75 | 0x77 => true
    | 0x41 | 0x42 => role Layout.isRoot
    | 0x43 | 0x45 => role fun l => l.plan.groups.any l.releases
    | 0x62 => role fun l => l.plan.groups.any fun g => !l.releases g
    | 0x70 | 0x72 | 0x74 => coord
    | _ => false

end Sys2Proof.Machine
end

