-- ==== Sys2Proof/Machine/Tally.lean ====
section
/-! DEFINITION. The gradient-noise tally: FP64 arithmetic with round to nearest even, the estimate and the statistics
record (spec/08_job_plans.md R246 to R249). -/
namespace Sys2Proof.Machine

open Sys2Proof

/-! ## FP64 (R248) -/

/-- A binary64 value: `fin neg m e` is ±m × 2^e with m below 2^53. -/
inductive F64 where
  | nan
  | inf (neg : Bool)
  | fin (neg : Bool) (m : Nat) (e : Int)
  deriving DecidableEq, Repr

/-- Largest e with 2^e ≤ num / den, for positive operands. -/
def ratioExp (num den : Nat) : Int :=
  let k : Int := (bitlen num : Int) - (bitlen den : Int)
  if den * 2 ^ (max k 0).toNat ≤ num * 2 ^ (max (-k) 0).toNat then k else k - 1

/-- ±(num / den) × 2^e to the nearest binary64 value, ties to even. -/
def F64.round (neg : Bool) (num den : Nat) (e : Int) : F64 :=
  if num = 0 then .fin neg 0 0
  else
    let top := ratioExp num den + e
    let ulp : Int := max (top - 52) (-1074)
    let sh := e - ulp
    let n := num * 2 ^ (max sh 0).toNat
    let d := den * 2 ^ (max (-sh) 0).toNat
    let q := n / d
    let r := n % d
    let q := if d < 2 * r || (2 * r = d && q % 2 = 1) then q + 1 else q
    let (q, ulp) := if q = 2 ^ 53 then (2 ^ 52, ulp + 1) else (q, ulp)
    if 971 < ulp then .inf neg else .fin neg q ulp

/-- A natural number as binary64. -/
def F64.ofNat (n : Nat) : F64 := .round false n 1 0

/-- 2^k. -/
def F64.pow2 (k : Int) : F64 := .round false 1 1 k

/-- Product. -/
def F64.mul : F64 → F64 → F64
  | .nan, _ => .nan
  | _, .nan => .nan
  | .inf a, .inf b => .inf (a != b)
  | .inf a, .fin b m _ => if m = 0 then .nan else .inf (a != b)
  | .fin a m _, .inf b => if m = 0 then .nan else .inf (a != b)
  | .fin a m e, .fin b n f => .round (a != b) (m * n) 1 (e + f)

/-- Quotient. -/
def F64.div : F64 → F64 → F64
  | .nan, _ => .nan
  | _, .nan => .nan
  | .inf _, .inf _ => .nan
  | .inf a, .fin b _ _ => .inf (a != b)
  | .fin a _ _, .inf b => .fin (a != b) 0 0
  | .fin a m e, .fin b n f =>
    if n = 0 then (if m = 0 then .nan else .inf (a != b)) else .round (a != b) m n (e - f)

/-- The exact signed mantissa at exponent g, which is at most e. -/
def signedAt (neg : Bool) (m : Nat) (e g : Int) : Int :=
  let v : Int := ((m * 2 ^ (e - g).toNat : Nat) : Int)
  if neg then -v else v

/-- Difference. -/
def F64.sub : F64 → F64 → F64
  | .nan, _ => .nan
  | _, .nan => .nan
  | .inf a, .inf b => if a = b then .nan else .inf a
  | .inf a, .fin _ _ _ => .inf a
  | .fin _ _ _, .inf b => .inf (!b)
  | .fin a m e, .fin b n f =>
    let g := min e f
    let v := signedAt a m e g - signedAt b n f g
    if v = 0 then .fin (a && !b && m == 0) 0 0 else .round (decide (v < 0)) v.natAbs 1 g

/-- Is the value above zero? -/
def F64.pos : F64 → Bool
  | .nan => false
  | .inf neg => !neg
  | .fin neg m _ => !neg && m != 0

/-- The 64 bits. A value m × 2^e has its leading bit moved to place 52, or is subnormal. -/
def F64.bits : F64 → BitVec 64
  | .nan => Config.freeNan
  | .inf neg => BitVec.ofNat 64 (b2n neg * 2 ^ 63 + 0x7FF * 2 ^ 52)
  | .fin neg m e =>
    if m = 0 then BitVec.ofNat 64 (b2n neg * 2 ^ 63)
    else
      let up := min (53 - bitlen m) (e + 1074).toNat
      let m := m * 2 ^ up
      let e := e - up
      if m < 2 ^ 52 then BitVec.ofNat 64 (b2n neg * 2 ^ 63 + m)
      else BitVec.ofNat 64 (b2n neg * 2 ^ 63 + (e + 1075).toNat * 2 ^ 52 + (m - 2 ^ 52))

/-! ## The estimate (R248) -/

/-- g2 and noise, in the order of operations of R248. -/
def tallyEstimate (sumIn sumSum n batch : Nat) (tallyExp : Int) : F64 × F64 :=
  let u := F64.pow2 (2 * (tallyExp - 31))
  let nf := F64.ofNat n
  let k := ceilLog2 n
  let n1 := F64.ofNat (n - 1)
  let small := ((F64.ofNat sumIn).mul u).div nf
  let big := ((((F64.ofNat sumSum).mul u).mul (F64.pow2 (2 * k)))).div (nf.mul nf)
  let g2 := ((nf.mul big).sub small).div n1
  let svar := (((small.sub big).mul nf).mul (F64.ofNat batch)).div n1
  (g2, if n = 1 || !g2.pos then .nan else svar.div g2)

/-- The statistics record (R249). -/
def statisticsBytes (job : BitVec 12) (gen : BitVec 4) (b : PlanBucket) (step : BitVec 32) (t : TallyStep) : List Byte :=
  let (g2, noise) := tallyEstimate t.sumIn t.sumSum t.n b.tallyBatch b.tallyExp
  leBytes 4 step.toNat ++ leBytes 2 (jobGen job gen) ++ leBytes 2 b.id ++ leBytes 4 t.n
    ++ leSigned 2 b.tallyExp ++ leBytes 1 (b2n t.clamped + 2 * b2n t.reduced + 4 * b2n (t.n == 1 || !g2.pos))
    ++ zeros 1 ++ leBytes 16 t.sumIn ++ leBytes 16 t.sumSum ++ leBytes 8 noise.bits.toNat ++ leBytes 8 g2.bits.toNat

/-! ## A step's tallies -/

/-- What a step holds of a bucket's tally. -/
def StepSt.tallyOf (x : StepSt) (b : Nat) : TallyStep :=
  (x.tally.find? fun t => t.bucket == b).getD
    { bucket := b, sumIn := 0, sumSum := 0, clamped := false, n := 0, reduced := false, reports := [], written := false }

/-- Put a bucket's tally. -/
def StepSt.putTally (x : StepSt) (t : TallyStep) : StepSt :=
  { x with tally := x.tally.filter (fun y => y.bucket != t.bucket) ++ [t] }

/-- Add two shares of a bucket's tally. -/
def TallyStep.add (a b : TallyStep) : TallyStep :=
  { a with sumIn := a.sumIn + b.sumIn, sumSum := a.sumSum + b.sumSum, clamped := a.clamped || b.clamped, n := max a.n b.n,
           reduced := a.reduced || b.reduced, reports := a.reports ++ b.reports }

/-- Running totals with a bucket's tally of a step added, modulo 2^128 (R249). -/
def addTotals (ts : List TallyTotal) (t : TallyStep) : List TallyTotal :=
  let old := (ts.find? fun x => x.bucket == t.bucket).getD ⟨t.bucket, 0, 0⟩
  ts.filter (fun x => x.bucket != t.bucket)
    ++ [⟨t.bucket, old.sumIn + BitVec.ofNat 128 t.sumIn, old.sumSum + BitVec.ofNat 128 t.sumSum⟩]

/-- Add to the running totals of a layout generation: the current one's, or those kept of the one before the cutover (R249). -/
def Job.addTotal (j : Job) (gen : BitVec 4) (t : TallyStep) : Job :=
  if j.cur.plan.gen = gen then { j with totals := addTotals j.totals t }
  else { j with prev := j.prev.map fun p => if p.layout.plan.gen = gen then { p with totals := addTotals p.totals t } else p }

/-- The layout of a generation whose statistics may still be due: one the job has, or the one before its cutover (R244, R249). -/
def Job.tallyLayout (j : Job) (gen : BitVec 4) : Option Layout :=
  match j.layout gen with
  | some l => some l
  | none => j.prev.bind fun p => if p.layout.plan.gen = gen then some p.layout else none

/-- Once the releasing switch holds its own totals and every report, the statistics record is written (R248, R249). -/
def State.tallyTry (s : State) (l : Layout) (b : PlanBucket) (g : PlanGroup) (step : BitVec 32) : State :=
  match s.job? l.plan.job with
  | none => s
  | some j =>
    let t := (j.step step).tallyOf b.id
    if t.written || !t.reports.contains l.self || !((l.plan.tallyOwers g).all t.reports.contains) then s
    else
      let s := s.ringPut j.jrings.statisticsAt (statisticsBytes j.id l.plan.gen b step t) 4
      s.mapJob j.id fun j => (j.addTotal l.plan.gen t).mapStep step fun x => x.putTally { t with written := true }

/-- A share of a bucket's tally reaches the releasing switch. -/
def State.tallyAdd (s : State) (l : Layout) (b : PlanBucket) (g : PlanGroup) (step : BitVec 32) (t : TallyStep) : State :=
  (s.mapJob l.plan.job fun j => j.mapStep step fun x => x.putTally ((x.tallyOf b.id).add t)).tallyTry l b g step

/-- The tallies of a step as its commit passes this switch (R247). -/
def State.tallyCommit (s : State) (l : Layout) (step : BitVec 32) (cs : List (Nat × Ctx)) : State :=
  (l.plan.buckets.filter (·.tally)).foldl (fun s b =>
    match l.plan.group? b.group with
    | none => s
    | some g =>
      let t := tallyOf (l.releases g) cs b
      if l.releases g then s.tallyAdd l b g step { t with reports := [l.self] }
      else if (l.plan.direct g l.self).isEmpty then s
      else
        match l.plan.sw? g.releaser with
        | none => s
        | some r => s.sendMgmt r.flat l.plan.job l.plan.gen (tallyBytes l.plan.job l.plan.gen step t) .plain) s

/-- TALLY_REPORT at the releasing switch (R247). -/
def State.tallyReport (s : State) (p : Nat) (f : Frame) : State :=
  let q := f.payload
  let job := BitVec.ofNat 12 (leAt q 2 2 / 16)
  let gen := BitVec.ofNat 4 (leAt q 2 2)
  let step := BitVec.ofNat 32 (leAt q 4 4)
  match s.receive p f with
  | (.complete, s) =>
    let s := s.ack p f.h
    match (s.job? job).bind fun j => j.tallyLayout gen with
    | none => s
    | some l =>
      match l.plan.buckets.find? (fun b => b.id == leAt q 8 2), l.plan.swByFlat f.h.src with
      | some b, some w =>
        match l.plan.group? b.group with
        | none => s
        | some g =>
          let seen := match s.job? job with | some j => ((j.step step).tallyOf b.id).reports.contains w.index | none => true
          if !l.releases g || !(l.plan.tallyOwers g).contains w.index || seen || !b.tally then s
          else
            s.tallyAdd l b g step
              { bucket := b.id, sumIn := leAt q 16 16, sumSum := 0, clamped := bitOf (leAt q 10 1) 0, n := 0,
                reduced := false, reports := [w.index], written := false }
      | _, _ => s
  | (.again, s) => s.ack p f.h
  | (_, s) => s

/-- TALLY_REPORT (R247). -/
def execTallyReport (port : Nat) (f : Frame) (s : State) : Host.Outcome State Fault Refusal :=
  if s.queuedBehind .firmware port f then .next s else
  let s := s.takeFrom .firmware port f
  if tailGood f && f.h.ftype == 8#4 && mgmtKind f == 0x45 then .next (s.tallyReport port f) else .next s

end Sys2Proof.Machine
end

