-- ==== Sys2Proof/Machine/Steps.lean ====
section
/-! DEFINITION. Control messages from the parent, steps that end, reports to the step root and the step ledger, and the
switch's timers over waits (spec/04_reduction_contexts.md R119, R128, R129; 05_result_checking.md R149 to R166;
03_reduction_arithmetic.md R99; 14_failure_survival.md R357 to R361). -/
namespace Sys2Proof.Machine

open Sys2Proof

/-! ## RESULT, RESCALE and SUPERSEDE at a lower tier (R99, R119, R128) -/

/-- Acknowledge a message to the switch once it is whole. -/
def State.ackIn (s : State) (p : Nat) (f : Frame) : State :=
  match s.receive p f with
  | (.complete, s) => s.ack p f.h
  | (.again, s) => s.ack p f.h
  | (_, s) => s

/-- The descriptor and context a control frame of a chunk concerns. -/
def State.ctlCtx (s : State) (f : Frame) : Option (Nat × Ctx × Job × Layout) :=
  let x := redOf f
  match (s.job? f.h.jobId).bind fun j => (j.layout f.h.layoutGen).map fun l => (j, l) with
  | none => none
  | some (j, l) =>
    let d := l.desc x.step x.chunkId.toNat
    match s.ctx? d with
    | none => none
    | some c => if c.job = f.h.jobId ∧ c.step = x.step ∧ c.chunk = x.chunkId then some (d, c, j, l) else none

/-- What a RESULT's extension says of the result (R38). -/
def resultInfoOf (x : RedExt) (c : Ctx) : ResultInfo :=
  { contributions := x.memberRank.toNat + 1, maxExp := x.maxExp.toInt, anchor := x.anchor.toInt, flushed := x.flushed,
    reduced := x.membershipReduced, stoch := x.stochastic, fast := x.fast, rescales := c.rescales, sumIn := c.runCheck,
    resultCheck := x.sumCheck.toNat, tallySum := 0, tallyClamped := 0 }

/-- A frame of the parent's RESULT at the current generation: held until the message is whole, then replicated (R119,
R128). -/
def State.resultHere (s : State) (p : Nat) (f : Frame) (d : Nat) (c : Ctx) (l : Layout) : State :=
  let x := redOf f
  match l.bucketOf c with
  | none => s
  | some (b, g) =>
    let part := (x.frameIdx.toNat, x.elemOffset.toNat, f.payload)
    let parts := if c.resultParts.any fun q => q.1 == part.1 then c.resultParts else insertBy (fun q => q.1) part c.resultParts
    if parts.length < x.frameCnt.toNat + 1 then s.setCtx d { c with resultParts := parts }
    else
      let rcv := s.receivers l b g c.chunk.toNat
      let c1 := { c.freed with state := .released, resultParts := [], awaiting := rcv, parentMsg := some (f.h, p),
                               result := some (resultInfoOf x c) }
      let s := (s.setCtx d c1).dropPartials d
      (s.sendResult d l b g c1 { x with tier := 0 } (parts.map (·.2)) rcv).maybeFinal d

/-- The context that a RESULT for an IDLE descriptor is taken as: RELEASED at the RESULT's generation, from the RESULT and
the bucket (R589). -/
def State.resultCtx (s : State) (l : Layout) (b : PlanBucket) (g : PlanGroup) (x : RedExt) : Ctx :=
  { s.freshCtx l b g x.step x.chunkId x.anchor.toInt with
    state := .released, generation := x.generation.toNat, result := none, awaiting := s.receivers l b g x.chunkId.toNat }

/-- A RESULT frame for an IDLE descriptor of a step inside the window (R589). A step that has already ended here takes
none, and a chunk that this switch does not forward is only acknowledged (R56). -/
def State.resultIdle (s : State) (p : Nat) (f : Frame) (d : Nat) (j : Job) (l : Layout) : State :=
  let x := redOf f
  match l.plan.bucketAt x.chunkId.toNat with
  | none => s.ackIn p f
  | some b =>
    match l.plan.group? b.group with
    | none => s.ackIn p f
    | some g =>
      if l.plan.chunks ≤ x.chunkId.toNat || l.releases g || (s.slotsIn s.curBank l g).isEmpty || j.stepEnded x.step then
        s.ackIn p f
      else
        let c := s.resultCtx l b g x
        ((s.startTimer l g x.step).setCtx d c).resultHere p f d c l

/-- A RESULT frame (R119, R128, R589). -/
def State.resultIn (s : State) (p : Nat) (f : Frame) : State :=
  let x := redOf f
  match (s.job? f.h.jobId).bind fun j => (j.layout f.h.layoutGen).map fun l => (j, l) with
  | none => s.ackIn p f
  | some (j, l) =>
    let m := s.millOf f.h.jobId x.chunkId.toNat
    if !j.inWindow x.step then s.bump F.MILL_DISCARDS_STALE_DISCARDS m
    else
      let d := l.desc x.step x.chunkId.toNat
      match s.ctx? d with
      | none => s.resultIdle p f d j l
      | some c =>
        let g := x.generation.toNat
        if c.job != f.h.jobId || c.step != x.step || c.chunk != x.chunkId then
          (s.bump F.MILL_DISCARDS_SEPARATION_DISCARDS m).millFault m 0x22 f.h.jobId x.step x.chunkId.toNat 0
        else if g < c.generation then s.ackIn p f
        else if c.generation < g then s
        else
          match c.state with
          | .forwarded => s.resultHere p f d c l
          | .released =>
            if c.result.isNone then s.resultHere p f d c l else s.setCtx d { c with parentMsg := some (f.h, p) }
          | .final => s.ack p f.h
          | .aborted => s.ackIn p f
          | _ => s

/-- RESULT_RECEIVED (R119, R128). -/
def execResultReceived (port : Nat) (f : Frame) (s : State) : Host.Outcome State Fault Refusal :=
  if s.queuedBehind .firmware port f then .next s else
  let s := s.takeFrom .firmware port f
  if tailGood f && f.h.ftype == 4#4 && (redOf f).code == codeResult then .next (s.resultIn port f) else .next s

/-- Take a RESCALE (R99): the new anchor is written and the chunk state cleared before it goes down. A tier that had forwarded,
and so did not enter rescale wait itself, counts the rescale here (R100, R109). -/
def State.rescaleIn (s : State) (f : Frame) : State :=
  match s.ctlCtx f with
  | none => s
  | some (d, c, _, l) =>
    let x := redOf f
    if x.generation.toNat != c.generation || (c.state != .rescaleWait && c.state != .forwarded) then s
    else
      let c1 := { c.cleared.freed with state := .openS, anchor := x.anchor.toInt, requestSent := false,
                                           rescales := if c.state = .forwarded then satAdd 8 c.rescales 1 else c.rescales }
      let s := (s.setCtx d c1).dropPartials d
      let y := { c1.ext 0 with anchor := x.anchor, chunkElems := BitVec.ofNat 13 c.elems }
      s.sendSlots l ((c.slots.filter (·.live)).map (·.who)) (fun dest => ctlFrame codeRescale c.job c.layoutGen dest y)
        (fun _ => .control d)

/-- Take a control message once: acknowledged, then acted on. -/
def State.control (s : State) (p : Nat) (f : Frame) (code : BitVec 4) (act : State → State) : State :=
  if !tailGood f || f.h.ftype != 4#4 || (redOf f).code != code then s
  else
    match s.receive p f with
    | (.complete, s) => act (s.ack p f.h)
    | (.again, s) => s.ack p f.h
    | (_, s) => s

/-- RESCALE_RECEIVED (R99). -/
def execRescaleReceived (port : Nat) (f : Frame) (s : State) : Host.Outcome State Fault Refusal :=
  if s.queuedBehind .firmware port f then .next s else
  .next ((s.takeFrom .firmware port f).control port f codeRescale fun s => s.rescaleIn f)

/-- Take a SUPERSEDE at a higher generation (R119). -/
def State.supersedeIn (s : State) (f : Frame) : State :=
  match s.ctlCtx f with
  | none => s
  | some (d, c, _, _) =>
    let g := (redOf f).generation.toNat
    if g ≤ c.generation || c.state == .aborted then s else (s.supersedeTo d g (some (redOf f))).settleFree

/-- SUPERSEDE_RECEIVED (R119). -/
def execSupersedeReceived (port : Nat) (f : Frame) (s : State) : Host.Outcome State Fault Refusal :=
  if s.queuedBehind .firmware port f then .next s else
  .next ((s.takeFrom .firmware port f).control port f codeSupersede fun s => s.supersedeIn f)

/-! ## The end of a step (R129, R153, R163 to R165) -/

/-- A STEP_COMMIT frame (R38, R164). -/
def commitFrame (l : Layout) (step : BitVec 32) (gen : BitVec 8) (tag : BitVec 64) (dest : BitVec 24) : Frame :=
  ctlFrame codeCommit l.plan.job l.plan.gen dest
    { zeroRed with step := step, generation := gen, sumCheck := tag }

/-- STEP_COMMIT passes this switch: it goes on down, the tallies are taken, FINAL contexts retire, the step ends (R129,
R181, R247). A chunk that waits for the reply to a withdrawal retires like every other; the reply finds its mill (R152). -/
def State.commitStep (s : State) (job : BitVec 12) (step : BitVec 32) (gen : BitVec 8) (tag : BitVec 64) : State :=
  match s.job? job with
  | none => s
  | some j =>
    if j.stepEnded step then s
    else
      let l := j.cur
      let cs := (s.stepCtxs job step).filter fun x => x.2.state == .final
      let s := s.sendSlots l (s.downSlots l) (commitFrame l step gen tag) (fun _ => .plain)
      let s := s.tallyCommit l step cs
      let late := (cs.filter (·.2.withdrawing)).map fun x => (x.2.mill, x.2.chunk.toNat)
      let s := s.mapJob job fun j => j.mapStep step fun x => { x with lateCauses := x.lateCauses ++ late }
      let s := (cs.map (·.1)).foldl State.idleCtx s
      s.endStep job step .committed cs

/-- STEP_COMMIT_RECEIVED (R129). The rounding lanes may differ in a chunk that is compressed now (R176, R182). -/
def execStepCommitReceived (port : Nat) (f : Frame) (flt : MillFault) (s : State) : Host.Outcome State Fault Refusal :=
  if s.queuedBehind .firmware port f then .next s else
  .next ((s.takeFrom .firmware port f).control port f codeCommit fun s =>
    (s.commitStep f.h.jobId (redOf f).step (redOf f).generation (redOf f).sumCheck).settle flt.dupDiff)

/-- STEP_ABORT_RECEIVED (R153). -/
def execStepAbortReceived (port : Nat) (f : Frame) (flt : MillFault) (s : State) : Host.Outcome State Fault Refusal :=
  if s.queuedBehind .firmware port f then .next s else
  .next ((s.takeFrom .firmware port f).control port f codeAbort fun s =>
    let x := redOf f
    (s.abortStep f.h.jobId x.step x.anchor.toNat
      (if x.noChunk then none else some (x.chunkId.toNat, x.generation.toNat)) .received).settle flt.dupDiff)

/-- STEP_TIMER_EXPIRY (R267): a releasing switch whose step timer runs aborts the step with 0x0001. -/
def execStepTimerExpiry (job : BitVec 12) (step : BitVec 32) (s : State) : Host.Outcome State Fault Refusal :=
  match s.job? job with
  | none => .next s
  | some j =>
    if (j.step step).timerOn && !j.stepEnded step then .next ((s.abortStep job step 1 none .own).settleFree) else .next s

/-! ## The step root (R129, R152, R162 to R166) -/

/-- The 96 digested bytes of a step record (R163). -/
def digestedBytes (p : Plan) (step : BitVec 32) (flags survivors : Nat) : List Byte :=
  leBytes 2 1 ++ leBytes 2 (jobGen p.job p.gen) ++ leBytes 4 step.toNat ++ leBytes 4 p.chunks
    ++ leBytes 2 p.releasers.length ++ leBytes 1 flags ++ zeros 1 ++ leBytes 4 survivors ++ zeros 12
    ++ sliceB p.digest 0 64

/-- One 80-byte summary (R163). -/
def summaryBytes (r : ReportIn) : List Byte :=
  leBytes 2 r.releaser ++ zeros 2 ++ leBytes 4 r.chunksHere ++ zeros 8 ++ sliceB r.digest 0 64

/-- The ledger tag (R164). -/
def ledgerTag (digest : List Byte) : BitVec 64 := BitVec.ofNat 64 (beAt digest 0 8 % 2 ^ 61 % checkP)

/-- The step record of a step, from the reports in ascending RELEASER_INDEX (R163, R165). -/
def stepRecord (p : Plan) (step : BitVec 32) (reports : List ReportIn) (survivors ns : Nat) : StepRecord :=
  let digested := digestedBytes p step (orAll (reports.map (·.flags))) survivors
  let summaries := (reports.map summaryBytes).flatten
  { job := p.job, step := step, digested := digested, summaries := summaries, digest := sha3 (digested ++ summaries),
    commitTime := ns, signature := none }

/-- Has the step before one ended at this switch; for the first step of a layout generation it has (R129)? -/
def Job.prevEnded (j : Job) (step : BitVec 32) : Bool := step == j.cur.plan.firstStep || j.stepEnded (step - 1)

/-- Ask for a signature of a step record (R166). -/
def State.signStep (s : State) (job : BitVec 12) (step : BitVec 32) : State :=
  { s with signQueue := s.signQueue ++ [some (job, step)] }

/-- Keep a step record: the LEDGER_DEPTH newest of the job, and the four newest of the device (R165). -/
def State.keepRecord (s : State) (job : BitVec 12) (depth : Nat) (r : StepRecord) : State :=
  let s := (s.mapJob job fun j => { j with records := (r :: j.records).take depth }).syncLedger job r.step
  { s with retained := (r :: s.retained).take 4 }

/-- The step root commits once it holds every report and the previous step has ended (R129, R163, R164). -/
def State.tryCommit (s : State) (job : BitVec 12) (step : BitVec 32) : State :=
  match s.job? job with
  | none => s
  | some j =>
    let l := j.cur
    let n := l.plan.releasers.length
    let held := (List.range n).filterMap fun i => (j.step step).reports.find? fun r => r.releaser == i
    if !l.isRoot || j.stepEnded step || held.length != n || !j.prevEnded step then s
    else
      let survivors := ((List.range l.plan.members.length).filter fun r => !s.curBank.fenced job r).length
      let r := stepRecord l.plan step held survivors s.ns
      let s := s.keepRecord job l.plan.ledgerDepth r
      let s := if s.flag F.LEDGER_CONTROL_SIGN_ALL 0 then s.signStep job step else s
      s.commitStep job step (BitVec.ofNat 8 (maxN 0 (held.map (·.maxGen)))) (ledgerTag r.digest)

/-- The step root commits what it can: a step whose predecessor has just ended may follow. -/
def State.commitOn (s : State) (job : BitVec 12) : Nat → State
  | 0 => s
  | n + 1 =>
    match s.job? job with
    | none => s
    | some j =>
      let t := s.tryCommit job j.floor
      match t.job? job with
      | none => t
      | some k => if k.floor = j.floor then t else t.commitOn job n

/-- The step root stores a report (R162). -/
def State.putReport (s : State) (job : BitVec 12) (step : BitVec 32) (r : ReportIn) : State :=
  let s := s.mapJob job fun j => j.mapStep step fun x =>
    { x with reports := x.reports.filter (fun y => y.releaser != r.releaser) ++ [r] }
  (s.commitOn job 33).settleFree

/-- May a releasing switch report a step: its chunks FINAL, every RESULT and SUPERSEDE of the step acknowledged, the step
before ended, the proposals of that step acknowledged (R46, R129)? -/
def State.mayReport (s : State) (j : Job) (step : BitVec 32) : Bool :=
  let l := j.cur
  let x := j.step step
  let mine := l.chunksHere
  !(l.plan.groups.filter l.releases).isEmpty && j.inWindow step && !j.stepEnded step && !x.reported && !x.withdrawn
    && (mine.all fun c => match s.ctx? (l.desc step c) with
        | some y => y.job == j.id && y.step == step && y.state == .final
        | none => false)
    && !s.resultsOwed j.id step && j.prevEnded step && !s.proposalsAwaited j.id (step + BitVec.ofNat 32 l.plan.depth)

/-- The report of a step (R161, R162). -/
def Job.reportOf (j : Job) (step : BitVec 32) : ReportIn :=
  let es := (j.step step).entries
  { releaser := j.cur.plan.releaserIndex j.cur.self, flags := orAll (es.map (·.flags)),
    chunksHere := j.cur.chunksHere.length, maxGen := maxN 0 (es.map (·.gen)),
    digest := sha3 (es.map LedgerEntry.bytes).flatten }

/-- STEP_REPORT_SEND (R129, R161, R162). -/
def execStepReportSend (job : BitVec 12) (step : BitVec 32) (s : State) : Host.Outcome State Fault Refusal :=
  match s.job? job with
  | none => .next s
  | some j =>
    if !s.mayReport j step then .next s
    else
      let r := j.reportOf step
      let s := s.mapJob job fun j => j.mapStep step fun x => { x with reported := true }
      if j.cur.isRoot then .next (s.putReport job step r)
      else
        .next (s.sendMgmt j.cur.rootFlat job j.cur.plan.gen
          (reportBytes job j.cur.plan.gen step r.releaser r none) (.stepReport step))

/-- A step-report message as every kind of it begins (R162): job, generation, step, RELEASER_INDEX. -/
structure StepMsg where
  job : BitVec 12
  gen : BitVec 4
  step : BitVec 32
  idx : Nat
  deriving DecidableEq, Repr

/-- Read the common fields. -/
def stepMsg (q : List Byte) : StepMsg :=
  ⟨BitVec.ofNat 12 (leAt q 2 2 / 16), BitVec.ofNat 4 (leAt q 2 2), BitVec.ofNat 32 (leAt q 4 4), leAt q 8 2⟩

/-- Take a MGMT message of a kind once: acknowledged, then acted on. -/
def State.mgmtIn (s : State) (p : Nat) (f : Frame) (kind : Nat) (act : State → State) : State :=
  if !tailGood f || f.h.ftype != 8#4 || mgmtKind f != kind then s
  else
    match s.receive p f with
    | (.complete, s) => act (s.ack p f.h)
    | (.again, s) => s.ack p f.h
    | (_, s) => s

/-- The step root takes a report: an abort ends the step, another is stored (R153, R162). -/
def State.reportIn (s : State) (q : List Byte) : State :=
  let m := stepMsg q
  match s.job? m.job with
  | none => s
  | some j =>
    if !j.cur.isRoot || j.cur.plan.gen != m.gen || j.stepEnded m.step || !j.inWindow m.step
        || j.cur.plan.releasers.length ≤ m.idx then s
    else if leAt q 11 1 = 1 then ((s.abortStep m.job m.step (leAt q 16 2) none .report).commitOn m.job 33).settleFree
    else
      s.putReport m.job m.step
        { releaser := m.idx, flags := leAt q 10 1, chunksHere := leAt q 12 4, maxGen := leAt q 18 1, digest := sliceB q 24 64 }

/-- STEP_REPORT (R162). -/
def execStepReport (port : Nat) (f : Frame) (s : State) : Host.Outcome State Fault Refusal :=
  if s.queuedBehind .firmware port f then .next s else
  .next ((s.takeFrom .firmware port f).mgmtIn port f 0x41 fun s => s.reportIn f.payload)

/-- The step root takes a withdrawal and replies (R152). -/
def State.withdrawIn (s : State) (src : BitVec 24) (q : List Byte) : State :=
  let m := stepMsg q
  match s.job? m.job with
  | none => s
  | some j =>
    if !j.cur.isRoot then s
    else
      let done := j.committed m.step
      let s := if done then s else s.mapJob m.job fun j => j.mapStep m.step fun x =>
        { x with reports := x.reports.filter fun r => r.releaser != m.idx }
      s.sendMgmt src m.job m.gen
        (leBytes 2 0x43 ++ leBytes 2 (jobGen m.job m.gen) ++ leBytes 4 m.step.toNat ++ leBytes 2 m.idx
          ++ leBytes 1 (b2n done) ++ zeros 5) .plain

/-- REPORT_WITHDRAW (R152). -/
def execReportWithdraw (port : Nat) (f : Frame) (s : State) : Host.Outcome State Fault Refusal :=
  if s.queuedBehind .firmware port f then .next s else
  .next ((s.takeFrom .firmware port f).mgmtIn port f 0x42 fun s => s.withdrawIn f.h.src f.payload)

/-- A releasing switch takes the reply: WITHDRAWN supersedes what waited for it, COMMITTED raises POST_COMMIT, whether
STEP_COMMIT has passed before it or not (R152). -/
def State.replyIn (s : State) (q : List Byte) : State :=
  let m := stepMsg q
  match s.job? m.job with
  | none => s
  | some j =>
    if !(j.step m.step).withdrawn then s
    else
      let waiting := (s.stepCtxs m.job m.step).filter (·.2.withdrawing)
      if leAt q 10 1 = 0 then
        let s := s.mapJob m.job fun j => j.mapStep m.step fun x => { x with withdrawn := false, reported := false }
        waiting.foldl (fun s x =>
          (s.supersedeTo x.1 (x.2.generation + 1) none).bump F.SUPERSEDE_EVENTS_SUPERSESSIONS x.2.mill) s
      else
        let late := (j.step m.step).lateCauses
        let s := s.mapJob m.job fun j => j.mapStep m.step fun x => { x with withdrawn := false, lateCauses := [] }
        let s := late.foldl (fun s x => s.millFault x.1 0x24 m.job m.step x.2 0) s
        waiting.foldl (fun s x =>
          (s.setCtx x.1 { x.2 with withdrawing := false }).millFault x.2.mill 0x24 m.job m.step x.2.chunk.toNat 0) s

/-- WITHDRAW_REPLY (R152). -/
def execWithdrawReply (port : Nat) (f : Frame) (s : State) : Host.Outcome State Fault Refusal :=
  if s.queuedBehind .firmware port f then .next s else
  .next ((s.takeFrom .firmware port f).mgmtIn port f 0x43 fun s => s.replyIn f.payload)

/-! ## Straggler and fence timers (R218, R357 to R359) -/

/-- What a wait awaits here: the job, its STEP, OBJECT, the members' ranks, and when the wait began (`start`: bits [33:14] of that
time, as WAIT_START holds them). -/
structure Wait where
  job : BitVec 12
  step : BitVec 32
  object : Nat
  ranks : List Nat
  since : Nat
  start : Nat
  sent : Bool
  deriving DecidableEq, Repr

/-- The awaited members of a context: its direct slots neither complete nor fenced (R357). -/
def State.ctxWait (s : State) (d : Nat) : Option Wait :=
  match s.ctx? d with
  | none => none
  | some c =>
    if c.state != .openS && c.state != .rescaleWait then none
    else
      some { job := c.job, step := c.step, object := c.chunk.toNat, since := c.waitNs, start := c.waitStart.toNat,
             sent := c.stragglerSent,
             ranks := c.slots.filterMap fun y =>
               match y.who with
               | .member r => if y.live && !y.complete && !s.curBank.fenced c.job r then some r else none
               | .child _ => none }

/-- Bits [33:14] of a time in nanoseconds (R106, R268). -/
def timeUnits (ns : Nat) : Nat := ns / 2 ^ 14 % 2 ^ 20

/-- The awaited members of a barrier phase whose first arrival has opened it: its direct slots that have not arrived (R357). -/
def State.bellWait (s : State) (job : BitVec 12) (b : Nat) : Option Wait :=
  match (s.job? job).bind (·.bell? b) with
  | none => none
  | some x =>
    if x.kind != .barrier || !x.begun then none
    else
      some { job := job, step := 0, object := 2 ^ 31 + b, since := x.opened, start := timeUnits x.opened,
             sent := x.stragglerSent,
             ranks := x.slots.filterMap fun w =>
               match w with
               | .member r => if x.arrived.contains w || s.curBank.fenced job r then none else some r
               | .child _ => none }

/-- The sources whose END an egress leaf awaits (R218). -/
def State.dispatchWait (s : State) (job : BitVec 12) (set : Nat) (inst : BitVec 8) (dest : Nat) : Option Wait :=
  match s.job? job with
  | none => none
  | some j =>
    match j.inst? set inst dest, j.cur.plan.dset? set with
    | some x, some d =>
      let late : List Nat :=
        match x.phase with
        | .collecting => (s.aliveSources job d).filter fun i => (x.endOf i 1).isNone
        | .second => ((s.aliveSources job d).filter x.granted.contains).filter fun i => (x.endOf i 2).isNone
        | _ => []
      some { job := job, step := 0, object := (Config.freeObject x.opened).toNat, since := x.opened,
             start := timeUnits x.opened, sent := x.stragglerSent,
             ranks := late.filterMap fun i => d.sources[i]? }
    | _, _ => none

/-- The wait a timer runs on. -/
def State.waitOf (s : State) (w : WaitObj) : Option Wait :=
  match w with
  | .context d => s.ctxWait d
  | .bell job b => s.bellWait job b
  | .dispatch job set inst dest => s.dispatchWait job set inst dest

/-- A wait's STRAGGLER records are out. -/
def State.markStraggler (s : State) (w : WaitObj) : State :=
  match w with
  | .context d => match s.ctx? d with | some c => s.setCtx d { c with stragglerSent := true } | none => s
  | .bell job b => s.mapJob job fun j => match j.bell? b with | some x => j.setBell { x with stragglerSent := true } | none => j
  | .dispatch job set inst dest => s.mapJob job fun j =>
    match j.inst? set inst dest with | some x => j.setInst { x with stragglerSent := true } | none => j

/-- WAITED_US (R361). -/
def State.waited (s : State) (since : Nat) : Nat := (s.ns - since) / 1000

/-- Has a limit in microseconds passed since a wait began, by the bits that R268 compares: no earlier than the limit, and less
than two units of 16.384 µs after it? -/
def State.waitOver (s : State) (x : Wait) (us : Nat) : Bool :=
  decide (ceilDiv (1000 * us) 16384 + 1 ≤ (timeUnits s.ns + 2 ^ 20 - x.start) % 2 ^ 20)

/-- STRAGGLER_TIMER_EXPIRY (R268, R358). -/
def execStragglerTimerExpiry (w : WaitObj) (s : State) : Host.Outcome State Fault Refusal :=
  match s.waitOf w with
  | none => .next s
  | some x =>
    if x.sent then .next s
    else
      match s.job? x.job with
      | none => .next s
      | some j =>
        if !s.waitOver x j.cur.plan.policy.stragglerUs then .next s else
        .next (x.ranks.foldl (fun s r => (s.bump F.SURVIVAL_EVENTS_STRAGGLER_REPORTS 0).event j 1 x.step x.object r 0
          (s.waited x.since)) (s.markStraggler w))

/-- The fence of each awaited member is requested under FENCE_ACTION 0, once the fence limit has passed (R268, R359). -/
def State.fenceWait (s : State) (x : Wait) : State :=
  match s.job? x.job with
  | none => s
  | some j =>
    if j.cur.plan.policy.wait || !s.waitOver x j.cur.plan.policy.fenceUs then s
    else (x.ranks.foldl (fun s r => s.requestFence x.job r x.step x.object (s.waited x.since)) s).coordGo

/-- FENCE_TIMER_EXPIRY (R268, R359). -/
def execFenceTimerExpiry (w : WaitObj) (s : State) : Host.Outcome State Fault Refusal :=
  match s.waitOf w with
  | none => .next s
  | some x => .next (s.fenceWait x)

end Sys2Proof.Machine
end

