-- ==== Sys2Proof/Machine/Messages.lean ====
section
/-! DEFINITION. Answers to the switch's own messages: ACK, NACK, CHECK_FAIL and the re-send timer
(spec/02_fabric_frames.md R47 to R49, R55 to R58; 04_reduction_contexts.md R126, R128; 05_result_checking.md R145,
R149, R150; 07_collectives.md R204, R206, R216; 14_failure_survival.md R360, R369). -/
namespace Sys2Proof.Machine

open Sys2Proof

/-! ## Matching an answer to a message (R32, R56) -/

/-- Does an answer that came in on a port belong to a message of the switch: same MSG_ID and JOB_ID, from the receiver the
message went to, in the same addressing mode? -/
def State.answers (s : State) (p : Nat) (h : BaseHdr) (o : OutMsg) : Bool :=
  match o.frames.head? with
  | none => false
  | some f =>
    f.h.msgId == h.msgId && f.h.jobId == h.jobId && f.h.amode == h.amode
      && (if h.src = fabricAddr h.amode then
            (match o.hop with
             | .toSwitch flat => (s.cable p).role == .switch && (s.cable p).peerFlat == flat
             | .onPort q => p == q
             | .routed | .nowhere => false)
          else h.src == f.h.dest)

/-- The message an answer belongs to. -/
def State.outFor (s : State) (p : Nat) (h : BaseHdr) : Option OutMsg := s.outs.find? (s.answers p h)

/-- A message is acknowledged or given up: it is forgotten, and a re-send of which nothing has been transmitted is
cancelled (R58). -/
def State.closeOut (s : State) (o : OutMsg) : State :=
  let s := s.dropOut o.key
  if o.unsent = o.frames.length then s.dropCopies fun c => c.msg == some o.key && !c.started else s

/-! ## ACK (R56, R113, R128, R204, R216, R283, R369) -/

/-- What the acknowledgement of a message leads to. -/
def State.acked (s : State) (o : OutMsg) : State :=
  match o.purpose with
  | .result d gen rcv =>
    match s.ctx? d with
    | some c =>
      if c.generation = gen ∧ c.state = .released then
        (s.setCtx d { c with awaiting := c.awaiting.filter (· != rcv) }).maybeFinal d
      else s.maybeFinal d
    | none => s
  | .partialUp d gen =>
    match s.ctx? d with
    | some c => if c.generation = gen ∧ c.state = .forwarded then s.setCtx d c.freed else s
    | none => s
  | .supersede d => s.maybeFinal d
  | .dispatchWrite set inst dest => match o.job with | some j => s.dispatchWritten j set inst dest | none => s
  | .dispatchDone set inst dest => match o.job with | some j => s.dispatchDone j set inst dest | none => s
  | .landingRead rid => match o.job with | some j => s.readAcked j rid | none => s
  | .announce p => s.announceDone p
  | .epochRetire => s.coordGo
  | _ => s

/-- An ACK that reaches the switch. -/
def State.ackInRaw (s : State) (p : Nat) (f : Frame) : State :=
  if s.mcAbsorbs p f.h then
    match s.mcFor f.h with
    | some r => s.mcAck p f.h r
    | none => s
  else
    match s.outFor p f.h with
    | some o => ((s.closeOut o).acked o).settleFree
    | none => s

/-- ACK_FRAME (R56). -/
def execAckFrame (port : Nat) (f : Frame) (s : State) : Host.Outcome State Fault Refusal :=
  if s.queuedBehind .firmware port f then .next s else
  let s := s.takeFrom .firmware port f
  if tailGood f && f.h.ftype == 6#4 then .next (s.ackInRaw port f) else .next s

/-! ## NACK (R49, R123, R206) -/

/-- Send a message again as a new message (R49, R123). -/
def State.sendAnew (s : State) (o : OutMsg) : State := (s.closeOut o).send o.hop o.frames o.job o.rank o.purpose

/-- FENCED (R49): the switch stops sending for the job and discards its pending messages. -/
def State.fencedOff (s : State) (job : BitVec 12) : State :=
  let s := { s with jobs := s.jobs.map fun (j : Job) => if j.id = job then { j with silenced := true } else j }
  let keys := (s.outs.filter fun o => o.job == some job).map (·.key)
  (s.dropOuts fun o => o.job == some job).dropCopies fun c =>
    !c.started && match c.msg with | some k => keys.contains k | none => false

/-- The reaction each code requires of the source (R49). A BUSY message keeps its place: it is sent again, with ATTEMPT
raised, when its timer next expires and RETRY_HINT µs have passed. -/
def State.nacked (s : State) (o : OutMsg) (x : NackExt) : State :=
  if x.code = nackBusy then
    { s with outs := s.outs.map fun (y : OutMsg) =>
        if y.key = o.key then { y with holdUntil := s.ns + 1000 * x.retryHint.toNat } else y }
  else if x.code = nackCheckFail then s.sendAnew o
  else if x.code = nackFenced then
    match o.job with
    | some id => (s.closeOut o).fencedOff id
    | none => s.closeOut o
  else if x.code = nackStaleLayout || x.code = nackScaleExceeded || x.code = nackNoContext || x.code = nackGenSuperseded then
    s.closeOut o
  else s

/-! ## CHECK_FAIL from below (R126, R145, R149, R150) -/

/-- Is a message one whose CHECK_FAIL comes from its receiver below: a RESULT (R49, R126)? -/
def OutMsg.checkedBelow (o : OutMsg) : Bool := match o.purpose with | .result _ _ _ => true | _ => false

/-- A child's CHECK_FAIL for a chunk whose descriptor is IDLE, at generation 0: a lower tier passes it up, once; the releasing
tier keeps it until the context opens (R126; log entry 101). -/
def State.checkFailIdle (s : State) (j : Job) (l : Layout) (w : SlotId) (x : NackExt) : State :=
  match w, (l.plan.bucketAt x.chunkId.toNat).bind fun b => l.plan.group? b.group with
  | .child _, some g =>
    if x.generation != 0 || l.plan.chunks ≤ x.chunkId.toNat || !j.inWindow x.step || j.stepEnded x.step
        || !(s.slotsIn s.curBank l g).contains w || (j.step x.step).heldFails.any (fun y => y.1 == x.chunkId.toNat) then s
    else
      let s := s.bump F.SUPERSEDE_EVENTS_DOWNSTREAM_FAILS (s.millOf j.id x.chunkId.toNat)
      let s := s.mapJob j.id fun j => j.mapStep x.step fun y =>
        { y with heldFails := y.heldFails ++ [(x.chunkId.toNat, x.checkCause.toNat)] }
      if l.releases g then s
      else s.emit (s.upHop l g) (checkFailFrame j.id l.plan.gen x.step x.chunkId 0 x.checkCause.toNat) none
  | _, _ => s

/-- A CHECK_FAIL from a member, about a RESULT it has not acknowledged (R48), or from a child, for a chunk at its current
generation. -/
def State.checkFailIn (s : State) (p : Nat) (f : Frame) : State :=
  let x := nackOf f
  match (s.job? f.h.jobId).bind fun j => (j.layout f.h.layoutGen).map fun l => (j, l) with
  | none => s
  | some (j, l) =>
    let d := l.desc x.step x.chunkId.toNat
    match s.ctx? d, s.slotOn l p f.h.src with
    | some c, some w =>
      let owed := match w with
        | .member _ => match s.outFor p f.h with | some o => o.checkedBelow | none => false
        | .child _ => true
      if c.job != f.h.jobId || c.step != x.step || c.chunk != x.chunkId || c.generation != x.generation.toNat
          || c.state == .aborted || j.stepEnded c.step || !owed then s
      else
        match l.bucketOf c with
        | none => s
        | some (_, g) =>
          if !(s.slotsIn s.curBank l g).contains w then s
          else
            let cause : Nat := match w with | .member _ => 0 | .child _ => x.checkCause.toNat
            let s := s.bump F.SUPERSEDE_EVENTS_DOWNSTREAM_FAILS c.mill
            if l.releases g then s.downFailure d cause else s.checkFailUp d cause
    | none, some w => s.checkFailIdle j l w x
    | _, _ => s

/-- NACK_FRAME (R49, R206). A CHECK_FAIL that answers a RESULT is a member's or a child's, and draws the reaction of R126. -/
def execNackFrame (port : Nat) (f : Frame) (s : State) : Host.Outcome State Fault Refusal :=
  if s.queuedBehind .firmware port f then .next s else
  let s := s.takeFrom .firmware port f
  if !tailGood f || f.h.ftype != 5#4 then .next s
  else if s.mcAbsorbs port f.h then
    match s.mcFor f.h with
    | some r => .next (s.mcNack f r)
    | none => .next s
  else
    match s.outFor port f.h with
    | some o =>
      if (nackOf f).code = nackCheckFail && o.checkedBelow then .next ((s.checkFailIn port f).settleFree)
      else .next (s.nacked o (nackOf f))
    | none => .next s

/-- CHECK_FAIL_NACK (R126). A RESULT that drew it stays unacknowledged: it is sent again, and the member acknowledges it
once a newer generation has made it void (R45, R46). -/
def execCheckFailNack (port : Nat) (f : Frame) (s : State) : Host.Outcome State Fault Refusal :=
  if s.queuedBehind .firmware port f then .next s else
  let s := s.takeFrom .firmware port f
  if tailGood f && f.h.ftype == 5#4 && (nackOf f).code == nackCheckFail then
    .next ((s.checkFailIn port f).settleFree)
  else .next s

/-! ## The re-send timer (R58, R283, R360) -/

/-- A RESULT or SUPERSEDE whose eighth attempt has failed is sent no more, and holds its step back until the member is
fenced (R46, R58); another message is forgotten. -/
def State.endOut (s : State) (o : OutMsg) : State :=
  match o.purpose with
  | .result _ _ _ | .supersede _ =>
    { s with outs := s.outs.map fun (x : OutMsg) => if x.key = o.key then { x with failed := true } else x }
  | _ => s.dropOut o.key

/-- The eighth attempt has failed: an endpoint's announcement counts as failed; a member's DELIVERY_FAILED record is
written and its fence is requested as if its fence timer had expired (R283, R360). -/
def State.deliveryFailed (s : State) (o : OutMsg) : State :=
  let s := s.endOut o
  match o.purpose with
  | .announce p => s.announceFail p
  | .epochRetire => s.coordGo
  | _ =>
    match o.job, o.rank with
    | some id, some r =>
      match s.job? id with
      | none => s
      | some j =>
        let s := s.event j 4 0 0 r 0 0
        if j.cur.plan.policy.wait then s else (s.requestFence id r 0 0 0).coordGo
    | _, _ => s

/-- RESEND_TIMER_EXPIRY (R58): the whole message again with ATTEMPT raised, at most 8 attempts; a fenced member's message
is sent no more. -/
def execResendTimerExpiry (key : Nat) (s : State) : Host.Outcome State Fault Refusal :=
  match s.outs.find? fun o => o.key == key with
  | none => .next s
  | some o =>
    let fenced := match o.job, o.rank with | some j, some r => s.curBank.fenced j r | _, _ => false
    if o.unsent != 0 || o.failed || decide (s.ns < o.holdUntil) then .next s
    else if fenced then .next (s.dropOut key)
    else if 8 ≤ o.attempt + 1 then .next (s.deliveryFailed o)
    else
      let n := o.attempt + 1
      let fs := o.frames.map fun f => { f with h := { f.h with attempt := BitVec.ofNat 3 n } }
      let s := { s with outs := s.outs.map fun x =>
        if x.key = key then { x with attempt := n, frames := fs, unsent := fs.length } else x }
      .next (fs.foldl (fun s f => s.emit o.hop f (some key)) s)

end Sys2Proof.Machine
end

