-- ==== Sys2Proof/Machine/Scheduling.lean ====
section
/-! DEFINITION. Shaping and policing, time gates, pause from the neighbour, and the arbiter of an egress port
(spec/12_scheduling.md R316 to R332; 15_determinism.md R396; 16_serial_lanes.md R406). -/
namespace Sys2Proof.Machine

open Sys2Proof

/-! ## Words of the memory-mapped arrays -/

/-- A word of an array of the management space; unlisted words are 0. -/
def State.arr (s : State) (a : Nat) : Word := (sget a s.arrays).getD 0

/-- Write a word of an array. -/
def State.setArr (s : State) (a : Nat) (w : Word) : State := { s with arrays := sset 0 a w s.arrays }

/-- Base of a fabric die's management space. -/
def dieBase (d : Nat) : Nat := 0x10000000 + d * 0x04000000

/-! ## The shaper table (R317 to R323) -/

/-- Address of a shaper entry. -/
def shaperAddr (d i : Nat) : Nat := dieBase d + 0x00100000 + i * 16

/-- A shaper entry. -/
structure ShaperEntry where
  job : BitVec 12
  port : Nat
  police : Bool
  en : Bool
  rate : Nat
  burst : Nat
  depth : Nat
  deriving DecidableEq, Repr

/-- The entry in three words. -/
def shaperOf (w0 w1 w2 : Word) : ShaperEntry :=
  { job := BitVec.ofNat 12 w0.toNat, port := bitsOf w0.toNat 21 16, en := w0.getLsbD 24, police := w0.getLsbD 25,
    rate := w1.toNat, burst := bitsOf w2.toNat 15 0, depth := bitsOf w2.toNat 31 16 }

/-- Are RATE and BURST in range (R317)? -/
def ShaperEntry.valid (e : ShaperEntry) : Bool := e.rate != 0 && e.burst != 0 && decide (e.rate ≤ 200000)

/-- Entry i of a die as it stands. -/
def State.shaper (s : State) (d i : Nat) : ShaperEntry :=
  shaperOf (s.arr (shaperAddr d i)) (s.arr (shaperAddr d i + 4)) (s.arr (shaperAddr d i + 8))

/-- The entries of a die that hold anything, ascending. -/
def State.shaperIdxs (s : State) (d : Nat) : List Nat :=
  ((s.arrays.filter fun x => decide (shaperAddr d 0 ≤ x.1) && decide (x.1 < shaperAddr d 4096)).map fun x =>
    (x.1 - shaperAddr d 0) / 16).dedup

/-- The entry in force for a job at a port: the lowest enabled one (R317). -/
def State.shaperFor (s : State) (p : Nat) (job : BitVec 12) : Option Nat :=
  (s.shaperIdxs (dieOf p)).find? fun i =>
    let e := s.shaper (dieOf p) i
    e.en && e.valid && e.job == job && e.port == localOf p

/-- An entry's counters; one that was never filled holds nothing. -/
def State.shaperSt (s : State) (d i : Nat) : ShaperSt :=
  (s.core.shapers.find? fun x => x.die == d && x.idx == i).getD ⟨d, i, 0, 0, [], false⟩

/-- Replace an entry's counters. -/
def State.setShaperSt (s : State) (x : ShaperSt) : State :=
  s.mapCore fun c => { c with shapers := c.shapers.filter (fun y => !(y.die == x.die && y.idx == x.idx)) ++ [x] }

/-- The copies of an entry that wait for their release, each with its frame's length. A frame with copies in several VOQs is
held at the head of each of them, and each release subtracts its length (R319; log entry 73). -/
def State.unreleased (s : State) (d i : Nat) : List (Copy × Nat) :=
  s.core.copies.filterMap fun c =>
    match s.held? c.fid with
    | some h => if c.die == d && !c.released && h.shaper == some i then some (c, frameLen h.frame) else none
    | none => none

/-- QUEUED_BYTES: the bytes of the entry's frames admitted and not yet released (R318). -/
def State.queuedBytes (s : State) (d i : Nat) : Nat := sumN ((s.unreleased d i).map (·.2))

/-- A write of a whole entry (R317, R318): TOKENS fills where EN is 1; an invalid enabled entry sets SHAPER_ERR. -/
def State.writeShaper (s : State) (d i : Nat) (w0 w1 w2 : Word) : State :=
  let s := ((s.setArr (shaperAddr d i) (w0 &&& 0x033F0FFF)).setArr (shaperAddr d i + 4) w1).setArr (shaperAddr d i + 8) w2
  let e := shaperOf w0 w1 w2
  if !e.en then s
  else if e.valid then s.setShaperSt { s.shaperSt d i with tokens := e.burst * 1024, frac := 0 }
  else (s.setFlag F.SHAPER_STATUS_SHAPER_ERR d true).setFld F.SHAPER_STATUS_LAST_BAD_ENTRY d i

/-- SHAPER_ENTRY_WRITE (R318). Indices past the table name nothing. -/
def execShaperEntryWrite (die entry : Nat) (w0 w1 w2 : Word) (s : State) : Host.Outcome State Fault Refusal :=
  if die < 4 ∧ entry < 4096 then .next (s.writeShaper die entry w0 w1 w2) else .next s

/-- The copy an entry releases next: of its waiting head copies the one that entered its VOQ earliest, ties to the lower
destination (R319). -/
def State.nextRelease (s : State) (d i : Nat) : Option (Copy × Nat) :=
  ((s.unreleased d i).filter fun x => s.isHead x.1).foldl (fun a x =>
    match a with
    | none => some x
    | some b =>
      if x.1.fid < b.1.fid || (x.1.fid == b.1.fid && decide (x.1.dest.order < b.1.dest.order)) then some x else a) none

/-- SHAPER_RELEASE (R319): at most one copy per core cycle, if TOKENS is not negative; an entry that is no longer in force
holds nothing back (R316). -/
def execShaperRelease (die entry : Nat) (s : State) : Host.Outcome State Fault Refusal :=
  let x := s.shaperSt die entry
  let e := s.shaper die entry
  if x.spent || (x.tokens < 0 && e.en && e.valid) then .next s
  else
    match s.nextRelease die entry with
    | none => .next s
    | some (c, n) =>
      .next ((s.mapCopy c.cid fun y => { y with released := true }).setShaperSt
        { x with tokens := x.tokens - n, spent := true })

/-- An entry's counters after one core cycle, 5/8 ns: TOKENS grows at RATE bytes per microsecond, up to BURST × 1,024, and
the entry may release again (R318, R319). -/
def ShaperSt.refill (x : ShaperSt) (e : ShaperEntry) : ShaperSt :=
  if e.en && e.valid then
    let f := x.frac + e.rate * 625
    let t := x.tokens + ((f / 1000000 : Nat) : Int)
    { x with tokens := min t ((e.burst * 1024 : Nat) : Int), frac := f % 1000000, spent := false }
  else { x with spent := false }

/-- The refill of every entry over one core cycle (R318); a fabric die in DOZE has no core cycles (R477). -/
def State.refillShapers (s : State) : State :=
  s.mapCore fun c => { c with shapers := c.shapers.map fun x =>
    if s.power.dozing.contains x.die then x else x.refill (s.shaper x.die x.idx) }

/-- MAX_FRAME_AGE in nanoseconds, clamped to 100–900 µs (R280). -/
def State.maxAgeNs (s : State) (d : Nat) : Nat := 1000 * min 900 (max 100 (s.fld F.ROUTE_CONTROL_MAX_FRAME_AGE d))

/-- The policing of a frame at an endpoint port (R321, R322): none where it may go on. -/
def State.police (s : State) (p : Nat) (f : Frame) : Option State :=
  if !s.isEndpoint p || !([1, 3, 6, 7].contains f.h.vc.toNat) then none
  else
    match s.shaperFor p f.h.jobId with
    | none => none
    | some i =>
      let d := dieOf p
      let e := s.shaper d i
      let x := s.shaperSt d i
      let key := (f.h.src, f.h.msgId, f.h.attempt)
      let q := s.queuedBytes d i
      if x.refusals.contains key then some s
      else if !e.police || decide (q + frameLen f ≤ e.depth * 1024) then none
      else if 64 ≤ x.refusals.length then some (s.bump F.POLICE_EVENTS_SILENT_POLICED d)
      else
        let hint := min 65535 (max 1 (ceilDiv q e.rate))
        let s := (s.setShaperSt { x with refusals := x.refusals ++ [key] }).bump F.POLICE_EVENTS_POLICED_NACKS d
        some (s.nack p f.h (nackPlain nackBusy hint))

/-- REFUSAL_RECORD_EXPIRY (R322). -/
def execRefusalRecordExpiry (die entry : Nat) (src : BitVec 24) (msgId : BitVec 16) (attempt : BitVec 3) (s : State) :
    Host.Outcome State Fault Refusal :=
  let x := s.shaperSt die entry
  if x.refusals.contains (src, msgId, attempt) then
    .next (s.setShaperSt { x with refusals := x.refusals.filter (· != (src, msgId, attempt)) })
  else .next s

/-- A freed job's shaper entries lose EN (R323). -/
def State.clearShapers (s : State) (job : BitVec 12) : State :=
  (List.range 4).foldl (fun s d => (s.shaperIdxs d).foldl (fun s i =>
    if (s.shaper d i).job = job then
      s.setArr (shaperAddr d i) (s.arr (shaperAddr d i) &&& ~~~(1#32 <<< 24))
    else s) s) s

/-! ## Time gates (R327 to R332) -/

/-- Address of a gate list's entry. -/
def gateAddr (d j k i : Nat) : Nat := dieBase d + 0x00040000 + j * 0x1000 + k * 0x800 + i * 8

/-- The entries of a gate list as written: (DURATION, OPEN) through the first LAST; none where no entry has LAST. -/
def State.gateList (s : State) (d j k : Nat) : Nat → Nat → Option (List (Nat × BitVec 8))
  | 0, _ => none
  | n + 1, i =>
    let lo := (s.arr (gateAddr d j k i)).toNat
    let hi := (s.arr (gateAddr d j k i + 4)).toNat
    let e := (lo, BitVec.ofNat 8 hi)
    if bitOf hi 31 then some [e] else (s.gateList d j k n (i + 1)).map (e :: ·)

/-- CYCLE_TIME. -/
def cycleTime (es : List (Nat × BitVec 8)) : Nat := sumN (es.map (·.1))

/-- The longest window of a VC in a repeating list (R328); a VC open throughout has the whole cycle. -/
def longestWindow (es : List (Nat × BitVec 8)) (v : Nat) : Nat :=
  if es.all fun e => e.2.getLsbD v then cycleTime es
  else
    ((es ++ es).foldl (fun (a : Nat × Nat) e => if e.2.getLsbD v then (a.1 + e.1, max a.2 (a.1 + e.1)) else (0, a.2)) (0, 0)).2

/-- Time of L bytes at R Gb/s in ns (R330). -/
def txNs (len gbps : Nat) : Nat := ceilDiv (len * 8) gbps

/-- Is a submitted list one the switch accepts (R328)? -/
def gateOk (es : List (Nat × BitVec 8)) (gbps : Nat) : Bool :=
  (es.all fun e => e.1 != 0) && decide (cycleTime es ≤ 1000000000)
    && (List.range 8).all fun v => decide (txNs 4176 gbps ≤ longestWindow es v)

/-- A port's gate state. -/
def State.gate (s : State) (d j : Nat) : GateSt :=
  (s.core.gates.find? fun x => x.die == d && x.j == j).getD ⟨d, j, none, none, 0xFF⟩

/-- Replace a port's gate state. -/
def State.setGate (s : State) (x : GateSt) : State :=
  s.mapCore fun c => { c with gates := c.gates.filter (fun y => !(y.die == x.die && y.j == x.j)) ++ [x] }

/-- Instance of a port's gate block. -/
def gateInst (d j : Nat) : Nat := 64 * d + j

/-- GATE_SWITCH of a port. -/
def State.gateSwitch (s : State) (d j : Nat) : Nat :=
  s.reg .GATE_SWITCH_HIGH (gateInst d j) * 2 ^ 32 + s.reg .GATE_SWITCH_LOW (gateInst d j)

/-- The first cycle boundary of a list at or after t. -/
def boundaryFrom (base cycle t : Nat) : Nat := if t ≤ base then base else base + ceilDiv (t - base) cycle * cycle

/-- ARM (R328, R329): the standby list is checked; accepted, it waits for its start instant. -/
def State.gateArm (s : State) (d j : Nat) : State :=
  let x := s.gate d j
  let i := gateInst d j
  let k := match x.active with | some a => 1 - a.1 | none => 0
  let refuse := s.setFlag F.GATE_CONTROL_GATE_ERR i true
  match s.gateList d j k 256 0 with
  | none => refuse
  | some es =>
    if x.pending.isSome || !gateOk es (s.gbps i) || (s.port? i).isNone then refuse
    else
      let now := s.ns
      let start :=
        match x.active with
        | none => max (s.gateSwitch d j) now
        | some a => boundaryFrom a.2.2 (cycleTime a.2.1) (max (s.gateSwitch d j) now)
      (s.setGate { x with pending := some (k, es, start) }).setFlag F.GATE_CONTROL_SWAP_PENDING i true

/-- GATE_ARM (R328). -/
def execGateArm (die j : Nat) (s : State) : Host.Outcome State Fault Refusal :=
  if die < 4 ∧ j < 64 then .next (s.gateArm die j) else .next s

/-- Does a write to a word of a gate list stand: the standby list while a swap is pending does not (R328)? -/
def State.gateWriteOk (s : State) (d j k : Nat) : Bool :=
  match (s.gate d j).pending with
  | some x => x.1 != k
  | none => true

/-- The mask of open VCs of a list at an instant, and how long it lasts. -/
def gateAt (es : List (Nat × BitVec 8)) (pos : Nat) : BitVec 8 × Nat :=
  match es with
  | [] => (0xFF, 1)
  | e :: t => if pos < e.1 then (e.2, e.1 - pos) else gateAt t (pos - e.1)

/-- The mask in force at an instant under the schedule that will be in force, and until when (R330). -/
def GateSt.maskAt (x : GateSt) (t : Nat) : BitVec 8 × Nat :=
  let inList (a : Nat × List (Nat × BitVec 8) × Nat) : BitVec 8 × Nat :=
    let c := max 1 (cycleTime a.2.1)
    let r := gateAt a.2.1 ((t - a.2.2) % c)
    (r.1, t + max 1 r.2)
  match x.pending, x.active with
  | some q, some a => if q.2.2 ≤ t then inList q else let r := inList a; (r.1, min r.2 q.2.2)
  | none, some a => inList a
  | some q, none => if q.2.2 ≤ t then inList q else (0xFF, q.2.2)
  | none, none => (0xFF, t + 1000000000)

/-- Is a VC open from t until `stop` (R330)? -/
def GateSt.openUntil (x : GateSt) (v stop : Nat) : Nat → Nat → Bool
  | 0, _ => false
  | n + 1, t =>
    if stop ≤ t then true
    else
      let r := x.maskAt t
      r.1.getLsbD v && (decide (stop ≤ r.2) || x.openUntil v stop n r.2)

/-- Do gates apply at a port (R331)? A first list that waits for its start instant opens every VC until then, and bounds what
may start before it (R330). -/
def State.gatesApply (s : State) (p : Nat) : Bool :=
  let x := s.gate (dieOf p) (localOf p)
  s.flag F.GATE_CONTROL_GATE_EN p && (x.active.isSome || x.pending.isSome) && s.timeValid

/-- May a frame of L bytes start on a VC of a port as far as its gate goes (R330, R331)? -/
def State.gateOpen (s : State) (p v len : Nat) : Bool :=
  !s.gatesApply p
    || (s.gate (dieOf p) (localOf p)).openUntil v (s.ns + txNs len (max 1 (s.gbps p))) 600 s.ns

/-- The openness recorded at a boundary. -/
def State.gateRefresh (s : State) (d j : Nat) : State :=
  let x := s.gate d j
  s.setGate { x with openNow := (x.maskAt s.ns).1 }

/-- GATE_LIST_SWAP (R329): the accepted list becomes active at its start instant. -/
def execGateListSwap (die j : Nat) (s : State) : Host.Outcome State Fault Refusal :=
  let x := s.gate die j
  match x.pending with
  | none => .next s
  | some q =>
    let i := gateInst die j
    let s := s.setGate { x with active := some q, pending := none }
    let s := (s.setFlag F.GATE_CONTROL_SWAP_PENDING i false).setFld F.GATE_CONTROL_ACTIVE_LIST i q.1
    .next (s.gateRefresh die j)

/-- GATE_ENTRY_BOUNDARY (R330): the VCs of the port are open or closed as the schedule now says. -/
def execGateEntryBoundary (die j : Nat) (s : State) : Host.Outcome State Fault Refusal :=
  if (s.gate die j).active.isSome then .next (s.gateRefresh die j) else .next s

/-! ## Pause from the neighbour (R297, R406) -/

/-- PAUSE_BLOCK (R406): the neighbour's pause state of the port's VCs. -/
def execPauseBlock (port : Nat) (mask : BitVec 8) (s : State) : Host.Outcome State Fault Refusal :=
  if s.pcsLock port then .next (s.setFld F.PORT_BUFFER_PAUSED port mask.toNat) else .next s

/-- PAUSE_REPEAT_TIMER (R406): the port's PAUSE block is sent again, 8 times at 1 µs and from then on every 100 µs. -/
def execPauseRepeatTimer (port : Nat) (s : State) : Host.Outcome State Fault Refusal :=
  if s.core.pauses.any fun x => x.port == port then
    let m := BitVec.ofNat 8 (s.pausing port)
    .next ((s.mapCore fun c => { c with pauses := c.pauses.map fun x =>
      if x.port = port then { x with repeats := min 8 (x.repeats + 1), sent := m } else x }).transmit port fun w t => t.pause w m)
  else .next s

/-! ## The arbiter of an egress port (R324 to R326, R396) -/

/-- An arbiter at rest. -/
def Drr.rest (p : Nat) : Drr :=
  { port := p, deficit := List.replicate 8 0, nextVc := 0, visited := false, lastSrc := List.replicate 8 none, lastDone := 0 }

/-- A port's arbiter. -/
def State.drr (s : State) (p : Nat) : Drr := (s.core.drr.find? fun x => x.port == p).getD (Drr.rest p)

/-- Replace a port's arbiter. -/
def State.setDrr (s : State) (x : Drr) : State :=
  s.mapCore fun c => { c with drr := c.drr.filter (fun y => y.port != x.port) ++ [x] }

/-- ARBITER_REST (R396). -/
def execArbiterRest (port : Nat) (s : State) : Host.Outcome State Fault Refusal := .next (s.setDrr (Drr.rest port))

/-- The source number of a copy (R325). -/
def Copy.source (c : Copy) : Nat := c.die * 65 + c.src

/-- Is a copy a LINK frame or of a cruise kind, which a quarantined port carries too (R345)? -/
def isLinkOrCruise (f : Frame) : Bool :=
  f.h.ftype == 7#4 || (f.h.ftype == 8#4 && f.h.amode && f.h.dest == 0xFFFFFF && (mgmtKind f == 0x20 || mgmtKind f == 0x21))

/-- Has the negotiation of a port ended, with a version or with none in common (R62, R339)? Until then the link carries LINK
frames only. -/
def State.negOver (s : State) (p : Nat) : Bool :=
  s.fld F.TFP_PORT_STATUS_NEG_STATE (s.blk p) == 2 || s.fld F.TFP_PORT_STATUS_NEG_STATE (s.blk p) == 3

/-- Does a port's transmitter run: the port is UP, and not quiet in SHALLOW (R416, R418)? -/
def State.awake (s : State) (p : Nat) : Bool := s.fld F.PORT_LINK_LINK_STATE (s.blk p) == 5

/-- May a head copy start now, the pause and the gate apart: its cells are here, its tail is good or it may cut through,
its shaper has released it, its port carries it, and the switch is forwarding where the frame is another's (R19, R301,
R314, R319, R345)? -/
def State.ready (s : State) (p : Nat) (c : Copy) : Bool :=
  (if c.out.h.ftype == 7#4 then s.pcsLock p
    else if isLinkOrCruise c.out then s.pcsLock p && s.negOver p
    else s.carries p && (c.own || s.core.forwarding)) && s.awake p && c.released
    && match s.held? c.fid with
       | none => true
       | some h => h.region != .extension
           && (match h.tail with
               | .good => true
               | .pending => h.cutThrough && decide (s.gbps p ≤ s.gbps (64 * h.die + h.src))
               | .bad _ => false)

/-- Is a head copy eligible (R324)? LINK frames meet neither pause nor gate (R316, R332). -/
def State.eligible (s : State) (p : Nat) (c : Copy) : Bool :=
  s.ready p c && (c.out.h.ftype == 7#4
    || (!bitOf (s.fld F.PORT_BUFFER_PAUSED p) c.vc && s.gateOpen p c.vc (frameLen c.out)))

/-- The eligible head copies of a VC of a port. -/
def State.heads (s : State) (p vc : Nat) : List Copy :=
  s.core.copies.filter fun c => c.dest == .port p && c.vc == vc && !c.started && s.isHead c && s.eligible p c

/-- Round robin: the next source after the one served last (R325). -/
def nextSource (last : Option Nat) (cs : List Copy) : Option Copy :=
  let least (xs : List Copy) : Option Copy := xs.foldl (fun a c => match a with
    | none => some c
    | some b => if c.source < b.source then some c else some b) none
  match last with
  | none => least cs
  | some n => match least (cs.filter fun c => decide (n < c.source)) with | some c => some c | none => least cs

/-- The weight of a VC. -/
def State.weight (s : State) (v : Nat) : Nat := nth s.image.policies.weights v 16

/-- Deficit round robin over the VCs (R324): the copy to start, if there is one, and the arbiter after it. A visit to a VC
without an eligible source zeroes its DEFICIT, so a choice that finds no VC eligible leaves every DEFICIT zero. -/
def State.drrPick (s : State) (p : Nat) : Nat → Drr → Option Copy × Drr
  | 0, x => (none, x)
  | n + 1, x =>
    if (List.range 8).all fun v => (s.heads p v).isEmpty then
      (none, { x with deficit := List.replicate 8 0, visited := false })
    else
      let v := x.nextVc
      let on : Drr := { x with nextVc := (v + 1) % 8, visited := false }
      match nextSource (nth x.lastSrc v none) (s.heads p v) with
      | none => s.drrPick p n { on with deficit := x.deficit.set v 0 }
      | some c =>
        let deficit := nth x.deficit v 0 + (if x.visited then 0 else s.weight v * 512)
        let len := frameLen c.out
        if len ≤ deficit then
          (some c, { x with deficit := x.deficit.set v (deficit - len), visited := true,
                            lastSrc := x.lastSrc.set v (some c.source) })
        else s.drrPick p n { on with deficit := x.deficit.set v deficit }

end Sys2Proof.Machine
end

