-- ==== Sys2Proof/Machine/SwitchCore.lean ====
section
/-! DEFINITION. The path of a frame through the switch core: header lookup, tail verdict, egress and the release of
cells (spec/11_switch_core.md R292 to R308, R314; spec/10_addressing_routing.md R275 to R284, R590;
spec/12_scheduling.md R316, R321, R324; spec/14_failure_survival.md R362). -/
namespace Sys2Proof.Machine

open Sys2Proof

/-! ## Arrival -/

/-- The VCs whose frames meet the job level at an endpoint port (R316). -/
def jobVcs : List Nat := [1, 3, 4, 6, 7]

/-- The shaper entry that holds an arriving frame (R316, R317). -/
def State.shaperOn (s : State) (p : Nat) (f : Frame) : Option Nat :=
  if s.isEndpoint p && jobVcs.contains f.h.vc.toNat then s.shaperFor p f.h.jobId else none

/-- Has the VOQ of a frame of port p toward a destination frames in the extension (R314)? -/
def State.voqExt (s : State) (p vc : Nat) (dest : Dest) : Bool :=
  s.core.copies.any fun c => c.die == dieOf p && c.src == localOf p && c.vc == vc && c.dest == dest
    && match s.held? c.fid with | some h => h.region == .extension | none => false

/-- Hold an arriving frame in the region that admission gives it; none where it is discarded whole (R295, R314). -/
def State.takeIn (s : State) (p : Nat) (f : Frame) (dests : List Dest) : Option Nat × State :=
  let ext := dests.any fun d => s.voqExt p f.h.vc.toNat d
  match s.admitFrame p f ext with
  | (none, s) => (none, s)
  | (some r, s) =>
    let (fid, s) := s.hold (dieOf p) (localOf p) f r .pending (s.version p == 2#4) (s.shaperOn p f)
    (some fid, s)

/-- Queue an arriving frame for a mill or for the control firmware (R23, R293). -/
def State.takeFor (s : State) (p : Nat) (f : Frame) (dest : Dest) : State :=
  match s.takeIn p f [dest] with
  | (none, s) => s.refreshDie (dieOf p)
  | (some fid, s) => (s.enqueue fid dest f false false none []).refreshDie (dieOf p)

/-- Frames that wait for the control firmware. -/
def State.fwWaiting (s : State) : Nat := (s.core.copies.filter fun c => c.dest == .firmware).length

/-- The control firmware's input discards a frame and counts it (R289). -/
def State.fwDiscard (s : State) : State := s.mapCore fun k => { k with fwDrops := k.fwDrops + 1 }

/-- A frame for the control firmware: a MGMT kind that the switch does not consume in its role is discarded and counted (R356), unless
the firmware relays the frame (R590); a full input discards and counts (R289). -/
def State.takeFirmware (s : State) (p : Nat) (f : Frame) : State :=
  if f.h.ftype == 8#4 && relayOf f.h == 0 && !s.consumes f then
    s.bump F.CRUISE_DISCARDS_UNKNOWN_MGMT 0
  else if Config.fwInputFull s.fwWaiting then s.fwDiscard
  else s.takeFor p f .firmware

/-- The queue entries of a frame's copies on the die it came in on: every copy of that die, and one crossing for each
other die with the copies it fans out there (R203, R305). A frame with one copy crosses on its way out. -/
def fanOut (d : Nat) (xs : List (Nat × Frame)) : List (Dest × Frame × List (Nat × Frame × Option Nat)) :=
  if xs.length ≤ 1 then xs.map fun x => (.port x.1, x.2, [])
  else
    let here := xs.filter fun x => dieOf x.1 == d
    let dies := (List.range 4).filter fun e => e != d && xs.any fun x => dieOf x.1 == e
    (here.map fun x => (Dest.port x.1, x.2, []))
      ++ dies.filterMap fun e =>
        let ys := xs.filter fun x => dieOf x.1 == e
        ys.head?.map fun y => (Dest.bridge e, y.2, ys.map fun z => (z.1, z.2, none))

/-- Admit an arriving frame and queue its copies, each with its port (R203, R295, R305). -/
def State.takeCopies (s : State) (p : Nat) (f : Frame) (xs : List (Nat × Frame)) : State :=
  let qs := fanOut (dieOf p) xs
  if qs.isEmpty then s
  else
    match s.takeIn p f (qs.map (·.1)) with
    | (none, s) => s.refreshDie (dieOf p)
    | (some fid, s) =>
      (qs.foldl (fun s q => s.enqueue fid q.1 q.2.1 false (q.2.1 != f) none q.2.2) s).refreshDie (dieOf p)

/-- Route an arriving frame to one port with the tables of its ingress die (R273, R275 to R278); a frame that would leave where it came in has no route
(R277). -/
def State.routeOn (s : State) (p : Nat) (f : Frame) : State :=
  match s.route (s.dieBank (dieOf p) f.h.epoch) f.h (s.cable p).uplink with
  | .consume => if f.h.vc = 0#3 then s.takeFirmware p f else s
  | .relay => if Config.fwInputFull s.fwWaiting then s.fwDiscard else s.takeFor p f .firmware
  | .noRoute => s.bumpDies F.ROUTE_DISCARDS_NO_ROUTE
  | .violation => s.bumpDies F.ROUTE_DISCARDS_ROUTE_VIOLATIONS
  | .group ps =>
    match s.spray ps f.h with
    | none => s.bumpDies F.ROUTE_DISCARDS_NO_ROUTE
    | some q => if q = p then s.bumpDies F.ROUTE_DISCARDS_NO_ROUTE else s.takeCopies p f [(q, f)]

/-- Is a frame addressed to the switch fabric or, on a link, to the neighbour (R31, R32)? -/
def toFabric (h : BaseHdr) : Bool := h.dest == fabricAddr h.amode

/-- Where a frame past the header rules goes: the spire for a set-tagged WRITE, a mill or the firmware for a frame that
ends here, a record that takes its acknowledgement, or an egress port (R36, R199, R204, R275). -/
def State.dispose (s : State) (p : Nat) (f : Frame) : State :=
  if isSetTagged f.h then
    let (xs, s) := s.setTagged p f
    s.takeCopies p f xs
  else if toFabric f.h then
    if f.h.vc = 4#3 then s.takeFor p f (.mill (s.millOf f.h.jobId (redOf f).chunkId.toNat / 32))
    else if f.h.vc = 0#3 then s.takeFirmware p f
    else s
  else if s.mcAbsorbs p f.h then s
  else s.routeOn p f

/-- A header-check or rule discard at an ingress port (R29, R34). -/
def State.headerDiscard (s : State) (p : Nat) : State :=
  (s.bump F.TFP_DISCARD_COUNT_HEADER_DISCARDS (s.blk p)).setFlag F.TFP_PORT_STATUS_HEADER_ERR (s.blk p) true

/-- A rule discard at an ingress port (R29, R62). -/
def State.ruleDiscard (s : State) (p : Nat) : State :=
  (s.bump F.TFP_DISCARD_COUNT_RULE_DISCARDS (s.blk p)).setFlag F.TFP_PORT_STATUS_RULE_ERR (s.blk p) true

/-- The VERSION a frame is held to: the chosen version of the link; a port that found no common version exchanges
cruise frames in whatever version they carry (R62, R345). -/
def State.versionFor (s : State) (p : Nat) (f : Frame) : BitVec 4 :=
  if isLinkOrCruise f && s.fld F.TFP_PORT_STATUS_NEG_STATE (s.blk p) = 3 then f.h.version else s.version p

/-- FRAME_HEADER_LOOKUP (R301): header check, frame rules, quarantine, epoch, policing, route and admission, in this
order. `bank` is what the word of the table bank read for the frame has suffered: uncorrectable, the frame has no route, and the
firmware rewrites the entry from its copy (R275, R440). A LINK frame meets no
table and no epoch. A frame other than a LINK frame that arrives before the link has negotiated, where the manual forbids the
neighbour to send it (R62), is judged with SELECTED_VER 0 and so counts as a header or rule discard (DESIGN CHOICE, log entry
79). -/
def execFrameHeaderLookup (port : Nat) (f : Frame) (bank : WordErr) (s : State) : Host.Outcome State Fault Refusal :=
  if !s.pcsLock port then .next s
  else if f.h.ftype = 7#4 then .next (if ruleOk (s.version port) f then s else s.ruleDiscard port)
  else if !hdrOk (s.versionFor port f) f then .next (s.headerDiscard port)
  else if !ruleOk (s.versionFor port f) f then .next (s.ruleDiscard port)
  else if s.quarantined port && !isLinkOrCruise f then
    .next (if s.quarantineBit port then s.bump F.CRUISE_EVENTS_QUARANTINE_DISCARDS 0 else s)
  else if !s.bankLive f.h.epoch then .next (s.bumpDies F.EPOCH_DISCARDS_STALE_EPOCH)
  else
    match s.police port f with
    | some t => .next t
    | none =>
      match s.sramRead (dieOf port) blkBanks (b2n f.h.epoch) bank with
      | (true, s) => .next (s.bumpDies F.ROUTE_DISCARDS_NO_ROUTE)
      | (false, s) => .next (s.dispose port f)

/-! ## The tail (R303) -/

/-- Is the tail's verdict bad (R303)? -/
def verdictBad (h : Held) (fecBad cellBad : Bool) : Bool := !tailGood h.frame || fecBad || cellBad

/-- A unit of a frame crosses the bridge between its port's lane chiplet and its die (R18). A frame of a local port or of the
switch itself crosses none. An uncorrectable transfer there, which R18 makes fatal between fabric dies only, is internal
corruption, BAD_CAUSE 2 (DESIGN CHOICE, log entry 104). -/
def State.chipletUnit (s : State) (p : Nat) (e : WordErr) : Bool × State :=
  match s.port? p with
  | some c => s.crossUnit (dieOf p) (8 + c.lane0 / 32 % 8) e
  | none => (false, s)

/-- BAD_CAUSE of a bad frame (R303). -/
def verdictCause (t : Trailer) (fecBad cellBad : Bool) : BitVec 3 :=
  if t.bad then t.badCause else if cellBad then 2 else if fecBad then 1 else 0

/-- What the lanes of a port have decoded is counted while it is UP or SHALLOW (R403, R415). -/
def State.countWords (s : State) (p : Nat) (rx : TailRx) : State :=
  match s.port? p with
  | none => s
  | some c =>
    if !s.pcsLock p then s
    else
      let s := s.bumpBy F.PORT_LINK_BAD_BLOCKS c.lane0 rx.reserved
      rx.words.foldl (fun s x =>
        if c.width ≤ x.lane then s
        else if wordLost x then s.bump F.FEC_COUNTS_UNCORRECTABLE_CW (c.lane0 + x.lane)
        else if wordCorrected x then s.bump F.FEC_COUNTS_CORRECTED_CW (c.lane0 + x.lane) else s) s

/-- FRAME_TAIL_VERDICT (R303). `read` is what a packet cell of the frame and a unit of it on the chiplet bridge have suffered. -/
def execFrameTailVerdict (fid : Nat) (rx : TailRx) (read : CellRx) (s : State) : Host.Outcome State Fault Refusal :=
  match s.held? fid with
  | none => .next s
  | some h =>
    if h.tail != .pending then .next s
    else
    let s := if h.src < 64 then s.countWords (64 * h.die + h.src) rx else s
    let (cellBad, s) := s.sramRead h.die blkBuffer 0 read.cell
    let (unitBad, s) := if h.src < 64 then s.chipletUnit (64 * h.die + h.src) read.unit else (false, s)
    if !verdictBad h (rxBad rx) (cellBad || unitBad) then .next (s.mapHeld fid fun x => { x with tail := .good })
    else
      let cause := verdictCause h.frame.t (rxBad rx) (cellBad || unitBad)
      let s := s.mapHeld fid fun x => { x with tail := .bad cause }
      let unstarted := s.core.copies.any fun c => c.fid == fid && !c.started
      let s := if unstarted then s.bump F.TAIL_EVENTS_TAIL_DISCARDS h.die else s
      let s := s.mapCore fun k => { k with copies := k.copies.map fun c =>
        if c.fid = fid && c.started then { c with markBad := some cause } else c }
      .next (s.dropCopies fun c => c.fid == fid && !c.started)

/-! ## Egress (R280, R284, R306, R324, R362) -/

/-- The age of a frame in nanoseconds; a negative one counts as zero (R280). -/
def State.ageOf (s : State) (f : Frame) : Nat := (toSigned 32 (s.ns + 2 ^ 32 - f.t.txTime.toNat)).toNat

/-- Is a frame past MAX_FRAME_AGE at egress (R280)? What the switch itself sends takes its TX_TIME as it leaves. -/
def State.tooOld (s : State) (p : Nat) (c : Copy) : Bool :=
  s.timeValid && !c.own && c.out.h.ftype != 7#4 && c.out.t.txTime != 0 && decide (s.maxAgeNs (dieOf p) < s.ageOf c.out)

/-- Is the endpoint of a port fenced in a job under the current bank (R362)? -/
def State.portFenced (s : State) (p : Nat) (job : BitVec 12) : Bool :=
  s.isEndpoint p && match s.job? job with
    | none => false
    | some j => match j.cur.plan.rankAt (s.cable p).coord with
      | some r => s.curBank.fenced job r
      | none => false

/-- Is a copy pruned at a fenced endpoint (R362): anything but a unicast WRITE of another endpoint, or a NACK? -/
def State.fencedEgress (s : State) (p : Nat) (c : Copy) : Bool :=
  s.portFenced p c.out.h.jobId && c.out.h.ftype != 5#4 && !(c.out.h.ftype == 1#4 && !c.rewritten && !c.own)

/-- Why a copy that is about to start is discarded instead (R280, R284, R307, R362). -/
def State.egressDiscard (s : State) (p : Nat) (c : Copy) : Option Fld :=
  if s.isLate c then some F.REFCOUNT_STATUS_LATE_COPY_DISCARDS
  else if c.out.h.ftype != 7#4 && !s.bankLive c.out.h.epoch then some F.EPOCH_DISCARDS_STALE_EPOCH
  else if s.tooOld p c then some F.EPOCH_DISCARDS_AGE_DISCARDS
  else if s.fencedEgress p c then some F.LANDING_EVENTS_FENCED_EGRESS
  else none

/-- Count a discard at egress: in the registers of every die where they hold the same values, else on the copy's die or the
port's (R275 to R284 registers, R307, R362). -/
def State.countDiscard (s : State) (p : Nat) (c : Copy) (x : Fld) : State :=
  if x.reg = .EPOCH_DISCARDS then s.bumpDies x
  else if x.reg = .REFCOUNT_STATUS then s.bump x c.die
  else s.bump x (dieOf p)

/-- Is a copy of the port on its way out? -/
def State.busyOut (s : State) (p : Nat) : Bool := s.core.copies.any fun c => c.dest == .port p && c.started

/-- The 16 bytes of a payload timestamp (R254): NS, FRAC and zeros. -/
def stampBytes (t : BitVec 80) : List Byte := leBytes 8 (t.toNat / 2 ^ 16) ++ leBytes 2 t.toNat ++ zeros 6

/-- T1 of a TIME_SYNC and T3 of a TIME_SYNC_REPLY are the time at which the first header byte is sent (R253). -/
def State.timed (s : State) (f : Frame) : Frame :=
  if f.h.ftype != 8#4 then f
  else if mgmtKind f = 0x50 then { f with payload := f.payload.take 16 ++ stampBytes s.time.now }
  else if mgmtKind f = 0x51 then { f with payload := f.payload.take 48 ++ stampBytes s.time.now }
  else f

/-- A frame of the switch's own as its first header byte is sent: its SEQ, TX_TIME, and T1 or T3 (R50, R54, R253). -/
def State.departing (s : State) (f : Frame) : Frame :=
  let f := s.timed f
  { f with h := { f.h with seq := s.core.seq }, t := { f.t with txTime := s.txTime } }

/-- A copy starts: the counter of SEQ rises by one for a frame of the switch's own (R54), and the next copy of its VOQ comes
to the head. -/
def State.startCopy (s : State) (c : Copy) : State :=
  let out := if c.own then s.departing c.out else c.out
  let s := s.mapCore fun k => { k with seq := if c.own then k.seq + 1 else k.seq }
  (s.mapCopy c.cid fun y => { y with started := true, out := out }).markHead c.die c.src c.dest c.vc

/-- The choice of an egress port: copies met that must not leave are discarded, until one starts or none is left
(R324). -/
def State.selectLoop (s : State) (p : Nat) : Nat → State
  | 0 => s
  | n + 1 =>
    match s.drrPick p 512 (s.drr p) with
    | (none, x) => s.setDrr x
    | (some c, x) =>
      match s.egressDiscard p c with
      | some r => State.selectLoop ((s.countDiscard p c r).dropCopy c.cid) p n
      | none => (s.setDrr x).startCopy c

/-- The port chooses its next frame unless one is leaving. -/
def State.select (s : State) (p : Nat) : State := if s.busyOut p then s else s.selectLoop p (s.core.copies.length + 1)

/-- EGRESS_SELECT (R324). -/
def execEgressSelect (port : Nat) (s : State) : Host.Outcome State Fault Refusal := .next (s.select port)

/-- Why a copy leaves with BAD = 1, if it does: a frame that arrived with BAD keeps its cause; else an uncorrectable cell, or
cells that were freed under it, give 2, before its tail's verdict (R303, R304, R307). -/
def State.leaveBad (s : State) (c : Copy) (cellBad : Bool) : Option (BitVec 3) :=
  match s.held? c.fid with
  | none => some 2
  | some h =>
    let verdict := match c.markBad, h.tail with
      | some x, _ => some x
      | none, .bad x => some x
      | none, _ => none
    if s.isLate c || (cellBad && !(h.frame.t.bad && verdict.isSome)) then some 2 else verdict

/-- Did a copy's frame arrive with a good CRC64, as far as its cells still say (R302)? -/
def State.arrivedGood (s : State) (c : Copy) : Bool :=
  match s.held? c.fid with
  | some h => h.tail == .good || h.frame.t.crc == crcOf h.frame
  | none => false

/-- The frame as it leaves a port: VERSION of the link; HDR_CHECK and CRC64 over the bytes sent where the switch made or
rewrote it; a rewritten frame that arrived with a wrong CRC64 keeps it; a frame found bad takes BAD and BAD_CAUSE (R52,
R302, R303). -/
def State.leaving (s : State) (p : Nat) (c : Copy) (bad : Option (BitVec 3)) : Frame :=
  let v : BitVec 4 := if s.version p = 0 then 1 else s.version p
  let f := if c.own || c.rewritten || c.out.h.version != v then sealFrame v c.out.t.txTime c.out else c.out
  match bad with
  | none => f
  | some cause =>
    { f with t := { f.t with crc := if c.own || s.arrivedGood c then f.t.crc else c.out.t.crc, bad := true, badCause := cause } }

/-- A frame goes out on a port: it is the last that the port has sent, and its blocks are dealt to the lanes (R402, R404). -/
def State.onWire (s : State) (p : Nat) (f : Frame) : State :=
  (s.mapCore fun k => { k with wire := k.wire.filter (fun x => x.1 != p) ++ [(p, f)] }).transmit p fun w t =>
    t.puts w (frameBlocks (frameBytes f))

/-- Does a copy wait for a port without PCS lock? -/
def State.portDown (s : State) (c : Copy) : Bool := match c.dest with | .port p => !s.pcsLock p | _ => false

/-- A crossing has delivered a frame to its far die: it takes local cells there and its copies are queued (R203,
R294). A copy whose port has gone down meanwhile is discarded (R58). -/
def State.crossed (s : State) (d : Nat) (c : Copy) : State :=
  (s.takeLocal d c.out (c.fan.map fun x => ⟨.port x.1, x.2.1, c.own, c.rewritten, x.2.2⟩)).dropCopies fun x =>
    decide (s.core.nextId ≤ x.fid) && s.portDown x

/-- Is every byte of a copy's frame here, so that it can finish? -/
def State.finishable (s : State) (c : Copy) : Bool :=
  match s.held? c.fid with | some h => h.tail != .pending | none => true

/-- The count memory of a die reports an uncorrectable error: fallback mode; a sweep that runs stops (R307, R308). -/
def State.countError (s : State) (d : Nat) : State :=
  let s := s.mapCore fun c => { c with sweeping := c.sweeping.filter (· != d) }
  (s.setFlag F.REFCOUNT_STATUS_REFCOUNT_FALLBACK d true).raise d blkBuffer 0 0x1B 0 0

/-- A copy has left its port. -/
def State.leftPort (s : State) (p : Nat) (c : Copy) (cellBad : Bool) : State :=
  let bad := s.leaveBad c cellBad
  let f := s.leaving p c bad
  let s := if bad.isSome then s.bump F.TAIL_EVENTS_TAIL_MARKS c.die else s
  ((s.releaseCopy c.cid).msgSent c.msg).onWire p f

/-- A copy whose cells were freed under it before it started is discarded and counted (R307). -/
def State.dropLate (s : State) (c : Copy) : State := (s.bump F.REFCOUNT_STATUS_LATE_COPY_DISCARDS c.die).dropCopy c.cid

/-- A copy finishes: it leaves its port, crosses to its far die, or is taken by its mill or the firmware. A crossing or a
delivery may finish without having been selected, in the order of its VOQ (R293). A copy that has not started is discarded
where its cells prove uncorrectable or were freed under it (R304, R307); a bad frame is neither delivered nor crossed
(R23). -/
def State.finishCopy (s : State) (c : Copy) (cellBad : Bool) : State :=
  if c.started then
    match c.dest with
    | .port p => s.leftPort p c cellBad
    | _ => s
  else if s.isLate c then s.dropLate c
  else if cellBad then s.dropCopy c.cid
  else
    match c.dest with
    | .port _ => s
    | .bridge d => if s.isHead c then (s.releaseCopy c.cid).crossed d c else s
    | .mill _ | .firmware => if s.isHead c then s.releaseCopy c.cid else s

/-- A unit of a copy crosses the bridge that its way takes: the one to its far die, or the one to its port's chiplet once it
has started (R18). -/
def State.copyUnit (s : State) (c : Copy) (e : WordErr) : Bool × State :=
  match c.dest with
  | .bridge d => s.crossUnit c.die d e
  | .port p => if c.started then s.chipletUnit p e else (false, s)
  | _ => (false, s)

/-- EGRESS_FRAME_DONE (R306): the copy finishes, and its port chooses its next frame. `read` and `count` are what a
packet cell of the frame, a unit of it on a bridge, and the word of the count memory read at the release have suffered
(R18, R304, R307). -/
def execEgressFrameDone (cid : Nat) (read : CellRx) (count : WordErr) (s : State) : Host.Outcome State Fault Refusal :=
  match s.copy? cid with
  | none => .next s
  | some c =>
    if !s.finishable c then .next s
    else
      let (cellBad, s) := s.sramRead c.die blkBuffer 0 read.cell
      let (unitBad, s) := s.copyUnit c read.unit
      let s := s.finishCopy c (cellBad || unitBad)
      let (countErr, s) := s.sramRead c.die blkBuffer 0 count
      let s := if countErr then s.countError c.die else s
      match c.dest with
      | .port p => .next (s.select p)
      | _ => .next s

/-- Does the dwell of a copy count: it is the head of its VOQ, its shaper has released it, its gate is open with room for it,
and its port is not asleep (R320, R418)? -/
def State.dwells (s : State) (c : Copy) : Bool :=
  s.isHead c && c.released
    && match c.dest with
       | .port p => s.fld F.PORT_LINK_LINK_STATE (s.blk p) != 6 && s.gateOpen p c.vc (frameLen c.out)
       | _ => true

/-- QUEUE_HEAD_DWELL_EXPIRY (R267): the time a copy may stand at the head of its VOQ has passed. A discarded copy is counted;
no register of the map holds that count (log entry 80). -/
def execQueueHeadDwellExpiry (cid : Nat) (s : State) : Host.Outcome State Fault Refusal :=
  match s.copy? cid with
  | none => .next s
  | some c =>
    if c.started || !s.dwells c then .next s
    else if [1, 3, 6, 7].contains c.vc then
      .next ((s.mapCore fun k => { k with dwellDrops := k.dwellDrops + 1 }).dropCopy cid)
    else
      let p := match c.dest with | .port p => p | _ => 64 * c.die + c.src
      .next (s.raise c.die blkSwitch p 0x19 (addrP p c.vc) 0)

/-- Is a frame the first extension frame of every VOQ it has a copy in (R314)? -/
def State.extTurn (s : State) (fid : Nat) : Bool :=
  let first (z : Copy) : Option Copy := s.core.copies.find? fun x =>
    x.die == z.die && x.src == z.src && x.dest == z.dest && x.vc == z.vc
      && match s.held? x.fid with | some y => y.region == .extension | none => false
  (s.core.copies.filter fun x => x.fid == fid).all fun z => (first z).map (·.fid) == some fid

/-- EXTENSION_RETURN (R314): the first extension frame of its VOQ, and of every VOQ it has copies in, comes back into its port's
guaranteed or shared cells, where they have room for it. A line of it that memory reports uncorrectable discards the frame (R304,
R439). -/
def execExtensionReturn (fid : Nat) (memBad : Bool) (s : State) : Host.Outcome State Fault Refusal :=
  match s.held? fid with
  | some h =>
    if h.region != .extension || h.tail != .good || !s.extTurn fid then .next s
    else if memBad then .next ((s.dropCopies fun x => x.fid == fid).refreshDie h.die)
    else
      let same (r : Region) : Nat := s.cellsHeld h.die fun x => x.region == r && x.src == h.src && x.vc == h.vc
      let pol := s.image.policies
      let move (r : Region) : State := (s.mapHeld fid fun x => { x with region := r }).refreshDie h.die
      if same .guaranteed + h.cells ≤ pol.guarCells then .next (move .guaranteed)
      else if h.cells ≤ s.sharedFree h.die ∧ same .shared + h.cells ≤ pol.sharedCap then .next (move .shared)
      else .next s
  | none => .next s

/-! ## Relaying (R590) -/

/-- The frame a relay sends: a fresh SEQ and trailer, everything else but the relay fields as it was. -/
def relayed (f : Frame) (relay : BitVec 24) (done : Bool) : Frame :=
  { f with h := { f.h with remoteAddr := (if done then 0x1000000#64 else 0) ||| relay.setWidth 64 }, t := zeroTrailer }

/-- Send a frame a relay has made. -/
def State.sendRelay (s : State) (f : Frame) : State :=
  let f := s.stamp 0 f
  match s.route s.curBank f.h false with
  | .group ps =>
    match s.spray ps f.h with
    | some q => s.queueOwn q f none
    | none => s.bumpDies F.ROUTE_DISCARDS_NO_ROUTE
  | _ => s.bumpDies F.ROUTE_DISCARDS_NO_ROUTE

/-- RELAY_FRAME (R590): a relay leaf sends the frame on with RELAY zero and RELAYED 1; a top switch that has no entry for
DEST sends it to a leaf below it, once. `canTake` is 0 where the firmware has no room for it: it discards and counts
(R289). -/
def execRelayFrame (port : Nat) (f : Frame) (canTake : Bool) (s : State) : Host.Outcome State Fault Refusal :=
  if !relayable f.h || !tailGood f then .next s
  else if !canTake then .next s.fwDiscard
  else if relayOf f.h = s.image.ownFlat && relayOf f.h != 0 then .next (s.sendRelay (relayed f 0 true))
  else if s.route (s.dieBank (dieOf port) f.h.epoch) f.h (s.cable port).uplink != .relay then .next s
  else if relayedOf f.h then .next (s.bumpDies F.ROUTE_DISCARDS_NO_ROUTE)
  else
    match s.relayLeaf (s.dieBank (dieOf port) f.h.epoch) with
    | some e => .next (s.sendRelay (relayed f e.flat false))
    | none => .next (s.bumpDies F.ROUTE_DISCARDS_NO_ROUTE)

/-! ## The count memory (R308) -/

/-- RESTORE_COUNTS (R308): the sweep starts. -/
def State.startSweep (s : State) (d : Nat) : State :=
  s.mapCore fun c => { c with sweeping := c.sweeping.filter (· != d) ++ [d] }

/-- RESTORE_COUNTS (R308). -/
def execRestoreCounts (die : Nat) (s : State) : Host.Outcome State Fault Refusal :=
  if die < 4 then .next (s.startSweep die) else .next s

/-- The copies of a held frame. -/
def State.countOf (s : State) (fid : Nat) : Nat := (s.core.copies.filter fun c => c.fid == fid).length

/-- REFCOUNT_SWEEP_DONE (R308): the counts are rebuilt from the queues and fallback ends, unless the count memory reported
another uncorrectable error meanwhile. A frame that no queue names any more frees its cells. -/
def execRefcountSweepDone (die : Nat) (count : WordErr) (s : State) : Host.Outcome State Fault Refusal :=
  if !s.core.sweeping.contains die then .next s
  else
    let s := s.mapCore fun c => { c with sweeping := c.sweeping.filter (· != die) }
    let (countErr, s) := s.sramRead die blkBuffer 0 count
    if countErr then .next (s.countError die)
    else
      let s := s.mapCore fun c => { c with
        held := c.held.map fun h => if h.die = die then { h with refcount := s.countOf h.fid } else h }
      let s := ((s.core.held.filter fun h => h.die == die && h.refcount == 0).map (·.fid)).foldl State.freeHeld s
      .next (((s.setFlag F.REFCOUNT_STATUS_REFCOUNT_FALLBACK die false).drainLocal die).refreshDie die)

end Sys2Proof.Machine
end

