-- ==== Sys2Proof/Machine/Time.lean ====
section
/-! DEFINITION. Fabric time: the exchange with the neighbours, the choice of a parent and the states of R255
(spec/09_belfry_and_time.md R250 to R256). -/
namespace Sys2Proof.Machine

open Sys2Proof

/-! ## The exchange (R252 to R254) -/

/-- A payload timestamp (R254), as NS × 2^16 + FRAC. -/
def stampAt (q : List Byte) (off : Nat) : BitVec 80 := BitVec.ofNat 80 (leAt q off 8 * 2 ^ 16 + leAt q (off + 8) 2)

/-- The inter-switch ports that are usable in the current tables (R252). -/
def State.syncPorts (s : State) : List Nat :=
  (s.ports.map (·.num)).filter fun p => (s.cable p).role == .switch && s.carries p && !s.linkCut s.curBank p

/-- A link-local MGMT frame (R252, R339). -/
def State.linkMgmt (s : State) (payload : List Byte) : Frame := mgmtFrame true 0xFFFFFF s.image.ownFlat 0 0 payload

/-- Send a link-local message that is not sent again (R252). -/
def State.sendOnce (s : State) (p : Nat) (payload : List Byte) : State :=
  let f := s.linkMgmt payload
  let dest := s.destKey (.onPort p) f.h
  let (m, s) := s.newMsgId dest
  ((numberFrames m 0 [f]).foldl (fun s f => s.emit (.onPort p) f none) s).noteEnded [(dest, m)]

/-- TIME_SYNC on one port. -/
def State.syncOn (s : State) (p : Nat) : State :=
  let sid := s.time.nextSync
  let syncs : List SyncOut := s.time.syncs.filter (fun x => x.port != p) ++ [⟨p, sid⟩]
  let s := { s with time := { s.time with nextSync := sid + 1, syncs := syncs } }
  s.sendOnce p (leBytes 2 0x50 ++ leBytes 2 sid.toNat ++ zeros 28)

/-- TIME_SYNC_PERIOD (R252). -/
def execTimeSyncPeriod (s : State) : Host.Outcome State Fault Refusal := .next (s.syncPorts.foldl State.syncOn s)

/-- DISTANCE of this switch (R251). -/
def State.distance (s : State) : Nat :=
  match s.time.state with
  | .root => 0
  | .acquiring | .locked => s.time.parentDistance + 1
  | _ => 255

/-- FLAGS of a TIME_SYNC_REPLY (R254, R255). -/
def State.timeFlags (s : State) : Nat :=
  b2n (s.timeValid && !s.time.refGone) + 2 * b2n (s.time.state == .holdover)

/-- TIME_SYNC (R252): acknowledged, and answered with T1, T2 and this switch's DISTANCE. -/
def execTimeSync (port : Nat) (f : Frame) (t2 : BitVec 80) (s : State) : Host.Outcome State Fault Refusal :=
  if s.queuedBehind .firmware port f then .next s else
  .next ((s.takeFrom .firmware port f).mgmtIn port f 0x50 fun s =>
    s.sendOnce port (leBytes 2 0x51 ++ sliceB f.payload 2 2 ++ leBytes 1 s.timeFlags ++ leBytes 1 s.distance ++ zeros 10
      ++ sliceB f.payload 16 16 ++ stampBytes t2 ++ zeros 16))

/-! ## Discipline (R253, R255) -/

/-- Twice the offset θ, in units of 2^−16 ns (R253). -/
def theta2 (t1 t2 t3 t4 : BitVec 80) (asym : BitVec 32) : Int :=
  ((t2.toNat : Int) - t1.toNat) - ((t4.toNat : Int) - t3.toNat) - asym.toInt

/-- Correct fabric time by an offset: forward at once where a step is allowed, else by slewing (R255). -/
def TimeSt.correct (t : TimeSt) (th2 : Int) (mayStep : Bool) : TimeSt :=
  let th := th2 / 2
  if mayStep && decide (0 < th) then { t with now := t.now + BitVec.ofInt 80 th, slew := 0 } else { t with slew := th }

/-- The parent of R251 among the neighbours: TIME_VALID, smallest DISTANCE below 254, then up-links, then the lowest port. -/
def State.chooseParent (s : State) : Option Neighbour :=
  let ps := s.syncPorts
  let key (n : Neighbour) : Nat := (n.distance * 2 + b2n (!(s.cable n.port).uplink)) * 256 + n.port
  (s.time.neighbours.filter fun n => n.valid && decide (n.distance < 254) && ps.contains n.port).foldl
    (fun a n => match a with | none => some n | some b => if key n < key b then some n else some b) none

/-- What the reply of a neighbour says of it (R251). -/
def TimeSt.heard (t : TimeSt) (p : Nat) (flags : Byte) (dist : Nat) : TimeSt :=
  { t with neighbours := t.neighbours.filter (fun n => n.port != p) ++ [⟨p, flags.getLsbD 0, dist⟩] }

/-- A parent is taken on a valid exchange with it in UNLOCKED or HOLDOVER (R251, R255). -/
def State.adopt (s : State) (p : Nat) (th2 : Int) : State :=
  match s.chooseParent with
  | none => s
  | some n =>
    if n.port != p then s
    else
      let step := s.time.state == .unlocked || decide (2 * 1000 * 2 ^ 16 < th2)
      { s with time := { (s.time.correct th2 step) with
          state := .acquiring, parent := some p, parentDistance := n.distance, good := 0 } }

/-- An exchange with the parent (R255). -/
def State.discipline (s : State) (p : Nat) (valid : Bool) (dist : Nat) (th2 : Int) : State :=
  if s.time.parent != some p then s
  else
    let t := { s.time with parentDistance := dist }
    if !valid then { s with time := { t with good := 0 } }
    else
      let t := t.correct th2 false
      if t.state = .acquiring then
        let good := if -(2 * 2 ^ 16) < th2 ∧ th2 < 2 * 2 ^ 16 then t.good + 1 else 0
        { s with time := { t with good := good, state := if 16 ≤ good then .locked else .acquiring } }
      else { s with time := t }

/-- A TIME_SYNC_REPLY taken whole (R251 to R255). -/
def State.replied (s : State) (p : Nat) (q : List Byte) (t4 : BitVec 80) : State :=
  let sid := BitVec.ofNat 16 (leAt q 2 2)
  if !(s.time.syncs.contains ⟨p, sid⟩) then s
  else
    let flags := BitVec.ofNat 8 (leAt q 4 1)
    let dist := leAt q 5 1
    let t := s.time.heard p flags dist
    let s := { s with time := { t with syncs := t.syncs.filter fun x => x.port != p } }
    let th2 := theta2 (stampAt q 16) (stampAt q 32) (stampAt q 48) t4 (BitVec.ofNat 32 (s.fld F.LINK_ASYM_ASYM (s.blk p)))
    match s.time.state with
    | .root => s
    | .unlocked | .holdover => if flags.getLsbD 0 then s.adopt p th2 else s
    | .acquiring | .locked => s.discipline p (flags.getLsbD 0) dist th2

/-- TIME_SYNC_REPLY (R255). -/
def execTimeSyncReply (port : Nat) (f : Frame) (t4 : BitVec 80) (s : State) : Host.Outcome State Fault Refusal :=
  if s.queuedBehind .firmware port f then .next s else
  .next ((s.takeFrom .firmware port f).mgmtIn port f 0x51 fun s => s.replied port f.payload t4)

/-- A LOCKED switch enters HOLDOVER (R255). -/
def State.holdover (s : State) : State :=
  if s.time.state = .locked then s.intoHoldover else s

/-- TIME_HOLDOVER_TIMEOUT (R255): 8 periods without a valid exchange have passed. -/
def execTimeHoldoverTimeout (s : State) : Host.Outcome State Fault Refusal := .next s.holdover

/-- The link to the parent is lost (R255). -/
def State.parentLost (s : State) (p : Nat) : State := if s.time.parent = some p then s.holdover else s

end Sys2Proof.Machine
end

