-- ==== Sys2Proof/Machine/Cruise.lean ====
section
/-! DEFINITION. TFP negotiation of a link, and cruise: sweeps, the comparison with the cabling plan, quarantine and the
link items (spec/02_fabric_frames.md R61 to R64; spec/13_topology.md R336 to R347, R356). -/
namespace Sys2Proof.Machine

open Sys2Proof

/-! ## TFP negotiation (R61 to R64) -/

/-- CAPS of this switch on a port (R64). -/
def State.ownCaps (s : State) (p : Nat) : Nat := 4 + 2 * b2n (s.cable p).thin + 8 * b2n (s.cable p).metro

/-- A LINK frame of this switch (R61; assumption 13 for DEST and SRC). -/
def State.linkFrame (s : State) (p op sel : Nat) : Frame :=
  { h := { zeroHdr with version := 1, ftype := 7, vc := 0, amode := true, dest := 0xFFFFFF, src := s.image.ownFlat }
    ext := .link { op := BitVec.ofNat 8 op, minVer := 1, maxVer := 2, selectedVer := BitVec.ofNat 4 sel, rsvdA := 0,
                   rsvdB := 0, fwVersion := s.image.fwVersion, caps := BitVec.ofNat 32 (s.ownCaps p), rsvdC := 0 }
    payload := [], t := zeroTrailer }

/-- Send a LINK frame. -/
def State.sendLink (s : State) (p op sel : Nat) : State := s.emit (.onPort p) (s.linkFrame p op sel) none

/-- The negotiation of a port. -/
def State.neg (s : State) (p : Nat) : NegSt := (s.negs.find? fun x => x.port == p).getD ⟨p, false, false⟩

/-- Replace the negotiation of a port. -/
def State.setNeg (s : State) (x : NegSt) : State := { s with negs := s.negs.filter (fun y => y.port != x.port) ++ [x] }

/-- The version two ranges choose; 0 where they have none in common (R62). -/
def chooseVer (lo hi : Nat) : Nat := let v := min 2 hi; if max 1 lo ≤ v then v else 0

/-- The version computed from the neighbour's latest HELLO; 0 where there is none. -/
def State.chosen (s : State) (p : Nat) : Nat :=
  chooseVer (s.fld F.TFP_PORT_STATUS_PEER_MIN_VER (s.blk p)) (s.fld F.TFP_PORT_STATUS_PEER_MAX_VER (s.blk p))

/-- Set NEG_STATE and SELECTED_VER. -/
def State.setNegState (s : State) (p st sel : Nat) : State :=
  (s.setFld F.TFP_PORT_STATUS_NEG_STATE (s.blk p) st).setFld F.TFP_PORT_STATUS_SELECTED_VER (s.blk p) sel

/-- PCS lock is gained: NEG_STATE 1 and a first HELLO (R62, R63). -/
def State.negStart (s : State) (p : Nat) : State := ((s.setNeg ⟨p, false, false⟩).setNegState p 1 0).sendLink p 1 0

/-- PCS lock is lost: nothing negotiated survives (R63). -/
def State.negEnd (s : State) (p : Nat) : State :=
  (((s.setNeg ⟨p, false, false⟩).setNegState p 0 0).setFld F.TFP_PORT_STATUS_PEER_MIN_VER (s.blk p) 0).setFld
    F.TFP_PORT_STATUS_PEER_MAX_VER (s.blk p) 0

/-- THIN_ACTIVE and METRO_EXT of a port follow the marks of the port map and the CAPS of both ends (R167, R313). The
16 extension slots of the device are taken in port order; a seventeenth METRO mark makes no metro port (R313). -/
def State.linkAttributes (s : State) (p : Nat) (caps : BitVec 32) : State :=
  let c := s.cable p
  let inst := 2 * dieOf p + localOf p / 32
  let bit := localOf p % 32
  let s := s.setReg .THIN_ACTIVE inst (setBitsOf (s.reg .THIN_ACTIVE inst) bit bit (b2n (c.thin && caps.getLsbD 1)))
  if !c.metro then s
  else
    let e := ((s.ports.map (·.num)).filter fun q => (s.cable q).metro && decide (q < p)).length
    let m := 16 * dieOf p + e
    if 16 ≤ e then s
    else (s.setFld F.METRO_EXT_ENABLED m (b2n (caps.getLsbD 3))).setFld F.METRO_EXT_PORT m (if caps.getLsbD 3 then p else 0)

/-- HELLO_TIMER (R62, R63): HELLO again until HELLO_ACK has been both sent and received. -/
def execHelloTimer (port : Nat) (s : State) : Host.Outcome State Fault Refusal :=
  let x := s.neg port
  if s.pcsLock port ∧ !(x.ackSent && x.ackGot) then .next (s.sendLink port 1 0) else .next s

/-! ## Sweeps (R339 to R341) -/

/-- Cruise on a port. -/
def State.crz (s : State) (p : Nat) : CruisePort :=
  (s.cruise.find? fun x => x.port == p).getD ⟨p, .idle, 0, 0, none, none⟩

/-- Replace cruise on a port. -/
def State.setCrz (s : State) (x : CruisePort) : State :=
  { s with cruise := s.cruise.filter (fun y => y.port != x.port) ++ [x] }

/-- The number of the current or last full sweep. -/
def State.sweepNo (s : State) : BitVec 16 := BitVec.ofNat 16 (s.fld F.CRUISE_STATUS_SWEEP 0)

/-- A CRUISE_ID or CRUISE_REPLY payload of this switch on a port (R340). -/
def State.cruiseBytes (s : State) (p kind : Nat) (sweep : BitVec 16) : List Byte :=
  let coord := if (s.cable p).role == .endpoint then (s.cable p).coord.toNat else s.image.position * 2 ^ 7
  leBytes 2 kind ++ leBytes 2 sweep.toNat ++ leBytes 4 s.image.ownFlat.toNat ++ leBytes 1 1 ++ leBytes 1 s.image.tier
    ++ leBytes 2 p ++ leBytes 4 coord ++ leBytes 4 s.image.fwVersion.toNat ++ leBytes 4 (s.ownCaps p)
    ++ leBytes 8 s.image.planTag.toNat ++ zeros 16

/-- Send a cruise message on a port; it is not acknowledged (R339). A link that negotiates carries none (R62, R63). -/
def State.sendCruise (s : State) (p kind : Nat) (sweep : BitVec 16) : State :=
  if s.negOver p then s.sendOnce p (s.cruiseBytes p kind sweep) else s

/-- What a CRUISE_REPLY payload says. -/
def cruiseReplyOf (q : List Byte) : CruiseReply :=
  { flat := BitVec.ofNat 24 (leAt q 4 4), role := leAt q 8 1, tier := leAt q 9 1, peerPort := leAt q 10 2,
    fw := BitVec.ofNat 32 (leAt q 16 4), caps := BitVec.ofNat 32 (leAt q 20 4), planTag := BitVec.ofNat 64 (leAt q 24 8) }

/-! ## The comparison (R342, R343) -/

/-- Is a reply's neighbour, by flat ID and port, what the plan expects on a port (R342 row 4)? -/
def CablePort.expects (c : CablePort) (r : CruiseReply) : Bool :=
  c.role != .unused && c.peerFlat == r.flat && r.peerPort == (if c.role == .switch then c.peerPort else 0)

/-- The other ports whose plan entry a port's neighbour meets (R342 row 4). -/
def State.swapCandidates (s : State) (p : Nat) (r : CruiseReply) : List Nat :=
  (s.ports.map (·.num)).filter fun q => q != p && (s.cable q).expects r

/-- The swap partner of a port: the first of those ports whose own neighbour meets this port's entry (R342 row 4). -/
def State.swapWith (s : State) (p : Nat) (r : CruiseReply) : Option Nat :=
  (s.swapCandidates p r).find? fun q =>
    match (s.crz q).reply with | some x => (s.cable p).expects x | none => false

/-- The ROLE that a port's neighbour is to report (R340). -/
def CablePort.roleCode (c : CablePort) : Nat := b2n (c.role == .switch)

/-- The result of a port's sweep (R342). -/
def State.cruiseResult (s : State) (p : Nat) : Nat :=
  let c := s.cable p
  match (s.crz p).reply with
  | none => if c.role == .unused then 1 else 2
  | some r =>
    if c.role == .unused then 3
    else if s.fld F.TFP_PORT_STATUS_NEG_STATE (s.blk p) = 3 then 6
    else if (s.swapWith p r).isSome then 4
    else if !c.expects r || r.role != c.roleCode
        || r.tier != (if c.role == .switch then c.peerTier else 0) then 5
    else if r.role == 1 && r.planTag != s.image.planTag then 7
    else if (c.thin && !r.caps.getLsbD 1) || (c.metro && !r.caps.getLsbD 3) then 8
    else if (if c.metro then 524288 else 4096) < s.headroomCells p then 9
    else 1

/-! ## Results, quarantine and the link items (R345 to R347) -/

/-- Request what a result that is not MATCH, or a loss of lock, asks for: the link of a port that the current tables use
is to be cut out (R347). -/
def State.askCutLink (s : State) (p : Nat) : State :=
  if (s.cable p).role == .switch && s.flag F.CRUISE_STATUS_FIRST_DONE 0 && !s.linkCut s.curBank p then
    s.ask [itemCutLink s.image.ownFlat p]
  else s

/-- A MATCH on a port that is absent from the current tables: the second one at least 1 s after the first requests its
return, and that of its switch where that was cut out (R347). -/
def State.askReturn (s : State) (p : Nat) : State :=
  let c := s.cable p
  if c.role != .switch || !s.flag F.CRUISE_STATUS_FIRST_DONE 0 || !s.linkCut s.curBank p then
    s.setCrz { s.crz p with matchAt := none }
  else
    match (s.crz p).matchAt with
    | none => s.setCrz { s.crz p with matchAt := some s.ns }
    | some t =>
      if s.ns < t + 1000000000 then s
      else s.ask (itemReturnLink s.image.ownFlat p
        :: (if s.curBank.cutSwitches.contains c.peerFlat then [itemReturnSwitch c.peerFlat] else []))

/-- Record a port's result. The first that quarantines it is counted (R345). -/
def State.recordResult (s : State) (p code swap : Nat) : State :=
  let b := s.blk p
  let old := s.fld F.PORT_CRUISE_RESULT b
  let s := if code != 1 && decide (old ≤ 1) then s.bump F.CRUISE_EVENTS_QUARANTINES 0 else s
  let differs : Bool := match (s.crz p).reply with | some r => r.fw != s.image.fwVersion | none => false
  let s := (((s.setFld F.PORT_CRUISE_RESULT b code).setFld F.PORT_CRUISE_SWAP_PORT b swap).setFld
    F.PORT_CRUISE_LAST_SWEEP b (s.crz p).sweep.toNat).setFlag F.PORT_CRUISE_FW_DIFFERS b differs
  let s := s.setCrz { s.crz p with phase := .idle }
  if code = 1 then s.askReturn p
  else ((s.setCrz { s.crz p with matchAt := none }).askCutLink p).parentLost p

/-- Judge a port (R342): a swap is recorded on both ports with one fault that names both (R343); any other result that
newly quarantines the port raises its own (R345). -/
def State.judge (s : State) (p : Nat) : State :=
  let code := s.cruiseResult p
  let old := s.fld F.PORT_CRUISE_RESULT (s.blk p)
  let partner := match (s.crz p).reply with | some r => s.swapWith p r | none => none
  match code, partner with
  | 4, some q =>
    let known := old == 4 && s.fld F.PORT_CRUISE_RESULT (s.blk q) == 4 && s.fld F.PORT_CRUISE_SWAP_PORT (s.blk p) == q
    let s := (s.recordResult p 4 q).recordResult q 4 p
    if known then s else s.raise dieCD 0x07 0 0x1D (addrP p q) 0
  | _, _ =>
    let s := s.recordResult p code 0
    if code != 1 && decide (old ≤ 1) then s.raise dieCD 0x07 0 0x1C (addrP p 0) code else s

/-- Does an answered port wait for the reply of a port it may be swapped with, which the sweep has asked, or is to ask where the
boot sweep waits for it to come up (R343)? -/
def State.deferred (s : State) (p : Nat) : Bool :=
  match (s.crz p).reply with
  | none => false
  | some r => (s.swapCandidates p r).any fun q =>
      (s.crz q).phase == .asked || ((s.crz q).phase == .waiting && !s.flag F.CRUISE_STATUS_FIRST_DONE 0)

/-- Judge every answered port that waits for no other. -/
def State.judgeAll (s : State) : State :=
  (s.ports.map (·.num)).foldl (fun s p =>
    if (s.crz p).phase == .answered && !s.deferred p then s.judge p else s) s

/-- A full sweep ends when no port awaits a reply or a judgement. -/
def State.endSweep (s : State) : State :=
  let first := !s.flag F.CRUISE_STATUS_FIRST_DONE 0
  if s.cruise.any fun x => x.phase == .asked || x.phase == .answered || (first && x.phase == .waiting) then s
  else s.setFlag F.CRUISE_STATUS_SWEEP_ACTIVE 0 false

/-- What follows from new results: judgements, the end of the sweep, the time root's role, a coordinator's next step. -/
def State.afterResult (s : State) : State := (s.judgeAll.endSweep).timeRole.takeOver.coordGo

/-- No reply has come on a port. -/
def State.noReply (s : State) (p : Nat) : State := s.setCrz { s.crz p with phase := .answered, reply := none }

/-- Begin the sweep of a port: CRUISE_ID where its version is negotiated or found incompatible; else no reply arrives
(R339). `wait` keeps a port that is still negotiating until it has. -/
def State.sweepPort (s : State) (p : Nat) (n : BitVec 16) (wait : Bool) : State :=
  let x := s.crz p
  let st := s.fld F.TFP_PORT_STATUS_NEG_STATE (s.blk p)
  if s.pcsLock p && (st == 2 || st == 3) then
    (s.setCrz { x with phase := .asked, sweep := n, tries := 1 }).sendCruise p 0x20 n
  else if s.pcsLock p && wait then s.setCrz { x with phase := .waiting, sweep := n, tries := 0 }
  else (s.setCrz { x with sweep := n }).noReply p

/-- A full sweep (R339). A port that still negotiates is not asked: its own sweep begins once it has. -/
def State.fullSweep (s : State) : State :=
  let n := s.sweepNo + 1
  let s := (s.setFld F.CRUISE_STATUS_SWEEP 0 n.toNat).setFlag F.CRUISE_STATUS_SWEEP_ACTIVE 0 true
  ((s.ports.map (·.num)).foldl (fun s p => s.sweepPort p n true) s).afterResult

/-- The boot sweep (R339, R506): it waits for the ports that expect a neighbour to come up. -/
def State.bootSweep (s : State) : State :=
  let n := s.sweepNo + 1
  let s := (s.setFld F.CRUISE_STATUS_SWEEP 0 n.toNat).setFlag F.CRUISE_STATUS_SWEEP_ACTIVE 0 true
  ((s.ports.map (·.num)).foldl (fun s p =>
    if (s.cable p).role == .unused then s.sweepPort p n false
    else s.setCrz { s.crz p with phase := .waiting, sweep := n, tries := 0 }) s).afterResult

/-- A port has gained or lost PCS lock, or has finished negotiating: its own sweep (R339), once the control firmware runs
(R460). -/
def State.sweepOne (s : State) (p : Nat) : State :=
  if s.fwWaits then s.setCrz { s.crz p with phase := .waiting, sweep := s.sweepNo, tries := 0 }
  else (s.sweepPort p s.sweepNo true).afterResult

/-- A full sweep is asked for: unless one runs it begins, once the control firmware runs (R339, R460). -/
def State.wantSweep (s : State) : State :=
  if s.fwWaits then { s with power := { s.power with sweepWanted := true } }
  else if s.flag F.CRUISE_STATUS_SWEEP_ACTIVE 0 then s else s.fullSweep

/-- The control firmware has restarted: what has waited for it goes on (R460). -/
def State.resumeWork (s : State) : State :=
  let wanted := s.power.sweepWanted
  let s := { s with power := { s.power with sweepWanted := false } }
  let ps := (s.ports.map (·.num)).filter fun p => (s.crz p).phase == .waiting
  let s := if s.flag F.CRUISE_STATUS_FIRST_DONE 0 then ps.foldl State.sweepOne s else s
  let s := s.coordGo
  if wanted then s.wantSweep else s

/-- SWEEP_NOW (R339): a full sweep, unless one is running. -/
def execSweepNow (s : State) : Host.Outcome State Fault Refusal := .next s.wantSweep

/-- CRUISE_SWEEP_TIMER (R267, R339): the timer runs from the end of the previous sweep. -/
def execCruiseSweepTimer (s : State) : Host.Outcome State Fault Refusal :=
  .next s.wantSweep

/-- CRUISE_RETRY_TIMER (R339): 1 ms without a reply; after 3 tries there is none. In the boot sweep it also ends the wait
for a port that has not come up. -/
def execCruiseRetryTimer (port : Nat) (s : State) : Host.Outcome State Fault Refusal :=
  let x := s.crz port
  if s.fwWaits then .next s
  else if x.phase == .waiting && !s.flag F.CRUISE_STATUS_FIRST_DONE 0 then .next (s.noReply port).afterResult
  else if x.phase != .asked then .next s
  else if x.tries < 3 then .next ((s.setCrz { x with tries := x.tries + 1 }).sendCruise port 0x20 x.sweep)
  else .next (s.noReply port).afterResult

/-- Is a frame a link-local cruise message of a kind? -/
def isCruise (f : Frame) (kind : Nat) : Bool :=
  tailGood f && f.h.ftype == 8#4 && f.h.amode && f.h.dest == 0xFFFFFF && mgmtKind f == kind

/-- CRUISE_ID (R341): every one is answered. -/
def execCruiseId (port : Nat) (f : Frame) (s : State) : Host.Outcome State Fault Refusal :=
  if s.queuedBehind .firmware port f then .next s else
  let s := s.takeFrom .firmware port f
  .next (if isCruise f 0x20 then s.sendCruise port 0x21 (BitVec.ofNat 16 (leAt f.payload 2 2)) else s)

/-- CRUISE_REPLY (R342): the reply of the running sweep of its port. -/
def execCruiseReply (port : Nat) (f : Frame) (s : State) : Host.Outcome State Fault Refusal :=
  if s.queuedBehind .firmware port f then .next s else
  let s := s.takeFrom .firmware port f
  let x := s.crz port
  if !isCruise f 0x21 || x.phase != .asked || leAt f.payload 2 2 != x.sweep.toNat then .next s
  else
    let r := cruiseReplyOf f.payload
    let b := s.blk port
    let s := ((s.setFld F.PORT_PEER_PEER_PORT b r.peerPort).setFld F.PORT_PEER_PEER_FLAT_ID b r.flat.toNat).setFld
      F.PORT_PEER_FW_PEER_FW_VERSION b r.fw.toNat
    .next (s.setCrz { x with phase := .answered, reply := some r }).afterResult

/-! ## HELLO and HELLO_ACK (R62, R63) -/

/-- A port is up once HELLO_ACK has been sent and received; the sweep it waits for begins (R62, R339). -/
def State.negCheck (s : State) (p : Nat) : State :=
  let x := s.neg p
  if s.fld F.TFP_PORT_STATUS_NEG_STATE (s.blk p) = 1 ∧ x.ackSent ∧ x.ackGot then
    let s := s.setNegState p 2 (s.chosen p)
    if (s.crz p).phase == .waiting then s.sweepOne p else s
  else s

/-- The LINK extension of a frame. -/
def linkOf (f : Frame) : Option LinkExt := match f.ext with | .link x => some x | _ => none

/-- A good HELLO has come (R63). -/
def State.helloIn (s : State) (p : Nat) (x : LinkExt) : State :=
  let b := s.blk p
  let s := (s.setFld F.TFP_PORT_STATUS_PEER_MIN_VER b x.minVer.toNat).setFld F.TFP_PORT_STATUS_PEER_MAX_VER b x.maxVer.toNat
  let s := s.linkAttributes p x.caps
  let v := s.chosen p
  let st := s.fld F.TFP_PORT_STATUS_NEG_STATE b
  if v = 0 then
    let s := (s.setNeg ⟨p, false, false⟩).setNegState p 3 0
    if (s.crz p).phase == .waiting then s.sweepOne p else s
  else if st = 2 ∧ v = s.fld F.TFP_PORT_STATUS_SELECTED_VER b then s.sendLink p 2 v
  else
    let s := if st = 1 then s else (s.setNeg ⟨p, false, false⟩).setNegState p 1 0
    ((s.sendLink p 2 v).setNeg { s.neg p with ackSent := true }).negCheck p

/-- HELLO (R63): answered with HELLO_ACK; another version than the one in force starts negotiation again. -/
def execHello (port : Nat) (f : Frame) (s : State) : Host.Outcome State Fault Refusal :=
  match linkOf f with
  | none => .next s
  | some x => if tailGood f ∧ s.pcsLock port ∧ x.op = 1 then .next (s.helloIn port x) else .next s

/-- HELLO_ACK (R62, R63): one whose version is not that of the neighbour's latest HELLO is discarded. -/
def execHelloAck (port : Nat) (f : Frame) (s : State) : Host.Outcome State Fault Refusal :=
  match linkOf f with
  | none => .next s
  | some x =>
    if tailGood f ∧ s.pcsLock port ∧ x.op = 2 ∧ s.chosen port ≠ 0 ∧ x.selectedVer.toNat = s.chosen port then
      .next ((s.setNeg { s.neg port with ackGot := true }).negCheck port)
    else .next s

/-! ## PCS lock (R339, R347, R412) -/

/-- A port gains PCS lock. -/
def State.lockGained (s : State) (p : Nat) : State := (s.negStart p).sweepOne p

/-- The copies that wait for a port that has gone down are discarded before egress, and their messages count them as
transmitted (R58, R306). One on its way out goes on. -/
def State.flushPort (s : State) (p : Nat) : State := s.dropCopies fun c => c.dest == .port p && !c.started

/-- A port loses PCS lock: what waits for it is discarded, negotiation ends, its link is to be cut out, and its own sweep
finds no neighbour. -/
def State.lockLost (s : State) (p : Nat) : State :=
  let s := (s.flushPort p).negEnd p
  let s := (if s.fwWaits then s else s.askCutLink p).parentLost p
  (s.setCrz { s.crz p with reply := none, matchAt := none }).sweepOne p

end Sys2Proof.Machine
end

