-- ==== Sys2Proof/Machine/Lanes.lean ====
section
/-! DEFINITION. Ports and lanes: bring-up, loss of lock, FORCE_DOWN, PRBS, SHALLOW and DEEP, and what the port map writes
into the registers (spec/16_serial_lanes.md R400 to R418; 21_boot_security.md R503). -/
namespace Sys2Proof.Machine

open Sys2Proof

/-! ## The port state (R411) -/

/-- LINK_STATE of a port. -/
def State.link (s : State) (p : Nat) : Nat := s.fld F.PORT_LINK_LINK_STATE (s.blk p)

/-- The lane group of a port (R417). -/
def PortCfg.group (c : PortCfg) : Nat := c.lane0 / 128

/-- The lanes of a port. -/
def PortCfg.lanes (c : PortCfg) : List Nat := (List.range c.width).map (c.lane0 + ·)

/-- May a port leave DISABLED: the port map holds it, its lane group is powered, FORCE_DOWN is 0 and HALT is not in force
(R411, R452)? -/
def State.portOn (s : State) (c : PortCfg) : Bool :=
  s.power.groups.contains c.group && !s.flag F.PORT_LINK_CONTROL_FORCE_DOWN c.lane0 && !s.flag F.WT_STATUS_HALTED 0

/-- The receivers of a port start over: nothing is detected or locked. -/
def State.rxRestart (s : State) (c : PortCfg) : State :=
  c.lanes.foldl (fun s l =>
    (((s.setFlag F.LANE_STATUS_SIGNAL l false).setFlag F.LANE_STATUS_CDR_LOCK l false).setFlag F.LANE_STATUS_CW_LOCK l
      false).setFlag F.LANE_STATUS_MARKER_LOCK l false) s

/-- Move a port to a state without PCS lock; a port that had lock loses it (R411, R347). -/
def State.linkDown (s : State) (c : PortCfg) (st : Nat) : State :=
  let had := s.pcsLock c.num
  let s := (s.setFld F.PORT_LINK_LINK_STATE c.lane0 st).rxRestart c
  if had then s.lockLost c.num else s

/-- A loss under R412: counted and reported, and the port goes to SIGNAL_WAIT. -/
def State.lossOf (s : State) (c : PortCfg) : State :=
  if s.pcsLock c.num then
    ((s.bump F.PORT_LINK_LOCK_LOSSES c.lane0).raise dieLC blkPort c.num 0x18 (addrP c.num 0) 0).linkDown c 1
  else s

/-- Let a port leave DISABLED where it may (R411). -/
def State.portEnable (s : State) (c : PortCfg) : State :=
  if s.link c.num = 0 ∧ s.portOn c then s.setFld F.PORT_LINK_LINK_STATE c.lane0 1 else s

/-- Act on a port of the port map; a number that names none does nothing. -/
def State.onPort (s : State) (p : Nat) (f : PortCfg → State) : State :=
  match s.port? p with
  | some c => f c
  | none => s

/-- Is PRBS enabled on a lane of the port (R414)? -/
def State.prbsOn (s : State) (c : PortCfg) : Bool :=
  c.lanes.any fun l => s.flag F.LANE_PRBS_GEN_EN l || s.flag F.LANE_PRBS_CHK_EN l

/-! ## Bring-up (R411) -/

/-- SIGNAL_DETECTED (R411): training on backplane and copper, adaptation on a module. A port with PRBS enabled stays in
SIGNAL_WAIT (R414). -/
def execSignalDetected (port : Nat) (s : State) : Host.Outcome State Fault Refusal :=
  .next (s.onPort port fun c =>
    if s.link port != 1 || s.prbsOn c then s
    else
      let s := c.lanes.foldl (fun s l => s.setFlag F.LANE_STATUS_SIGNAL l true) s
      s.setFld F.PORT_LINK_LINK_STATE c.lane0 (if c.medium = 0 then 3 else 2))

/-- TRAINING_DONE (R411). -/
def execTrainingDone (port : Nat) (s : State) : Host.Outcome State Fault Refusal :=
  .next (s.onPort port fun c => if s.link port = 2 then s.setFld F.PORT_LINK_LINK_STATE c.lane0 3 else s)

/-- ADAPT_DONE (R408, R410, R411): CDR lock, the polarity found and the estimate of every lane, in lane order. -/
def execAdaptDone (port : Nat) (inverted : List Bool) (snr : List (BitVec 16)) (s : State) :
    Host.Outcome State Fault Refusal :=
  .next (s.onPort port fun c =>
    if s.link port != 3 then s
    else
      let s := c.lanes.zipIdx.foldl (fun s x =>
        ((s.setFlag F.LANE_STATUS_CDR_LOCK x.1 true).setFlag F.LANE_CONFIG_RX_INVERTED x.1
          (nth inverted x.2 false)).setFld F.LANE_STATUS_RX_SNR x.1 (nth snr x.2 0).toNat) s
      s.setFld F.PORT_LINK_LINK_STATE c.lane0 4)

/-- ALIGN_DONE (R407, R411): the logical lanes read from the markers; the port is UP, and negotiation begins (R62). -/
def execAlignDone (port : Nat) (logical : List Nat) (s : State) : Host.Outcome State Fault Refusal :=
  .next (s.onPort port fun c =>
    if s.link port != 4 then s
    else
      let s := c.lanes.zipIdx.foldl (fun s x =>
        ((s.setFlag F.LANE_STATUS_CW_LOCK x.1 true).setFlag F.LANE_STATUS_MARKER_LOCK x.1 true).setFld
          F.LANE_CONFIG_LOGICAL_LANE x.1 (nth logical x.2 0)) s
      let s := s.transmit port fun _ _ => PcsTx.fresh port
      (s.setFld F.PORT_LINK_LINK_STATE c.lane0 5).lockGained port)

/-- BRINGUP_TIMEOUT (R411). -/
def execBringupTimeout (port : Nat) (s : State) : Host.Outcome State Fault Refusal :=
  .next (s.onPort port fun c =>
    if s.link port = 2 ∨ s.link port = 3 ∨ s.link port = 4 then
      (s.bump F.PORT_LINK_TRAIN_FAILS c.lane0).linkDown c 1
    else s)

/-- PCS_LOCK_LOSS (R412, R418). -/
def execPcsLockLoss (port : Nat) (s : State) : Host.Outcome State Fault Refusal := .next (s.onPort port s.lossOf)

/-! ## FORCE_DOWN, PRBS (R413, R414) -/

/-- FORCE_DOWN takes effect (R413): DISABLED from any state, or leave to come up. -/
def State.forceDown (s : State) (c : PortCfg) (v : Bool) : State :=
  let s := s.setFlag F.PORT_LINK_CONTROL_FORCE_DOWN c.lane0 v
  if v then s.linkDown c 0 else s.portEnable c

/-- FORCE_DOWN_WRITE (R413). -/
def execForceDownWrite (port : Nat) (v : Bool) (s : State) : Host.Outcome State Fault Refusal :=
  .next (s.onPort port fun c => s.forceDown c v)

/-- The port that holds a lane. -/
def State.portOfLane (s : State) (lane : Nat) : Option PortCfg :=
  s.ports.find? fun c => decide (c.lane0 ≤ lane) && decide (lane < c.lane0 + c.width)

/-- A write of LANE_PRBS (R10, R414): an enable that rises sends the lane's port to SIGNAL_WAIT; PATTERN 3 is reserved and
leaves the field as it is. A checker that is off holds no lock. -/
def State.writePrbs (s : State) (lane : Nat) (w : Word) : State :=
  let g := s.flag F.LANE_PRBS_GEN_EN lane
  let k := s.flag F.LANE_PRBS_CHK_EN lane
  let gen := w.getLsbD 31
  let chk := w.getLsbD 30
  let pat := bitsOf w.toNat 29 28
  let s := if pat = 3 then s.reservedWrite (regAddr .LANE_PRBS lane) w.toNat else s.setFld F.LANE_PRBS_PATTERN lane pat
  let s := (s.setFlag F.LANE_PRBS_GEN_EN lane gen).setFlag F.LANE_PRBS_CHK_EN lane chk
  let s := if chk then s else s.setFlag F.LANE_PRBS_CHK_LOCK lane false
  if (gen && !g) || (chk && !k) then
    match s.portOfLane lane with
    | none => s
    | some c =>
      if s.pcsLock c.num then s.lossOf c
      else if s.link c.num = 2 ∨ s.link c.num = 3 ∨ s.link c.num = 4 then s.linkDown c 1 else s
  else s

/-- PRBS_ENABLE_WRITE (R414). -/
def execPrbsEnableWrite (lane : Nat) (w : Word) (s : State) : Host.Outcome State Fault Refusal :=
  .next (if lane < 1024 then s.writePrbs lane w else s)

/-- CHK_LOCK (R414): 64 symbols without an error; from then on every bit in error is counted. The table has no command of its own
for the count, so the operand brings the bits found in error once the checker has locked (log entry 105). -/
def execChkLock (chk : ChkRx) (s : State) : Host.Outcome State Fault Refusal :=
  .next (if s.flag F.LANE_PRBS_CHK_EN chk.lane then
    (s.setFlag F.LANE_PRBS_CHK_LOCK chk.lane true).bumpBy F.PRBS_ERRORS_ERRORS chk.lane chk.errors else s)

/-! ## SHALLOW (R416) -/

/-- Is the device in LANE_QUIET, or far enough on its way there for ports to quiet (R416, R479)? -/
def State.laneQuiet (s : State) : Bool :=
  s.fld F.PWR_STATUS_STATE 0 == 1
    || (s.power.change == some (.enter 1) && s.fld F.PWR_STATUS_PHASE 0 == 1 && s.flag F.PWR_STATUS_PWR_BUSY 0)

/-- Has the transmitter of a port something to send? -/
def State.toSend (s : State) (p : Nat) : Bool := s.core.copies.any fun c => c.dest == .port p

/-- QUIET_IDLE_EXPIRY (R416): an idle transmitter sends eight QUIET blocks and quiets. -/
def execQuietIdleExpiry (port : Nat) (s : State) : Host.Outcome State Fault Refusal :=
  .next (s.onPort port fun c =>
    if s.link port = 5 ∧ s.laneQuiet ∧ !s.toSend port then
      (s.transmit port fun w t => t.puts w (List.replicate 8 quietBlock)).setFld F.PORT_LINK_LINK_STATE c.lane0 6
    else s)

/-- A quiet transmitter wakes: after the WAKE pattern it sends a WAKE block. -/
def State.wakePort (s : State) (c : PortCfg) : State :=
  if s.link c.num = 6 then
    (s.transmit c.num fun w t => t.put w wakeBlock).setFld F.PORT_LINK_LINK_STATE c.lane0 5
  else s

/-- TRANSMITTER_WAKE (R416). -/
def execTransmitterWake (port : Nat) (s : State) : Host.Outcome State Fault Refusal := .next (s.onPort port s.wakePort)

/-- Every quiet transmitter wakes: the device leaves LANE_QUIET. -/
def State.wakeAll (s : State) : State := s.ports.foldl State.wakePort s

/-! ## DEEP and the release of lane groups (R417) -/

/-- A port goes DEEP from UP, SHALLOW or SIGNAL_WAIT; in the middle of bring-up it gives up first. -/
def State.deepen (s : State) (c : PortCfg) : State := if s.link c.num = 0 then s else s.linkDown c 7

/-- A port leaves DEEP, or DISABLED where it may (R417). -/
def State.undeepen (s : State) (c : PortCfg) : State :=
  if s.link c.num = 7 then s.setFld F.PORT_LINK_LINK_STATE c.lane0 1 else s.portEnable c

/-- What the port map says of a lane and its port, written into the registers of a chiplet (R400, R408, R503). -/
def State.laneFromMap (s : State) (lane : Nat) (x : LaneCfg) : State :=
  ((s.setFld F.LANE_CONFIG_MODE lane x.mode).setFlag F.LANE_CONFIG_TX_INVERT lane x.txInvert).setFld
    F.LANE_CONFIG_TX_ORDER lane x.txOrder

/-- The same of a port. LINK_ASYM is the cabling plan's (R254, R502). -/
def State.portFromMap (s : State) (c : PortCfg) : State :=
  ((s.setFld F.PORT_LINK_WIDTH c.lane0 c.widthCode).setFld F.PORT_LINK_MEDIUM c.lane0 c.medium).setReg .LINK_ASYM c.lane0
    (s.cable c.num).asym.toNat

/-- The registers of chiplets as the image gives them. -/
def State.lanesFromMap (s : State) (chiplets : List Nat) : State :=
  let s := s.image.lanes.zipIdx.foldl (fun s x =>
    if x.1.mode != 0 && chiplets.contains (x.2 / 32) then s.laneFromMap x.2 x.1 else s) s
  s.ports.foldl (fun s c => if chiplets.contains (c.lane0 / 32) then s.portFromMap c else s) s

/-- A lane group is released (R417, R487, R488). -/
def State.releaseGroup (s : State) (g : Nat) : State :=
  let s := { s with power := { s.power with groups := s.power.groups.filter (· != g) ++ [g] } }
  s.ports.foldl (fun s c => if c.group = g then s.undeepen c else s) s

end Sys2Proof.Machine
end

