-- ==== Sys2Proof/Machine/Memory.lean ====
section
/-! DEFINITION. The memory stacks: the interleave, the symbol codes on every line access, scrubbing, and what an
uncorrectable line leads to (spec/17_memory.md R419 to R439). -/
namespace Sys2Proof.Machine

open Sys2Proof

/-! ## Interleave (R420) -/

/-- Where a line lies: stack, channel, group and position in the group. -/
structure Place where
  stack : Nat
  channel : Nat
  group : Nat
  pos : Nat
  deriving DecidableEq, Repr

/-- The place of a memory address (R420). -/
def memPlace (ma : Nat) : Place :=
  let u := ma / 64
  let n := u / 4
  let gc := n % 640
  let v := n / 640 * 4 + u % 4
  { stack := gc % 20, channel := gc / 20, group := v / 15, pos := v % 15 }

/-- The physical line in the channel. -/
def Place.line (p : Place) : Nat := p.group * 16 + p.pos

/-- The line number MA / 64 of a data line by its place. -/
def Place.usable (p : Place) : Nat :=
  let v := p.group * 15 + p.pos
  (v / 4 * 640 + p.channel * 20 + p.stack) * 4 + v % 4

/-- Usable bytes of the device (R420). -/
def memBytes : Nat := 1932735283200

/-! ## Partitions (R429) -/

/-- The sizes of the partitions in MiB, in the order of R429; LANDING takes the rest. -/
def State.partSizes (s : State) : List Nat :=
  let fixed := [128, 4096, 2048, s.image.ringsGib * 1024, s.image.ledgerGib * 1024, s.image.errorGib * 1024]
  fixed ++ [1843200 - sumN fixed]

/-- The base of partition i in MiB. -/
def State.partBase (s : State) (i : Nat) : Nat := sumN (s.partSizes.take i)

/-- The partition of a memory address, by its order. -/
def State.partOf (s : State) (ma : Nat) : Nat :=
  ((List.range 7).find? fun i => decide (ma < (s.partBase i + nth s.partSizes i 0) * 2 ^ 20)).getD 6

/-! ## Reports (R438) -/

/-- The class of an uncorrectable line by its partition (R439): fatal-to-job for descriptors and error memory. -/
def partClass (part : Nat) : Nat := if part = 0 ∨ part = 5 then 2 else 1

/-- The address field of a check line, training or thermal report: stack, channel, physical line (R438). -/
def lineAddr (stack channel line : Nat) : Nat := stack + channel * 2 ^ 5 + line * 2 ^ 10

/-- Report a kind from a stack's controller. -/
def State.memReport (s : State) (stack kind address cls part : Nat) : State :=
  s.raiseMsg { faultMsg (stack / 5) blkMem stack kind address part with cls := BitVec.ofNat 2 cls }

/-- A symbol or a tag byte has been corrected (R424, R438). -/
def State.memCorrected (s : State) (p : Place) (address part : Nat) : State :=
  (s.bump F.MEM_ERRORS_CORRECTED p.stack).memReport p.stack 0x40 address 0 part

/-- An uncorrectable report: counted, and its address field kept (R438). `check` says that the address names a check
line. -/
def State.memUncorrectable (s : State) (p : Place) (kind address part : Nat) (check : Bool) : State :=
  let hi := b2n check * 2 ^ 30 + kind % 64 * 2 ^ 24 + address / 2 ^ 32 % 2 ^ 9
  let s := (s.bump F.MEM_ERRORS_UNCORRECTABLE p.stack).setReg .MEM_ERR_ADDR_LOW p.stack (address % 2 ^ 32)
  let high : List (Nat × Word) := s.memory.addrHigh.filter (fun x => x.1 != p.stack) ++ [(p.stack, BitVec.ofNat 32 hi)]
  let s := { s with memory := { s.memory with addrHigh := high } }
  s.memReport p.stack kind address (partClass part) part

/-! ## Consequences (R439) -/

/-- The jobs whose descriptor run holds a line of the descriptor partition (R106). -/
def State.descJobs (s : State) (ma : Nat) : List (BitVec 12) :=
  (s.jobs.filter fun j =>
    let holds (l : Layout) : Bool :=
      let n := l.plan.chunks * l.plan.depth
      decide (l.descBase * 32 < ma / 64 * 64 + 64) && decide (ma / 64 * 64 < (l.descBase + n) * 32)
    holds j.cur || (match j.next with | some l => holds l | none => false)).map (·.id)

/-- The jobs with a reservation over a line in a partition. -/
def State.regionJobs (s : State) (part ma : Nat) : List (BitVec 12) :=
  (s.jobs.filter fun j => j.regions.any fun r =>
    r.part == part && decide (r.base ≤ ma / 64 * 64) && decide (ma / 64 * 64 < r.base + r.bytes)).map (·.id)

/-- The shards that hold a line of the landing partition become CORRUPT (R439, R372). -/
def State.corruptShards (s : State) (ma : Nat) : State :=
  let line := ma / 64 * 64
  { s with landings := s.landings.map fun x => { x with
      shards := x.shards.map fun y =>
        if x.base + y.base < line + 64 ∧ line < x.base + y.base + y.bytes then { y with state := .corrupt } else y
      reads := x.reads.map fun o =>
        if x.base + o.shard.base < line + 64 ∧ line < x.base + o.shard.base + o.shard.bytes then
          { o with shard := { o.shard with state := .corrupt } } else o } }

/-- What an uncorrectable line of a partition leads to (R439). -/
def State.memConsequence (s : State) (ma : Nat) (use : MemUse) : State :=
  match s.partOf ma with
  | 0 => ((s.descJobs ma).foldl State.strand s).settleFree
  | 1 => match use with
    | .save job => s.mapJob job fun j => { j with save := j.save.map fun x => { x with memBad := true } }
    | _ => s
  | 2 => match use with
    | .frame fid =>
      let s := s.mapCore fun k => { k with copies := k.copies.map fun c =>
        if c.fid = fid && c.started then { c with markBad := some 2 } else c }
      s.dropCopies fun c => c.fid == fid && !c.started
    | _ => s
  | 4 => match use with
    | .digest job step => (s.abortStep job step 0x0006 none .own).settleFree
    | .sign job step =>
      { s.setFlag F.LEDGER_STATUS_SIGN_ERR 0 true with signQueue := s.signQueue.filter (· != some (job, step)) }
    | _ => s
  | 5 => ((s.regionJobs 5 ma).foldl State.strand s).settleFree
  | 6 => s.corruptShards ma
  | _ => s

/-- The line numbers of a group. -/
def groupLines (p : Place) : List Nat := (List.range 15).map fun i => ({ p with pos := i } : Place).usable

/-! ## The access (R423 to R426, R435) -/

/-- The codeword of a data line as it is read: data, check symbols (inverted where poisoned), errors (R423, R425). -/
def State.codeword (s : State) (line pos : Nat) (err checkErr : List (Nat × Byte)) : List Byte :=
  let data := s.readMem (line * 64) 64
  let chk := rsCheck 4 data
  let chk := if s.memory.poisoned.contains line then poisonCheck chk else chk
  let own := checkErr.filterMap fun e =>
    if 4 * pos ≤ e.1 ∧ e.1 < 4 * pos + 4 then some (e.1 - 4 * pos, e.2) else none
  withErrors data (err.filter fun e => decide (e.1 < 64)) ++ withErrors chk own

/-- Bytes in which the GROUP_TAG that a read meets differs from the expected one (R423, R424). -/
def tagErrors (p : Place) (checkErr : List (Nat × Byte)) : Nat :=
  let want := leBytes 4 (groupTag p.stack p.channel p.group).toNat
  let got := withErrors want (checkErr.filterMap fun e => if 60 ≤ e.1 ∧ e.1 < 64 then some (e.1 - 60, e.2) else none)
  ((want.zip got).filter fun x => x.1 != x.2).length

/-- The check line of a group is found in its channel's cache or brought into it, the least recently used of 256 going back
(R427). -/
def MemSt.useCheck (m : MemSt) (p : Place) (write : Bool) : MemSt :=
  let mine := m.checkCache.filter fun x => x.1 == p.stack && x.2.1 == p.channel
  let dirty := mine.any fun x => x.2.2.1 == p.group && x.2.2.2
  let kept := (mine.filter fun x => x.2.2.1 != p.group).take 255
  { m with checkCache := (p.stack, p.channel, p.group, write || dirty)
      :: (kept ++ m.checkCache.filter fun x => x.1 != p.stack || x.2.1 != p.channel) }

/-- An access reads or finds the check line of its group (R424, R427). -/
def State.useCheck (s : State) (p : Place) (write : Bool) : State := { s with memory := s.memory.useCheck p write }

/-- An access that refresh or scrubbing delayed is counted on its stack's die where it serves a frame, a fold or a
descriptor (R398, REPEAT_STATUS; log entry 45). -/
def State.countDelay (s : State) (a : MemAccess) : State :=
  let part := s.partOf a.ma
  let frame : Bool := match a.use with | .frame _ => true | _ => false
  let serves := part == 0 || part == 2 || part == 5 || (part == 6 && frame)
  if a.delayed && serves then s.bump F.REPEAT_STATUS_REFRESH_DELAYS ((memPlace a.ma).stack / 5) else s

/-- What the compare of GROUP_TAG gives (R424): fine or corrected, or a tag fault, which makes every line of the group
uncorrectable until the group is written whole. -/
def State.tagCheck (s : State) (p : Place) (checkErr : List (Nat × Byte)) (part : Nat) (use : MemUse) : Bool × State :=
  let addr := lineAddr p.stack p.channel (p.group * 16 + 15)
  let n := tagErrors p checkErr
  if s.memory.tagBad.contains (p.stack, p.channel, p.group) || decide (2 ≤ n) then
    let fresh := !s.memory.tagBad.contains (p.stack, p.channel, p.group)
    let s := { s with memory := { s.memory with
      tagBad := if fresh then s.memory.tagBad ++ [(p.stack, p.channel, p.group)] else s.memory.tagBad } }
    let s := s.memUncorrectable p 0x42 addr part true
    (false, (groupLines p).foldl (fun s l => s.memConsequence (l * 64) use) s)
  else if n = 1 then (true, s.memCorrected p addr part)
  else (true, s)

/-- Is an XOR pattern list empty of effect? -/
def noErrors (es : List (Nat × Byte)) : Bool := es.all fun e => e.2 == 0

/-- Read a data line through its decoder (R423 to R425): is it usable? -/
def State.lineRead (s : State) (line : Nat) (err checkErr : List (Nat × Byte)) (use : MemUse) : Bool × State :=
  let p := memPlace (line * 64)
  let part := s.partOf (line * 64)
  match s.tagCheck p checkErr part use with
  | (false, s) => (false, s)
  | (true, s) =>
    match rsDecode 4 (s.codeword line p.pos err checkErr) with
    | .clean => (true, s)
    | .corrected _ => (true, s.memCorrected p (line * 64) part)
    | .uncorrectable =>
      let poisoned := s.memory.poisoned.contains line
      let s := s.memUncorrectable p (if poisoned then 0x43 else 0x41) (line * 64) part false
      let s := if poisoned || s.memory.damaged.contains line then s
        else { s with memory := { s.memory with damaged := s.memory.damaged ++ [line] } }
      (false, s.memConsequence (line * 64) use)

/-- Poison a line (R425). -/
def State.poison (s : State) (line : Nat) : State :=
  { s with memory := { s.memory with
      poisoned := if s.memory.poisoned.contains line then s.memory.poisoned else s.memory.poisoned ++ [line]
      damaged := s.memory.damaged.filter (· != line) } }

/-- Replace the bytes of a line whose enable bit is 1. -/
def mergeBytes (enables : BitVec 64) (data old : List Byte) : List Byte :=
  (List.range 64).map fun i => if enables.getLsbD i then nth data i 0 else nth old i 0

/-- A write of part of a line reads it first; one whose old contents are uncorrectable poisons it (R425, R426). -/
def State.linePart (s : State) (line : Nat) (enables : BitVec 64) (data : List Byte) (err checkErr : List (Nat × Byte))
    (use : MemUse) : State :=
  let (ok, s) := s.lineRead line err checkErr use
  let old := s.readMem (line * 64) 64
  let bad := s.memory.poisoned.contains line
  let s := s.writeMem (line * 64) (mergeBytes enables data old)
  if ok && !bad then s else s.poison line

/-- A whole-group write: data, check line and tag afresh (R424, R426). -/
def State.groupWrite (s : State) (line : Nat) (data : List Byte) : State :=
  let p := memPlace (line * 64)
  let s := (groupLines p).zipIdx.foldl (fun s x => s.writeMem (x.1 * 64) (sliceB data (x.2 * 64) 64)) s
  { s with memory := { s.memory with tagBad := s.memory.tagBad.filter (· != (p.stack, p.channel, p.group)) } }

/-- Is a stack ready (R437)? -/
def State.stackReady (s : State) (stack : Nat) : Bool := s.fld F.MEM_STATUS_STATE stack == 3

/-- LPDDR_ACCESS (R426): one paced access of a controller. -/
def execLpddrAccess (a : MemAccess) (s : State) : Host.Outcome State Fault Refusal :=
  let line := a.ma / 64
  if memBytes ≤ a.ma ∨ !s.stackReady (memPlace a.ma).stack then .next s
  else
    let write : Bool := match a.what with | .read => false | _ => true
    let s := (s.countDelay a).useCheck (memPlace a.ma) write
    match a.what with
    | .read => .next (s.lineRead line a.err a.checkErr a.use).2
    | .write enables data =>
      if enables = BitVec.allOnes 64 then
        .next ((s.tagCheck (memPlace a.ma) a.checkErr (s.partOf a.ma) a.use).2.writeMem (line * 64) data.toList)
      else .next (s.linePart line enables data.toList a.err a.checkErr a.use)
    | .writeGroup data => .next (s.groupWrite line data)

/-- The lines a pass of the patrol reads in one stack (R420, R435). -/
def scrubTotal : Nat := 32 * 3145728 * 16

/-- One more line of the pass. -/
def State.scrubCount (s : State) (stack : Nat) : State :=
  let n := ((s.memory.scrubbed.find? fun x => x.1 == stack).map (·.2)).getD 0 + 1
  let s := { s with memory := { s.memory with
    scrubbed := s.memory.scrubbed.filter (fun x => x.1 != stack)
      ++ (if n < scrubTotal then [(stack, n)] else []) } }
  if n < scrubTotal then s
  else s.setFld F.MEM_STATUS_SCRUB_PASSES stack (s.fld F.MEM_STATUS_SCRUB_PASSES stack + 1)

/-- The patrol reads a check line: its tag is compared (R424, R435). -/
def State.scrubCheck (s : State) (p : Place) (checkErr : List (Nat × Byte)) : State :=
  (s.tagCheck p checkErr (s.partOf (({ p with pos := 0 } : Place).usable * 64)) .other).2

/-- SCRUB_LINE (R435): the patrol reads a physical line of a channel, writes corrections back and poisons a line it finds
uncorrectable. It reads only while the stack is active (R436). -/
def execScrubLine (stack channel line : Nat) (err checkErr : List (Nat × Byte)) (s : State) :
    Host.Outcome State Fault Refusal :=
  if 20 ≤ stack ∨ 32 ≤ channel ∨ 3145728 * 16 ≤ line ∨ !s.stackReady stack then .next s
  else
    let p : Place := { stack := stack, channel := channel, group := line / 16, pos := line % 16 }
    let s := s.useCheck p false
    if p.pos = 15 then .next ((s.scrubCheck p checkErr).scrubCount stack)
    else
      let (ok, s) := s.lineRead p.usable err checkErr .other
      .next ((if ok then s else s.poison p.usable).scrubCount stack)

/-! ## Temperature (R434) -/

/-- MR4_READING (R434): the highest temperature of the round, and the refresh rate it calls for. -/
def execMr4Reading (stack : Nat) (temp : BitVec 8) (rate : Nat) (s : State) : Host.Outcome State Fault Refusal :=
  if 20 ≤ stack ∨ !(s.stackReady stack || s.fld F.MEM_STATUS_STATE stack == 4) then .next s
  else
    let s := s.setFld F.MEM_STATUS_MAX_TEMP stack temp.toNat
    let s := { s with memory := { s.memory with
      refresh := s.memory.refresh.filter (fun x => x.1 != stack) ++ [(stack, rate)] } }
    if 105 < temp.toInt then
      .next ((s.setFlag F.MEM_STATUS_THERMAL stack true).memReport stack 0x45 (lineAddr stack 0 0) 1 0)
    else .next s

end Sys2Proof.Machine
end

