-- ==== Sys2Proof/Machine/Resets.lean ====
section
/-! DEFINITION. Reset domains: what each reset and each loss of power takes away, and the registers that the running image
fills (spec/23_register_map.md R550, R553, R554; 19_clocks.md R469; 20_power_states.md R477; 24_electrical.md R570 to
R582). -/
namespace Sys2Proof.Machine

open Sys2Proof

/-! ## Registers of a domain (R550, R553) -/

/-- The registers of the power-on domain. -/
def powerOnRegs : List Nat :=
  [regAddr .DEVICE_ID 0, regAddr .FR_WRITE_SEQ 0, regAddr .FR_COPY_SEQ 0] ++ (List.range 4).map (regAddr .MILL_ENABLE)

/-- Take the registers and array words of an address range back to their reset values, the power-on registers apart. -/
def State.clearRange (s : State) (lo hi : Nat) : State :=
  { s with regs := s.regs.filter fun e => !(decide (lo ≤ e.1) && decide (e.1 < hi)) || powerOnRegs.contains e.1
           arrays := s.arrays.filter fun e => !(decide (lo ≤ e.1) && decide (e.1 < hi)) }

/-- Registers of chiplet c. -/
def State.clearChiplet (s : State) (c : Nat) : State :=
  s.clearRange (0x20000000 + c * 0x00100000) (0x20000000 + (c + 1) * 0x00100000)

/-- Registers of memory stack k. -/
def State.clearStack (s : State) (k : Nat) : State :=
  s.clearRange (0x30000000 + k * 0x00100000) (0x30000000 + (k + 1) * 0x00100000)

/-- Registers of fabric die d. -/
def State.clearDie (s : State) (d : Nat) : State :=
  s.clearRange (0x10000000 + d * 0x04000000) (0x10000000 + (d + 1) * 0x04000000)

/-! ## What the image fills (R220, R267, R273, R278, R294, R504) -/

/-- The registers of a fabric die that hold what the image says. -/
def State.dieFromImage (s : State) (d : Nat) : State :=
  let im := s.image
  let p := im.policies
  let w (i : Nat) : Nat := nth p.weights i 16
  let s := s.setReg .VC_WEIGHTS_LOW d (pack [(8, w 3), (8, w 2), (8, w 1), (8, w 0)])
  let s := s.setReg .VC_WEIGHTS_HIGH d (pack [(8, w 7), (8, w 6), (8, w 5), (8, w 4)])
  let s := (((s.setFld F.SWITCH_POSITION_TIER d im.tier).setFld F.SWITCH_POSITION_CHILD_SHIFT d im.childShift).setFld
    F.SWITCH_POSITION_CHILD_BITS d im.childBits).setFld F.SWITCH_POSITION_POSITION d im.position
  let s := (s.setFld F.ROUTE_CONTROL_OBLIVIOUS d p.oblivious).setFld F.ROUTE_CONTROL_MAX_FRAME_AGE d p.maxFrameAge
  (s.ports.filter fun c => dieOf c.num == d).foldl (fun s c =>
    s.setFld F.PORT_BUFFER_HEADROOM_CELLS c.num (s.headroomField c.num)) s

/-! ## Resets (R469, R553, R554) -/

/-- Force islands to input 0 (R469). -/
def State.islandsReset (s : State) (is : List Nat) : State := is.foldl (fun s i => s.setReg .ISLAND_CLOCK i 0) s

/-- Reset of the lane-chiplet domains of some chiplets: their ports are lost, and the port map is written again. -/
def State.chipletsReset (s : State) (cs : List Nat) : State :=
  let s := s.ports.foldl (fun s c => if cs.contains (c.lane0 / 32) then s.linkDown c 0 else s) s
  (cs.foldl State.clearChiplet s).lanesFromMap cs

/-- The stacks of a fabric die. -/
def stacksOf (d : Nat) : List Nat := (List.range 5).map (5 * d + ·)

/-- The chiplets of a fabric die. -/
def chipletsOf (d : Nat) : List Nat := (List.range 8).map (8 * d + ·)

/-- The packet buffer, schedulers and records of a die that its SRAM held. -/
def State.dropDieCore (s : State) (d : Nat) : State :=
  let s := s.dropCopies fun c => c.die == d || (match c.dest with
    | .port p => dieOf p == d
    | .mill k => k == d
    | .firmware => false
    | .bridge k => k == d)
  let s := s.mapCore fun k => { k with
    held := k.held.filter fun h => h.die != d
    drr := k.drr.filter fun x => dieOf x.port != d
    shapers := k.shapers.filter fun x => x.die != d
    gates := k.gates.filter fun x => x.die != d
    pauses := k.pauses.filter fun x => dieOf x.port != d
    samples := k.samples.filter fun x => x.die != d
    sweeping := k.sweeping.filter (· != d)
    compacting := k.compacting.filter fun x => x.mill / 32 != d
    wire := k.wire.filter (fun x => dieOf x.1 != d), pcs := k.pcs.filter fun x => dieOf x.port != d
    uses := k.uses.filter fun x => x.1 != d
    backlog := k.backlog.filter fun x => x.1.die != d }
  { s with
    ctxs := s.ctxs.filter fun x => x.2.mill / 32 != d
    descCache := s.descCache.filter fun x => x.1 != d
    dieTables := s.dieTables.filter fun t => t.die != d
    mcs := s.mcs.filter fun m => m.die != d
    jobs := s.jobs.map fun (j : Job) => { j with bells := j.bells.filter fun x => j.cur.bellDie x.bell != d } }

/-- HALTED is left once every fabric die has been reset since HALT was applied (R452, R554). -/
def State.haltDie (s : State) (d : Nat) : State :=
  if !s.flag F.WT_STATUS_HALTED 0 then s
  else
    let r := s.power.haltReset.filter (· != d) ++ [d]
    let s := { s with power := { s.power with haltReset := r } }
    if r.length = 4 then s.setFlag F.WT_STATUS_HALTED 0 false else s

/-- The stacks of a die are in self-refresh, their contents kept, until their controllers' PLLs lock again (R554). -/
def State.stacksHold (s : State) (d : Nat) : State :=
  (stacksOf d).foldl (fun s k =>
    let st := s.fld F.MEM_STATUS_STATE k
    (s.clearStack k).setFld F.MEM_STATUS_STATE k (if st = 3 ∨ st = 4 then 4 else 0)) s

/-- The high address words of a die's stacks go with their registers (R561). -/
def State.dropAddrHigh (s : State) (d : Nat) : State :=
  { s with memory := { s.memory with addrHigh := s.memory.addrHigh.filter fun x => x.1 / 5 != d } }

/-- A die takes the routing registers that every die holds alike from another die that is powered, if one is (chapter 10,
registers; DESIGN CHOICE, log entry 27). -/
def State.routeRegsFrom (s : State) (d : Nat) : State :=
  match (s.power.dies.filter (· != d)).head? with
  | none => s
  | some e => [RegName.ROUTE_CONTROL, .ROUTE_DISCARDS, .EPOCH_DISCARDS].foldl (fun s n => s.setReg n d (s.reg n e)) s

/-- Reset of fabric-die domain d with its stacks and chiplets (R553, R554): the jobs of the switch are stranded, forwarding
stops until R19 holds again, and the lane groups wait for their release. -/
def State.dieReset (s : State) (d : Nat) : State :=
  let s := s.chipletsReset (chipletsOf d)
  let s := (s.jobs.map (·.id)).foldl State.strand s
  let s := ((s.dropDieCore d).mapCore fun k => { k with forwarding := false }).stacksHold d
  let s := ((s.clearDie d).dropAddrHigh d).islandsReset ((1 + d) :: (stacksOf d).map (5 + ·))
  let s := (List.range 4).foldl (fun s p =>
    if p = d then s else s.setFld F.BRIDGE_STATUS_BRIDGE_UP p
      (s.fld F.BRIDGE_STATUS_BRIDGE_UP p &&& (15 - 2 ^ d))) s
  let gs := [2 * d, 2 * d + 1]
  let s := { s with power := { s.power with
    groups := s.power.groups.filter fun g => !gs.contains g
    deadBridges := s.power.deadBridges.filter fun b => b.1 != d && b.2 != d
    release := s.power.release.filter (fun u => !(gs.map PowerUnit.laneGroup).contains u) ++ gs.map PowerUnit.laneGroup } }
  ((s.dieFromImage d).routeRegsFrom d).haltDie d

/-- Reset of the control-die domain (R463, R553): its registers, the queue of the watchtower, the companion link, the
update unit and the signing engine start over. HALTED keeps its value (R554), and so do messages that other dies hold. -/
def State.controlReset (s : State) : State :=
  let h := s.flag F.WT_STATUS_HALTED 0
  let s := (s.clearRange 0 0x01000000).setFlag F.WT_STATUS_HALTED 0 h
  { s with
    wt := { s.wt with
      held := s.wt.held.filter fun m => m.die != 4
      queue := []
      forcedHold := []
      nextSeq := BitVec.ofNat 32 (s.reg .FR_WRITE_SEQ 0 % 0xFFFFFFFF + 1) }
    host := HostSt.down
    signQueue := []
    upd := { buf := [], ops := [] }
    ringQueue := []
    boot := { s.boot with report := [] }
    power := { s.power with core := false, fw := false } }

/-! ## Loss of power (R477, R493, R570, R572, R574, R582) -/

/-- Every domain outside the keep is off or held in reset: only the keep, the power-on registers, the retention die and the
flash keep what they hold. -/
def State.allOff (s : State) : State :=
  { State.reset with
    regs := s.regs.filter fun e => (decide (0x01000000 ≤ e.1) && decide (e.1 < 0x01010000)) || powerOnRegs.contains e.1
    wt := { WtSt.fresh with
      ring := s.wt.ring, waiting := s.wt.waiting, copied := s.wt.copied, logPage := s.wt.logPage
      nextSeq := BitVec.ofNat 32 (((s.wt.ring.getLast?).map fun e => e.seq.toNat).getD 0 % 0xFFFFFFFF + 1) }
    retained := s.retained
    power := { PowerSt.fresh with
      pins := s.power.pins, saveArea := s.power.saveArea, sagArea := s.power.sagArea, afterSag := s.power.afterSag
      sagHold := s.power.sagHold, serviced := s.power.serviced }
    flash := s.flash
    boot := { BootSt.fresh with copyA := s.boot.copyA, copyB := s.boot.copyB }
    smb := s.smb
    freeCount := s.freeCount
    pending := s.pending }

/-- A fresh application of VKEEP to every domain (R553, R570, R574): the straps are sampled, CORE_PWR_EN rises; the
retention die and the flash keep their contents. -/
def State.coldReset (s : State) (straps : BitVec 2) : State :=
  let s := { s with power := { s.power with afterSag := false, sagHold := s.power.sagHold, serviced := true } }
  let s := s.allOff
  let s := { s with
    regs := []
    smb := { addr := 0, value := 0, fetching := false }
    power := { s.power with pins := { s.power.pins with corePwrEn := true, pwrgd := false, thermtripN := true } } }
  s.setFld F.SMB_CONFIG_ADDRESS 0 (0x4C + straps.toNat)

end Sys2Proof.Machine
end

