-- ==== Sys2Proof/Machine/Operands.lean ====
section
/-! DEFINITION. The operand forms of the host commands: the entry of the command ring (R542), and the plan file with its
structure and field ranges (spec/08_job_plans.md R222 to R232). -/
namespace Sys2Proof.Machine

open Sys2Proof

/-! ## Command entries (R542) -/

/-- OPCODE of a command entry. -/
def cmdOpcode (e : List Byte) : Nat := leAt e 0 2
/-- JOB_ID. -/
def cmdJob (e : List Byte) : BitVec 12 := BitVec.ofNat 12 (leAt e 2 2 / 16)
/-- LAYOUT_GEN. -/
def cmdGen (e : List Byte) : BitVec 4 := BitVec.ofNat 4 (leAt e 2 2)
/-- COMMAND_ID. -/
def cmdId (e : List Byte) : Nat := leAt e 4 4
/-- BUF_OFFSET. -/
def cmdBuf (e : List Byte) : Nat := leAt e 8 8
/-- BUF_BYTES. -/
def cmdLen (e : List Byte) : Nat := leAt e 16 8
/-- STEP. -/
def cmdStep (e : List Byte) : BitVec 32 := BitVec.ofNat 32 (leAt e 24 4)
/-- SLOT. -/
def cmdSlot (e : List Byte) : Nat := leAt e 28 1
/-- KEEP_LANDING. -/
def cmdKeep (e : List Byte) : Bool := bitOf (leAt e 29 1) 0
/-- ENTRIES. -/
def cmdEntries (e : List Byte) : Bool := bitOf (leAt e 29 1) 1
/-- OWNER_GEN. -/
def cmdOwner (e : List Byte) : BitVec 4 := BitVec.ofNat 4 (leAt e 30 1)
/-- IMAGE_OFFSET. -/
def cmdImgOff (e : List Byte) : Nat := leAt e 32 8
/-- IMAGE_BYTES. -/
def cmdImgLen (e : List Byte) : Nat := leAt e 40 8
/-- DATA_POS. -/
def cmdDataPos (e : List Byte) : List Byte := sliceB e 64 64

/-! ## Records of a plan file (R222) -/

/-- A record: its ordinal, RTYPE, bytes 2–3 and body. -/
structure PlanRec where
  ord : Nat
  rtype : Nat
  pad : Nat
  body : List Byte
  deriving DecidableEq, Repr

/-- Cut a file into records, at most n; the ordinal of a record whose RLEN is not a multiple of 8, is below 8 or runs past
the end of the file (R222). -/
def cutRecs : Nat → Nat → List Byte → List PlanRec × Option Nat
  | 0, _, _ => ([], none)
  | n + 1, i, bs =>
    if bs.isEmpty then ([], none)
    else
      let len := leAt bs 4 4
      if bs.length < 8 ∨ len < 8 ∨ len % 8 ≠ 0 ∨ bs.length < len then ([], some i)
      else
        let r := cutRecs n (i + 1) (bs.drop len)
        ({ ord := i, rtype := leAt bs 0 2, pad := leAt bs 2 2, body := (bs.drop 8).take (len - 8) } :: r.1, r.2)

/-- The records after the file header. -/
def planRecs (bs : List Byte) : List PlanRec × Option Nat := cutRecs bs.length 0 (bs.drop 64)

/-- A body of n bytes padded with zeros (R222). -/
def PlanRec.exactly (r : PlanRec) (n : Nat) : Bool := r.body.length == roundUp n 8 && allZero (r.body.drop n)

/-- Are bytes off to off + n − 1 zero? -/
def PlanRec.zeroAt (r : PlanRec) (off n : Nat) : Bool := leAt r.body off n == 0

/-- Entry i of width w from an offset. -/
def PlanRec.entry (r : PlanRec) (off w i : Nat) : List Byte := sliceB r.body (off + i * w) w

/-! ## The file header (R223) -/

/-- The numbers of the file header that bound its records. -/
structure PlanHead where
  chunks : Nat
  members : Nat
  switches : Nat
  shape : Nat
  deriving DecidableEq, Repr

/-- Read them. -/
def planHead (bs : List Byte) : PlanHead :=
  { chunks := leAt bs 12 4, members := leAt bs 16 4, switches := leAt bs 20 2, shape := leAt bs 30 1 }

/-- Is the file header well formed: MAGIC, FORMAT_VERSION, every range of R223 and RECORDS? -/
def planHeadOk (bs : List Byte) (recs : List PlanRec × Option Nat) : Bool :=
  let h := planHead bs
  decide (64 ≤ bs.length) && sliceB bs 0 4 == [0x4B, 0x50, 0x4C, 0x4E] && leAt bs 4 2 == 1
    && decide (1 ≤ h.chunks ∧ h.chunks ≤ 4194304) && decide (1 ≤ h.members ∧ h.members ≤ 262144)
    && decide (1 ≤ h.switches ∧ h.switches ≤ 4096) && decide (leAt bs 22 2 < h.switches)
    && decide (1 ≤ leAt bs 24 1 ∧ leAt bs 24 1 ≤ 16) && decide (leAt bs 25 1 ≤ 1)
    && decide (1 ≤ leAt bs 26 2 ∧ leAt bs 26 2 ≤ 4096) && decide (1 ≤ leAt bs 28 2 ∧ leAt bs 28 2 ≤ 4096)
    && decide (h.shape ≤ 2) && leAt bs 31 1 == 0 && leAt bs 40 24 == 0
    && (recs.2.isSome || leAt bs 32 4 == recs.1.length)

/-! ## Bodies (R225 to R232) -/

/-- Bytes of one chunk's result in its output format (R68 to R70, R194). -/
def encodedBytes (f : Fmt) (n : Nat) : Nat := if f.isBlock then ceilDiv n 32 * f.record else n * f.width

/-- May a coordinate be an endpoint's (R31)? -/
def coordOk (c : Nat) : Bool := c != 0x3FFFFF

/-- TORUS (R226). -/
def torusOk (r : PlanRec) : Bool :=
  r.exactly 40 && (List.range 5).all fun a =>
    let e := r.entry 0 8 a
    decide (leAt e 5 1 ≤ 1) && leAt e 6 2 == 0

/-- MEMBER (R227). -/
def memberOk (h : PlanHead) (r : PlanRec) : Bool :=
  r.exactly (24 * h.members) && (List.range h.members).all fun i =>
    let e := r.entry 0 24 i
    leAt e 0 4 == i && coordOk (leAt e 4 4 % 2 ^ 22) && leAt e 22 2 == 0

/-- SPARE (R227). -/
def spareOk (r : PlanRec) : Bool :=
  (List.range (r.body.length / 8)).all fun i => coordOk (leAt (r.entry 0 8 i) 0 4 % 2 ^ 22)

/-- SWITCH (R228, R235): one entry per switch, one of them this switch's. -/
def switchOk (h : PlanHead) (own : BitVec 24) (r : PlanRec) : Bool :=
  r.exactly (16 * h.switches)
    && ((List.range h.switches).all fun i =>
      let e := r.entry 0 16 i
      leAt e 0 2 == i && decide (leAt e 2 1 ≤ h.shape) && decide (leAt e 3 1 < 8) && leAt e 8 4 % 128 == 0
        && leAt e 12 4 == 0)
    && (List.range h.switches).any fun i => leAt (r.entry 0 16 i) 4 4 == own.toNat

/-- POLICY (R231, R267, R269). -/
def policyOk (r : PlanRec) : Bool :=
  let a := leAt r.body 0 4
  let b := leAt r.body 4 4
  let c := leAt r.body 8 4
  r.exactly 16 && decide (100 ≤ a ∧ a ≤ 1000000) && decide (1000 ≤ b ∧ b ≤ 16000000)
    && decide (100000 ≤ c ∧ c ≤ 4000000000) && decide (a < b ∧ b < c) && decide (leAt r.body 12 1 ≤ 1)
    && r.zeroAt 13 3

/-- Are n u32 ranks from an offset members? -/
def ranksOk (h : PlanHead) (r : PlanRec) (off w n : Nat) : Bool :=
  (List.range n).all fun i => decide (leAt (r.entry off w i) 0 4 < h.members)

/-- GROUP (R229). -/
def groupOk (h : PlanHead) (r : PlanRec) : Bool :=
  let g := leAt r.body 12 4
  decide (1 ≤ g ∧ g * 4 ≤ r.body.length) && r.exactly (16 + 4 * g) && decide (leAt r.body 2 1 ≤ 5) && r.zeroAt 3 1
    && decide (leAt r.body 4 2 < h.switches) && r.zeroAt 6 2 && ranksOk h r 16 4 g

/-- The range of chunks of a BUCKET record. -/
def bucketRange (r : PlanRec) : Nat × Nat := (leAt r.body 4 4, leAt r.body 8 4)

/-- Do two ranges share a chunk? -/
def rangesMeet (a b : Nat × Nat) : Bool := decide (a.1 < b.1 + b.2) && decide (b.1 < a.1 + a.2)

/-- The settings of a BUCKET record (R93, R134, R170, R194, R230), for a group of g members. -/
def bucketOk (g : Nat) (r : PlanRec) : Bool :=
  let b := r.body
  let elems := leAt b 12 2
  let flags := leAt b 16 1
  let rate := leAt b 48 4
  r.exactly (64 + 8 * g) && decide (1 ≤ leAt b 8 4) && decide (1 ≤ elems ∧ elems ≤ 4096)
    && (fmtOf (leAt b 14 1)).isSome
    && (match fmtOf (leAt b 15 1) with
        | some o => o.isOutput && leAt b 52 4 % 64 == 0 && decide (encodedBytes o elems ≤ leAt b 52 4)
        | none => false)
    && decide (leAt b 17 1 ≤ 2) && decide (leAt b 18 1 ≤ 127) && decide (1 ≤ leAt b 19 1 ∧ leAt b 19 1 ≤ 16)
    && decide (leAt b 20 1 ≤ 15) && r.zeroAt 21 1 && leAt b 22 2 != 0x8000
    && (if bitOf flags 4 then decide (1 ≤ rate ∧ rate ≤ 2500) else rate == 0)
    && (!bitOf flags 7 || decide (1 ≤ leAt b 60 4))
    && (List.range g).all fun i => leAt b (64 + 8 * i) 8 % 64 == 0

/-- MCSET (R201, R231). -/
def mcsetOk (h : PlanHead) (r : PlanRec) : Bool :=
  let n := leAt r.body 16 4
  let m := leAt r.body 20 4
  let off := 32 + roundUp (4 * n) 8
  decide (n * 4 ≤ r.body.length ∧ m * 16 ≤ r.body.length) && r.exactly (off + 16 * m) && decide (leAt r.body 0 2 ≤ 4095)
    && r.zeroAt 2 2 && decide (leAt r.body 4 2 < h.switches) && r.zeroAt 6 2
    && decide (1 ≤ leAt r.body 8 8 ∧ leAt r.body 8 8 ≤ 2 ^ 52) && r.zeroAt 28 4
    && ranksOk h r 32 4 n && r.zeroAt (32 + 4 * n) (off - 32 - 4 * n) && ranksOk h r off 16 m
    && (List.range m).all fun i => leAt (r.entry off 16 i) 4 4 == 0

/-- DISPATCH (R208, R231). -/
def dispatchOk (h : PlanHead) (r : PlanRec) : Bool :=
  let n := leAt r.body 4 4
  let m := leAt r.body 8 4
  let off := 24 + roundUp (4 * n) 8
  decide (1 ≤ n ∧ n ≤ 65536) && decide (1 ≤ m ∧ m ≤ 65536) && r.exactly (off + 32 * m) && decide (leAt r.body 0 2 ≤ 4095)
    && decide (leAt r.body 2 1 ≤ 1) && decide (1 ≤ leAt r.body 3 1 ∧ leAt r.body 3 1 ≤ 16)
    && decide (1 ≤ leAt r.body 12 2 ∧ leAt r.body 12 2 ≤ 256) && decide (1 ≤ leAt r.body 14 2 ∧ leAt r.body 14 2 ≤ 16384)
    && decide (64 ≤ leAt r.body 16 2 ∧ leAt r.body 16 2 ≤ 12288) && leAt r.body 16 2 % 64 == 0 && r.zeroAt 18 6
    && ranksOk h r 24 4 n && r.zeroAt (24 + 4 * n) (off - 24 - 4 * n) && ranksOk h r off 32 m
    && (List.range m).all fun i =>
      let e := r.entry off 32 i
      leAt e 4 4 == 0 && leAt e 8 8 % 64 == 0 && leAt e 16 8 % 64 == 0 && leAt e 24 8 % 64 == 0

/-- RESERVE (R232). -/
def reserveOk (h : PlanHead) (r : PlanRec) : Bool :=
  r.exactly 32 && decide (leAt r.body 0 2 < h.switches) && r.zeroAt 28 4

/-- SIGNATURE (R225). -/
def signatureOk (r : PlanRec) : Bool := r.body.length == 4640 && leAt r.body 0 2 == 1 && r.zeroAt 4 4 && r.zeroAt 4635 5

/-- Which record types a plan has, and whether one may come more than once (R224). -/
def rtypeMany : Nat → Option Bool
  | 0x0001 | 0x0002 | 0x0003 | 0x0004 | 0x0005 | 0x00FF => some false
  | 0x0010 | 0x0020 | 0x0030 | 0x0031 | 0x0040 => some true
  | _ => none

/-- The index of a record of a repeated type: GROUP, BUCKET, SET or SWITCH. -/
def PlanRec.index (r : PlanRec) : Nat := leAt r.body 0 2

/-- SIZE of a group among the records. -/
def groupSize (before : List PlanRec) (g : Nat) : Option Nat :=
  (before.find? fun r => r.rtype == 0x10 && r.index == g).map fun r => leAt r.body 12 4

/-- Is a record well formed, given those before it and whether it is the last of its type (R222, R224, R236)? -/
def recOk (h : PlanHead) (own : BitVec 24) (before : List PlanRec) (lastOfType : Bool) (r : PlanRec) : Bool :=
  let ordered :=
    match before.getLast? with
    | none => true
    | some q => decide (q.rtype < r.rtype) || (q.rtype == r.rtype && rtypeMany r.rtype == some true && decide (q.index < r.index))
  r.pad == 0 && (rtypeMany r.rtype).isSome && ordered
    && (match r.rtype with
        | 0x01 => torusOk r
        | 0x02 => memberOk h r
        | 0x03 => spareOk r
        | 0x04 => switchOk h own r
        | 0x05 => policyOk r
        | 0x10 => groupOk h r
        | 0x20 =>
          let bs := before.filter fun q => q.rtype == 0x20
          let x := bucketRange r
          (match groupSize before (leAt r.body 2 2) with | some g => bucketOk g r | none => false)
            && decide (x.1 + x.2 ≤ h.chunks) && !(bs.any fun q => rangesMeet (bucketRange q) x)
            && (!lastOfType || sumN (bs.map fun q => (bucketRange q).2) + x.2 == h.chunks)
        | 0x30 => mcsetOk h r
        | 0x31 => dispatchOk h r && !(before.any fun q => q.rtype == 0x30 && q.index == r.index)
        | 0x40 => reserveOk h r
        | _ => signatureOk r)

/-- The ordinal of the first record that is not well formed. -/
def firstBad (h : PlanHead) (own : BitVec 24) : List PlanRec → List PlanRec → Option Nat
  | _, [] => none
  | before, r :: t =>
    let last := !(t.any fun q => q.rtype == r.rtype)
    if recOk h own before last r then firstBad h own (before ++ [r]) t else some r.ord

/-- Is a required record missing (R224, R236)? -/
def recsMissing (h : PlanHead) (rs : List PlanRec) : Bool :=
  [0x01, 0x02, 0x04, 0x05, 0x10, 0x20, 0xFF].any (fun t => !(rs.any fun r => r.rtype == t))
    || (rs.filter fun r => r.rtype == 0x40).length != h.switches

/-- The first fault of a file's structure and field ranges, as the DETAIL of BAD_FORMAT (R236 step 2). -/
def planFault (own : BitVec 24) (bs : List Byte) : Option Nat :=
  let recs := planRecs bs
  let h := planHead bs
  if !planHeadOk bs recs then some 0xFFFFFFFF
  else
    match firstBad h own [] recs.1 with
    | some i => some i
    | none =>
      match recs.2 with
      | some i => some i
      | none => if recsMissing h recs.1 then some 0xFFFFFFFF else none

/-! ## The parsed plan -/

/-- The first record of a type, or an empty one. -/
def recOf (rs : List PlanRec) (t : Nat) : PlanRec := (rs.find? fun r => r.rtype == t).getD ⟨0, t, 0, []⟩

/-- The format of a code in a file already checked. -/
def fmtIn (n : Nat) : Fmt := (fmtOf n).getD .bf16

/-- A BUCKET record (R230). -/
def bucketOf (g : Nat) (r : PlanRec) : PlanBucket :=
  let b := r.body
  let fl := leAt b 16 1
  { id := leAt b 0 2, group := leAt b 2 2, first := leAt b 4 4, k := leAt b 8 4, elems := leAt b 12 2,
    fmt := fmtIn (leAt b 14 1), out := fmtIn (leAt b 15 1), ftzIn := bitOf fl 0, ftzOut := bitOf fl 1,
    stoch := bitOf fl 2, fast := bitOf fl 3, compress := bitOf fl 4, resFp32 := bitOf fl 5, scatter := bitOf fl 6,
    tally := bitOf fl 7, scaleMode := leAt b 17 1, scaleShift := leAt b 18 1, anchorWindow := leAt b 19 1,
    anchorMargin := leAt b 20 1, initialAnchor := toSigned 16 (leAt b 22 2), scaleMant := leAt b 24 8,
    checkSeed := BitVec.ofNat 64 (leAt b 32 8), roundSeed := BitVec.ofNat 64 (leAt b 40 8), errRate := leAt b 48 4,
    stride := leAt b 52 4, tallyExp := toSigned 16 (leAt b 56 2), openCap := leAt b 58 2, tallyBatch := leAt b 60 4,
    bases := (List.range g).map fun i => leAt b (64 + 8 * i) 8,
    tag := (sha3 (sliceB b 4 60)).take 8 }

/-- n u32 values from an offset. -/
def PlanRec.words (r : PlanRec) (off n : Nat) : List Nat := (List.range n).map fun i => leAt r.body (off + 4 * i) 4

/-- A GROUP record (R229). -/
def groupOf (r : PlanRec) : PlanGroup :=
  let b := r.body
  { id := leAt b 0 2, axis := leAt b 2 1, releaser := leAt b 4 2, minSurvivors := leAt b 8 4,
    ranks := r.words 16 (leAt b 12 4) }

/-- An MCSET record (R231). -/
def mcsetOf (r : PlanRec) : PlanMcSet :=
  let b := r.body
  let n := leAt b 16 4
  let off := 32 + roundUp (4 * n) 8
  { id := leAt b 0 2, apex := leAt b 4 2, setBytes := leAt b 8 8, mcRecords := leAt b 24 4, sources := r.words 32 n,
    recvs := (List.range (leAt b 20 4)).map fun i => (leAt b (off + 16 * i) 4, leAt b (off + 16 * i + 8) 8) }

/-- A DISPATCH record (R231). -/
def dispatchOf (r : PlanRec) : PlanDispatch :=
  let b := r.body
  let n := leAt b 4 4
  let off := 24 + roundUp (4 * n) 8
  { id := leAt b 0 2, second := bitOf (leAt b 2 1) 0, window := leAt b 3 1, experts := leAt b 12 2, cap := leAt b 14 2,
    tokenBytes := leAt b 16 2, sources := r.words 24 n,
    dests := (List.range (leAt b 8 4)).map fun i =>
      let e := sliceB b (off + 32 * i) 32
      { rank := leAt e 0 4, buf := leAt e 8 8, map := leAt e 16 8, doneAddr := leAt e 24 8 } }

/-- A RESERVE record (R232). -/
def reserveOf (r : PlanRec) : PlanReserve :=
  let b := r.body
  { sw := leAt b 0 2, bells := leAt b 2 2, accUnits := leAt b 4 4, arrivalLines := leAt b 8 4, completion := leAt b 12 4,
    landingBytes := leAt b 16 8, landingRate := leAt b 24 4 }

/-- PLAN_DIGEST (R225): SHA3-512 over every byte before the SIGNATURE record. -/
def planDigest (bs : List Byte) : List Byte := sha3 (bs.take (bs.length - 4648))

/-- The flat ID that a SWITCH entry's FLAT_ID names (R228): a value of more than 24 bits names no switch, and is held as 0xFF_FFFF,
which names none either (R32). -/
def planFlat (v : Nat) : BitVec 24 := if v < 2 ^ 24 then BitVec.ofNat 24 v else 0xFFFFFF

/-- The plan of a file that has passed the checks of R236 step 2. -/
def parsePlan (bs : List Byte) : Plan :=
  let rs := (planRecs bs).1
  let of (t : Nat) := rs.filter fun r => r.rtype == t
  let m := recOf rs 0x02
  let sp := recOf rs 0x03
  let sw := recOf rs 0x04
  let po := recOf rs 0x05
  let to_ := recOf rs 0x01
  let h := planHead bs
  { job := BitVec.ofNat 12 (leAt bs 6 2 / 16), gen := BitVec.ofNat 4 (leAt bs 6 2), firstStep := BitVec.ofNat 32 (leAt bs 8 4),
    chunks := h.chunks, stepRoot := leAt bs 22 2, depth := leAt bs 24 1, reshard := leAt bs 25 1 == 1,
    ledgerDepth := leAt bs 26 2, entryDepth := leAt bs 28 2, shape := h.shape,
    axes := (List.range 5).map fun a =>
      let e := to_.entry 0 8 a
      { size := leAt e 0 4, order := leAt e 4 1, close := bitOf (leAt e 5 1) 0 },
    members := (List.range h.members).map fun i =>
      let e := m.entry 0 24 i
      { coord := BitVec.ofNat 24 (leAt e 4 4 % 2 ^ 22), flat := BitVec.ofNat 24 (leAt e 8 4) },
    spares := (List.range (sp.body.length / 8)).map fun i =>
      let e := sp.entry 0 8 i
      (BitVec.ofNat 24 (leAt e 0 4 % 2 ^ 22), BitVec.ofNat 24 (leAt e 4 4)),
    switches := (List.range h.switches).map fun i =>
      let e := sw.entry 0 16 i
      { index := i, tier := leAt e 2 1, role := leAt e 3 1, flat := planFlat (leAt e 4 4),
        position := leAt e 8 4 % 2 ^ 22 / 128 },
    policy := { stragglerUs := leAt po.body 0 4, fenceUs := leAt po.body 4 4, stepUs := leAt po.body 8 4,
                wait := leAt po.body 12 1 == 1 },
    groups := (of 0x10).map groupOf,
    buckets := (of 0x20).map fun r => bucketOf ((groupSize rs (leAt r.body 2 2)).getD 0) r,
    mcsets := (of 0x30).map mcsetOf, dsets := (of 0x31).map dispatchOf, reserves := (of 0x40).map reserveOf,
    digest := planDigest bs }

/-! ## The plan rules that the plan alone decides (R236 step 4) -/

/-- Do the torus and the members' axis coordinates agree (R226)? `m` is the MEMBER record. -/
def torusRule (p : Plan) (m : PlanRec) : Bool :=
  let sizes := p.axes.map (·.size)
  let weight (o : Nat) : Nat := ((p.axes.filter fun a => a.order < o).map (·.size)).foldl (· * ·) 1
  sizes.foldl (· * ·) 1 == p.members.length
    && (List.range 5).all (fun o => p.axes.any fun a => a.order == o)
    && (List.range p.members.length).all fun r =>
      let e := m.entry 0 24 r
      let cs := (List.range 5).map fun a => leAt e (12 + 2 * a) 2
      (cs.zip p.axes).all (fun x => decide (x.1 < x.2.size))
        && sumN ((cs.zip p.axes).map fun x => x.1 * weight x.2.order) == r

/-- Is a switch of the plan an ancestor of a member (R276)? -/
def Plan.ancestor (p : Plan) (sw rank : Nat) : Bool :=
  match p.sw? sw with | some w => p.above w (p.coordOf rank) | none => false

/-- Does a group's releaser lie above every member, each with a leaf whose climb reaches it (R237, R276)? -/
def Plan.releaserOk (p : Plan) (g : PlanGroup) : Bool :=
  match p.sw? g.releaser with
  | none => false
  | some rel => g.ranks.all fun r =>
      p.ancestor g.releaser r
        && match p.leafSw r with | some w => (p.climb rel 3 w).contains rel.index | none => false

/-- How many switches a group's contributions pass through. -/
def Plan.span (p : Plan) (g : PlanGroup) : Nat := (p.switches.filter fun w => p.includes g w.index).length

/-- The lowest DETAIL among records that break a rule. -/
def leastOf (xs : List Nat) : Option Nat := xs.foldl (fun a x => match a with | none => some x | some y => some (min x y)) none

/-- The first plan rule that a plan breaks: (CODE, DETAIL) (R237). `single` is the single-size mode; `mixed` says whether a
group reaches its parent here over thin and ordinary up-links. -/
def planRule (p : Plan) (m : PlanRec) (single : Bool) (mixed : PlanBucket → Bool) : Option (Nat × Nat) :=
  let group (b : PlanBucket) : Option PlanGroup := p.group? b.group
  let size (b : PlanBucket) : Nat := match group b with | some g => g.ranks.length | none => 0
  let tiers (b : PlanBucket) : Nat := match group b with | some g => p.span g | none => 0
  let bucketsWith (q : PlanBucket → Bool) : Option Nat := leastOf ((p.buckets.filter q).map (·.id))
  let limit (f : Fmt) : Nat := match f.pieces with | 2 => 2048 | 3 => 1024 | _ => 4096
  let below (apex : Nat) (r : Nat) : Bool := p.ancestor apex r
  let rules : List (Nat × Option Nat) :=
    [(0x0101, bucketsWith fun b => single && decide (1024 < b.elems)),
     (0x0102, bucketsWith fun b => !b.fast && decide (1 < tiers b) && decide (limit b.fmt < b.elems)),
     (0x0103, bucketsWith fun b => b.fast && b.out.isInt && !b.fmt.isInt),
     (0x0104, bucketsWith fun b => b.compress && (b.fmt.isInt || decide (262144 ≤ size b) || mixed b)),
     (0x0105, leastOf ((p.mcsets.filter fun x =>
        !((x.sources ++ x.recvs.map (·.1)).all fun r => below x.apex r)).map (·.id))),
     (0x0106, if torusRule p m then none else some 0),
     (0x0107, leastOf ((p.groups.filter fun g => g.ranks.dedup.length != g.ranks.length || !p.releaserOk g).map (·.id)))]
  rules.findSome? fun x => x.2.map fun d => (x.1, d)

end Sys2Proof.Machine
end

