-- ==== Sys2Proof/Machine/Admission.lean ====
section
/-! DEFINITION. Admission of plans and the freeing of their reservations (spec/08_job_plans.md R235 to R245,
06_compression.md R185, 11_switch_core.md R312, 17_memory.md R430, R431). -/
namespace Sys2Proof.Machine

open Sys2Proof

/-! ## What a layout reserves (R238, R239) -/

/-- The larger amounts of two layouts of one job: what the job holds between a re-shard's load and its cutover (R242). -/
def Needs.max (a b : Needs) : Needs :=
  { descs := Max.max a.descs b.descs, bells := Max.max a.bells b.bells, mc := Max.max a.mc b.mc,
    errBw := Max.max a.errBw b.errBw, errCap := Max.max a.errCap b.errCap, landing := Max.max a.landing b.landing,
    landingRate := Max.max a.landingRate b.landingRate, ledger := Max.max a.ledger b.ledger,
    completion := Max.max a.completion b.completion, buckets := Max.max a.buckets b.buckets }

/-- What a job holds. -/
def Job.held (j : Job) : Needs := match j.next with | none => j.cur.needs | some n => j.cur.needs.max n.needs

/-- The sum of one reservation over the jobs. -/
def State.reserved (s : State) (q : Needs → Nat) : Nat := sumN (s.jobs.map fun j => q j.held)

/-- The buckets whose group includes a switch (R230). -/
def Plan.bucketsAt (p : Plan) (self : Nat) : List PlanBucket :=
  p.buckets.filter fun b => match p.group? b.group with | some g => p.includes g self | none => false

/-- Does a switch belong to a multicast set: its apex, or below it and above a source or receiver (R201)? -/
def Plan.inSet (p : Plan) (x : PlanMcSet) (w : PlanSwitch) : Bool :=
  x.apex == w.index
    || (match p.sw? x.apex with
        | some a => decide (w.tier < a.tier) && p.above a w.place
            && (x.sources ++ x.recvs.map (·.1)).any fun r => p.above w (p.coordOf r)
        | none => false)

/-- The RESERVE record of a switch. -/
def Plan.reserveAt (p : Plan) (self : Nat) : PlanReserve :=
  (p.reserves.find? fun r => r.sw == self).getD
    { sw := self, bells := 0, accUnits := 0, arrivalLines := 0, completion := 0, landingBytes := 0, landingRate := 0 }

/-- Bytes of a residual: w of R170. -/
def PlanBucket.resBytes (b : PlanBucket) : Nat := if b.resFp32 then 4 else 2

/-- Bytes of a bucket's error-memory region (R179, R185). -/
def PlanBucket.errBytes (b : PlanBucket) : Nat :=
  64 + ceilDiv b.k 64 * 64 + 2 * roundUp (b.k * b.elems * b.resBytes) 64

/-- Ledger bytes at a switch (R239). -/
def Plan.ledgerBytes (p : Plan) (self : Nat) : Nat :=
  p.recordsBytes self + roundUp (p.entryDepth * 32 * p.releasedChunks self) 64

/-- The quotas of the mills that reduce a chunk of the job: (mill, units, lines), ascending (R238). -/
def State.quotasOf (s : State) (p : Plan) (self : Nat) : List (Nat × Nat × Nat) :=
  let here := p.bucketsAt self
  let mills := (here.map fun b => (List.range b.k).map fun c => s.millOf p.job (b.first + c)).flatten
  let total := mills.length
  let r := p.reserveAt self
  (List.range 128).filterMap fun m =>
    let n := (mills.filter (· == m)).length
    if n = 0 then none else some (m, ceilDiv (r.accUnits * n) total, ceilDiv (r.arrivalLines * n) total)

/-- A layout with nothing assigned yet. -/
def Layout.bare (p : Plan) (self : Nat) : Layout :=
  { plan := p, self := self, descBase := 0, buckets := [], quotas := [], bells := [], errBuckets := [],
    jrings := JobRings.ofRegion 0 0,
    needs := { descs := 0, bells := 0, mc := 0, errBw := 0, errCap := 0, landing := 0, landingRate := 0, ledger := 0,
               completion := 0, buckets := 0 } }

/-- The buckets that this switch compresses (R169). -/
def State.compressed (s : State) (p : Plan) (self : Nat) : List PlanBucket :=
  (p.bucketsAt self).filter fun b =>
    match p.group? b.group with | some g => s.compresses (Layout.bare p self) b g | none => false

/-- Does a group reach its parent here over a mix of thin and ordinary up-links (R169)? -/
def State.mixedUp (s : State) (p : Plan) (self : Nat) (b : PlanBucket) : Bool :=
  match p.group? b.group with
  | none => false
  | some g =>
    if !p.includes g self || g.releaser == self then false
    else
      match s.parentIn s.curBank (Layout.bare p self) g with
      | none => false
      | some t =>
        let ups := s.upToward s.curBank t.flat
        ups.any s.isThin && ups.any fun x => !s.isThin x

/-- What a layout needs at this switch (R185, R238, R239, R538). -/
def State.needsOf (s : State) (p : Plan) (self : Nat) : Needs :=
  let r := p.reserveAt self
  let comp := s.compressed p self
  { descs := p.depth * p.chunks, bells := r.bells,
    mc := match p.sw? self with
      | some w => sumN ((p.mcsets.filter fun x => p.inSet x w).map (·.mcRecords))
      | none => 0,
    errBw := sumN (comp.map fun b => b.errRate * 2 * b.resBytes), errCap := sumN (comp.map (·.errBytes)),
    landing := roundUp r.landingBytes 64, landingRate := r.landingRate, ledger := p.ledgerBytes self,
    completion := roundUp (ringRegionBytes r.completion) 64, buckets := (p.bucketsAt self).length }

/-! ## Placing what is reserved -/

/-- The lowest n numbers below a bound that are not in use. -/
def lowestFree (bound n : Nat) (used : List Nat) : List Nat := ((List.range bound).filter fun i => !used.contains i).take n

/-- The free gaps of a store of a size between runs in ascending order. -/
def freeGaps (size : Nat) : Nat → List (Nat × Nat) → List (Nat × Nat)
  | a, [] => if a < size then [(a, size - a)] else []
  | a, (b, n) :: t => if a < b then (a, b - a) :: freeGaps size (max a (b + n)) t else freeGaps size (max a (b + n)) t

/-- Take an amount from gaps, lowest first. -/
def takeGaps : Nat → List (Nat × Nat) → List (Nat × Nat)
  | _, [] => []
  | need, (a, n) :: t => if need = 0 then [] else (a, min n need) :: takeGaps (need - n) t

/-- The runs reserved in a partition by jobs other than one. -/
def State.partRuns (s : State) (part : Nat) (but : Option (BitVec 12)) : List (Nat × Nat) :=
  sortBy (·.1) (((s.jobs.filter fun j => some j.id != but).map fun j =>
    (j.regions.filter fun r => r.part == part).map fun r => (r.base - s.partBase part * 2 ^ 20, r.bytes)).flatten)

/-- Reserve an amount of a partition, in the lowest gaps. -/
def State.takeRegions (s : State) (part need : Nat) : List MemRegion :=
  let size := nth s.partSizes part 0 * 2 ^ 20
  (takeGaps need (freeGaps size 0 (s.partRuns part none))).map fun g => ⟨part, s.partBase part * 2 ^ 20 + g.1, g.2⟩

/-- Window offset from which the ring regions of jobs lie (R537). -/
def jobRegions : Nat := 0x80000000

/-- The bytes of RINGS for ring regions. -/
def State.ringSpace (s : State) : Nat := s.image.ringsGib * 2 ^ 30 - jobRegions

/-- Place a ring region, the job's own region counted as free. -/
def State.placeRings (s : State) (job : BitVec 12) (bytes : Nat) : Option Nat :=
  (firstFit ((s.partRuns 3 (some job)).map fun r => (r.1 - jobRegions, r.2)) s.ringSpace bytes).map fun a =>
    ringsBase + jobRegions + a

/-- Place a descriptor run, the job's own run counted as free (R104). -/
def State.placeDescs (s : State) (job : BitVec 12) (n : Nat) : Option Nat :=
  let run (l : Layout) : Nat × Nat := (l.descBase, l.needs.descs)
  firstFit (((s.jobs.filter fun j => j.id != job).map fun j =>
    run j.cur :: (match j.next with | some l => [run l] | none => [])).flatten) 4194304 n

/-- Place a landing, the job's own counted as free (R374). -/
def State.placeLanding (s : State) (job : BitVec 12) (n : Nat) : Option Nat :=
  let base := s.partBase 6 * 2 ^ 20
  let size := nth s.partSizes 6 0 * 2 ^ 20
  match s.landings.find? fun x => x.job == job with
  | some x => if n ≤ x.bytes then some x.base
    else (firstFit ((s.landings.filter fun x => x.job != job).map fun x => (x.base - base, x.bytes)) size n).map (base + ·)
  | none => (firstFit (s.landings.map fun x => (x.base - base, x.bytes)) size n).map (base + ·)

/-- Device-wide bucket indices for a layout: those the job holds, then the lowest free (R230). -/
def State.placeBuckets (s : State) (job : BitVec 12) (ids : List Nat) : List (Nat × Nat) :=
  let all (j : Job) : List Nat := (j.cur.buckets ++ (match j.next with | some n => n.buckets | none => [])).map (·.2)
  let own := match s.job? job with | some j => j.cur.buckets.map (·.2) | none => []
  ids.zip (own ++ lowestFree 65536 (ids.length - own.length) ((s.jobs.map all).flatten))

/-- Device bells for a layout, in the order of the job's bell indices (R257). -/
def State.placeBells (s : State) (job : BitVec 12) (n : Nat) : List Nat :=
  let all (j : Job) : List Nat := j.cur.bells ++ (match j.next with | some l => l.bells | none => [])
  let own := match s.job? job with | some j => j.cur.bells | none => []
  (own ++ lowestFree 65536 (n - own.length) ((s.jobs.map all).flatten)).take n

/-! ## The checks (R236, R237) -/

/-- A refusal: CODE, DETAIL, NEEDED and AVAILABLE. -/
structure Refuse where
  code : Nat
  detail : Nat
  needed : Nat
  available : Nat
  deriving DecidableEq, Repr

/-- Allotments fixed at boot, in GB/s (R431). -/
def State.bootAllots (s : State) : Nat :=
  320 + sumN ((s.ports.filter fun c => (s.cable c.num).metro).map fun c => 2 * c.gbps / 8)

/-- Metro ports' share of the boot allotments (R431). -/
def State.metroAllot (s : State) : Nat := s.bootAllots - 320

/-- Is the signature of a plan file good (R225, R501)? -/
def State.planSigned (s : State) (bs : List Byte) : Bool :=
  let r := bs.drop (bs.length - 4648)
  decide (64 + 4648 ≤ bs.length) && leAt r 0 2 == 0xFF && leAt r 4 4 == 4648 && leAt r 8 2 == 1
    && match s.image.planKeys[leAt r 10 2]? with
       | some key => Config.mldsaVerify key (ascii "SH2048-PLAN-V1" ++ planDigest bs) (sliceB r 16 4627)
       | none => false

/-- The shape that SWITCH_POSITION fixes, where its CHILD_SHIFT and CHILD_BITS occur in only one shape (R228). -/
def State.fixedShape (s : State) : Option Nat :=
  let im := s.image
  if im.childShift = 7 ∧ im.childBits = 8 then some 1
  else if im.childShift = 7 ∧ im.childBits = 7 then some 2
  else if im.childShift = 14 ∧ im.childBits = 8 then some 2
  else none

/-- Does the SHAPE of the file header contradict the shape that SWITCH_POSITION fixes (R228)? -/
def State.shapeContradicts (s : State) (bs : List Byte) : Bool :=
  match s.fixedShape with | some x => leAt bs 30 1 != x | none => false

/-- Does this switch's own SWITCH entry agree with its SWITCH_POSITION (R228)? -/
def State.placeAgrees (s : State) (p : Plan) : Bool :=
  match p.swByFlat s.image.ownFlat with
  | some w => w.tier == s.image.tier && w.position == s.image.position
  | none => false

/-- One resource check: CODE, DETAIL, what the plan asks for, what is unreserved, and what the job holds already. -/
structure ResCheck where
  code : Nat
  detail : Nat
  need : Nat
  free : Nat
  own : Nat
  deriving DecidableEq, Repr

/-- The resource checks in the order of R237. -/
def State.resChecks (s : State) (p : Plan) (n : Needs) (quotas : List (Nat × Nat × Nat)) : List ResCheck :=
  let j := s.job? p.job
  let own (q : Needs → Nat) : Nat := match j with | some j => q j.held | none => 0
  let ck (code total need : Nat) (q : Needs → Nat) : ResCheck := ⟨code, 0, need, total - s.reserved q, own q⟩
  let mill (m : Nat) : Nat × Nat :=
    let qs := s.jobs.map fun j => j.quota m
    (sumN (qs.map (·.1)), sumN (qs.map (·.2)))
  let ownQ (m : Nat) : Nat × Nat := match j with | some j => j.quota m | none => (0, 0)
  let landing := sumN (s.landings.map (·.bytes))
  let ownLand := match s.landing? p.job with | some x => x.bytes | none => 0
  let bw (x : Needs) : Nat := x.errBw * 1000 + x.landingRate
  [⟨0x0201, 0, if p.reshard then 0 else 1, 4096 - s.jobs.length, 0⟩, ck 0x0202 4194304 n.descs (·.descs)]
    ++ (quotas.map fun q => ⟨0x0203, q.1, q.2.1, poolUnits - (mill q.1).1, (ownQ q.1).1⟩)
    ++ (quotas.map fun q => ⟨0x0204, q.1, q.2.2, poolLines - (mill q.1).2, (ownQ q.1).2⟩)
    ++ [ck 0x0205 65536 n.bells (·.bells), ck 0x0206 16384 n.mc (·.mc), ck 0x0207 10000 n.errBw (·.errBw),
        ck 0x0208 (nth s.partSizes 5 0 * 2 ^ 20) n.errCap (·.errCap),
        ⟨0x0209, 0, n.landing, nth s.partSizes 6 0 * 2 ^ 20 - landing, ownLand⟩,
        ck 0x020A 200000 n.landingRate (·.landingRate),
        ck 0x020B (nth s.partSizes 4 0 * 2 ^ 20) n.ledger (·.ledger), ck 0x020C s.ringSpace n.completion (·.completion),
        ck 0x020D ((12800 - s.bootAllots) * 1000) (bw n) bw, ck 0x020E 65536 n.buckets (·.buckets)]

/-- What a check that fails, or that finds no run long enough, answers. NEEDED and AVAILABLE of MEMORY_BW are whole
GB/s. -/
def ResCheck.refuse (c : ResCheck) : Refuse :=
  if c.code = 0x020D then ⟨c.code, c.detail, ceilDiv c.need 1000, c.free / 1000⟩ else ⟨c.code, c.detail, c.need, c.free⟩

/-- Can a check that counts enough also be placed: descriptors, landing and the ring region need one run each; landing
must hold the bytes its shards hold (R374)? -/
def State.placeable (s : State) (p : Plan) (n : Needs) (c : ResCheck) : Bool :=
  match c.code with
  | 0x0202 => (s.placeDescs p.job n.descs).isSome
  | 0x0209 => (s.placeLanding p.job n.landing).isSome
      && (match s.landing? p.job with | some x => decide (x.held ≤ n.landing) | none => true)
  | 0x020C => (s.placeRings p.job n.completion).isSome
  | _ => true

/-- The first resource that refuses a plan (R236 step 5, R242). -/
def State.resRefusal (s : State) (p : Plan) (n : Needs) (quotas : List (Nat × Nat × Nat)) : Option Refuse :=
  ((s.resChecks p n quotas).find? fun c => decide (c.free + c.own < c.need) || !s.placeable p n c).map ResCheck.refuse

/-- Is a re-shard plan out of sequence (R242)? -/
def State.outOfSequence (s : State) (p : Plan) : Bool :=
  match s.job? p.job with
  | none => true
  | some j => j.unloading.isSome || p.gen != j.cur.plan.gen + 1 || decide (2 ^ 31 ≤ (p.firstStep - j.floor).toNat)
      || j.next.isSome

/-- The outcome of the checks: a refusal with the switch index where it is known, or the plan with this switch's index. -/
inductive Verdict where
  | refused (sw : Nat) (r : Refuse)
  | passed (p : Plan) (self : Nat)
  deriving DecidableEq, Repr

/-- The checks of R236 in their order. A SHAPE that contradicts SWITCH_POSITION lies in the file header, so it is checked
with the header (R228, R236). -/
def State.judgePlan (s : State) (bs : List Byte) : Verdict :=
  if !s.planSigned bs then .refused 0 ⟨0x0001, 0, 0, 0⟩
  else if s.shapeContradicts bs then
    .refused ((((parsePlan bs).swByFlat s.image.ownFlat).map (·.index)).getD 0) ⟨0x0002, 0xFFFFFFFF, 0, 0⟩
  else
    match planFault s.image.ownFlat bs with
    | some d => .refused 0 ⟨0x0002, d, 0, 0⟩
    | none =>
      let p := parsePlan bs
      match p.swByFlat s.image.ownFlat with
      | none => .refused 0 ⟨0x0002, 0xFFFFFFFF, 0, 0⟩
      | some w =>
        let self := w.index
        if !s.placeAgrees p then .refused self ⟨0x0002, 0xFFFFFFFF, 0, 0⟩
        else if !p.reshard && (s.job? p.job).isSome then .refused self ⟨0x0003, 0, 0, 0⟩
        else if p.reshard && s.outOfSequence p then .refused self ⟨0x0004, 0, 0, 0⟩
        else
          match planRule p (recOf (planRecs bs).1 0x02) s.image.policies.singleSize (s.mixedUp p self) with
          | some (c, d) => .refused self ⟨c, d, 0, 0⟩
          | none =>
            match s.resRefusal p (s.needsOf p self) (s.quotasOf p self) with
            | some r => .refused self r
            | none => .passed p self

/-- The 24 bytes of an admission reply (R236). -/
def admissionBytes (code sw detail needed available : Nat) : List Byte :=
  leBytes 2 code ++ leBytes 2 sw ++ leBytes 4 detail ++ leBytes 8 needed ++ leBytes 8 available

/-! ## Reserving (R235, R242, R257, R430) -/

/-- The layout of an admitted plan, with all that the load assigns. -/
def State.layoutFor (s : State) (p : Plan) (self : Nat) : Layout :=
  let n := s.needsOf p self
  let r := p.reserveAt self
  let kept := match s.job? p.job with
    | some j => if j.jrings.completion.entries = r.completion then some j.jrings else none
    | none => none
  { plan := p, self := self, descBase := (s.placeDescs p.job n.descs).getD 0,
    buckets := s.placeBuckets p.job ((p.bucketsAt self).map (·.id)), quotas := s.quotasOf p self,
    bells := s.placeBells p.job n.bells, errBuckets := (s.compressed p self).map (·.id),
    jrings := kept.getD (JobRings.ofRegion ((s.placeRings p.job n.completion).getD 0) r.completion),
    needs := n }

/-- A job's regions with the ring region of a layout it is to have: one at the place of a region it holds is that region, with
the larger length (R242). -/
def Layout.withRing (l : Layout) (have_ : List MemRegion) : List MemRegion :=
  let base := l.jrings.completion.base
  let same (r : MemRegion) : Bool := r.part == 3 && r.base == base
  have_.filter (fun r => !same r) ++ [⟨3, base, maxN l.needs.completion ((have_.filter same).map (·.bytes))⟩]

/-- Reserve what a layout needs beyond what the job holds in the partitions, and zero it (R430). -/
def State.reserveParts (s : State) (l : Layout) (held : Needs) (have_ : List MemRegion) : List MemRegion × State :=
  let led := s.takeRegions 4 (l.needs.ledger - held.ledger)
  let err := s.takeRegions 5 (l.needs.errCap - held.errCap)
  (l.withRing have_ ++ led ++ err, (led ++ err).foldl (fun s r => s.zeroMem r.base r.bytes) s)

/-- Give the job its landing: a new one, a kept one taken over, or the live one with at least what it had (R374). -/
def State.reserveLanding (s : State) (l : Layout) (reshard : Bool) : State :=
  let base := (s.placeLanding l.plan.job l.needs.landing).getD 0
  match s.landing? l.plan.job with
  | some x =>
    s.mapLanding l.plan.job fun _ =>
      { x with base := base, kept := false,
               bytes := if reshard then max x.bytes l.needs.landing else l.needs.landing,
               rate := if reshard then max x.rate l.needs.landingRate else l.needs.landingRate }
  | none =>
    { s with landings := s.landings ++
        [{ job := l.plan.job, base := base, bytes := l.needs.landing, rate := l.needs.landingRate, kept := false,
           shards := [], seals := [], reads := [] }] }

/-- A job as its load leaves it (R105, R188, R244). -/
def Job.fresh (l : Layout) (regions : List MemRegion) : Job :=
  { id := l.plan.job, cur := l, next := none, prev := none, floor := l.plan.firstStep, opened := false, steps := [], rings := [],
    totals := [], errs := l.freshErrs, bells := [], grants := [], insts := [], winBases := [], fenceReqs := [], fenceOwed := [],
    claims := [], claimReqs := [], records := [], entryArrays := [], jrings := l.jrings, stranded := false,
    reparenting := false, save := none, regions := regions, restoring := false, silenced := false, unloading := none, admitted := false,
    startStep := l.plan.firstStep, aborted := [] }

/-- Admit a plan that has passed (R235, R242). -/
def State.admitPlan (s : State) (p : Plan) (self : Nat) : State :=
  let l := s.layoutFor p self
  match s.job? p.job with
  | none =>
    let x := s.reserveParts l (Layout.bare p self).needs []
    let s := x.2.reserveLanding l false
    let s := { s with jobs := s.jobs ++ [Job.fresh l x.1] }.startErrs p.job
    (s.initRings l.jrings).directory p.job (some (p.gen, l.jrings))
  | some j =>
    let x := s.reserveParts l j.held j.regions
    let s := x.2.reserveLanding l true
    let s := s.mapJob p.job fun j => { j with next := some l, regions := x.1, admitted := false }
    s.cutover p.job

/-- Do the free units and lines of every mill cover the unused quota of every job (R312)? -/
def State.quotasCovered (s : State) : Bool :=
  (List.range 128).all fun m =>
    let f := s.poolFree m
    let u := s.unusedQuota m
    decide (u.1 ≤ f.1) && decide (u.2 ≤ f.2)

/-- Count an admission reply (R237): ADMIT_STATUS, ADMIT_LAST_REFUSAL and ADMIT_COUNTS. -/
def State.countAdmission (s : State) (job : BitVec 12) (code : Nat) : State :=
  let s := s.setFld F.ADMIT_STATUS_LAST_CODE 0 code
  if code = 0 then s.bump F.ADMIT_COUNTS_ADMISSIONS 0
  else ((s.setFld F.ADMIT_LAST_REFUSAL_JOB 0 job.toNat).setFld F.ADMIT_LAST_REFUSAL_CODE 0 code).bump
    F.ADMIT_COUNTS_REFUSALS 0

/-! ## Unloading (R240) -/

/-- Stop a save that waits or runs: SAVE_REFUSED with a code (R375, R379). -/
def State.endSave (s : State) (job : BitVec 12) (code : Nat) : State :=
  let s := s.mapJob job fun j => { j with save := none }
  ((s.setFlag F.SAVE_STATUS_SAVE_BUSY 0 (s.jobs.any fun j => j.save.isSome)).setFld F.SAVE_STATUS_LAST_CODE 0 code).setFld
    F.SAVE_STATUS_LAST_JOB 0 job.toNat

/-- An unload begins: every step of the window aborts with 0x0003, and every context goes through ABORTED to IDLE. The
floor moves no more (R119, R240). -/
def State.unloadJob (s : State) (job : BitVec 12) (keep : Bool) : State :=
  match s.job? job with
  | none => s
  | some j =>
    let s := (List.range j.depth).foldl (fun s i => s.abortStep job (j.floor + BitVec.ofNat 32 i) 0x0003 none .unload) s
    let s := ((s.ctxs.filter fun x => x.2.job == job).map (·.1)).foldl State.idleCtx s
    let s := match j.save with
      | some v => (s.event j 6 v.p 0 0 6 0).endSave job 6
      | none => s
    s.mapJob job fun j => { j with unloading := some (b2n keep), bells := [] }

/-- A landing that its job leaves behind (R374). -/
def Landing.keep (x : Landing) : Landing := { x with kept := true, rate := 0 }

/-- Free a job's reservations once it has no context; its fences have ended (R240, R257, R323, R363, R374, R538). -/
def State.freeJob (s : State) (job : BitVec 12) (keep : Bool) : State :=
  let s := { s with
    jobs := s.jobs.filter fun j => j.id != job
    mcs := s.mcs.filter fun m => m.job != job
    outs := s.outs.filter fun o => !(o.failed && o.job == some job)
    signQueue := s.signQueue.filter fun x => match x with | some y => y.1 != job | none => true
    landings := if keep then s.landings.map fun (x : Landing) => if x.job = job then x.keep else x
      else s.landings.filter fun x => x.job != job }
  ((s.clearShapers job).dropFences job none).directory job none

/-- An UNLOAD without KEEP_LANDING frees the landing that an earlier one kept (R374). -/
def State.dropKept (s : State) (job : BitVec 12) : State :=
  { s with landings := s.landings.filter fun x => !(x.job == job && x.kept) }

/-- Is a landing of a JOB_ID kept? -/
def State.keepsLanding (s : State) (job : BitVec 12) : Bool := s.landings.any fun x => x.job == job && x.kept

end Sys2Proof.Machine
end

