-- ==== Sys2Proof/Machine/Survival.lean ====
section
/-! DEFINITION. Saving and restoring the switch-resident state of a job, save images written by the host, and fences
requested by software (spec/14_failure_survival.md R360, R374 to R382; 22_companion_link.md R544). -/
namespace Sys2Proof.Machine

open Sys2Proof

/-! ## The save image (R376) -/

/-- An amax ring of a bucket at this switch, as image bytes: NEWEST, 16 entries newest first, then the proposals for steps
P + 1 to P + STEP_DEPTH + 1. -/
def amaxBytes (j : Job) (p : BitVec 32) (b : PlanBucket) : List Byte :=
  let r := (j.rings.find? fun r => r.bucket == b.id).getD ⟨b.id, [], []⟩
  let newest := ((r.ring.head?).map (·.1)).getD p
  let entry (i : Nat) : Int := ((r.ring.find? fun e => e.1 == newest - BitVec.ofNat 32 i).map (·.2)).getD noExp
  let prop (i : Nat) : Int :=
    ((r.proposals.find? fun e => e.1 == p + BitVec.ofNat 32 (i + 1)).map (·.2)).getD b.initialAnchor
  leBytes 2 b.id ++ zeros 2 ++ leBytes 4 newest.toNat ++ ((List.range 16).map fun i => leSigned 2 (entry i)).flatten
    ++ ((List.range (j.depth + 1)).map fun i => leSigned 2 (prop i)).flatten

/-- KEYS of a bucket. -/
def keyBytes (b : PlanBucket) : List Byte :=
  leBytes 2 b.id ++ zeros 6 ++ leBytes 8 b.checkSeed.toNat ++ leBytes 8 b.roundSeed.toNat ++ sliceB b.tag 0 8

/-- The KEYS section of a layout at this switch. -/
def Layout.keys (l : Layout) : List Byte := ((l.plan.bucketsAt l.self).map keyBytes).flatten

/-- A bell in the STEPS section. -/
def bellBytes (x : Bell) : List Byte :=
  leBytes 2 x.bell ++ leBytes 2 x.group ++ leBytes 1 (if x.kind = .counter then 2 else 1) ++ zeros 1
    ++ leBytes 2 x.phase.toNat ++ leBytes 8 x.threshold ++ leBytes 8 x.count.toNat ++ zeros 8

/-- A bucket's committed residuals: the header of R179 with LAST_COMMITTED, then the bank of SEL of every chunk, in
ascending chunk (R190). -/
def errBytes (job : BitVec 12) (gen : BitVec 4) (r : ErrRegion) : List Byte :=
  let w := if r.fp32 then 4 else 2
  let bank (c : Nat) : List (Nat × BitVec 32) := if r.sel.contains c then r.bank1 else r.bank0
  leBytes 2 (jobGen job gen) ++ leBytes 2 r.bucket ++ leBytes 1 (b2n r.fp32) ++ zeros 3 ++ leBytes 4 r.k
    ++ leBytes 2 r.elems ++ zeros 2 ++ leBytes 4 r.lastCommitted.toNat ++ zeros 44
    ++ ((List.range r.k).map fun c =>
      ((List.range r.elems).map fun i => leBytes w ((sget (c * r.elems + i) (bank c)).getD 0).toNat).flatten).flatten

/-- The floating-point buckets that a switch releases: those with an amax ring (R133). -/
def Layout.ringBuckets (l : Layout) : List PlanBucket :=
  l.plan.buckets.filter fun b =>
    !b.fmt.isInt && match l.plan.group? b.group with | some g => l.releases g | none => false

/-- The sections of a job's image: (TYPE, bytes). -/
def saveSections (j : Job) (p : BitVec 32) : List (Nat × List Byte) :=
  let l := j.cur
  let here := l.plan.bucketsAt l.self
  let total (b : PlanBucket) : TallyTotal := (j.totals.find? fun t => t.bucket == b.id).getD ⟨b.id, 0, 0⟩
  let tally := (here.filter (·.tally)).map fun b =>
    leBytes 2 b.id ++ zeros 6 ++ leBytes 16 (total b).sumIn.toNat ++ leBytes 16 (total b).sumSum.toNat
  let base : List (Nat × List Byte) :=
    [(1, l.keys), (2, leBytes 4 p.toNat ++ leBytes 4 j.depth ++ zeros 8 ++ (j.bells.map bellBytes).flatten)]
  let opt (t : Nat) (b : Bool) (x : List Byte) : List (Nat × List Byte) := if b then [(t, x)] else []
  base ++ opt 3 (!l.ringBuckets.isEmpty) ((l.ringBuckets.map (amaxBytes j p)).flatten)
    ++ opt 4 (!tally.isEmpty) tally.flatten
    ++ opt 5 (!j.errs.isEmpty) ((j.errs.map (errBytes j.id l.plan.gen)).flatten)

/-- Lay sections out on 64-byte boundaries: (TYPE, offset, bytes). -/
def laySections : Nat → List (Nat × List Byte) → List (Nat × Nat × List Byte)
  | _, [] => []
  | off, (t, x) :: rest => (t, off, x) :: laySections (roundUp (off + x.length) 64) rest

/-- The image of a job saved at P. -/
def saveImage (j : Job) (fenced : Bool) (p : BitVec 32) (dataPos : List Byte) : List Byte :=
  let secs := saveSections j p
  let first := roundUp (256 + 96 * secs.length) 64
  let laid := laySections first secs
  let table := (laid.map fun x =>
    leBytes 2 x.1 ++ zeros 6 ++ leBytes 8 x.2.1 ++ leBytes 8 x.2.2.length ++ zeros 8 ++ sliceB (sha3 x.2.2) 0 64).flatten
  let len := match laid.getLast? with | some x => x.2.1 + x.2.2.length | none => first
  let head := [0x53, 0x48, 0x53, 0x56] ++ leBytes 2 1 ++ leBytes 2 (jobGen j.id j.cur.plan.gen) ++ leBytes 4 p.toNat
    ++ leBytes 4 (b2n fenced) ++ leBytes 2 j.cur.self ++ leBytes 2 secs.length ++ zeros 4 ++ leBytes 8 len
    ++ sliceB j.cur.plan.digest 0 64 ++ sliceB dataPos 0 64
  let front := head ++ sliceB (sha3 (head ++ table)) 0 64 ++ zeros 32 ++ table
  laid.foldl (fun (out : List Byte) x => sliceB out 0 x.2.1 ++ x.2.2) front

/-- Sections of an image: (TYPE, bytes, digest given). -/
def imageSections (bs : List Byte) : List (Nat × List Byte × List Byte) :=
  (List.range (leAt bs 18 2)).map fun i =>
    let e := sliceB bs (256 + 96 * i) 96
    (leAt e 0 2, sliceB bs (leAt e 8 8) (leAt e 16 8), sliceB e 32 64)

/-- Is an image's MAGIC and VERSION valid? -/
def imageMagic (bs : List Byte) : Bool := sliceB bs 0 4 == [0x53, 0x48, 0x53, 0x56] && leAt bs 4 2 == 1

/-- Do SAVE_DIGEST and every section digest verify (R378, R544)? -/
def imageDigests (bs : List Byte) : Bool :=
  let n := leAt bs 18 2
  sliceB (sha3 (sliceB bs 0 160 ++ sliceB bs 256 (96 * n))) 0 64 == sliceB bs 160 64
    && (imageSections bs).all fun x => sliceB (sha3 x.2.1) 0 64 == x.2.2

/-- The bytes of a section type of an image. -/
def imageSection (bs : List Byte) (t : Nat) : List Byte := ((imageSections bs).find? fun x => x.1 == t).elim [] (·.2.1)

/-! ## Switch-owned slots (R364, R367) -/

/-- The switch's own shard in a slot, whatever its generation. -/
def Landing.own? (x : Landing) (slot : Nat) : Option Shard := x.shards.find? fun y => y.owner == switchOwner && y.slot == slot

/-- A landing without the switch's own shard in a slot. -/
def Landing.freeOwn (x : Landing) (slot : Nat) : Landing :=
  { x with shards := x.shards.filter fun y => !(y.owner == switchOwner && y.slot == slot) }

/-- Open a switch-owned slot of a size (R367): the landing with it, or none where it does not fit. -/
def Landing.openOwn (x : Landing) (gen : BitVec 4) (slot bytes : Nat) (step : BitVec 32) (draw : Nat) : Option Landing :=
  let y := x.freeOwn slot
  (firstFit (y.shards.map fun z => (z.base, roundUp z.bytes 64)) x.bytes (roundUp bytes 64)).map fun a =>
    { y with shards := y.shards ++ [Shard.fresh switchOwner gen slot a bytes step draw] }

/-- Change the switch's own shard in a slot. -/
def Landing.mapOwn (x : Landing) (slot : Nat) (g : Shard → Shard) : Landing :=
  { x with shards := x.shards.map fun y => if y.owner = switchOwner ∧ y.slot = slot then g y else y }

/-! ## Saving (R375, R376, R379) -/

/-- Events of a save or restore. -/
def State.saveEvent (s : State) (job : BitVec 12) (kind : Nat) (step : BitVec 32) (code : Nat) : State :=
  match s.job? job with
  | some j => s.event j kind step 0 0 code 0
  | none => s

/-- A save is refused: its record, and the status. -/
def State.refuseSave (s : State) (job : BitVec 12) (p : BitVec 32) (code : Nat) : State :=
  (s.saveEvent job 6 p code).endSave job code

/-- Start a save whose floor has come (R375): refused where P aborted, a context is not IDLE or a barrier has arrivals;
else the image is written to the slot. -/
def State.startSave (s : State) (j : Job) (v : SaveReq) : State :=
  let busy := (s.ctxs.any fun x => x.2.job == j.id) || j.bells.any fun b => b.kind == .barrier && !b.arrived.isEmpty
  if j.aborted.contains v.p then s.refuseSave j.id v.p 6
  else if busy then s.refuseSave j.id v.p 5
  else
    let fenced := s.curBank.fences.any fun f => f.1 == j.id
    let image := saveImage j fenced v.p v.dataPos
    let (draw, s) := s.draw1
    match (s.landing? j.id).bind fun x => x.openOwn j.cur.plan.gen v.slot image.length v.p draw with
    | none => s.refuseSave j.id v.p 7
    | some x =>
      let x := x.mapOwn v.slot fun y => { y.write 0 image with state := .sealing, dataPos := v.dataPos }
      let s := match x.own? v.slot with | some y => s.writeMem (x.base + y.base) image | none => s
      let s := s.mapLanding j.id fun _ => x
      s.mapJob j.id fun j => { j with save := some { v with running := true }, errs := j.errs.map fun r => { r with copying := true } }

/-- SAVE_START (R375): the floor of a job with a save that waits has reached P + 1. -/
def execSaveStart (job : BitVec 12) (s : State) : Host.Outcome State Fault Refusal :=
  match s.job? job with
  | none => .next s
  | some j =>
    match j.save with
    | some v => if !s.fwWaits && !v.running && j.floor == v.p + 1 then .next (s.startSave j v) else .next s
    | none => .next s

/-- SAVE_IMAGE_DONE (R376): the slot is SEALED under the digest of the whole image and SAVE_DONE is written; a save that
met an uncorrectable line, or whose shard is no longer there to be sealed, is refused with DIGEST (R439; log entry 96). -/
def execSaveImageDone (job : BitVec 12) (s : State) : Host.Outcome State Fault Refusal :=
  match s.job? job with
  | none => .next s
  | some j =>
    match j.save with
    | none => .next s
    | some v =>
      if s.fwWaits || !v.running then .next s
      else
        let s := s.mapJob job fun j => { j with errs := j.errs.map fun r => { r with copying := false } }
        let there := match (s.landing? job).bind fun x => x.own? v.slot with | some y => y.state == .sealing | none => false
        if !there then .next ((s.refuseSave job v.p 2).settleFree)
        else if v.memBad then
          .next (((s.mapLanding job fun x => x.mapOwn v.slot fun y => { y with state := .openS }).refuseSave job v.p
            2).settleFree)
        else
          let s := s.mapLanding job fun x => x.mapOwn v.slot fun y => { y with state := .sealed, digest := sha3 y.content }
          .next (((s.saveEvent job 5 v.p 0).endSave job 0).settleFree)

/-! ## Restoring (R377 to R380) -/

/-- The checks of R378 in order: the code of the first that fails. -/
def State.restoreCode (s : State) (j : Job) (y : Option Shard) (gen : BitVec 4) (p : BitVec 32) (dataPos : List Byte) : Nat :=
  let l := j.cur
  match y with
  | none => 1
  | some y =>
    let bs := y.content
    if y.state != .sealed || y.gen != gen || !imageMagic bs then 1
    else if sha3 bs != y.digest || !imageDigests bs then 2
    else if leAt bs 8 4 != p.toNat || sliceB bs 96 64 != dataPos || l.plan.firstStep != p + 1 then 3
    else if leAt (imageSection bs 2) 4 4 != j.depth || imageSection bs 1 != l.keys then 4
    else if j.opened || (s.ctxs.any fun x => x.2.job == j.id) || j.floor != l.plan.firstStep then 5
    else 0

/-- The residuals of one bucket in an ERROR section, and what follows (R190, R191). -/
def readErr (bs : List Byte) (r : ErrRegion) : ErrRegion × List Byte :=
  let w := if r.fp32 then 4 else 2
  let n := r.k * r.elems
  let vals := (List.range n).filterMap fun i =>
    let v := leAt bs (64 + i * w) w
    if v = 0 then none else some (i, BitVec.ofNat 32 v)
  ({ r with lastCommitted := BitVec.ofNat 32 (leAt bs 16 4), sel := [], staged := [], bank0 := vals, bank1 := [] },
   bs.drop (64 + n * w))

/-- The regions of a job with the residuals of an ERROR section. -/
def readErrs : Nat → List Byte → List ErrRegion → List ErrRegion
  | 0, _, rs => rs
  | n + 1, bs, rs =>
    if bs.isEmpty then rs
    else
      match rs.find? fun r => r.bucket == leAt bs 2 2 with
      | none => rs
      | some r =>
        let x := readErr bs r
        readErrs n x.2 (rs.map fun y => if y.bucket = r.bucket then x.1 else y)

/-- One bucket of an AMAX section. -/
def readRing (depth : Nat) (p : BitVec 32) (bs : List Byte) : AmaxRing :=
  let newest := BitVec.ofNat 32 (leAt bs 4 4)
  { bucket := leAt bs 0 2
    ring := (List.range 16).map fun i => (newest - BitVec.ofNat 32 i, toSigned 16 (leAt bs (8 + 2 * i) 2))
    proposals := (List.range (depth + 1)).map fun i =>
      (p + BitVec.ofNat 32 (i + 1), toSigned 16 (leAt bs (40 + 2 * i) 2)) }

/-- The parts of equal length of a section. -/
def sectionParts (w : Nat) (bs : List Byte) : List (List Byte) := chunksOf w (bs.length / w) bs

/-- A saved bell, bound to its group again (R380). -/
def State.readBell (s : State) (j : Job) (bs : List Byte) : Option Bell :=
  let l := j.cur
  (l.plan.group? (leAt bs 2 2)).map fun g =>
    let counter := leAt bs 4 1 == 2
    { bell := leAt bs 0 2, kind := if counter then .counter else .barrier, group := g.id, home := l.releases g,
      reduced := (l.plan.direct g l.self).any fun r => s.curBank.fenced j.id r, late := false,
      phase := BitVec.ofNat 16 (leAt bs 6 2), lead := 0, at_ := 0, count := BitVec.ofNat 64 (leAt bs 16 8),
      threshold := leAt bs 8 8, opened := s.ns, begun := false,
      passed := if counter then leAt bs 16 8 / leAt bs 8 8 else 0,
      slots := if counter then [] else (s.slotsIn s.curBank l g).filter (s.curBank.slotLive j.id), arrived := [],
      stragglerSent := false }

/-- The effects of a restore that passes (R380). -/
def State.restoreJob (s : State) (j : Job) (bs : List Byte) (p : BitVec 32) : State :=
  let l := j.cur
  let rings := (sectionParts (40 + 2 * (j.depth + 1)) (imageSection bs 3)).map (readRing j.depth p)
  let totals : List TallyTotal := (sectionParts 40 (imageSection bs 4)).map fun x =>
    ⟨leAt x 0 2, BitVec.ofNat 128 (leAt x 8 16), BitVec.ofNat 128 (leAt x 24 16)⟩
  let bells := (sectionParts 32 ((imageSection bs 2).drop 16)).filterMap (s.readBell j)
  let errSec := imageSection bs 5
  let s := s.mapErrs j.id fun j =>
    { j with errs := readErrs (j.errs.length + 1) errSec j.errs, rings := rings, totals := totals, bells := bells }
  let s := s.saveEvent j.id 7 p 0
  l.ringBuckets.foldl (fun s b =>
    match l.plan.group? b.group, rings.find? fun r => r.bucket == b.id with
    | some g, some r =>
      r.proposals.foldl (fun s e =>
        let (k, s) := s.draw1
        s.sendProposal l b g e.1 (e.2, (Config.freeSourceMax k).toInt)) s
    | _, _ => s) s

/-- Carry out a restore request (R378 to R380). -/
def State.restore (s : State) (j : Job) (slot : Nat) (gen : BitVec 4) (p : BitVec 32) (dataPos : List Byte) : State :=
  let y := (s.landing? j.id).bind fun x => x.own? slot
  let code := s.restoreCode j y gen p dataPos
  let s := ((s.mapJob j.id fun j => { j with restoring := false }).setFlag F.SAVE_STATUS_RESTORE_BUSY 0
    (s.flag F.SAVE_STATUS_RESTORE_BUSY 0 && !j.restoring))
  let s := (s.setFld F.SAVE_STATUS_LAST_CODE 0 code).setFld F.SAVE_STATUS_LAST_JOB 0 j.id.toNat
  if code = 0 then s.restoreJob j ((y.map Shard.content).getD []) p else s.saveEvent j.id 8 p code

/-! ## Images written by the host (R544) -/

/-- The image is whole: verified, and the slot SEALED under what its header says. -/
def State.imageWhole (s : State) (job : BitVec 12) (slot : Nat) : Nat × State :=
  match (s.landing? job).bind fun x => x.own? slot with
  | none => (1, s)
  | some y =>
    let bs := y.content
    if imageDigests bs then
      (0, s.mapLanding job fun x => x.mapOwn slot fun y =>
        { y with state := .sealed, step := BitVec.ofNat 32 (leAt bs 8 4), gen := BitVec.ofNat 4 (leAt bs 6 2),
                 dataPos := sliceB bs 96 64, digest := sha3 bs })
    else (2, s)

/-- Write one part of an image (R544): the code of R379, 0 where it is taken. -/
def State.imagePart (s : State) (j : Job) (slot off total : Nat) (bs : List Byte) : Nat × State :=
  let opened : Option State :=
    if off = 0 then
      let (draw, s) := s.draw1
      ((s.landing? j.id).bind fun x => x.openOwn j.cur.plan.gen slot total 0 draw).map fun x =>
        { s.mapLanding j.id fun _ => x with host := { s.host with landing := some (j.id, j.cur.plan.gen, slot, 0) } }
    else some s
  match opened with
  | none => (7, s)
  | some s =>
    match s.host.landing, (s.landing? j.id).bind fun x => x.own? slot with
    | some (job, _, sl, n), some y =>
      if job != j.id || sl != slot || n != off || y.state != .openS || decide (y.bytes < off + bs.length) then (1, s)
      else
        let s := s.storeShard j.id switchOwner y.gen slot off bs
        let n := off + bs.length
        let s := { s with host := { s.host with landing := some (j.id, j.cur.plan.gen, slot, n) } }
        if n = y.bytes then
          let s := { s with host := { s.host with landing := none } }
          s.imageWhole j.id slot
        else (0, s)
    | _, _ => (1, s)

/-! ## Fences requested by software (R360) -/

/-- A write of FENCE_REQUEST_RANK (R360): a rank of a loaded job's current layout requests its fence once; any other write
is that of a reserved encoding. -/
def State.fenceByWrite (s : State) (rank : Nat) : State :=
  let job := BitVec.ofNat 12 (s.fld F.FENCE_REQUEST_JOB_JOB 0)
  match s.job? job with
  | some j =>
    if rank < j.cur.plan.members.length then (s.requestFence job rank 0 0 0).coordGo
    else s.reservedWrite (regAddr .FENCE_REQUEST_RANK 0) rank
  | none => s.reservedWrite (regAddr .FENCE_REQUEST_RANK 0) rank

/-- FENCE_REQUEST_RANK (R360). -/
def execFenceRequestRank (rank : BitVec 18) (s : State) : Host.Outcome State Fault Refusal :=
  .next (s.fenceByWrite rank.toNat)

/-! ## Error memory at run time (R186) -/

/-- ERROR_MEMORY_ACCESS (R186): pacing delays a compression and changes no bit, and the residuals of a chunk were read and
written with its compression, so the access leaves everything as it is. -/
def execErrorMemoryAccess (_job : BitVec 12) (_bucket : Nat) (s : State) : Host.Outcome State Fault Refusal := .next s

end Sys2Proof.Machine
end

