-- ==== Sys2Proof/Machine/Telemetry.lean ====
section
/-! DEFINITION. Sampling of the queues into the telemetry rings (spec/12_scheduling.md R333 to R335;
spec/22_companion_link.md R537, R539). -/
namespace Sys2Proof.Machine

open Sys2Proof

/-- The ports a die samples, ascending (R333). -/
def State.samplePorts (s : State) (d : Nat) : List Nat :=
  (s.diePorts d).filter fun p =>
    let j := localOf p
    if j < 32 then bitOf (s.fld F.SAMPLE_PORTS_LOW_PORTS d) j else bitOf (s.fld F.SAMPLE_PORTS_HIGH_PORTS d) (j - 32)

/-- The padded length of a die's blocks. -/
def State.sampleBytes (s : State) (d : Nat) : Nat := roundUp (16 + 64 * (s.samplePorts d).length) 64

/-- EFFECTIVE_PERIOD: the least value at or above SAMPLE_PERIOD that keeps the blocks within 4 GB/s, 256 bytes to each
unit of 64 ns (R333). -/
def State.effectivePeriod (s : State) (d : Nat) : Nat :=
  max (min 15625 (max 1 (s.fld F.SAMPLE_CONTROL_SAMPLE_PERIOD d))) (ceilDiv (s.sampleBytes d) 256)

/-- One entry of a block: a port and a VC (R334). -/
def State.sampleEntry (s : State) (p v : Nat) : Nat :=
  let heads := s.core.copies.filter fun c => c.dest == .port p && c.vc == v && s.isHead c
  let delay := maxN 0 (heads.map fun c => s.ns - c.headSince.getD s.ns)
  let closed := s.gatesApply p && !((s.gate (dieOf p) (localOf p)).maskAt s.ns).1.getLsbD v
  pack [(8, p), (3, v), (1, b2n (bitOf (s.fld F.PORT_BUFFER_PAUSED p) v)), (1, b2n closed), (21, s.queued p v),
    (30, min delay (2 ^ 30 - 1))]

/-- A block (R334); OVERRUN is set as it is written (R335). -/
def State.sampleBlock (s : State) (d : Nat) (x : SampleSt) : List Byte :=
  let es := ((s.samplePorts d).map fun p => (List.range 8).map fun v => leBytes 8 (s.sampleEntry p v)).flatten
  padTo 64 (leBytes 8 s.ns ++ leBytes 1 d ++ leBytes 1 (b2n s.timeValid) ++ leBytes 2 es.length
    ++ leBytes 4 x.seq.toNat ++ es.flatten)

/-- The telemetry ring of a die (R537, R539). -/
def telemetryRing (d : Nat) : RingAt :=
  { ref := { base := ringsBase + 0x10000 + (2 + d) * 128, entries := 4194304, entryBytes := 64 }
    data := ringsBase + 0x40000000 + d * 0x10000000, tele := some d }

/-- SAMPLE_SNAPSHOT (R333): the period has passed; the block goes to the ring, or is dropped. A die whose core clock DOZE has
gated takes none (R477). -/
def execSampleSnapshot (die : Nat) (s : State) : Host.Outcome State Fault Refusal :=
  if 4 ≤ die ∨ !s.flag F.SAMPLE_CONTROL_SAMPLE_EN die ∨ s.power.dozing.contains die then .next s
  else
    let x := (s.core.samples.find? fun x => x.die == die).getD ⟨die, 0, false⟩
    let blk := s.sampleBlock die x
    let s := s.mapCore fun c =>
      { c with samples := c.samples.filter (fun y => y.die != die) ++ [{ x with seq := x.seq + 1 }] }
    .next (s.ringPut (telemetryRing die) blk 5)

end Sys2Proof.Machine
end

