-- ==== Sys2Proof/Machine/RegView.lean ====
section
/-! DEFINITION. What a register reads as where the rest of the state decides it, and which register lies at a management
address (spec/23_register_map.md R550 to R553, R564 and the register tables of every chapter). -/
namespace Sys2Proof.Machine

open Sys2Proof

/-! ## Addresses (R551, R552, R564) -/

/-- The instance of a register at an address. -/
def RegRow.at (r : RegRow) (a : Nat) : Option Nat :=
  if a < r.base then none
  else
    let off := a - r.base
    let g := max 1 r.grp
    let q := if r.s1 = 0 then 0 else off / r.s1
    let rest := if r.s1 = 0 then off else off % r.s1
    let j := if r.s2 = 0 then 0 else rest / r.s2
    let left := if r.s2 = 0 then rest else rest % r.s2
    if left = 0 ∧ j < g ∧ q * g + j < r.count then some (q * g + j) else none

/-- The register at an address. -/
def regAt (a : Nat) : Option (RegName × Nat) :=
  (allRegs.findSome? fun n => ((regRow n).at a).map fun i => (n, i))

/-- Bits of the fields of one access type. -/
def RegRow.mask (r : RegRow) (acc : RegAcc) : Nat :=
  (r.fields.filter fun f => f.acc == acc).foldl (fun m f => m + (2 ^ (f.hi + 1 - f.lo) - 1) * 2 ^ f.lo) 0

/-! ## Views -/

/-- Rounded up to whole MiB. -/
def mib (n : Nat) : Nat := ceilDiv n (2 ^ 20)

/-- RESERVED_MIB of a partition (R429, R430). -/
def State.partReserved (s : State) (p : Nat) : Nat :=
  match p with
  | 0 => mib (32 * s.reserved (·.descs))
  | 2 => 128 * (s.ports.filter fun c => (s.cable c.num).metro).length
  | 3 => 2048 + mib (s.reserved (·.completion))
  | 4 => mib (s.reserved (·.ledger))
  | 5 => mib (s.reserved (·.errCap))
  | 6 => mib (sumN (s.landings.map (·.bytes)))
  | _ => 0

/-- ALLOT_GBS of a partition (R431). -/
def State.partAllot (s : State) (p : Nat) : Nat :=
  match p with
  | 0 => 256
  | 1 => 64
  | 2 => s.metroAllot
  | 5 => s.reserved (·.errBw)
  | 6 => ceilDiv (s.reserved (·.landingRate)) 1000
  | _ => 0

/-- Has a start come as far as the running image: the partitions and pools are set? -/
def State.booted (s : State) : Bool := s.boot.started.isSome

/-- WINDOW_READY (R537): the image is in force and every stack is ready. -/
def State.windowReady (s : State) : Bool := s.booted && (List.range 20).all s.stackReady

/-- Is a signature being computed: SIGN_BUSY (R166)? -/
def State.signBusy (s : State) : Bool := s.signQueue.any (·.isSome)

/-- ATTEST_BUSY (R519). -/
def State.attestBusy (s : State) : Bool := s.signQueue.contains none

/-- Leading entries in REACTED. -/
def State.reactedLead (s : State) : Nat := (s.wt.queue.takeWhile fun e => e.state == .reacted).length

/-- Is SMB_ALERT_N driven low (R548)? -/
def State.smbAlert (s : State) : Bool :=
  s.flag F.WT_STATUS_IRQ_PENDING 0 && s.fld F.DCL_STATUS_LINK_STATE 0 != 4

/-- Is a wake in progress (R486)? -/
def State.waking (s : State) : Bool := s.power.change == some .leaveDoze || s.power.change == some .leaveKeep

/-- One field of a view: bits [hi:lo] of the stored word replaced. -/
def put (f : Fld) (v w : Nat) : Nat := setBitsOf w f.hi f.lo v

/-- The views of a fabric die. -/
def State.viewDie (s : State) (n : RegName) (i w : Nat) : Option Nat :=
  match n with
  | .ERROR_MEM_ALLOT => some (put F.ERROR_MEM_ALLOT_RESERVED_GBS (s.reserved (·.errBw)) w)
  | .SPIRE_RECORDS => some (put F.SPIRE_RECORDS_RECORDS_HELD ((s.mcs.filter fun m => m.die == i).length) w)
  | .EPOCH_STATE =>
    some (put F.EPOCH_STATE_CURRENT_BIT (b2n s.curBit)
      (put F.EPOCH_STATE_PHASE (match s.epoch.phase with | .idle => 0 | .prepared => 1 | .switched => 2) w))
  | .EPOCH_NUMBER => some s.epoch.num.toNat
  | .CELL_POOL_FREE => some (put F.CELL_POOL_FREE_SHARED_FREE (if s.booted then s.sharedFree i else 0) w)
  | .METRO_EXT =>
    if s.flag F.METRO_EXT_ENABLED i then
      let p := s.fld F.METRO_EXT_PORT i
      some (put F.METRO_EXT_KIB_QUEUED (min 0x3FFFF ((extCells - s.extFree p) * 256 / 1024)) w)
    else none
  | .GATE_CONTROL =>
    some (put F.GATE_CONTROL_BYPASS (b2n (s.flag F.GATE_CONTROL_GATE_EN i
      && (s.gate (i / 64) (i % 64)).active.isSome && !s.timeValid)) w)
  | .SAMPLE_EVENTS =>
    some (put F.SAMPLE_EVENTS_EFFECTIVE_PERIOD
      (if s.flag F.SAMPLE_CONTROL_SAMPLE_EN i then s.effectivePeriod i else 0) w)
  | .REPEAT_STATUS => some (put F.REPEAT_STATUS_ADAPTIVE_USED (b2n (s.fld F.ROUTE_CONTROL_OBLIVIOUS i != 255)) w)
  | _ => none

/-- The views of a mill, a port and a stack. -/
def State.viewUnit (s : State) (n : RegName) (i w : Nat) : Option Nat :=
  match n with
  | .MILL_OCCUPANCY =>
    some (put F.MILL_OCCUPANCY_ARRIVAL_LINES (runTotal (s.lineRuns i))
      (put F.MILL_OCCUPANCY_GRANULE_UNITS (runTotal (s.unitRuns i)) w))
  | .MILL_CONTEXTS =>
    some (put F.MILL_CONTEXTS_OPEN_CONTEXTS
      (min 0xFFFF (s.ctxs.filter fun x => x.2.mill == i && x.2.state != .final).length) w)
  | .POOL_STATUS =>
    some (put F.POOL_STATUS_FREE_UNITS (s.poolFree i).1
      (put F.POOL_STATUS_RESERVED_UNITS (sumN (s.jobs.map fun j => (j.quota i).1))
        (put F.POOL_STATUS_SINGLE_SIZE (b2n s.image.policies.singleSize) w)))
  | .PORT_CRUISE =>
    match s.ports.find? fun c => c.lane0 == i with
    | some c => some (put F.PORT_CRUISE_QUARANTINED (b2n (s.quarantineBit c.num)) w)
    | none => none
  | _ => none

/-- The views of the control die's watchtower, belfry, ledger, plan loader and partitions. -/
def State.viewControl (s : State) (n : RegName) (i w : Nat) : Option Nat :=
  match n with
  | .WT_STATUS => some (put F.WT_STATUS_ENTRIES s.wt.queue.length (put F.WT_STATUS_REACTED s.reactedLead w))
  | .FT_NOW_LOW => some (s.ns % 2 ^ 32)
  | .FT_NOW_HIGH => some (bitsOf s.time.latch.toNat 79 48)
  | .TIME_STATUS =>
    some (put F.TIME_STATUS_STATE s.time.state.code
      (put F.TIME_STATUS_PARENT_PORT (s.time.parent.getD 0)
        (put F.TIME_STATUS_PARENT_VALID (b2n s.time.parent.isSome)
          (put F.TIME_STATUS_NOW_FRAC (bitsOf s.time.latch.toNat 15 0) w))))
  | .LEDGER_STATUS => some (put F.LEDGER_STATUS_SIGN_BUSY (b2n s.signBusy) w)
  | .ADMIT_STATUS => some (put F.ADMIT_STATUS_JOBS_LIVE s.jobs.length w)
  | .PART_BASE => some (if s.booted then s.partBase i else 0)
  | .PART_SIZE => some (if s.booted then nth s.partSizes i 0 else 0)
  | .PART_RESERVED => some (if s.booted then s.partReserved i else 0)
  | .PART_ALLOT => some (if s.booted then s.partAllot i else 0)
  | _ => none

/-- The views of clocks, boot, the companion link, the update unit and the keep. -/
def State.viewSystem (s : State) (n : RegName) (i w : Nat) : Option Nat :=
  match n with
  | .ISLAND_CLOCK =>
    let pll := s.flag F.ISLAND_CLOCK_PLL_EN i
      && (s.flag F.ISLAND_CLOCK_PLL_LOCK i || s.flag F.ISLAND_CLOCK_COASTING i)
    some (put F.ISLAND_CLOCK_BYP_ALIVE (b2n (i == 0 || s.power.refEdges)) (put F.ISLAND_CLOCK_PLL_ALIVE (b2n pll) w))
  | .BOOT_STATUS => some (put F.BOOT_STATUS_CLAIMED (b2n (!allZero s.boot.store.ownerKeyHash)) w)
  | .BOOT_FLOORS =>
    some (put F.BOOT_FLOORS_SV_FLOOR s.boot.store.svFloor (put F.BOOT_FLOORS_CONFIG_FLOOR s.boot.store.configFloor w))
  | .ATTEST_STATUS => some (put F.ATTEST_STATUS_ATTEST_BUSY (b2n s.attestBusy) w)
  | .HOST_STATUS =>
    some (put F.HOST_STATUS_WINDOW_READY (b2n s.windowReady)
      (put F.HOST_STATUS_CMD_BUSY (b2n (s.host.phase == .taken || s.host.phase == .unloading))
        (put F.HOST_STATUS_HOST_WINDOW (if s.booted then s.image.ringsGib * 1024 else 0) w)))
  | .UPD_STATUS => some (put F.UPD_STATUS_UPD_BUSY (b2n (!s.upd.ops.isEmpty)) w)
  | .SMB_STATUS => some (put F.SMB_STATUS_ALERT (b2n s.smbAlert) (put F.SMB_STATUS_WAKING (b2n s.waking) w))
  | _ => none

/-- What a register holds for a reader: the stored word, with the fields that the rest of the state decides. -/
def State.view (s : State) (n : RegName) (i : Nat) : Nat :=
  let w := s.reg n i
  (s.viewDie n i w <|> s.viewUnit n i w <|> s.viewControl n i w <|> s.viewSystem n i w).getD w

end Sys2Proof.Machine
end

