-- ==== Sys2Proof/Machine/Power.lean ====
section
/-! DEFINITION. Power states: commands, votes, aborts, the register save, wakes and the release of units
(spec/20_power_states.md R477 to R488). -/
namespace Sys2Proof.Machine

open Sys2Proof

/-! ## Small changes of the power record -/

/-- Change the power record. -/
def State.mapPower (s : State) (g : PowerSt → PowerSt) : State := { s with power := g s.power }

/-- Write a pin. -/
def State.mapPins (s : State) (g : Pins → Pins) : State := s.mapPower fun p => { p with pins := g p.pins }

/-- The current power state (R477). -/
def State.pwr (s : State) : Nat := s.fld F.PWR_STATUS_STATE 0

/-- Is an entry or exit running: PWR_BUSY? -/
def State.pwrBusy (s : State) : Bool := s.flag F.PWR_STATUS_PWR_BUSY 0

/-- PHASE of PWR_STATUS. -/
def State.pwrPhase (s : State) : Nat := s.fld F.PWR_STATUS_PHASE 0

/-- No change of power state runs. -/
def State.pwrEnd (s : State) : State :=
  ((s.setFlag F.PWR_STATUS_PWR_BUSY 0 false).setFld F.PWR_STATUS_PHASE 0 0).mapPower fun p =>
    { p with change := none, matched := false }

/-! ## Votes (R480) -/

/-- A refusal: source code and reason. -/
structure Vote where
  source : Nat
  reason : Nat
  deriving DecidableEq, Repr

/-- A source code of R442. -/
def srcCode (die block inst : Nat) : Nat := die * 2 ^ 16 + block * 2 ^ 10 + inst

/-- Is any landing slot OPEN or SEALING? -/
def State.unsealed (s : State) : Bool :=
  s.landings.any fun x => x.shards.any fun y => y.state == .openS || y.state == .sealing

/-- Is a load or unload in progress? -/
def State.loading (s : State) : Bool :=
  s.host.phase == .unloading
    || (s.host.phase == .taken && (leAt s.host.cmd 0 2 == 1 || leAt s.host.cmd 0 2 == 2))
    || s.jobs.any fun j => !j.admitted || j.unloading.isSome

/-- Ports whose accepted gate list is in force (R480, reason 9). -/
def State.gatedPorts (s : State) : List Nat :=
  (s.ports.map (·.num)).filter fun p =>
    s.flag F.GATE_CONTROL_GATE_EN p && (s.gate (dieOf p) (localOf p)).active.isSome

/-- The refusals of an entry to a state (R480). -/
def State.votes (s : State) (t : Nat) : List Vote :=
  let deep := t == 2 || t == 3
  let one (c : Bool) (src reason : Nat) : List Vote := if c then [⟨src, reason⟩] else []
  let live := (s.ports.map (·.num)).filter fun p => s.pcsLock p && !s.quarantineBit p
  (if deep && !s.jobs.isEmpty then live.map fun p => ⟨srcCode dieLC blkPort p, 1⟩ else [])
    ++ (if deep then s.ctxs.map fun x => ⟨srcCode (x.2.mill / 32) blkMill x.2.mill, 2⟩ else [])
    ++ one (deep && s.unsealed) (srcCode dieCD 0x08 0) 3
    ++ one (t == 3 && (!s.jobs.isEmpty || s.loading)) (srcCode dieCD blkPlan 0) 4
    ++ one (t == 3 && s.landings.any fun x => !x.shards.isEmpty) (srcCode dieCD 0x08 0) 5
    ++ one (deep && s.epoch.phase != .idle) (srcCode 0 0x17 0) 6
    ++ one (deep && (s.flag F.SAVE_STATUS_SAVE_BUSY 0 || s.flag F.SAVE_STATUS_RESTORE_BUSY 0)) (srcCode dieCD 0x08 0) 7
    ++ one (t == 3 && s.signBusy) (srcCode dieCD 0x05 0) 8
    ++ (if t == 1 then s.gatedPorts.map fun p => ⟨srcCode dieLC blkPort p, 9⟩ else [])

/-- Does one refusal come before another: the lower source code, then the lower reason? -/
def Vote.before (a b : Vote) : Bool :=
  decide (a.source < b.source) || (a.source == b.source && decide (a.reason < b.reason))

/-- The refusal that is recorded (R480). -/
def firstVote : List Vote → Option Vote
  | [] => none
  | v :: t => match firstVote t with
    | none => some v
    | some w => some (if w.before v then w else v)

/-- The layout of PWR_LAST_REFUSER and PWR_LAST_ABORTER. -/
def Vote.word (v : Vote) (t : Nat) : Nat := pack [(4, v.reason), (2, t), (7, 0), (19, v.source)]

/-! ## Entries (R478, R479, R481) -/

/-- Is a TARGET allowed from the current state (R478)? -/
def targetOk (cur t : Nat) : Bool :=
  match cur with
  | 0 => t == 1 || t == 2 || t == 3
  | 1 => t == 0 || t == 2 || t == 3
  | 2 => t == 0 || t == 3
  | _ => false

/-- The stacks of group h (R488). -/
def stackGroup (h : Nat) : List Nat := [h, h + 5, h + 10, h + 15]

/-- The units in the order of R487 and R488. -/
def unitOrder : List PowerUnit :=
  (List.range 4).map PowerUnit.die ++ (List.range 5).map PowerUnit.stackGroup ++ (List.range 8).map PowerUnit.laneGroup

/-- A wake begins: STATE reads RUN from here on (R486). -/
def State.wakeBegin (s : State) (c : PwrChange) : State :=
  (((s.setFld F.PWR_STATUS_STATE 0 0).setFlag F.PWR_STATUS_PWR_BUSY 0 true).setFld F.PWR_STATUS_PHASE 0 0).mapPower
    fun p => { p with change := some c, matched := false }

/-- The wake from DOZE begins (R486, R487). -/
def State.wakeDoze (s : State) : State := (s.wakeBegin .leaveDoze).mapPower fun p => { p with release := unitOrder }

/-- The wake from KEEP begins: the keep raises CORE_PWR_EN, once PWRGD has fallen (R487, R571). -/
def State.wakeKeep (s : State) : State :=
  (s.wakeBegin .leaveKeep).mapPins fun p => { p with corePwrEn := !p.pwrgd }

/-- QUIESCE of an entry that has passed its vote (R479). -/
def State.quiesce (s : State) (t : Nat) : State :=
  let s := ((s.setFlag F.PWR_STATUS_PWR_BUSY 0 true).setFld F.PWR_STATUS_PHASE 0 1).mapPower fun p =>
    { p with change := some (.enter t), matched := false }
  if t = 1 then s else s.ports.foldl State.deepen s

/-- A refused command (R480). -/
def State.refusePower (s : State) (t : Nat) (v : Vote) : State :=
  ((s.bump F.PWR_EVENTS_REFUSALS 0).setReg .PWR_LAST_REFUSER 0 (v.word t)).raiseFrom Config.powerSource 0x50 0 0

/-- A command that came over DCL (R478). -/
def State.powerCommand (s : State) (t : Nat) : State :=
  if s.pwrBusy then s.setFlag F.PWR_STATUS_CMD_IGNORED 0 true
  else if !targetOk s.pwr t then s.reservedWrite (regAddr .PWR_COMMAND 0) t
  else if t = 0 then (if s.pwr = 2 then s.wakeDoze else (s.setFld F.PWR_STATUS_STATE 0 0).wakeAll)
  else
    match firstVote (s.votes t) with
    | some v => s.refusePower t v
    | none => s.quiesce t

/-- CMD_RUN (R478). -/
def execCmdRun (s : State) : Host.Outcome State Fault Refusal := .next (s.powerCommand 0)

/-- CMD_LANE_QUIET (R478). -/
def execCmdLaneQuiet (s : State) : Host.Outcome State Fault Refusal := .next (s.powerCommand 1)

/-- CMD_DOZE (R478). -/
def execCmdDoze (s : State) : Host.Outcome State Fault Refusal := .next (s.powerCommand 2)

/-- CMD_KEEP (R478). -/
def execCmdKeep (s : State) : Host.Outcome State Fault Refusal := .next (s.powerCommand 3)

/-- TARGET of the entry that is in QUIESCE. -/
def State.quiescing (s : State) : Option Nat :=
  match s.power.change with
  | some (.enter t) => if s.pwrPhase = 1 then some t else none
  | _ => none

/-- What QUIESCE has done is undone: quiet transmitters wake, ports leave DEEP. -/
def State.unquiesce (s : State) (t : Nat) : State :=
  if t = 1 then s.wakeAll
  else if s.pwr = 2 then s
  else s.ports.foldl (fun s c => if s.link c.num = 7 then s.undeepen c else s) s

/-- Abort the entry that is in QUIESCE (R481). -/
def State.abortEntry (s : State) (v : Vote) : State :=
  match s.quiescing with
  | none => s
  | some t =>
    ((((s.unquiesce t).pwrEnd).bump F.PWR_EVENTS_ABORTS 0).setReg .PWR_LAST_ABORTER 0 (v.word t)).raiseFrom
      Config.powerSource 0x51 0 0

/-- A condition of R480 that has come to hold aborts the entry. -/
def State.abortIfVote (s : State) : State :=
  match s.quiescing with
  | none => s
  | some t => match firstVote (s.votes t) with
    | none => s
    | some v => s.abortEntry v

/-- QUIESCE_DONE (R479): every unit is idle; SAVE begins, or POWER where there is none. A condition of R480 that holds
aborts the entry instead. -/
def execQuiesceDone (s : State) : Host.Outcome State Fault Refusal :=
  let s := s.abortIfVote
  match s.quiescing with
  | none => .next s
  | some t => .next (s.setFld F.PWR_STATUS_PHASE 0 (if t = 1 then 3 else 2))

/-- The SMBus port as aborter (R481). -/
def smbusVote : Vote := ⟨srcCode dieCD 0x0B 0, 0⟩

/-- QUIESCE_ABORT (R481). -/
def execQuiesceAbort (why : AbortCause) (s : State) : Host.Outcome State Fault Refusal :=
  match why with
  | .condition => .next s.abortIfVote
  | .smbus => .next (s.abortEntry smbusVote)
  | .fatal src => .next (s.abortEntry ⟨src.toNat, 0⟩)

/-! ## The register save (R484, R485) -/

/-- Registers of the port blocks of the port map. -/
def State.savedPorts (s : State) : List (RegName × Nat) :=
  (s.ports.map fun c => [(RegName.LINK_ASYM, c.lane0), (.PORT_CRUISE, c.lane0), (.PORT_LINK_CONTROL, c.lane0)]).flatten

/-- Registers of the control die. -/
def savedControl : List (RegName × Nat) :=
  [(.CLOCK_GATE_CD, 0), (.LEDGER_CONTROL, 0), (.TIME_CONTROL, 0)] ++ (List.range 256).map (fun k => (.REACTION, k))
    ++ [(.FORCE_SOURCE, 0), (.FORCE, 0), (.FENCE_REQUEST_JOB, 0)]

/-- Registers of the fabric dies and the stacks. -/
def State.savedFabric (s : State) : List (RegName × Nat) :=
  ((List.range 4).map fun d => [(RegName.THERMAL_CONTROL, d), (.ROUTE_CONTROL, d), (.SAMPLE_CONTROL, d),
      (.SAMPLE_PORTS_LOW, d), (.SAMPLE_PORTS_HIGH, d)]).flatten
    ++ (s.ports.map fun c => [(RegName.GATE_CONTROL, c.num), (.GATE_SWITCH_LOW, c.num), (.GATE_SWITCH_HIGH, c.num)]).flatten
    ++ s.enabledMills.map (fun m => (.POOL_RETRY_HINT, m)) ++ (List.range 20).map (fun k => (.SCRUB_CONTROL, k))

/-- Words of the gate lists. -/
def State.savedLists (s : State) : List (Nat × Word) :=
  s.arrays.filter fun e => (List.range 4).any fun d =>
    decide (dieBase d + 0x00040000 ≤ e.1) && decide (e.1 < dieBase d + 0x00080000)

/-- The entries of a save (R484): management address and the RW fields. -/
def State.saveEntries (s : State) (t : Nat) : List (Nat × Nat) :=
  let names := s.savedPorts ++ (if t = 3 then savedControl ++ s.savedFabric else [])
  names.map (fun x => (regAddr x.1 x.2, s.reg x.1 x.2 &&& (regRow x.1).mask .rw))
    ++ (if t = 3 then s.savedLists.map fun e => (e.1, e.2.toNat) else [])

/-- The save area (R485). -/
def saveBytes (t : Nat) (es : List (Nat × Nat)) : List Byte :=
  let body := (es.map fun e => leBytes 4 e.1 ++ leBytes 4 e.2).flatten
  ascii "SHPS" ++ leBytes 1 t ++ zeros 3 ++ leBytes 4 es.length ++ zeros 4 ++ leBytes 8 (crc64 body).toNat ++ zeros 40
    ++ body

/-- The entries of the save area; none where its CRC-64 fails (R485). -/
def PowerSt.saved (p : PowerSt) : Option (List (Nat × Nat)) :=
  let n := leAt p.saveArea 8 4
  let body := sliceB p.saveArea 64 (8 * n)
  if leAt p.saveArea 16 8 = (crc64 body).toNat then
    some ((List.range n).map fun i => (leAt body (8 * i) 4, leAt body (8 * i + 4) 4))
  else none

/-- Write one saved word back. -/
def State.restoreReg (s : State) (e : Nat × Nat) : State :=
  match regAt e.1 with
  | none => s.setArr e.1 (BitVec.ofNat 32 e.2)
  | some (n, i) =>
    let m := (regRow n).mask .rw
    let w := s.reg n i
    s.setReg n i (w - (w &&& m) + (e.2 &&& m))

/-- Write back the saved words of an address range (R487). -/
def State.restoreRange (s : State) (lo hi : Nat) : State :=
  match s.power.saved with
  | none => s
  | some es => (es.filter fun e => decide (lo ≤ e.1) && decide (e.1 < hi)).foldl State.restoreReg s

/-- The restore engine's check on an exit (R485): a failure is recorded and reported. -/
def State.restoreCheck (s : State) : State :=
  if s.power.saved.isSome then s
  else (s.setFlag F.PWR_STATUS_RESTORE_FAIL 0 true).raiseFrom Config.powerSource 0x54 0 0

/-- POWER_SAVE_DONE (R479, R484). -/
def execPowerSaveDone (s : State) : Host.Outcome State Fault Refusal :=
  match s.power.change with
  | some (.enter t) =>
    if s.pwrPhase = 2 then
      .next ((s.mapPower fun p => { p with saveArea := saveBytes t (s.saveEntries t) }).setFld F.PWR_STATUS_PHASE 0 3)
    else .next s
  | _ => .next s

/-! ## Reaching a state (R477, R479) -/

/-- Stacks that are ready go into self-refresh (R436). -/
def State.stacksSleep (s : State) (ks : List Nat) : State :=
  ks.foldl (fun s k => if s.fld F.MEM_STATUS_STATE k = 3 then s.setFld F.MEM_STATUS_STATE k 4 else s) s

/-- Stacks in self-refresh come back, without training (R436, R487). -/
def State.stacksWake (s : State) (ks : List Nat) : State :=
  ks.foldl (fun s k => if s.fld F.MEM_STATUS_STATE k = 4 then s.setFld F.MEM_STATUS_STATE k 3 else s) s

/-- DOZE is reached: core clocks gated, stacks in self-refresh, chiplets off. -/
def State.dozeNow (s : State) : State :=
  ((s.setFld F.PWR_STATUS_STATE 0 2).stacksSleep (List.range 20)).mapPower fun p =>
    { p with dozing := [0, 1, 2, 3], groups := [] }

/-- KEEP is reached: everything but the keep and the retention die is off. -/
def State.keepNow (s : State) : State :=
  (s.setFld F.PWR_STATUS_STATE 0 3).allOff.mapPins fun p => { p with corePwrEn := false }

/-- POWER_STATE_REACHED (R479): an address match that came after the commit point wakes the device at once (R481). -/
def execPowerStateReached (s : State) : Host.Outcome State Fault Refusal :=
  match s.power.change with
  | some (.enter t) =>
    if s.pwrPhase = 3 then
      let m := s.power.matched
      let s := s.pwrEnd
      if t = 1 then .next (s.setFld F.PWR_STATUS_STATE 0 1)
      else if t = 2 then .next (if m then s.dozeNow.wakeDoze else s.dozeNow)
      else .next (if m then s.keepNow.wakeKeep else s.keepNow)
    else .next s
  | _ => .next s

/-- An SMBus address match (R481, R486). -/
def State.addressMatch (s : State) : State :=
  match s.power.change with
  | some (.enter _) =>
    if s.pwrPhase = 1 then s.abortEntry smbusVote else s.mapPower fun p => { p with matched := true }
  | some _ => s
  | none => if s.pwr = 2 then s.wakeDoze else if s.pwr = 3 then s.wakeKeep else s

/-- SMBUS_ADDRESS_MATCH (R486). -/
def execSmbusAddressMatch (s : State) : Host.Outcome State Fault Refusal := .next s.addressMatch

/-! ## Releases (R487, R488) -/

/-- A unit leaves the list of those to be released. The last one ends the exit (R486). -/
def State.released (s : State) : State :=
  let s := s.mapPower fun p => { p with release := p.release.tail }
  if s.power.release.isEmpty && s.waking then s.pwrEnd else s

/-- The chiplets of a lane group (R417). -/
def chipletsIn (g : Nat) : List Nat := (List.range 4).map (4 * g + ·)

/-- Registers of a lane group's chiplets: at reset, then the port map's, then the saved ones (R484, R487, R553). -/
def State.groupRegs (s : State) (g : Nat) (saved : Bool) : State :=
  let cs := chipletsIn g
  let s := (cs.foldl State.clearChiplet s).lanesFromMap cs
  if saved then s.restoreRange (0x20000000 + 4 * g * 0x00100000) (0x20000000 + (4 * g + 4) * 0x00100000) else s

/-- A unit comes back from DOZE. -/
def State.wakeUnit (s : State) (u : PowerUnit) : State :=
  match u with
  | .die d => s.mapPower fun p => { p with dozing := p.dozing.filter (· != d) }
  | .stackGroup h => s.stacksWake (stackGroup h)
  | .laneGroup g => (s.groupRegs g true).releaseGroup g

/-- WAKE_UNIT_RELEASE (R487). The save area is checked before the first chiplet's registers are written (R485). -/
def execWakeUnitRelease (u : PowerUnit) (s : State) : Host.Outcome State Fault Refusal :=
  if s.power.change = some .leaveDoze ∧ s.power.release.head? = some u then
    let s := if u = .laneGroup 0 then s.restoreCheck else s
    .next (s.wakeUnit u).released
  else .next s

/-- Does this start restore saved registers: it is an exit from KEEP? -/
def State.restoring (s : State) : Bool := s.power.change == some .leaveKeep

/-- Start the PLL of an island (R465). -/
def State.pllStart (s : State) (i : Nat) : State := s.setFlag F.ISLAND_CLOCK_PLL_EN i true

/-- A stack is released: training begins (R437, R488). -/
def State.startStack (s : State) (k : Nat) : State :=
  let lo := 0x30000000 + k * 0x00100000
  let s := if s.restoring then s.restoreRange lo (lo + 0x00100000) else s
  (if s.fld F.MEM_STATUS_STATE k = 0 then s.setFld F.MEM_STATUS_STATE k 1 else s).pllStart (5 + k)

/-- A unit is released in the start sequence. -/
def State.startUnit (s : State) (u : PowerUnit) : State :=
  match u with
  | .die d =>
    let s := (s.mapPower fun p => { p with dies := p.dies.filter (· != d) ++ [d] }).dieFromImage d
    (if s.restoring then s.restoreRange (dieBase d) (dieBase d + 0x04000000) else s).pllStart (1 + d)
  | .stackGroup h => (stackGroup h).foldl State.startStack s
  | .laneGroup g =>
    ((chipletsIn g).foldl (fun s c => s.pllStart (25 + c)) (s.groupRegs g s.restoring)).releaseGroup g

/-- START_UNIT_RELEASE (R488), also after the reset of a fabric die (R474, R554). -/
def execStartUnitRelease (u : PowerUnit) (s : State) : Host.Outcome State Fault Refusal :=
  if s.power.fw ∧ s.power.change ≠ some .leaveDoze ∧ s.power.release.head? = some u then .next (s.startUnit u).released
  else .next s

/-! ## The control die starts (R462, R487, R506, R553, R570) -/

/-- SEQ of the newest record of the flight recorder; 0 while it holds none. -/
def WtSt.lastSeq (w : WtSt) : Nat := match w.ring.getLast? with | some e => e.seq.toNat | none => 0

/-- The control die is powered and the boot ROM runs: START_CAUSE is set, the FR registers are loaded from the ring
pointers, and an exit from KEEP writes the saved control-die registers. -/
def State.startCore (s : State) : State :=
  let cause := if s.power.afterSag then 2 else if s.restoring then 1 else 0
  let seq := s.wt.lastSeq
  let s := ((s.setFld F.PWR_STATUS_START_CAUSE 0 cause).setFld F.PWR_STATUS_STATE 0 0).setReg .FR_WRITE_SEQ 0 seq
  let s := (s.setReg .FR_COPY_SEQ 0 s.wt.copied.toNat).mapPower fun p =>
    { p with core := true, fw := false, rom := true, afterSag := false }
  let s := { s with wt := { s.wt with nextSeq := BitVec.ofNat 32 (seq % 0xFFFFFFFF + 1) } }
  if s.restoring then (s.restoreCheck).restoreRange 0 0x01000000 else s

/-- May the control die run: rails good, no hold (R570, R572)? -/
def State.mayStart (s : State) : Bool :=
  s.power.pins.corePwrEn && s.power.pins.pwrgd && s.power.pins.sagN && s.power.pins.thermtripN && !s.power.sagHold
    && !s.power.core

end Sys2Proof.Machine
end

