-- ==== Sys2Proof/Machine/Sag.lean ====
section
/-! DEFINITION. The supply sag and the supplies: the freeze and the capture, the sag area, restarts, cold resets and the
thermal trip (spec/20_power_states.md R489 to R496; 24_electrical.md R570 to R582). -/
namespace Sys2Proof.Machine

open Sys2Proof

/-- The counter registers: those with a field that software clears by writing zero. -/
def counterRegs : List RegName :=
  [.TFP_DISCARD_COUNT, .ARITH_EVENTS, .ARITH_FLUSHES, .RESIDUE_STATUS, .MILL_CONTEXTS,
    .MILL_DISCARDS, .CHECK_EVENTS, .SUPERSEDE_EVENTS, .LEDGER_STATUS, .COMPRESS_EVENTS,
    .COMPRESS_WAITS, .SPIRE_EVENTS, .DISPATCH_EVENTS, .DISPATCH_CLOSES, .ADMIT_COUNTS,
    .TALLY_EVENTS, .BELL_EVENTS, .ROUTE_DISCARDS, .EPOCH_DISCARDS, .CELL_POOL_EVENTS,
    .TAIL_EVENTS, .REFCOUNT_STATUS, .HEADROOM_EVENTS, .POOL_EVENTS, .SAMPLE_EVENTS,
    .POLICE_EVENTS, .CRUISE_EVENTS, .CRUISE_DISCARDS, .SURVIVAL_EVENTS, .LANDING_EVENTS,
    .REPEAT_STATUS, .PRBS_ERRORS, .FEC_COUNTS, .PORT_LINK, .MEM_ERRORS,
    .WT_COUNTS, .GATED_ACCESS, .PWR_EVENTS, .SAG_STATUS, .ATTEST_STATUS,
    .DCL_COUNTS, .UPD_STATUS, .SMB_STATUS, .BUS_ERRORS]

/-- PHASE of EPOCH_STATE (R282). -/
def EpochPhase.code : EpochPhase → Nat
  | .idle => 0
  | .prepared => 1
  | .switched => 2

/-- Section EPOCHS. -/
def State.sagEpochs (s : State) : List Byte :=
  ((List.range 4).map fun _ =>
    leBytes 4 s.epoch.num.toNat ++ [Config.sagEpochByte s.curBit s.epoch.phase.code] ++ zeros 3).flatten

/-- The highest committed step of a job: behind the floor, the latest that did not abort. -/
def Job.lastCommitted (j : Job) : BitVec 32 :=
  let ahead := (List.range j.depth).map fun i => j.floor + BitVec.ofNat 32 i
  let below := (List.range 256).map fun i => j.floor - BitVec.ofNat 32 (i + 1)
  match (ahead.reverse.filter fun st => (j.step st).ended == some .committed).head? with
  | some st => st
  | none => ((below.filter fun st => !j.aborted.contains st).head?).getD (j.floor - 1)

/-- Section FLOORS. -/
def State.sagFloors (s : State) : List Byte :=
  (s.jobs.map fun j => leBytes 2 (jobGen j.id j.cur.plan.gen) ++ zeros 2 ++ leBytes 4 j.floor.toNat
    ++ leBytes 4 j.lastCommitted.toNat ++ zeros 4).flatten

/-- Section COUNTERS. -/
def State.sagCounters (s : State) : List Byte :=
  (counterRegs.map fun n => ((List.range (regRow n).count).map fun i =>
    leBytes 4 (regAddr n i) ++ leBytes 4 (s.view n i)).flatten).flatten

/-- The sag-area header (R494). -/
def sagHeader (seq state status ns : Nat) : List Byte :=
  ascii "SHSG" ++ leBytes 4 seq ++ leBytes 1 state ++ leBytes 1 status ++ zeros 6 ++ leBytes 8 ns ++ zeros 40

/-- A section with its header. -/
def sagSection (x : Nat × List Byte) : List Byte :=
  leBytes 2 x.1 ++ zeros 2 ++ leBytes 4 x.2.length ++ leBytes 8 (crc64 x.2).toNat ++ x.2

/-- Only the control die and the retention die are left (R491, step 4). -/
def State.isolated (s : State) (x : SagSave) (header : List Byte) : State :=
  let t := s.allOff
  { t with
    regs := s.regs.filter fun e => decide (e.1 < 0x01010000) || powerOnRegs.contains e.1
    time := s.time, wt := s.wt, host := s.host, boot := s.boot, upd := s.upd, image := s.image
    power := { t.power with core := true, sagArea := header, sag := some x } }

/-- The freeze and the capture (R491, steps 1 to 5). Every step record is in the retention die already, so section STEPS is
empty. -/
def State.sagFreeze (s : State) : State :=
  let seq := (leAt s.power.sagArea 4 4 + 1) % 2 ^ 32
  let state := s.pwr
  let s := (s.pwrEnd.bump F.SAG_STATUS_SAG_COUNT 0).setFld F.SAG_STATUS_LAST_SAVE_US 0 0xFFFF
  let x : SagSave := { sections := [(2, []), (3, s.sagEpochs), (4, s.sagFloors), (5, s.sagCounters)], reset := none }
  (s.isolated x (sagHeader seq state 0 s.ns)).mapPins fun p => { p with sagN := false }

/-- SAG_N_ASSERTED (R490, R491, R572). -/
def execSagNAsserted (s : State) : Host.Outcome State Fault Refusal :=
  if s.power.sag.isSome then .next s
  else if s.power.core && s.power.pins.pwrgd then .next s.sagFreeze
  else .next (s.mapPower fun p => { p with pins := { p.pins with sagN := false }, sagHold := true })

/-- Append a record to the flight recorder; the newest overwrites the oldest (R458). -/
def State.flight (s : State) (e : WtEntry) : State :=
  let ring := s.wt.ring ++ [e]
  let s := s.setReg .FR_WRITE_SEQ 0 e.seq.toNat
  { s with wt := { s.wt with ring := ring.drop (ring.length - 262144), waiting := min 262144 (s.wt.waiting + 1) } }

/-- The next SEQ: never 0 (R458). -/
def State.takeSeq (s : State) : BitVec 32 × State :=
  (s.wt.nextSeq, { s with wt := { s.wt with nextSeq := if s.wt.nextSeq = 0xFFFFFFFF then 1 else s.wt.nextSeq + 1 } })

/-- A new entry for a message. -/
def State.wtEntry (s : State) (m : FaultMsg) (seq : BitVec 32) : WtEntry :=
  { msg := m, ns := BitVec.ofNat 64 s.ns, seq := seq, rep := m.localRepeats.setWidth 16, actions := 0, value := 0,
    state := .pending, timeValid := s.timeValid, jumped := false, loggedRepeat := none, forceAct := false }

/-- A message from a source code. -/
def msgFrom (src : BitVec 19) (kind : Nat) : FaultMsg :=
  let n := src.toNat
  faultMsg (n / 2 ^ 16) (n / 2 ^ 10 % 2 ^ 6) (n % 2 ^ 10) kind 0 0

/-- The appends and the sections of a sag save (R491, steps 6 to 8). -/
def State.sagWrite (s : State) (x : SagSave) (us : Nat) : State :=
  let s := (s.wt.queue.filter fun e => e.loggedRepeat.isNone).foldl State.flight s
  let (seq, s) := s.takeSeq
  let s := s.flight (s.wtEntry (msgFrom Config.powerSource 0x52) seq)
  let ring : Nat × List Byte := (1, leBytes 4 (s.reg .FR_WRITE_SEQ 0) ++ leBytes 4 (s.reg .FR_COPY_SEQ 0))
  let head := s.power.sagArea
  let area := head.take 9 ++ leBytes 1 1 ++ head.drop 10 ++ ((ring :: x.sections).map sagSection).flatten
  ((s.mapPower fun p => { p with sagArea := area }).setFld F.SAG_STATUS_LAST_SAVE_US 0 us).setFlag
    F.PWR_STATUS_SAG_SAVED 0 true

/-- After the save the control die is off, and the keep holds every other domain (R491, step 9; R493). -/
def State.sagOff (s : State) : State :=
  let r := match s.power.sag with | some x => x.reset | none => none
  let s := (s.mapPower fun p => { p with afterSag := true, sagHold := true }).allOff
  match r with
  | some straps => s.coldReset straps
  | none => s

/-- SAG_SAVE_COMPLETE (R491). -/
def execSagSaveComplete (us : Nat) (s : State) : Host.Outcome State Fault Refusal :=
  match s.power.sag with
  | none => .next s
  | some x => .next (s.sagWrite x us).sagOff

/-- SAG_RESTART (R493, R572): SAG_N has been high for 10 ms. A save that had not completed leaves STATUS INCOMPLETE. -/
def execSagRestart (s : State) : Host.Outcome State Fault Refusal :=
  let s := if s.power.sag.isSome then s.sagOff else s
  if !s.power.sagHold then .next s
  else
    let s := s.mapPower fun p => { p with sagHold := false, pins := { p.pins with sagN := true } }
    .next (if s.mayStart then s.startCore else s)

/-! ## Supplies (R570 to R574, R582) -/

/-- VKEEP_APPLIED (R570). -/
def execVkeepApplied (straps : BitVec 2) (s : State) : Host.Outcome State Fault Refusal := .next (s.coldReset straps)

/-- PWRGD_RISE (R570, R572). -/
def execPwrgdRise (s : State) : Host.Outcome State Fault Refusal :=
  let s := s.mapPins fun p => { p with pwrgd := true }
  .next (if s.mayStart then s.startCore else s)

/-- PWRGD_FALL (R571, R572): during a sag save it waits for the save's end; with CORE_PWR_EN and SAG_N high it is an abrupt
loss. -/
def execPwrgdFall (s : State) : Host.Outcome State Fault Refusal :=
  let t := s.mapPins fun p => { p with pwrgd := false }
  if s.power.sag.isSome then .next t
  else if s.power.pins.pwrgd && s.power.pins.sagN && s.power.pins.corePwrEn then
    .next ((t.mapPower fun p => { p with afterSag := false }).pwrEnd.allOff)
  else if s.restoring && !s.power.pins.corePwrEn then .next (t.mapPins fun p => { p with corePwrEn := true })
  else .next t

/-- KEEP_RST (R574): as a fresh application of VKEEP; during a sag save it waits for the save's end. -/
def execKeepRst (straps : BitVec 2) (s : State) : Host.Outcome State Fault Refusal :=
  match s.power.sag with
  | some x => .next (s.mapPower fun p => { p with sag := some { x with reset := some straps } })
  | none => .next (s.coldReset straps)

/-- THERMTRIP (R582): no save; held until VKEEP or KEEP_RST_N resets the keep. -/
def execThermtrip (s : State) : Host.Outcome State Fault Refusal :=
  .next (s.pwrEnd.allOff.mapPins fun p => { p with thermtripN := false, corePwrEn := false })

end Sys2Proof.Machine
end

