-- ==== Sys2Proof/Machine/Watchtower.lean ====
section
/-! DEFINITION. The watchtower: acceptance, the queue, the reaction engine, retiring, clearing, force bits and the watchdog
(spec/18_watchtower.md R446 to R460). -/
namespace Sys2Proof.Machine

open Sys2Proof

/-- Change the watchtower's record. -/
def State.mapWt (s : State) (g : WtSt → WtSt) : State := { s with wt := g s.wt }

/-- Does the watchtower run: the control die is powered, and no sag save has stopped it (R462, R491)? -/
def State.wtRuns (s : State) : Bool := s.power.core && s.power.sag.isNone

/-! ## Actions (R451, R452) -/

/-- HALT (R452): HALTED sets and every port is forced down. -/
def State.halt (s : State) : State :=
  let s := (s.setFlag F.WT_STATUS_HALTED 0 true).mapPower fun p => { p with haltReset := [] }
  s.ports.foldl (fun s c => s.forceDown c true) s

/-- INTERRUPT (R452): HOST_INT_STATUS bit 0 mirrors IRQ_PENDING (R546). -/
def State.irq (s : State) : State := (s.setFlag F.WT_STATUS_IRQ_PENDING 0 true).raiseInt 0

/-- FENCE_PORT (R345, R452). -/
def State.fencePort (s : State) (p : Nat) : State :=
  s.onPort p fun c => (s.setFlag F.PORT_CRUISE_FORCE c.lane0 true).parentLost p

/-- ABORT_STEP (R452): it acts at a releasing switch of the job, on a step of which a context has opened here and which has
not ended here. -/
def State.abortAction (s : State) (address : BitVec 48) : State :=
  let a := address.toNat
  let job := BitVec.ofNat 12 (a / 2 ^ 32)
  let step := BitVec.ofNat 32 a
  let ok := match s.job? job with
    | none => false
    | some j => j.cur.plan.groups.any j.cur.releases && (j.step step).opened && !j.stepEnded step
  if ok then (s.abortStep job step 0x0006 none .own).settleFree else s.bump F.WT_COUNTS_ABORT_SKIPPED 0

/-- The actions an entry takes (R452, R453, R456): the table's for a real message; for a forced one LOG and INTERRUPT, and
the others only under FORCE_ACT. In BOOT_FAILED the table holds its default values (R508). -/
def State.actionsOf (s : State) (e : WtEntry) : Nat :=
  let k := e.msg.kind.toNat
  let v := if s.fld F.BOOT_STATUS_STAGE 0 = 4 then defaultActions k else s.fld F.REACTION_ACTIONS k
  if e.msg.forced then 3 ||| (if e.forceAct then v &&& 0x1C else 0) else v

/-- Carry out the actions of an entry in HANDLING (R452); the record of LOG holds the entry as it then stands. -/
def State.act (s : State) (e : WtEntry) (v : Nat) : State :=
  let s := if bitOf v 0 then s.flight e else s
  let s := if bitOf v 1 then s.irq else s
  let s := if bitOf v 2 then s.fencePort (bitsOf e.msg.address.toNat 7 0) else s
  let s := if bitOf v 3 then s.abortAction e.msg.address else s
  if bitOf v 4 then s.halt else s

/-! ## Acceptance (R446 to R450) -/

/-- Is a message fatal to the device? -/
def FaultMsg.fatal (m : FaultMsg) : Bool := m.cls == 3#2

/-- May an entry be overtaken or evicted by a fatal-to-device message? -/
def WtEntry.yields (e : WtEntry) : Bool := e.state == .pending && !e.msg.fatal

/-- Merge into an entry (R448). -/
def WtEntry.merge (e : WtEntry) (m : FaultMsg) : WtEntry :=
  { e with rep := BitVec.ofNat 16 (satAdd 16 e.rep.toNat (1 + m.localRepeats.toNat)) }

/-- The message of kind 0x06, which the watchtower itself writes (R450). -/
def overflowMsg : FaultMsg := faultMsg dieCD 0x0C 0 0x06 0 0

/-- A message or an entry is lost (R450). -/
def State.wtLoss (s : State) : State :=
  let s := s.bump F.WT_COUNTS_OVERFLOW_COUNT 0
  if s.flag F.WT_STATUS_OVERFLOW 0 then s
  else
    let s := (s.setFlag F.WT_STATUS_OVERFLOW 0 true).kindSeen 0x06
    let (seq, s) := s.takeSeq
    s.flight (s.wtEntry overflowMsg seq)

/-- Put a fatal-to-device entry before the first PENDING entry that is not fatal to the device (R447). -/
def insertFatal (e : WtEntry) (q : List WtEntry) : List WtEntry :=
  let front := q.takeWhile fun x => !x.yields
  let back := q.dropWhile fun x => !x.yields
  front ++ { e with jumped := back.any fun x => x.state == .pending } :: back

/-- Make an entry of a message that has room (R447, R448). -/
def State.enter (s : State) (m : FaultMsg) : State :=
  let (seq, s) := s.takeSeq
  let e := { s.wtEntry m seq with forceAct := s.flag F.FORCE_FORCE_ACT 0 }
  s.mapWt fun w => { w with queue := if m.fatal then insertFatal e w.queue else w.queue ++ [e] }

/-- Drop the last entry that yields. -/
def dropNewest (q : List WtEntry) : List WtEntry :=
  let r := q.reverse
  ((r.takeWhile fun x => !x.yields) ++ (r.dropWhile fun x => !x.yields).drop 1).reverse

/-- Merge, queue or lose a message (R447, R448, R450). -/
def State.wtTake (s : State) (m : FaultMsg) : State :=
  let n := s.wt.queue.length
  if s.wt.queue.any fun e => e.msg.same m then
    s.mapWt fun w => { w with queue := w.queue.map fun e => if e.msg.same m then e.merge m else e }
  else if m.fatal then
    if n < 1024 then s.enter m
    else if s.wt.queue.any WtEntry.yields then
      ((s.mapWt fun w => { w with queue := dropNewest w.queue }).wtLoss).enter m
    else s.wtLoss
  else if n < 1008 then s.enter m
  else s.wtLoss

/-- Does a message apply HALT at acceptance (R451, R456)? -/
def State.haltsAtOnce (s : State) (m : FaultMsg) : Bool := m.fatal && (!m.forced || s.flag F.FORCE_FORCE_ACT 0)

/-- Accept a message (R446): a fatal-to-device one applies HALT and aborts an entry in QUIESCE (R451, R481). -/
def State.wtAccept (s : State) (m : FaultMsg) : State :=
  let s := s.setFld F.WT_STATUS_CLASS_SEEN 0 (s.fld F.WT_STATUS_CLASS_SEEN 0 ||| 2 ^ m.cls.toNat)
  let s := s.wtTake m
  let s := if s.haltsAtOnce m then s.halt else s
  if m.fatal then s.abortEntry ⟨m.source.toNat, 0⟩ else s

/-- Remove the first message held by a source. -/
def dropHeld (src : BitVec 19) : List FaultMsg → List FaultMsg
  | [] => []
  | m :: t => if m.source == src then t else m :: dropHeld src t

/-- FAULT_MESSAGE_ACCEPT (R446): the watchtower takes the message that a source holds. -/
def execFaultMessageAccept (source : BitVec 19) (s : State) : Host.Outcome State Fault Refusal :=
  if !s.wtRuns then .next s
  else
    match s.wt.held.find? fun m => m.source == source with
    | none => .next s
    | some m => .next ((s.mapWt fun w => { w with held := dropHeld source w.held }).wtAccept m)

/-! ## The reaction engine (R451) -/

/-- Replace the entry with a SEQ that satisfies a test. -/
def WtSt.mapEntry (w : WtSt) (t : WtEntry → Bool) (g : WtEntry → WtEntry) : WtSt :=
  { w with queue := w.queue.map fun e => if t e then g e else e }

/-- REACTION_HANDLE (R451, R452): the first PENDING entry goes to HANDLING, with the ACTIONS value of that moment (R453),
and its actions are carried out. -/
def execReactionHandle (s : State) : Host.Outcome State Fault Refusal :=
  if !s.wtRuns || s.wt.queue.any fun e => e.state == .handling then .next s
  else
    match s.wt.queue.find? fun e => e.state == .pending with
    | none => .next s
    | some e =>
      let v := s.actionsOf e
      let e' := { e with state := .handling, actions := BitVec.ofNat 8 v, value := BitVec.ofNat 8 v
                         loggedRepeat := if bitOf v 0 then some e.rep else none }
      let s := s.mapWt fun w => w.mapEntry (fun x => x.seq == e.seq) (fun _ => e')
      .next (s.act e' v)

/-- ENTRY_REACTED (R451). -/
def execEntryReacted (s : State) : Host.Outcome State Fault Refusal :=
  if s.wtRuns then
    .next (s.mapWt fun w => w.mapEntry (fun e => e.state == .handling) (fun e => { e with state := .reacted }))
  else .next s

/-! ## Retiring (R454) -/

/-- Retire n leading REACTED entries, or as many as there are; a REPEAT that rose since the LOG is written again. -/
def State.retireN (s : State) (n : Nat) : State :=
  let k := min n s.reactedLead
  let gone := s.wt.queue.take k
  let s := (gone.filter fun e => match e.loggedRepeat with | some r => r != e.rep | none => false).foldl State.flight s
  s.mapWt fun w => { w with queue := w.queue.drop k }

/-- RETIRE (R454). -/
def execRetire (count : BitVec 11) (s : State) : Host.Outcome State Fault Refusal :=
  if s.wtRuns then .next (s.retireN count.toNat) else .next s

/-! ## Clearing (R455) -/

/-- The bits of a word that W1C fields hold. -/
def w1cMask (n : RegName) : Nat := (regRow n).mask .w1c

/-- A condition's cause persists: its source raises it once more. -/
def State.reRaise (s : State) (q : FaultMsg → Bool) : State :=
  ((s.wt.causes ++ s.wt.forcedHold).filter q).foldl (fun s m => s.raiseMsg { m with localRepeats := 0 }) s

/-- The bits of a KIND_PENDING word that are 0 now and whose kind has a persisting cause set again. -/
def State.kindsAgain (s : State) (h cleared : Nat) : State :=
  s.reRaise fun m => m.kind.toNat / 32 == h && bitOf cleared (m.kind.toNat % 32)

/-- IRQ_PENDING sets again while an unretired entry holds INTERRUPT; HOST_INT_STATUS bit 0 follows it. -/
def State.irqAgain (s : State) : State :=
  let s := s.setFld F.HOST_INT_STATUS_STATUS 0 (s.fld F.HOST_INT_STATUS_STATUS 0 &&& 0xFE)
  if s.wt.queue.any fun e => bitOf e.actions.toNat 1 then s.irq else s

/-- Is the cause of a bridge's fault still there (R444)? -/
def State.bridgeCause (s : State) (d p : Nat) : Option FaultMsg :=
  s.wt.causes.find? fun m => m.kind == 0x11#8 && m.die.toNat == d && m.inst.toNat == p

/-- Bits of BRIDGE_FAULT whose cause persists set again, and the source raises the condition. -/
def State.bridgesAgain (s : State) (d cleared : Nat) : State :=
  (List.range 4).foldl (fun s p =>
    match bitOf cleared p, s.bridgeCause d p with
    | true, some m =>
      (s.setFld F.BRIDGE_STATUS_BRIDGE_FAULT d (s.fld F.BRIDGE_STATUS_BRIDGE_FAULT d ||| 2 ^ p)).raiseMsg
        { m with localRepeats := 0 }
    | _, _ => s) s

/-- A W1C write: the bits clear, then those whose cause persists set again (R455, R474, R476,
R546). -/
def State.clearW1c (s : State) (n : RegName) (i v : Nat) : State :=
  let hit := v &&& w1cMask n &&& s.reg n i
  let s := s.setReg n i (s.reg n i - hit)
  match n with
  | .KIND_PENDING => s.kindsAgain i hit
  | .WT_STATUS => if bitOf hit 29 then s.irqAgain else s
  | .HOST_INT_STATUS => if bitOf hit 0 && s.flag F.WT_STATUS_IRQ_PENDING 0 then s.raiseInt 0 else s
  | .BRIDGE_STATUS => s.bridgesAgain i (bitsOf hit 7 4)
  | .CLOCK_STATUS =>
    if bitOf hit 31 && !s.flag F.CLOCK_STATUS_REF_OK 0 then
      (s.setFlag F.CLOCK_STATUS_REF_LOST 0 true).reRaise fun m => m.kind == 0x08#8 && m.inst == 63#10
    else s
  | .REPEAT_STATUS =>
    if bitOf hit 31 && s.fld F.THERMAL_CONTROL_LEVEL i != 0 then s.setFlag F.REPEAT_STATUS_THROTTLED i true else s
  | _ => s

/-- FAULT_BIT_CLEAR (R455). -/
def execFaultBitClear (addr mask : Word) (s : State) : Host.Outcome State Fault Refusal :=
  match regAt addr.toNat with
  | some (n, i) => .next (s.clearW1c n i mask.toNat)
  | none => .next s

/-! ## Force bits (R456) and the reaction table (R453) -/

/-- Does a source exist (R443)? -/
def sourceExists (src : Nat) : Bool :=
  let die := src / 2 ^ 16
  let block := src / 2 ^ 10 % 64
  let inst := src % 2 ^ 10
  if block = 0x03 then decide (die < 7) && (decide (inst < 57) || inst == 63)
  else if block = 0x09 then decide (die < 7) && inst == 0
  else if die = 4 then ([0x01, 0x02] ++ (List.range 9).map (0x04 + ·)).contains block && inst == 0
  else if die < 4 then
    match block with
    | 0x10 => decide (inst < 256) || inst == 0x3FF
    | 0x11 => decide (inst / 32 = die)
    | 0x15 => decide (inst / 5 = die)
    | 0x16 => (decide (inst < 4) && inst != die) || (decide (8 ≤ inst) && decide (inst < 16))
    | 0x17 => decide (inst < 2)
    | 0x12 | 0x13 | 0x14 | 0x18 => inst == 0
    | _ => false
  else if die = 5 then block == 0x28 && inst == 0
  else if die = 6 then block == 0x20 || (block == 0x21 && decide (inst < 256))
  else false

/-- The message that FORCE injects. -/
def forcedMsg (src kind cls : Nat) : FaultMsg :=
  { faultMsg (src / 2 ^ 16) (src / 2 ^ 10 % 64) (src % 2 ^ 10) kind 0 0 with cls := BitVec.ofNat 2 cls, forced := true }

/-- Is a kind a condition (R444)? -/
def isCondition (k : Nat) : Bool := match kindRow k with | some r => r.cond | none => false

/-- A write of FORCE (R456). A reserved KIND stays unwritten and is recorded, whether or not the write has GO, and so is a GO
whose source does not exist (R10, R445). -/
def State.writeForce (s : State) (v : Nat) : State :=
  let kind := bitsOf v 7 0
  let known := (kindRow kind).isSome
  let rw := v &&& (regRow .FORCE).mask .rw
  let s := s.setReg .FORCE 0 (if known then rw else setBitsOf rw 7 0 (s.fld F.FORCE_KIND 0))
  let s := if bitOf v 30 then s else s.mapWt fun w => { w with forcedHold := [] }
  if !known then s.reservedWrite (regAddr .FORCE 0) v
  else if !bitOf v 31 then s
  else
    let src := s.fld F.FORCE_SOURCE_SOURCE 0
    if !sourceExists src then s.reservedWrite (regAddr .FORCE 0) v
    else
      let m := forcedMsg src kind (bitsOf v 9 8)
      let s := s.raiseMsg m
      if bitOf v 30 && isCondition kind then s.mapWt fun w => { w with forcedHold := w.forcedHold ++ [m] } else s

/-- FORCE_GO (R456): a write of FORCE with GO set. -/
def execForceGo (w : Word) (s : State) : Host.Outcome State Fault Refusal :=
  .next (s.writeForce (w.toNat ||| 2 ^ 31))

/-- A write of REACTION (R453): the reserved bits of the write are ignored. -/
def State.writeReaction (s : State) (kind v : Nat) : State :=
  if actionsOk kind (v % 32) then s.setFld F.REACTION_ACTIONS kind (v % 32)
  else s.reservedWrite (regAddr .REACTION kind) v

/-- REACTION_WRITE (R453). -/
def execReactionWrite (kind : BitVec 8) (value : Byte) (s : State) : Host.Outcome State Fault Refusal :=
  .next (s.writeReaction kind.toNat value.toNat)

/-! ## The watchdog (R460) -/

/-- A write of SERVICE (R460). -/
def State.service (s : State) (v : Nat) : State := if v = 0xA5C3 then s.mapPower fun p => { p with serviced := true } else s

/-- WATCHDOG_SERVICE (R460). -/
def execWatchdogService (value : BitVec 16) (s : State) : Host.Outcome State Fault Refusal := .next (s.service value.toNat)

/-- The management core is reset (R460, R469): the firmware stops, and island 0 runs on the boot oscillator. -/
def State.coreReset (s : State) : State := (s.islandsReset [0]).mapPower fun p => { p with fw := false }

/-- WATCHDOG_EXPIRY (R460): fatal to the device where the watchdog has not been serviced since its last expiry. -/
def execWatchdogExpiry (s : State) : Host.Outcome State Fault Refusal :=
  if !s.wtRuns then .next s
  else
    let m := faultMsg dieCD blkWatchdog 0 0x01 0 0
    let s := s.raiseMsg (if s.power.serviced then m else { m with cls := 3 })
    .next (s.coreReset.mapPower fun p => { p with serviced := false })

/-- CORE_ECC_UNCORRECTABLE (R445): the core is reset as in R460. -/
def execCoreEccUncorrectable (addr : Word) (s : State) : Host.Outcome State Fault Refusal :=
  if s.wtRuns then .next (s.raise dieCD blkCore 0 0x03 addr.toNat 0).coreReset else .next s

end Sys2Proof.Machine
end

