-- ==== Sys2Proof/Machine/Clocks.lean ====
section
/-! DEFINITION. Clocks, bridges and throttling: PLLs, multiplexers, domain resets, clock enables, the reference monitor, and
the training and failure of bridges (spec/19_clocks.md R461 to R476; 01_architecture.md R18, R19). -/
namespace Sys2Proof.Machine

open Sys2Proof

/-! ## Forwarding (R19, R488, R506) -/

/-- May the switch forward: every bridge is trained, every stack is ready, and epoch 0 is built (R19, R488)? -/
def State.mayForward (s : State) : Bool :=
  (List.range 4).all (fun d => s.fld F.BRIDGE_STATUS_BRIDGE_UP d == 15 - 2 ^ d
    && s.fld F.BRIDGE_STATUS_CHIPLET_UP d == 255)
    && (List.range 20).all s.stackReady && s.flag F.CRUISE_STATUS_FIRST_DONE 0

/-- Forwarding starts, or returns after a reset of fabric dies, as soon as it may. -/
def State.tryForward (s : State) : State := if s.mayForward then s.mapCore fun k => { k with forwarding := true } else s

/-! ## Bridges (R18, R19, R444) -/

/-- BRIDGE_FATAL (R18): peer is a fabric die, or 8 + g for the bridge to chiplet 8d + g (R443). -/
def execBridgeFatal (die peer : Nat) (s : State) : Host.Outcome State Fault Refusal :=
  if !s.power.dies.contains die then .next s
  else if peer < 4 ∧ peer ≠ die then
    .next (s.bridgeLost die peer)
  else if 8 ≤ peer ∧ peer < 16 then .next ((s.chipletUp die (peer - 8) false).bridgeFail die peer)
  else .next s

/-- BRIDGE_TRAINED (R19, R444): a bridge between fabric dies that has failed trains again only after a reset of a die it
joins. -/
def execBridgeTrained (die peer : Nat) (s : State) : Host.Outcome State Fault Refusal :=
  if !s.power.dies.contains die then .next s
  else if peer < 4 ∧ peer ≠ die then
    if s.power.deadBridges.contains (bridgeKey die peer) || !s.power.dies.contains peer then .next s
    else
      .next ((((s.bridgeUp die peer true).bridgeUp peer die true).endCond (bridgeMsg die peer)).endCond
        (bridgeMsg peer die)).tryForward
  else if 8 ≤ peer ∧ peer < 16 then
    .next ((s.chipletUp die (peer - 8) true).endCond (bridgeMsg die peer)).tryForward
  else .next s

/-! ## PLLs and multiplexers (R464 to R468) -/

/-- Islands with a multiplexer (R464). -/
def islands : Nat := 57

/-- The die that holds an island; the reference monitor, 63, lies on the control die. -/
def islandDie (i : Nat) : Nat :=
  if i = 0 then dieCD else if i < 5 then i - 1 else if i < 25 then (i - 5) / 5 else if i < 57 then dieLC else dieCD

/-- A clock-control message. -/
def clockMsg (i kind : Nat) : FaultMsg := faultMsg (islandDie i) blkClock i kind 0 0

/-- Does the clock-control unit run (R462)? -/
def State.clockRuns (s : State) : Bool := s.power.core && s.power.sag.isNone

/-- A write of PLL_EN (R465, R466); `v` is what R10 records. -/
def State.writePllEn (s : State) (i : Nat) (en : Bool) (v : Nat) : State :=
  if en then s.pllStart i
  else if s.flag F.ISLAND_CLOCK_SELECT i then s.reservedWrite (regAddr .ISLAND_CLOCK i) v
  else ((s.setFlag F.ISLAND_CLOCK_PLL_EN i false).setFlag F.ISLAND_CLOCK_PLL_LOCK i false).setFlag
    F.ISLAND_CLOCK_COASTING i false

/-- A write of SELECT (R466): a switch starts, and SWITCH_DONE clears. -/
def State.writeSelect (s : State) (i : Nat) (sel : Bool) (v : Nat) : State :=
  if sel && !s.flag F.ISLAND_CLOCK_PLL_LOCK i then s.reservedWrite (regAddr .ISLAND_CLOCK i) v
  else (s.setFlag F.ISLAND_CLOCK_SELECT i sel).setFlag F.ISLAND_CLOCK_SWITCH_DONE i false

/-- PLL_EN_WRITE (R465). -/
def execPllEnWrite (island : Nat) (v : Bool) (s : State) : Host.Outcome State Fault Refusal :=
  if island < islands ∧ s.clockRuns then
    .next (s.writePllEn island v (setBitsOf (s.reg .ISLAND_CLOCK island) 29 29 (b2n v)))
  else .next s

/-- SELECT_WRITE (R466). -/
def execSelectWrite (island : Nat) (v : Bool) (s : State) : Host.Outcome State Fault Refusal :=
  if island < islands ∧ s.clockRuns then
    .next (s.writeSelect island v (setBitsOf (s.reg .ISLAND_CLOCK island) 31 31 (b2n v)))
  else .next s

/-- A write of the whole of ISLAND_CLOCK (R466): if either field may not take its value, the register stays unchanged. A
switch starts where SELECT changes. -/
def State.writeIsland (s : State) (i v : Nat) : State :=
  let sel := bitOf v 31
  let en := bitOf v 29
  let was := s.flag F.ISLAND_CLOCK_SELECT i
  if (sel && !s.flag F.ISLAND_CLOCK_PLL_LOCK i) || (!en && was) then s.reservedWrite (regAddr .ISLAND_CLOCK i) v
  else
    let s := s.writePllEn i en v
    let s := if sel != was then s.writeSelect i sel v else s
    if bitOf v 24 then s.setFlag F.ISLAND_CLOCK_MUX_TIMEOUT i false else s

/-- A stack leaves self-refresh once its controller's PLL is locked, DOZE apart (R474, R477, R554). -/
def State.stackLocked (s : State) (k : Nat) : State :=
  if s.power.dozing.contains (k / 5) then s else (s.stacksWake [k]).tryForward

/-- PLL_LOCK_ACQUIRED (R465, R474). -/
def execPllLockAcquired (island : Nat) (s : State) : Host.Outcome State Fault Refusal :=
  if island < islands ∧ s.clockRuns ∧ s.flag F.ISLAND_CLOCK_PLL_EN island ∧ s.flag F.CLOCK_STATUS_REF_OK 0 then
    let s := (s.setFlag F.ISLAND_CLOCK_PLL_LOCK island true).setFlag F.ISLAND_CLOCK_COASTING island false
    if 5 ≤ island ∧ island < 25 then .next (s.stackLocked (island - 5)) else .next s
  else .next s

/-- MUX_SWITCH_DONE (R466): a multiplexer that has timed out stays hung (R468). -/
def execMuxSwitchDone (island : Nat) (s : State) : Host.Outcome State Fault Refusal :=
  if island < islands ∧ s.clockRuns ∧ !s.flag F.ISLAND_CLOCK_MUX_TIMEOUT island then
    .next (s.setFlag F.ISLAND_CLOCK_SWITCH_DONE island true)
  else .next s

/-- MUX_TIMEOUT (R468). -/
def execMuxTimeout (island : Nat) (s : State) : Host.Outcome State Fault Refusal :=
  if island < islands ∧ s.clockRuns ∧ !s.flag F.ISLAND_CLOCK_SWITCH_DONE island then
    .next ((s.setFlag F.ISLAND_CLOCK_MUX_TIMEOUT island true).raiseMsg (clockMsg island 0x0A))
  else .next s

/-! ## Domain resets (R469, R553) -/

/-- Reset of one lane-chiplet domain: its ports come up again where they may (R411). -/
def State.chipletReset (s : State) (c : Nat) : State :=
  let s := (s.chipletsReset [c]).islandsReset [25 + c]
  s.ports.foldl (fun s p => if p.lane0 / 32 = c then s.portEnable p else s) s

/-- A write of DOMAIN_RESET (R469). -/
def State.domainReset (s : State) (v : Nat) : State :=
  let i := bitsOf v 5 0
  if bitsOf v 31 24 != 0x5D || s.power.sag.isSome then s
  else if 1 ≤ i ∧ i < 25 then (if s.power.dies.contains (islandDie i) then s.dieReset (islandDie i) else s)
  else if 25 ≤ i ∧ i < islands then (if s.power.groups.contains ((i - 25) / 4) then s.chipletReset (i - 25) else s)
  else s

/-- DOMAIN_RESET (R469). -/
def execDomainReset (w : Word) (s : State) : Host.Outcome State Fault Refusal := .next (s.domainReset w.toNat)

/-! ## Clock enables (R470) -/

/-- Is a block of the control die idle? Block 0 is the SPI controller, 1 SHA3-512, 2 ML-DSA-87, 3 the SRAM-PUF, 4 the
instrument network. -/
def State.blockIdle (s : State) (b : Nat) : Bool :=
  match b with
  | 0 => s.upd.ops.isEmpty
  | 1 => !(s.landings.any fun x => x.shards.any fun y => y.state == .sealing)
  | 2 => s.signQueue.isEmpty
  | 3 => !s.boot.pufWait
  | _ => true

/-- The enable bit of a block. -/
def gateFld (b : Nat) : Fld := ⟨.CLOCK_GATE_CD, b, b⟩

/-- The GATE_PENDING bit of a block. -/
def gatePend (b : Nat) : Fld := ⟨.CLOCK_GATE_CD, 16 + b, 16 + b⟩

/-- A write of one enable bit. -/
def State.gateWrite (s : State) (v b : Nat) : State :=
  if bitOf v b then (s.setFlag (gateFld b) 0 true).setFlag (gatePend b) 0 false
  else if s.blockIdle b then (s.setFlag (gateFld b) 0 false).setFlag (gatePend b) 0 false
  else if s.flag (gateFld b) 0 then s.setFlag (gatePend b) 0 true
  else s

/-- CLOCK_GATE_WRITE (R470). -/
def execClockGateWrite (w : Word) (s : State) : Host.Outcome State Fault Refusal :=
  if s.clockRuns then .next ((List.range 5).foldl (fun s b => s.gateWrite w.toNat b) s) else .next s

/-- BLOCK_GATED (R470): a block whose gating is pending has become idle. -/
def execBlockGated (block : Nat) (s : State) : Host.Outcome State Fault Refusal :=
  if block < 5 ∧ s.flag (gatePend block) 0 then
    .next ((s.setFlag (gateFld block) 0 false).setFlag (gatePend block) 0 false)
  else .next s

/-! ## The reference (R472 to R474) -/

/-- Is a window's count within the limit? -/
def countOk (c : Nat) : Bool := decide (152588 ≤ c + 763) && decide (c ≤ 152588 + 763)

/-- A PLL that runs opens its loop and coasts. -/
def State.coast (s : State) (i : Nat) : State :=
  if s.flag F.ISLAND_CLOCK_PLL_EN i then
    (s.setFlag F.ISLAND_CLOCK_PLL_LOCK i false).setFlag F.ISLAND_CLOCK_COASTING i true
  else s

/-- REF_LOST is raised (R412, R473): ports lose lock and stacks go into self-refresh. -/
def State.refRaised (s : State) (inst : Nat) : State :=
  let s := (s.raiseCond (clockMsg inst 0x08)).stacksSleep (List.range 20)
  s.ports.foldl State.lossOf s

/-- The reference is lost (R472). -/
def State.refLoss (s : State) : State :=
  let s := (s.setFlag F.CLOCK_STATUS_REF_LOST 0 true).setFlag F.CLOCK_STATUS_REF_OK 0 false
  let s := { (List.range islands).foldl State.coast s with time := { s.time with refGone := true } }
  s.refRaised 63

/-- REF_LOST (R472): no edge at all, or a window with its count. -/
def execRefLost (count : Option (BitVec 20)) (s : State) : Host.Outcome State Fault Refusal :=
  if !s.clockRuns then .next s
  else
    match count with
    | none => .next (s.mapPower fun p => { p with refEdges := false }).refLoss
    | some c =>
      let s := (s.setFld F.CLOCK_STATUS_REF_COUNT 0 c.toNat).mapPower fun p => { p with refEdges := c != 0 }
      .next (if countOk c.toNat then s else s.refLoss)

/-- REF_OK (R474): the eighth good window; every REF_LOST condition ends (R444). -/
def execRefOk (count : BitVec 20) (s : State) : Host.Outcome State Fault Refusal :=
  if !s.clockRuns ∨ !countOk count.toNat then .next s
  else
    let s := (s.setFld F.CLOCK_STATUS_REF_COUNT 0 count.toNat).setFlag F.CLOCK_STATUS_REF_OK 0 true
    let s := s.mapPower fun p => { p with refEdges := true }
    let s := { s with time := { s.time with refGone := false } }
    .next (s.mapWt fun w => { w with causes := w.causes.filter fun m => m.kind != 0x08#8 })

/-- PLL_LOCK_LOST (R472): the PLL coasts, and REF_LOST is raised with its island. -/
def execPllLockLost (island : Nat) (s : State) : Host.Outcome State Fault Refusal :=
  if island < islands ∧ s.clockRuns ∧ s.flag F.CLOCK_STATUS_REF_OK 0 ∧ s.flag F.ISLAND_CLOCK_PLL_LOCK island then
    .next ((s.coast island).refRaised island)
  else .next s

/-- BOOT_OSC_STOPPED (R463): the keep holds the control-die domain in reset; the fabric dies go on. -/
def execBootOscStopped (s : State) : Host.Outcome State Fault Refusal := if s.clockRuns then .next s.controlReset else .next s

/-! ## Thermal throttling (R475, R476) -/

/-- THROTTLE_TEMP of a die: values outside 85 to 105 count as the nearer limit. -/
def State.throttleTemp (s : State) (d : Nat) : Int := max 85 (min 105 (s.fld F.THERMAL_CONTROL_THROTTLE_TEMP d : Int))

/-- HOT_TEMP: the sensors' highest reading, or THROTTLE_TEMP + 1 where a stack of the die reads above 105 °C. -/
def State.hotTemp (s : State) (d : Nat) (temp : BitVec 8) : Int :=
  if (stacksOf d).any fun k => decide (105 < toSigned 8 (s.fld F.MEM_STATUS_MAX_TEMP k)) then
    max temp.toInt (s.throttleTemp d + 1)
  else temp.toInt

/-- LEVEL after a reading (R475). -/
def nextLevel (level : Nat) (hot limit : Int) : Nat :=
  if limit < hot then min 8 (level + 1) else if hot ≤ limit - 5 then level - 1 else level

/-- THERMAL_READING (R475, R476). -/
def execThermalReading (die : Nat) (temp : BitVec 8) (s : State) : Host.Outcome State Fault Refusal :=
  if !s.power.dies.contains die then .next s
  else
    let hot := s.hotTemp die temp
    let k := nextLevel (s.fld F.THERMAL_CONTROL_LEVEL die) hot (s.throttleTemp die)
    let s := (s.setFld F.THERMAL_CONTROL_HOT_TEMP die (ofSigned 8 hot)).setFld F.THERMAL_CONTROL_LEVEL die k
    let m := faultMsg die blkClock (1 + die) 0x09 0 0
    if k = 0 then .next (s.endCond m) else .next ((s.setFlag F.REPEAT_STATUS_THROTTLED die true).raiseCond m)

end Sys2Proof.Machine
end

