-- ==== Sys2Proof/Machine/Image.lean ====
section
/-! DEFINITION. The flash and the configuration image: reading and programming the flash, the image's layout, its signatures,
and the configuration checks (spec/21_boot_security.md R497 to R507, R512, R513). -/
namespace Sys2Proof.Machine

open Sys2Proof

/-! ## The flash (R497, R498, R547) -/

/-- An erased byte. -/
def flashErased : Byte := 0xFF

/-- n bytes of the flash. -/
def State.flashAt (s : State) (off n : Nat) : List Byte := sgetRun flashErased off n s.flash.data

/-- Erase a run of whole sectors. -/
def State.flashErase (s : State) (off n : Nat) : State :=
  { s with flash := { s.flash with data := s.flash.data.filter fun c => !(decide (off ≤ c.1) && decide (c.1 < off + n)) } }

/-- Program bytes: an erased byte takes its value, any other a value that the specification leaves open. -/
def State.flashProgram (s : State) (off : Nat) (bs : List Byte) : State :=
  let old := s.flashAt off bs.length
  let (k, s) := if old.all (· == flashErased) then (0, s) else s.draw1
  let new := (old.zip bs).zipIdx.map fun x =>
    if x.1.1 = flashErased then x.1.2 else Config.freeProgrammed k (off + x.2)
  { s with flash := { s.flash with data := ssetRun flashErased off new s.flash.data } }

/-- Bytes of the factory region. -/
def factoryBytes : Nat := 0x100000

/-- Base of a slot: 1 is A, 2 is B. -/
def slotBase (slot : Nat) : Nat := if slot = 2 then 0x00D00000 else 0x00100000

/-- Bytes of a slot. -/
def slotBytes : Nat := 0x00C00000

/-- Start of the log region's place. -/
def logBase : Nat := 0x01900000

/-- Is the flash usable (R497): valid SFDP tables, 256 Mbit to 2 Gbit? -/
def FlashSt.usable (f : FlashSt) : Bool := f.sfdp && decide (0x2000000 ≤ f.bytes) && decide (f.bytes ≤ 0x10000000)

/-! ## The image's layout (R499, R500) -/

/-- A directory entry. -/
structure DirEntry where
  typ : Nat
  off : Nat
  len : Nat
  digest : List Byte
  deriving DecidableEq, Repr

/-- Directory entry i. -/
def dirEntry (bs : List Byte) (i : Nat) : DirEntry :=
  let o := 128 + 80 * i
  ⟨leAt bs o 2, leAt bs (o + 4) 4, leAt bs (o + 8) 4, sliceB bs (o + 16) 64⟩

/-- Bytes of the header and the directory. -/
def dirBytes (bs : List Byte) : Nat := 128 + 80 * leAt bs 6 2

/-- The directory. -/
def dirOf (bs : List Byte) : List DirEntry := (List.range (leAt bs 6 2)).map (dirEntry bs)

/-- Does the header name an image (R499)? -/
def headOk (bs : List Byte) : Bool := sliceB bs 0 4 == [0x53, 0x48, 0x43, 0x49] && leAt bs 4 2 == 1

/-- The image in a slot, whole: IMAGE_BYTES of it; nothing but its header where that names no image. -/
def State.slotImage (s : State) (slot : Nat) : List Byte :=
  let head := s.flashAt (slotBase slot) 128
  if headOk head then s.flashAt (slotBase slot) (min slotBytes (leAt head 8 4)) else head

/-- The required section types. -/
def requiredTypes : List Nat := [0x0001, 0x0010, 0x0011, 0x0012, 0x0013, 0x0014, 0x0015, 0x001F]

/-- Bytes of a signature block. -/
def sigBlock : Nat := 4672

/-- MAGIC, FORMAT_VERSION and the directory (R499, R500). -/
def imageFormOk (bs : List Byte) : Bool :=
  let n := leAt bs 8 4
  let es := dirOf bs
  headOk bs && decide (n ≤ slotBytes) && decide (dirBytes bs ≤ n)
    && es.all (fun e => (requiredTypes ++ [0x001E]).contains e.typ && e.off % 64 == 0 && decide (dirBytes bs ≤ e.off)
        && decide (e.off + e.len ≤ n))
    && decide (es.map (·.typ)).Nodup && requiredTypes.all (fun t => es.any fun e => e.typ == t)
    && decide (leAt bs 20 4 + sigBlock ≤ n) && decide (leAt bs 24 4 + sigBlock ≤ n)

/-- The body of a section. -/
def DirEntry.body (e : DirEntry) (bs : List Byte) : List Byte := sliceB bs e.off e.len

/-- The body of the section of a type. -/
def sectionOf (bs : List Byte) (t : Nat) : Option (List Byte) := ((dirOf bs).find? fun e => e.typ == t).map fun e => e.body bs

/-- The body of a required section. -/
def sectionBody (bs : List Byte) (t : Nat) : List Byte := (sectionOf bs t).getD []

/-- Does every section have the digest that its entry names? -/
def digestsOk (bs : List Byte) : Bool := (dirOf bs).all fun e => sha3 (e.body bs) == e.digest

/-! ## Signatures (R501, R512, R513) -/

/-- What a signature covers: the tag and SHA3-512 over the header and the entries it signs. -/
def signedBy (tag : String) (q : Nat → Bool) (bs : List Byte) : List Byte :=
  let es := (List.range (leAt bs 6 2)).filter fun i => q (dirEntry bs i).typ
  ascii tag ++ sha3 (sliceB bs 0 128 ++ (es.map fun i => sliceB bs (128 + 80 * i) 80).flatten)

/-- The signature in a block. -/
def sigAt (bs : List Byte) (off : Nat) : List Byte := sliceB bs off 4627

/-- The vendor signature (R501). -/
def vendorOk (root bs : List Byte) : Bool :=
  Config.mldsaVerify root (signedBy "SH2048-FW-V1" (fun t => decide (t < 0x10)) bs) (sigAt bs (leAt bs 20 4))

/-- The owner signature, made with the key of the image's OWNER_KEY section (R501, R512). -/
def ownerOk (bs : List Byte) : Bool :=
  Config.mldsaVerify (sectionBody bs 0x1F)
    (signedBy "SH2048-CFG-V1" (fun t => decide (0x10 ≤ t) && decide (t ≤ 0x1E)) bs) (sigAt bs (leAt bs 24 4))

/-- What the ownership rules say of an image. -/
inductive Ownership where
  | same
  | claim (hash : List Byte)
  | transfer (hash : List Byte)
  | refused
  deriving DecidableEq, Repr

/-- The ownership rules (R512, R513; assumption 23 for their order). -/
def ownership (store : BootStore) (bs : List Byte) : Ownership :=
  let hash := sha3 (sectionBody bs 0x1F)
  if !ownerOk bs then .refused
  else if hash = store.ownerKeyHash then .same
  else if allZero store.ownerKeyHash then .claim hash
  else
    match sectionOf bs 0x1E with
    | none => .refused
    | some x =>
      if sliceB x 0 64 = hash ∧
          Config.transferVerify store.ownerKeyHash (ascii "SH2048-TRANSFER-1" ++ sliceB x 0 64) (sliceB x 64 4627) then
        .transfer hash
      else .refused

/-! ## The sections (R502 to R504) -/

/-- One port entry of CABLING. -/
def cableAt (bs : List Byte) : CablePort :=
  { role := (match leAt bs 0 1 with | 1 => .endpoint | 2 => .switch | _ => .unused)
    thin := bitOf (leAt bs 1 1) 0, metro := bitOf (leAt bs 1 1) 1, uplink := bitOf (leAt bs 1 1) 2
    peerPort := leAt bs 2 2, peerFlat := BitVec.ofNat 24 (leAt bs 4 4), peerTier := leAt bs 8 1, upIndex := leAt bs 9 1
    coord := BitVec.ofNat 24 (leAt bs 12 4 % 2 ^ 22), delay := leAt bs 16 4, asym := BitVec.ofNat 32 (leAt bs 20 4) }

/-- One lane entry of PORT_MAP. -/
def laneAt (bs : List Byte) : LaneCfg :=
  let a := leAt bs 0 1
  { mode := bitsOf a 1 0, width := bitsOf a 3 2, txInvert := bitOf a 4, medium := bitsOf a 6 5
    txOrder := bitsOf (leAt bs 1 1) 2 0, taps := leAt bs 2 4 }

/-- POLICIES. -/
def policiesOf (bs : List Byte) : Policies :=
  { weights := (List.range 8).map fun v => leAt bs v 1
    oblivious := leAt bs 8 1, singleSize := bitOf (leAt bs 9 1) 0, maxFrameAge := leAt bs 10 2
    dwellUs := (List.range 8).map fun v => leAt bs (12 + 4 * v) 4
    resendUs := leAt bs 44 4, watchdogMs := leAt bs 48 2, sweepS := leAt bs 50 2, guarCells := leAt bs 52 2
    localCells := leAt bs 56 4, sharedCap := leAt bs 60 4, xoffFree := leAt bs 64 4 }

/-- PLAN_KEYS: up to 16 keys of 2,592 bytes. -/
def planKeysOf (bs : List Byte) : List (List Byte) :=
  (List.range (min 16 (bs.length / 2592))).map fun i => sliceB bs (2592 * i) 2592

/-- The parts of an image that the switch works with. -/
def imageOf (bs : List Byte) : Image :=
  let c := sectionBody bs 0x10
  let m := sectionBody bs 0x11
  let q := sectionBody bs 0x13
  { ownFlat := BitVec.ofNat 24 (leAt c 0 4), tier := leAt c 4 1, childShift := leAt c 5 1, childBits := leAt c 6 1
    position := leAt c 8 2 % 2 ^ 15, timeRoot := BitVec.ofNat 24 (leAt c 12 4)
    cable := (List.range 256).map fun p => cableAt (sliceB c (32 + 32 * p) 32)
    flats := (List.range (leAt c 16 4)).map fun i =>
      let w := leAt c (32 + 8192 + 4 * i) 4
      (w / 2 ^ 24, BitVec.ofNat 24 w)
    lanes := (List.range 1024).map fun i => laneAt (sliceB m (8 * i) 8)
    policies := policiesOf (sectionBody bs 0x12)
    ringsGib := leAt q 0 2, ledgerGib := leAt q 2 2, errorGib := leAt q 4 2, logOff := leAt q 8 4, logLen := leAt q 12 4
    reaction := sectionBody bs 0x14, planKeys := planKeysOf (sectionBody bs 0x15)
    planTag := BitVec.ofNat 64 (leAt (sha3 c) 0 8)
    fwVersion := BitVec.ofNat 32 (leAt bs 16 4), securityVersion := leAt bs 12 2, configSeq := leAt bs 14 2 }

/-! ## Ports of a port map (R399 to R401, R503) -/

/-- Do two lanes belong to one port: they agree in MODE, WIDTH and MEDIUM? -/
def LaneCfg.agrees (a b : LaneCfg) : Bool := a.mode == b.mode && a.width == b.width && a.medium == b.medium

/-- May a lane's mode and width form a port (R399)? -/
def LaneCfg.portOk (a : LaneCfg) : Bool := a.mode == 1 || (a.mode == 2 && a.width != 0)

/-- The ports of the lanes of one chiplet from lane k on: (local lane, lane entry); none where the map is not valid. -/
def chipletPorts (k : Nat) : Nat → List LaneCfg → Option (List (Nat × LaneCfg))
  | 0, _ => some []
  | _, [] => some []
  | n + 1, x :: t =>
    if x.mode = 0 then chipletPorts (k + 1) n t
    else
      let w := 2 ^ x.width
      if x.portOk ∧ k % w = 0 ∧ (t.take (w - 1)).length = w - 1 ∧ (t.take (w - 1)).all x.agrees then
        (chipletPorts (k + w) n (t.drop (w - 1))).map fun ps => (k, x) :: ps
      else none

/-- The ports of a fabric die, by first lane; none where the map is not valid. -/
def diePortsOf (lanes : List LaneCfg) (d : Nat) : Option (List PortCfg) :=
  let cs := (List.range 8).map fun c => chipletPorts 0 32 ((lanes.drop (256 * d + 32 * c)).take 32)
  if cs.all (·.isSome) then
    let ps := (cs.zipIdx.map fun x => (x.1.getD []).map fun y => (256 * d + 32 * x.2 + y.1, y.2)).flatten
    some (ps.zipIdx.map fun x =>
      { num := 64 * d + x.2, lane0 := x.1.1, width := 2 ^ x.1.2.width, mode := x.1.2.mode, widthCode := x.1.2.width,
        medium := x.1.2.medium })
  else none

/-- The ports of a port map; none where it breaks R399 or R400, or gives a die more than 64 ports (R401). -/
def portsOf (lanes : List LaneCfg) : Option (List PortCfg) :=
  let ds := (List.range 4).map (diePortsOf lanes)
  if ds.all fun d => match d with | some ps => decide (ps.length ≤ 64) | none => false then
    some (ds.map (·.getD [])).flatten
  else none

/-! ## The configuration checks (R506 step 7) -/

/-- Is a number within a range? -/
def within (n lo hi : Nat) : Bool := decide (lo ≤ n) && decide (n ≤ hi)

/-- The ranges of R504. -/
def Policies.ok (p : Policies) : Bool :=
  p.weights.all (fun w => within w 1 255) && within p.maxFrameAge 100 900 && p.dwellUs.all (fun t => within t 1 10000)
    && within p.resendUs 5 1000 && within p.watchdogMs 100 30000 && within p.sweepS 1 600 && within p.guarCells 17 1023
    && within p.localCells 4096 65536 && within p.sharedCap 1024 65536 && within p.xoffFree 4096 131072

/-- The partitions (R429): LANDING is left at least 64 GiB, and QUEUE_EXT holds the rings of at most 16 metro ports (R313). -/
def Image.partsOk (im : Image) : Bool :=
  decide ((im.cable.filter (·.metro)).length ≤ 16) && within im.ringsGib 4 64 && within im.ledgerGib 1 256 && decide (im.errorGib ≤ 1024)
    && decide (128 + 4096 + 2048 + (im.ringsGib + im.ledgerGib + im.errorGib) * 1024 + 65536 ≤ 1843200)

/-- The log region (R459, R498): 4 to 64 MiB in whole erase sectors, at its place. -/
def Image.logOk (im : Image) (f : FlashSt) : Bool :=
  within im.logLen 0x400000 0x4000000 && im.logLen % max 1 f.sector == 0 && im.logOff % max 1 f.sector == 0
    && decide (logBase ≤ im.logOff) && decide (im.logOff + im.logLen ≤ f.bytes)

/-- The reaction values (R453). -/
def Image.reactionOk (im : Image) : Bool := (List.range 256).all fun k => actionsOk k (nth im.reaction k 0).toNat

/-- Shared cells of every die (R294). -/
def State.sharedOk (s : State) : Bool :=
  (List.range 4).all fun d =>
    let ps := s.diePorts d
    decide (ps.length * 8 * s.image.policies.guarCells
      + sumN ((ps.filter fun p => !(s.cable p).metro).map s.headroomCells) + s.image.policies.localCells + 65536 ≤ 393216)

/-- Below the top, the up-links carry at least what the down ports do (R336). -/
def State.upRateOk (s : State) : Bool :=
  let rate (q : Nat → Bool) : Nat := sumN (((s.ports.map (·.num)).filter q).map s.gbps)
  s.isTop || decide (rate (fun p => (s.cable p).role != .unused && !(s.cable p).uplink) ≤ rate (fun p => (s.cable p).uplink))

/-- The radix of the switch: 256, or 128 where an inter-switch link runs at more than 800 Gb/s (R336). -/
def State.radix (s : State) : Nat :=
  if s.ports.any fun c => (s.cable c.num).role == .switch && decide (800 < c.gbps) then 128 else 256

/-- Is the switch of a shape of R336: its place values those of a role of R272, its ports of the kinds, tiers and numbers that the
role has, and the links toward one tier of one width? -/
def State.shapeOk (s : State) : Bool :=
  let im := s.image
  let k := s.radix
  let of (q : CablePort → Bool) : List PortCfg := s.ports.filter fun c => q (s.cable c.num)
  let ends := (of fun c => c.role == .endpoint).length
  let ups := of fun c => c.role == .switch && c.uplink
  let downs := of fun c => c.role == .switch && !c.uplink
  let oneWidth (ps : List PortCfg) : Bool := ps.all fun c => c.width == ((ps.head?).map (·.width)).getD 0
  let counts : Bool :=
    match im.tier, im.childShift, im.childBits with
    | 0, 0, 7 => decide (ends ≤ (if ups.isEmpty then 128 else k / 2)) && decide (ups.length ≤ k / 2) && downs.isEmpty
    | 1, 7, 7 => ends == 0 && decide (ups.length ≤ k / 2) && decide (downs.length ≤ k / 2)
    | 1, 7, 8 => ends == 0 && ups.isEmpty && decide (downs.length ≤ k) && im.position == 0
    | 2, 14, 8 => ends == 0 && ups.isEmpty && decide (downs.length ≤ min k 255) && im.position == 0
    | _, _, _ => false
  counts && oneWidth ups && oneWidth downs
    && (ups.all fun c => (s.cable c.num).peerTier == im.tier + 1)
    && downs.all fun c => (s.cable c.num).peerTier + 1 == im.tier

/-- Entries of the FLAT table: the switch, its neighbours and the switches the plan lists (R274). More than 65,536 refuse the
image here; the specification has cruise refuse the fabric and gives no result for it (DESIGN CHOICE, log entry 103). -/
def State.flatFits (s : State) : Bool :=
  let near := (s.ports.filter fun c => (s.cable c.num).role != .unused).map fun c => (s.cable c.num).peerFlat
  decide (1 + near.dedup.length + s.image.flats.length ≤ 65536)

/-- Take an image and its ports as the running ones. -/
def State.withImage (s : State) (im : Image) (ps : List PortCfg) : State := { s with image := im, ports := ps }

/-- The checks of the firmware (R294, R336, R401, R429, R453, R504); a port over the limit of R298 is quarantined by
cruise, and refuses no image. -/
def State.configOk (s : State) (im : Image) : Bool :=
  match portsOf im.lanes with
  | none => false
  | some ps =>
    let t := s.withImage im ps
    im.policies.ok && im.partsOk && im.logOk s.flash && im.reactionOk && t.sharedOk && t.upRateOk && t.shapeOk && t.flatFits

end Sys2Proof.Machine
end

