-- ==== Sys2Proof/Machine/Boot.lean ====
section
/-! DEFINITION. Boot, identity and the boot store (spec/21_boot_security.md R505 to R518). -/
namespace Sys2Proof.Machine

open Sys2Proof

/-! ## The boot unit -/

/-- Change the boot record. -/
def State.mapBoot (s : State) (g : BootSt → BootSt) : State := { s with boot := g s.boot }

/-- Write the boot store: the copy that is not current, with WRITE_COUNT one higher (R505). -/
def State.putStore (s : State) (g : BootStore → BootStore) : State :=
  s.mapBoot fun b => b.put { g b.store with writeCount := b.store.writeCount + 1 }

/-- STAGE of BOOT_STATUS. -/
def State.stage (s : State) : Nat := s.fld F.BOOT_STATUS_STAGE 0

/-- Move to a stage; stages 3 and 4 raise the boot interrupt (R546). -/
def State.toStage (s : State) (n : Nat) : State :=
  let s := s.setFld F.BOOT_STATUS_STAGE 0 n
  if n = 3 ∨ n = 4 then s.raiseInt 7 else s

/-- Raise a kind of the boot unit (R509). -/
def State.raiseBoot (s : State) (kind slot code : Nat) : State := s.raiseFrom Config.bootSource kind slot code

/-- BOOT_FAILED at steps 1 to 3, with its code (R506, R507). -/
def State.bootFail (s : State) (code : Nat) : State := (s.setFld F.BOOT_STATUS_BOOT_CODE 0 code).toStage 4

/-! ## Steps 1 and 2: flash and factory region (R497, R498, R506, R518) -/

/-- The root public key. -/
def State.rootKey (s : State) : List Byte := s.flashAt Config.rootKeyOffset 2592

/-- Bytes of the factory record before its signature block; the helper data are padded to 8 bytes. -/
def factoryLen (head : List Byte) : Nat := 2724 + roundUp (leAt head 2720 4) 8

/-- The factory record before its signature block; none where its head is not one or it leaves the factory region. -/
def State.factoryRecord (s : State) : Option (List Byte) :=
  let head := s.flashAt Config.factoryOffset 2724
  let n := factoryLen head
  if sliceB head 0 4 = ascii "SHFR" ∧ leAt head 4 2 = 1 ∧ Config.factoryOffset + n + sigBlock ≤ factoryBytes then
    some (s.flashAt Config.factoryOffset n)
  else none

/-- The factory record, if the root key and the record's signature hold (R506 step 2). -/
def State.factoryChecked (s : State) : Option (List Byte) :=
  match s.factoryRecord with
  | none => none
  | some r =>
    if sha3 s.rootKey = Config.rootKeyDigest ∧
        Config.mldsaVerify s.rootKey (ascii "SH2048-FACTORY-V1" ++ sha3 r)
          (s.flashAt (Config.factoryOffset + r.length) 4627) then some r
    else none

/-! ## Step 3: identity (R517) -/

/-- The PUF key that a reading gives with the helper data. -/
def pufKey (response record : List Byte) : List Byte :=
  let helper := sliceB record 2724 (leAt record 2720 4)
  (List.range 32).map (Config.pufKeyByte response helper)

/-- The device public key of a PUF key. -/
def identityKey (key : List Byte) : List Byte :=
  let seed := (sha3 (ascii "SH2048-ID-V1" ++ key)).take 32
  (List.range 2592).map (Config.mldsaPublicByte seed)

/-- Does a reading derive the identity that the factory record names? -/
def identityOk (record : List Byte) (puf : PufReading) : Bool :=
  match puf with
  | .ok response => sha3 (identityKey (pufKey response record)) == sliceB record 64 64
  | .bad => false

/-- Step 4 (R506, R514): BOOT_NEXT, else LAST_GOOD, else slot A; BOOT_NEXT is cleared. -/
def State.chooseSlot (s : State) : State :=
  let st := s.boot.store
  let slot := if st.bootNext != 0 then st.bootNext else if st.lastGood != 0 then st.lastGood else 1
  let s := if st.bootNext != 0 then s.putStore fun b => { b with bootNext := 0 } else s
  (s.mapBoot fun b => { b with chosen := slot, slot := slot, second := false, started := none }).toStage 1

/-- Step 3 with one reading of the SRAM: at most 4 readings. -/
def State.readPuf (s : State) (puf : PufReading) : State :=
  let n := s.fld F.BOOT_STATUS_PUF_READINGS 0 + 1
  let s := (s.setFld F.BOOT_STATUS_PUF_READINGS 0 n).mapBoot fun b => { b with pufWait := false }
  if identityOk s.boot.factory puf then s.chooseSlot
  else if n < 4 then (s.raiseBoot 0x65 0 0).mapBoot fun b => { b with pufWait := true }
  else (s.mapBoot fun b => { b with factory := [] }).bootFail 9

/-- BOOT_START (R506): steps 1 to 4. -/
def execBootStart (puf : PufReading) (s : State) : Host.Outcome State Fault Refusal :=
  if !s.power.core || !s.power.rom then .next s
  else
    let s := s.mapPower fun p => { p with rom := false }
    if !s.flash.usable then .next (s.bootFail 10)
    else
      match s.factoryChecked with
      | none => .next (s.bootFail 8)
      | some r => .next ((s.mapBoot fun b => { b with factory := r }).readPuf puf)

/-- PUF_RETRY (R517): the SRAM has been powered down for 1 ms and is read again. -/
def execPufRetry (puf : PufReading) (s : State) : Host.Outcome State Fault Refusal :=
  if s.power.core ∧ s.boot.pufWait then .next (s.readPuf puf) else .next s

/-! ## Step 5: the slot (R506, R507, R512, R513) -/

/-- The checks before the ownership rules: the first failing code, or 0. -/
def State.slotCode (s : State) (bs : List Byte) : Nat :=
  if !imageFormOk bs then 1
  else if !digestsOk bs then 2
  else if !vendorOk s.rootKey bs then 3
  else if leAt bs 12 2 < s.boot.store.svFloor then 5
  else 0

/-- Take a new owner (R512, R513). -/
def State.newOwner (s : State) (hash : List Byte) (transfer : Bool) : State :=
  (s.putStore fun b => { b with ownerKeyHash := hash, configFloor := if transfer then 0 else b.configFloor }).raiseBoot
    0x62 0 0

/-- Step 5 of a slot read whole: its code, and what the ownership rules change. -/
def State.checkSlot (s : State) (bs : List Byte) : Nat × State :=
  let c := s.slotCode bs
  if c != 0 then (c, s)
  else
    let o := ownership s.boot.store bs
    if o = .refused then (4, s)
    else
      let s := match o with
        | .claim h => s.newOwner h false
        | .transfer h => s.newOwner h true
        | _ => s
      (if leAt bs 14 2 < s.boot.store.configFloor then 6 else 0, s)

/-- Reject the slot: the other one is tried once, then boot has failed (R506, R508). -/
def State.rejectSlot (s : State) (code : Nat) : State :=
  let slot := s.boot.slot
  let s := s.setFld (if slot = 2 then F.BOOT_STATUS_CODE_B else F.BOOT_STATUS_CODE_A) 0 code
  let s := s.raiseBoot 0x60 (slot - 1) code
  if s.boot.second then (s.raiseBoot 0x61 (slot - 1) code).toStage 4
  else (s.mapBoot fun b => { b with slot := 3 - slot, second := true }).toStage 1

/-! ## Steps 6 to 8 (R506, R510) -/

/-- The measurement of an image: SHA3-512 over its header and directory (R510). -/
def measurement (bs : List Byte) : List Byte := sha3 (sliceB bs 0 (dirBytes bs))

/-- Step 6: MEAS_DIGEST, DEVICE_ID and MILL_ENABLE. -/
def State.measure (s : State) (bs : List Byte) : State :=
  let m := measurement bs
  let s := (List.range 16).foldl (fun s w => s.setReg .MEAS_DIGEST w (leAt m (4 * w) 4)) s
  let r := s.boot.factory
  let s := s.setReg .DEVICE_ID 0 (leAt r 8 4)
  (List.range 4).foldl (fun s d => s.setReg .MILL_ENABLE d (leAt r (24 + 4 * d) 4)) s

/-- The reaction table of the image; on an exit from KEEP the saved values, already written, stand (R453, R484). -/
def State.loadReaction (s : State) : State :=
  if s.restoring && s.power.saved.isSome then s
  else (List.range 256).foldl (fun s k => s.setFld F.REACTION_ACTIONS k (nth s.image.reaction k 0).toNat) s

/-- Is the sag area of the last sag incomplete at this start (R496)? -/
def State.sagCheck (s : State) : State :=
  if s.fld F.PWR_STATUS_START_CAUSE 0 = 2 ∧ leAt s.power.sagArea 9 1 = 0 then
    (s.setFlag F.PWR_STATUS_SAG_INCOMPLETE 0 true).raiseFrom Config.powerSource 0x53 0 0
  else s

/-- The firmware runs on the image, and the start sequence begins (R488, R506). -/
def State.startImage (s : State) (im : Image) : State :=
  let s := s.withImage im ((portsOf im.lanes).getD [])
  let slot := s.boot.slot
  let s := (s.setFlag F.BOOT_STATUS_SLOT 0 (slot == 2)).setFlag F.BOOT_STATUS_FALLBACK 0 (slot != s.boot.chosen)
  let s := (s.mapBoot fun b => { b with started := some slot }).mapPower fun p =>
    { p with fw := true, release := unitOrder }
  let s := s.loadReaction.setFld F.WDT_CONTROL_PERIOD 0 im.policies.watchdogMs
  (s.sagCheck.toStage 2).bootSweep

/-- SLOT_VERIFIED (R506): steps 5 to 8 for the slot being read. -/
def execSlotVerified (s : State) : Host.Outcome State Fault Refusal :=
  if !s.power.core || s.stage != 1 then .next s
  else
    let bs := s.slotImage s.boot.slot
    let (code, s) := s.checkSlot bs
    if code != 0 then .next (s.rejectSlot code)
    else
      let s := (s.toStage 2).measure bs
      let im := imageOf bs
      if s.configOk im then .next (s.startImage im) else .next (s.rejectSlot 7)

/-! ## Step 9: epoch 0 (R274, R283, R488, R506) -/

/-- The links of this switch that the first sweep did not find as planned. -/
def State.badLinks (s : State) : List Nat :=
  (List.range 256).filter fun p => (s.cable p).role == .switch && s.fld F.PORT_CRUISE_RESULT (s.blk p) != 1
    || (s.cable p).role == .switch && (s.port? p).isNone

/-- The membership part of epoch 0: links without a MATCH are out, and so is a neighbour left without one (R347). -/
def State.epoch0 (s : State) : Bank :=
  let bad := s.badLinks
  let flats := ((List.range 256).filter fun p => (s.cable p).role == .switch).map fun p => (s.cable p).peerFlat
  let gone := flats.dedup.filter fun f =>
    (List.range 256).all fun p => (s.cable p).role != .switch || (s.cable p).peerFlat != f || bad.contains p
  { Bank.empty with cutLinks := bad.map fun p => (s.image.ownFlat, p), cutSwitches := gone }

/-- EPOCH0_BUILT (R506): the boot sweep has ended. -/
def execEpoch0Built (s : State) : Host.Outcome State Fault Refusal :=
  if !s.power.fw || s.stage != 2 || s.flag F.CRUISE_STATUS_SWEEP_ACTIVE 0 then .next s
  else
    let s := { s with bank0 := s.buildTables s.epoch0, bank1 := Bank.empty, epoch := EpochSt.fresh }
    let s := (s.setFlag F.CRUISE_STATUS_FIRST_DONE 0 true).putStore fun b =>
      { b with lastGood := s.boot.started.getD 0 }
    .next (s.timeRole.toStage 3).tryForward

/-! ## Boot control (R508, R514, R515) -/

/-- Raise the floors to the running image's values (R515). -/
def State.raiseFloors (s : State) : State :=
  let b := s.boot.store
  let sv := max b.svFloor s.image.securityVersion
  let cf := max b.configFloor s.image.configSeq
  if sv = b.svFloor ∧ cf = b.configFloor then s
  else (s.putStore fun x => { x with svFloor := sv, configFloor := cf }).raiseBoot 0x63 0 0

/-- The boot ROM starts over from step 1 (R508). -/
def State.bootAgain (s : State) : State :=
  ((s.setReg .BOOT_STATUS 0 0).mapPower fun p => { p with rom := true }).mapBoot fun b =>
    { b with chosen := 0, slot := 0, second := false, pufWait := false, factory := [], report := [] }

/-- A write of BOOT_CONTROL: every field acts; NEXT 3 is reserved (R10, R508, R514, R515). -/
def State.writeBootControl (s : State) (v : Nat) : State :=
  if !s.power.core || bitsOf v 31 24 != 0xB7 then s
  else
    let next := bitsOf v 1 0
    let s := if next = 3 then s.reservedWrite (regAddr .BOOT_CONTROL 0) v
      else if next = s.boot.store.bootNext then s
      else s.putStore fun b => { b with bootNext := next }
    let s := if bitOf v 23 && s.stage == 3 then s.raiseFloors else s
    if bitOf v 22 && s.stage == 4 then s.bootAgain else s

/-- SV_COMMIT (R515): the write with KEY and SV_COMMIT. -/
def execSvCommit (s : State) : Host.Outcome State Fault Refusal := .next (s.writeBootControl 0xB7800000)

/-- BOOT_RETRY (R508): the write with KEY and RETRY. -/
def execBootRetry (s : State) : Host.Outcome State Fault Refusal := .next (s.writeBootControl 0xB7400000)

/-- SET_BOOT_NEXT (R514). -/
def execSetBootNext (w : Word) (s : State) : Host.Outcome State Fault Refusal := .next (s.writeBootControl w.toNat)

end Sys2Proof.Machine
end

