-- ==== Sys2Proof/Machine/Firmware.lean ====
section
/-! DEFINITION. Work of the control firmware beside the fabric's: the flight-recorder copy, the reload of the firmware,
signatures and attestation, and the window once the stacks are ready (spec/05_result_checking.md R166; 17_memory.md R437;
18_watchtower.md R449, R459; 20_power_states.md R495; 21_boot_security.md R511, R519; 22_companion_link.md R537, R539). -/
namespace Sys2Proof.Machine

open Sys2Proof

/-! ## The flight recorder's copy (R449, R459) -/

/-- The 128 bits of a message (R442). -/
def FaultMsg.word (m : FaultMsg) : Nat :=
  pack [(3, m.die.toNat), (6, m.block.toNat), (10, m.inst.toNat), (8, m.kind.toNat), (2, m.cls.toNat), (1, b2n m.forced),
    (2, 0), (48, m.address.toNat), (8, m.localRepeats.toNat), (40, m.detail.toNat)]

/-- STATE of an entry. -/
def EntryState.code : EntryState → Nat
  | .pending => 0
  | .handling => 1
  | .reacted => 2

/-- A queue entry or a record in bytes (R449). -/
def WtEntry.bytes (e : WtEntry) : List Byte :=
  leBytes 16 e.msg.word ++ leBytes 8 e.ns.toNat ++ leBytes 4 e.seq.toNat ++ leBytes 2 e.rep.toNat
    ++ leBytes 1 e.actions.toNat ++ leBytes 1 (e.state.code + 4 * b2n e.timeValid + 8 * b2n e.jumped)

/-- Bytes of a page of the log: 128 records. -/
def logPageBytes : Nat := 4096

/-- Write one page to the log region; a sector is erased before its first page (R459). -/
def State.logWrite (s : State) (es : List WtEntry) : State :=
  let n := es.length
  let pages := s.image.logLen / logPageBytes
  let off := s.image.logOff + (s.wt.logPage % max 1 pages) * logPageBytes
  let bs := (es.map WtEntry.bytes).flatten
  let s := if off % max 1 s.flash.sector = 0 then s.flashErase off (max logPageBytes s.flash.sector) else s
  let s := s.flashProgram off (bs ++ List.replicate (logPageBytes - bs.length) flashErased)
  let seq := match es.getLast? with | some e => e.seq | none => s.wt.copied
  let s := s.setReg .FR_COPY_SEQ 0 seq.toNat
  s.mapWt fun w => { w with waiting := w.waiting - n, copied := seq, logPage := (w.logPage + 1) % max 1 pages }

/-- FLIGHT_RECORDER_COPY (R459): 128 records wait, or 10 s have passed: the oldest of them go to flash,
after the flash commands that came before (R516). -/
def execFlightRecorderCopy (s : State) : Host.Outcome State Fault Refusal :=
  if !s.power.fw || !s.booted || s.wt.waiting == 0 || !s.upd.ops.isEmpty then .next s
  else .next (s.logWrite ((s.wt.ring.drop (s.wt.ring.length - s.wt.waiting)).take 128))

/-! ## The reload of the firmware (R463, R511) -/

/-- Do the rails and the holds let the control die run (R463, R572)? -/
def State.railsGood (s : State) : Bool :=
  s.power.pins.corePwrEn && s.power.pins.pwrgd && s.power.pins.sagN && s.power.pins.thermtripN && !s.power.sagHold
    && s.power.sag.isNone

/-- The measurement held in MEAS_DIGEST. -/
def State.measDigest (s : State) : List Byte :=
  ((List.range 16).map fun w => leBytes 4 (s.reg .MEAS_DIGEST w)).flatten

/-- Does the FIRMWARE section of an image verify, and is its measurement the recorded one? -/
def State.reloadOk (s : State) (bs : List Byte) : Bool :=
  imageFormOk bs && ((dirOf bs).all fun e => e.typ != 1 || sha3 (e.body bs) == e.digest) && vendorOk s.rootKey bs
    && measurement bs == s.measDigest

/-- FIRMWARE_RELOAD (R511): after a reset of the management core, or a restart of the control die under R463. -/
def execFirmwareReload (s : State) : Host.Outcome State Fault Refusal :=
  match s.boot.started with
  | none => .next s
  | some slot =>
    if s.power.fw || !s.railsGood then .next s
    else
      let s := s.mapPower fun p => { p with core := true }
      if s.reloadOk (s.slotImage slot) then .next (s.mapPower fun p => { p with fw := true }).resumeWork
      else .next (s.raiseBoot 0x64 0 0)

/-! ## Signatures (R166, R389, R519) -/

/-- The 4,627 bytes of a hedged signature. -/
def signature (k : Nat) (m : List Byte) : List Byte := (List.range 4627).map (Config.mldsaSignByte k m)

/-- Has the identity been derived at this start (R517)? -/
def State.hasIdentity (s : State) : Bool := !s.boot.factory.isEmpty && !s.boot.pufWait

/-- The step record a signing request names, if the switch holds it (R165). -/
def State.record? (s : State) (job : BitVec 12) (step : BitVec 32) : Option StepRecord :=
  let held := match s.job? job with | some j => j.records | none => []
  (held ++ s.retained).find? fun r => r.job == job && r.step == step

/-- A write of LEDGER_SIGN_STEP (R166). -/
def State.signRequest (s : State) (step : BitVec 32) : State :=
  let job := BitVec.ofNat 12 (s.fld F.LEDGER_CONTROL_SIGN_JOB 0)
  if (s.record? job step).isSome then s.signStep job step else s.setFlag F.LEDGER_STATUS_SIGN_ERR 0 true

/-- LEDGER_SIGN_STEP (R166). -/
def execLedgerSignStep (step : BitVec 32) (s : State) : Host.Outcome State Fault Refusal :=
  if s.power.core then .next (s.signRequest step) else .next s

/-- Put a signature into the records of a step. -/
def signRecord (r : StepRecord) (sig : List Byte) (x : StepRecord) : StepRecord :=
  if x.job = r.job ∧ x.step = r.step then { x with signature := some sig } else x

/-- The message of a step record's signature: 176 bytes (R166). -/
def ledgerMessage (r : StepRecord) : List Byte := ascii "SH2048-LEDGER-V1" ++ r.digested ++ r.digest

/-- Sign a step record. -/
def State.signNow (s : State) (job : BitVec 12) (r : StepRecord) : State :=
  let (k, s) := s.draw1
  let sig := signature k (ledgerMessage r)
  let s := (s.mapJob job fun j => { j with records := j.records.map (signRecord r sig) }).syncLedger job r.step
  { s with retained := s.retained.map (signRecord r sig) }.bump F.LEDGER_STATUS_SIGNATURES 0

/-- LEDGER_SIGNATURE_DONE (R166, R519): the engine ends the request at the head of its queue. A record that is no longer
held cannot be signed. -/
def execLedgerSignatureDone (s : State) : Host.Outcome State Fault Refusal :=
  match s.signQueue with
  | some (job, step) :: rest =>
    if !s.power.fw then .next s
    else
      let s := { s with signQueue := rest }
      match s.record? job step with
      | some r => .next (s.signNow job r)
      | none => .next (s.setFlag F.LEDGER_STATUS_SIGN_ERR 0 true)
  | _ => .next s

/-- The attestation report (R519). -/
def State.attestReport (s : State) : List Byte :=
  ascii "SH2048-ATTEST-V1" ++ ((List.range 8).map fun w => leBytes 4 (s.reg .ATTEST_NONCE w)).flatten
    ++ leBytes 4 (s.reg .DEVICE_ID 0) ++ zeros 4 ++ sliceB s.boot.factory 16 8
    ++ ((List.range 4).map fun d => leBytes 4 (s.reg .MILL_ENABLE d)).flatten
    ++ leBytes 2 s.image.securityVersion ++ leBytes 2 s.image.configSeq
    ++ leBytes 2 s.boot.store.svFloor ++ leBytes 2 s.boot.store.configFloor
    ++ leBytes 1 (s.fld F.BOOT_STATUS_SLOT 0) ++ zeros 7 ++ leBytes 8 s.ns
    ++ s.measDigest ++ sliceB s.boot.store.ownerKeyHash 0 64 ++ leBytes 4 s.image.fwVersion.toNat ++ zeros 4

/-- A write of ATTEST_GO (R519); ignored while a report is being signed. -/
def State.attestRequest (s : State) : State :=
  if s.attestBusy || !s.hasIdentity then s
  else { s.mapBoot fun b => { b with report := s.attestReport } with signQueue := s.signQueue ++ [none] }

/-- ATTEST_GO (R519). -/
def execAttestGo (s : State) : Host.Outcome State Fault Refusal := if s.power.core then .next s.attestRequest else .next s

/-- ATTEST_REPORT_DONE (R519): the report is signed; the signature follows it in the window. -/
def execAttestReportDone (s : State) : Host.Outcome State Fault Refusal :=
  match s.signQueue with
  | none :: rest =>
    if !s.power.fw then .next s
    else
      let (k, s) := { s with signQueue := rest }.draw1
      let s := s.mapBoot fun b => { b with report := b.report ++ signature k b.report }
      .next (s.bump F.ATTEST_STATUS_REPORTS 0)
  | _ => .next s

/-! ## The retention die (R483, R505) -/

/-- What the retention die holds, by offset: the ring of the flight recorder, the step records, the two save areas and the two
copies of the boot store. Where a record lies within the first two is the model's (DESIGN CHOICE, log entry 108). -/
def State.retentionParts (s : State) : List (Nat × List Byte) :=
  let copy (c : BootCopy) : List Byte := c.fields.bytes ++ leBytes 8 c.crc.toNat
  [(0x000000, (s.wt.ring.map WtEntry.bytes).flatten)]
    ++ s.retained.zipIdx.map (fun x => (0x800000 + x.2 * 0x80000, x.1.bytes))
    ++ [(0xA00000, s.power.saveArea), (0xB00000, s.power.sagArea), (0xC00000, copy s.boot.copyA), (0xC00100, copy s.boot.copyB)]

/-- A byte of the retention die; what nothing has written reads as 0 (R483). -/
def State.retentionByte (s : State) (off : Nat) : Byte :=
  match s.retentionParts.find? fun x => decide (x.1 ≤ off) && decide (off < x.1 + x.2.length) with
  | some x => nth x.2 (off - x.1) 0
  | none => 0

/-! ## The window (R437, R495, R537, R539) -/

/-- Ring 0: commands. -/
def commandRing : RingRef := ⟨ringsBase + 0x10000, 4096, 128⟩

/-- Ring 1: replies. -/
def replyRing : RingAt := { ref := ⟨ringsBase + 0x10080, 4096, 32⟩, data := ringsBase + 0xA0000, tele := none }

/-- MA of the sag report. -/
def sagReportBase : Nat := ringsBase + 0x100000

/-- Report the sag area at a start after a sag (R495). -/
def State.sagReport (s : State) : State :=
  if s.fld F.PWR_STATUS_START_CAUSE 0 = 2 then
    ((s.windowWrite sagReportBase s.power.sagArea).setFlag F.HOST_STATUS_SAG_REPORT 0 true).raiseInt 6
  else s

/-- The window comes into being with the last stack: the headers of the device rings, and the sag report. -/
def State.openWindow (s : State) : State :=
  let s := (s.ringInit commandRing).ringInit replyRing.ref
  ((List.range 4).foldl (fun s d => s.ringInit (telemetryRing d).ref) s).sagReport

/-- STACK_TRAINING_DONE (R437): the stack is ready with every byte zero, or has failed. -/
def execStackTrainingDone (stack : Nat) (ok : Bool) (s : State) : Host.Outcome State Fault Refusal :=
  let st := s.fld F.MEM_STATUS_STATE stack
  if 20 ≤ stack ∨ !(st == 1 || st == 2) then .next s
  else if ok then
    let s := s.setFld F.MEM_STATUS_STATE stack 3
    .next (if s.windowReady then s.openWindow.tryForward else s)
  else .next ((s.setFld F.MEM_STATUS_STATE stack 5).memReport stack 0x44 (lineAddr stack 0 0) 3 0)

end Sys2Proof.Machine
end

