-- ==== Sys2Proof/Machine/Host.lean ====
section
/-! DEFINITION. The coherent window and the command ring: snoops, requests for lines, and taking commands in ring order
(spec/22_companion_link.md R529 to R543). -/
namespace Sys2Proof.Machine

open Sys2Proof

/-- Change the host record. -/
def State.mapHost (s : State) (g : HostSt → HostSt) : State := { s with host := g s.host }

/-- Does the link carry the companion's messages: is it ACTIVE (R522)? -/
def State.linkActive (s : State) : Bool := s.fld F.DCL_STATUS_LINK_STATE 0 == 4

/-! ## Lines of the window (R537, R538) -/

/-- MA of a window line. -/
def lineMa (line : Nat) : Nat := ringsBase + line * 64

/-- Lines in the window. -/
def State.windowLines (s : State) : Nat := s.image.ringsGib * 2 ^ 24

/-- The lines of the job ring headers that the companion writes: line 1 of each. -/
def State.consumerLines (s : State) : List Nat :=
  (s.jobs.map fun j => [windowLine j.jrings.completion.base + 1, windowLine j.jrings.statistics.base + 1,
    windowLine j.jrings.events.base + 1]).flatten

/-- May the companion write a line? Line 0 of ring 0, line 1 of rings 1 to 5, the command ring, staging, and line 1 of each
job ring's header. -/
def State.writable (s : State) (line : Nat) : Bool :=
  line == 0x400 || (decide (0x400 < line) && decide (line < 0x40C) && line % 2 == 1 && line != 0x401)
    || (decide (0x800 ≤ line) && decide (line < 0x2800)) || (decide (0x8000 ≤ line) && decide (line < 0x1000000))
    || (decide (0x2000000 ≤ line) && s.consumerLines.contains line)

/-- STATUS of a window access before its own checks (R537). -/
def State.windowStatus (s : State) (line : Nat) : Nat :=
  if !s.windowReady || s.fld F.PWR_STATUS_STATE 0 == 2 then 3 else if s.windowLines ≤ line then 1 else 0

/-- Is a window line uncorrectable or poisoned (R425, R530)? -/
def State.linePoison (s : State) (line : Nat) : Bool :=
  s.memory.poisoned.contains (lineMa line / 64) || s.memory.damaged.contains (lineMa line / 64)

/-- The DATA that grants or shows a window line (R530). -/
def State.lineData (s : State) (tag : BitVec 12) (grant line : Nat) : DclMsg :=
  .data tag grant 0 (s.linePoison line) (s.readMem (lineMa line) 64)

/-- A DATA that refuses: it shows no bytes. -/
def refuseData (tag : BitVec 12) (status : Nat) : DclMsg := .data tag 0 status false []

/-! ## Snoops in flight (R532 to R536) -/

/-- Is a snoop of a line in flight? -/
def State.snooping (s : State) (line : Nat) : Bool := s.host.snoops.any fun x => x.line == line

/-- Has a snoop of a line been answered SNP_ACK although the line is recorded as modified (R534)? -/
def State.ackedSnoop (s : State) (line : Nat) : Bool := s.host.snoops.any fun x => x.line == line && x.acked

/-- A request waits for the snoop of a line. -/
def State.waitFor (s : State) (line : Nat) (r : Instr) : State := s.mapHost fun h => { h with waiting := h.waiting ++ [(line, r)] }

/-- Record a grant, most recent last. -/
def HostSt.grant (h : HostSt) (line : Nat) (own : Bool) : HostSt :=
  { h with filter := h.filter.filter (fun x => x.1 != line) ++ [(line, own)] }

/-- Forget a line. -/
def HostSt.forget (h : HostSt) (line : Nat) : HostSt := { h with filter := h.filter.filter fun x => x.1 != line }

/-- Lines the snoop filter tracks. -/
def filterLines : Nat := 262144

/-- Grant a line; where the filter is full, the least recently granted line is invalidated first, and the request waits for
that (R536). -/
def State.grantLine (s : State) (line : Nat) (own : Bool) (tag : BitVec 12) (r : Instr) : State :=
  match s.host.filter.head? with
  | some v =>
    if filterLines ≤ s.host.filter.length && !s.tracked line then (s.snoop v.1 true).waitFor v.1 r
    else (s.post (s.lineData tag (if own then 2 else 1) line)).mapHost fun h => h.grant line own
  | none => (s.post (s.lineData tag (if own then 2 else 1) line)).mapHost fun h => h.grant line own

/-! ## Requests (R529, R530, R533, R534, R547) -/

/-- STATUS of an access to the update buffer. -/
def State.bufferStatus (s : State) (line : Nat) : Nat := if 1024 ≤ line then 1 else if s.upd.ops.isEmpty then 0 else 3

/-- The bytes of a line of the update buffer; what nothing has written reads as zero (assumption 8). -/
def State.bufferLine (s : State) (line : Nat) : List Byte := sgetRun 0 (line * 64) 64 s.upd.buf

/-- Write bytes of the update buffer. -/
def State.bufferWrite (s : State) (off : Nat) (bs : List Byte) : State :=
  { s with upd := { s.upd with buf := ssetRun 0 off bs s.upd.buf } }

/-- A read of a line with a grant: shared, or modified where the companion may write the line. -/
def State.readGrant (s : State) (own : Bool) (tag : BitVec 12) (space line : Nat) (r : Instr) : State :=
  if space != 0 then s.post (refuseData tag 1)
  else
    let st := s.windowStatus line
    if st != 0 then s.post (refuseData tag st)
    else if own && !s.writable line then s.post (refuseData tag 2)
    else s.grantLine line own tag r

/-- A read of a line without a grant. -/
def State.readPlain (s : State) (tag : BitVec 12) (space line : Nat) : State :=
  if space = 2 then
    let st := s.bufferStatus line
    s.post (if st = 0 then .data tag 0 0 false (s.bufferLine line) else refuseData tag st)
  else if space = 0 then
    let st := s.windowStatus line
    s.post (if st = 0 then s.lineData tag 0 line else refuseData tag st)
  else s.post (refuseData tag 1)

/-- A write of a line: WR_NC, or the WRITEBACK of a line that the companion drops. -/
def State.writeLine (s : State) (tag : BitVec 12) (space line : Nat) (data : List Byte) (drop : Bool) : State :=
  if space = 2 && !drop then
    let st := s.bufferStatus line
    (if st = 0 then s.bufferWrite (line * 64) data else s).post (.cmp tag st)
  else if space = 0 then
    let st := s.windowStatus line
    let st := if st = 0 && !s.writable line then 2 else st
    let s := if st = 0 then s.writeMem (lineMa line) data else s
    (if drop && st = 0 then s.mapHost fun h => h.forget line else s).post (.cmp tag st)
  else s.post (.cmp tag 1)

/-- EVICT: the companion has dropped a clean line. -/
def State.evictLine (s : State) (tag : BitVec 12) (line : Nat) : State :=
  let st := s.windowStatus line
  (if st = 0 then s.mapHost fun h => h.forget line else s).post (.cmp tag st)

/-- The window line of a request that must wait for a snoop. -/
def requestLine : Instr → Option Nat
  | .rdShared _ sp l | .rdOwn _ sp l | .rdNc _ sp l | .wrNc _ sp l _ => if sp = 0 then some l.toNat else none
  | .writeback _ l _ | .evict _ l => some l.toNat
  | _ => none

/-- Does a request give a line back? -/
def givesBack : Instr → Bool
  | .writeback .. | .evict .. => true
  | _ => false

/-- Carry a request out. -/
def State.requestNow (s : State) (r : Instr) : State :=
  match r with
  | .rdShared tag sp l => s.readGrant false tag sp.toNat l.toNat r
  | .rdOwn tag sp l => s.readGrant true tag sp.toNat l.toNat r
  | .rdNc tag sp l => s.readPlain tag sp.toNat l.toNat
  | .wrNc tag sp l data => s.writeLine tag sp.toNat l.toNat data.toList false
  | .writeback tag l data => s.writeLine tag 0 l.toNat data.toList true
  | .evict tag l => s.evictLine tag l.toNat
  | _ => s

/-- A request whose line has a snoop in flight waits (R532, R533). -/
def State.requestOrWait (s : State) (r : Instr) : State :=
  match requestLine r with
  | some l => if s.snooping l then s.waitFor l r else s.requestNow r
  | none => s.requestNow r

/-! ## The command ring (R540, R542, R543) -/

/-- Lines of a run of window bytes that the companion may have modified. -/
def State.ownedIn (s : State) (ma n : Nat) : List Nat :=
  ((s.host.filter.filter (·.2)).map (·.1)).filter fun l => decide (windowLine ma ≤ l) && decide (lineMa l < ma + n)

/-- Is a snoop in flight on a line of a run? -/
def State.snoopingIn (s : State) (ma n : Nat) : Bool :=
  s.host.snoops.any fun x => decide (windowLine ma ≤ x.line) && decide (lineMa x.line < ma + n)

/-- Before a run of companion-writable lines is read, SNP_SHARE goes out for each that the companion may have modified; true
once the bytes in memory are the newest (R535). -/
def State.shareRun (s : State) (ma n : Nat) : Bool × State :=
  let ls := s.ownedIn ma n
  let s := ls.foldl (fun s l => s.snoop l false) s
  (ls.isEmpty && !s.snoopingIn ma n, s)

/-- Before a run of lines is written, SNP_INV goes out for each that the companion may hold; true once none is held. -/
def State.clearRun (s : State) (ma n : Nat) : Bool × State :=
  let ls := (s.host.filter.map (·.1)).filter fun l => decide (windowLine ma ≤ l) && decide (lineMa l < ma + n)
  let s := ls.foldl (fun s l => s.snoop l true) s
  (ls.isEmpty && !s.snoopingIn ma n, s)

/-- Write the reply to the command that was taken, and look for the next (R542, R543). -/
def State.replyTo (s : State) (status : Nat) (detail : List Byte) : State :=
  let c := s.host.cmd
  let rec_ := sliceB c 4 4 ++ sliceB c 0 2 ++ leBytes 2 status ++ sliceB detail 0 24
  (s.ringPutNow replyRing rec_ 1).mapHost fun h => { h with phase := .entry, cmd := [] }

/-- PRODUCER has been read, or read again. -/
def State.readProducer (s : State) : State :=
  s.mapHost fun h => { h with produced := s.ringProducer commandRing, phase := if h.phase = .producer then .entry else h.phase }

/-- A restore request has been taken: until it has been carried out, the job's frames draw NACK BUSY (R380). -/
def State.restoreBegins (s : State) (job : BitVec 12) : State :=
  if (s.job? job).isNone || s.flag F.SAVE_STATUS_SAVE_BUSY 0 || s.flag F.SAVE_STATUS_RESTORE_BUSY 0 then s
  else (s.mapJob job fun j => { j with restoring := true }).setFlag F.SAVE_STATUS_RESTORE_BUSY 0 true

/-- Take the entry at CONSUMER: its 128 bytes are read and CONSUMER advances. -/
def State.takeEntry (s : State) : State :=
  let c := s.ringConsumer commandRing
  let cmd := s.readMem (ringsBase + 0x20000 + (c % 4096) * 128) 128
  let s := s.windowWrite (commandRing.base + 64) (leBytes 4 ((c + 1) % 8192))
  let s := s.mapHost fun h => { h with phase := .taken, cmd := cmd }
  let op := leAt cmd 0 2
  if op = 4 then s.restoreBegins (BitVec.ofNat 12 (leAt cmd 2 2 / 16))
  else if 1 ≤ op ∧ op ≤ 6 then s
  else s.replyTo 2 []

/-- One move of the command ring; none where it must wait. -/
def State.cmdStep (s : State) : Option State :=
  match s.host.phase with
  | .producer =>
    let (ok, t) := s.shareRun commandRing.base 64
    if ok then some t.readProducer else none
  | .entry =>
    if s.ringConsumer commandRing = s.host.produced then some (s.mapHost fun h => { h with phase := .idle })
    else if s.ringFull replyRing.ref (zeros 32) then none
    else
      let (ok, t) := s.shareRun (ringsBase + 0x20000 + (s.ringConsumer commandRing % 4096) * 128) 128
      if ok then some t.takeEntry else none
  | _ => none

/-- The snoops that the command ring waits for. -/
def State.cmdAsk (s : State) : State :=
  match s.host.phase with
  | .producer => (s.shareRun commandRing.base 64).2
  | .entry =>
    if s.ringConsumer commandRing = s.host.produced then s
    else if s.ringFull replyRing.ref (zeros 32) then (s.shareRun (replyRing.ref.base + 64) 64).2
    else (s.shareRun (ringsBase + 0x20000 + (s.ringConsumer commandRing % 4096) * 128) 128).2
  | _ => s

/-- Let the command ring go as far as it can. -/
def State.cmdRun (s : State) : Nat → State
  | 0 => s
  | n + 1 =>
    match s.cmdStep with
    | some t => t.cmdRun n
    | none => s.cmdAsk

/-- Let the command ring go on; it stands still while the window is not usable (R537). -/
def State.cmdGo (s : State) : State := if s.windowReady then s.cmdRun 8200 else s

/-! ## The end of a snoop (R533 to R536, R539) -/

/-- Produce the records that wait for CONSUMER of the ring whose line 1 is here. -/
def State.flushRing (s : State) (line : Nat) : State :=
  let mine := s.ringQueue.filter fun x => windowLine (x.1.ref.base + 64) == line
  let s := { s with ringQueue := s.ringQueue.filter fun x => windowLine (x.1.ref.base + 64) != line }
  mine.foldl (fun s x => s.ringPutNow x.1 x.2.1 x.2.2) s

/-- A snoop of a line is complete: what waited for it goes on, in order of arrival. -/
def State.snoopDone (s : State) (line : Nat) : State :=
  let s := s.mapHost fun h => { h with snoops := h.snoops.filter fun x => x.line != line }
  let mine := s.host.waiting.filter fun x => x.1 == line
  let s := s.mapHost fun h => { h with waiting := h.waiting.filter fun x => x.1 != line }
  let s := mine.foldl (fun s x => s.requestOrWait x.2) s
  let s := s.flushRing line
  let s := if line = windowLine commandRing.base && s.host.phase != .producer then s.readProducer else s
  s.cmdGo

/-- Slots of a message of the companion (R530). -/
def requestSlots : Instr → Nat
  | .wrNc .. | .writeback .. => 5
  | _ => 1

/-- A message of the companion has come off the input (R532). -/
def State.took (s : State) (c : DclClass) (n : Nat) : State := s.mapHost fun h => h.took c n

/-- A request of the companion. WRITEBACK and EVICT end a snoop that was answered SNP_ACK for a line recorded as modified
(R534); a write of a CONSUMER may make room in the reply ring (R540). -/
def State.request (s : State) (r : Instr) : State :=
  if !s.linkActive then s
  else
    let s := s.took .req (requestSlots r)
    match requestLine r with
    | some l =>
      if givesBack r && s.ackedSnoop l then (s.requestNow r).snoopDone l
      else
        let s := s.requestOrWait r
        if s.host.phase = .entry then s.cmdGo else s
    | none => s.requestNow r

/-- RD_SHARED (R533). -/
def execRdShared (tag : BitVec 12) (space : BitVec 2) (line : BitVec 40) (s : State) : Host.Outcome State Fault Refusal :=
  .next (s.request (.rdShared tag space line))

/-- RD_OWN (R533). -/
def execRdOwn (tag : BitVec 12) (space : BitVec 2) (line : BitVec 40) (s : State) : Host.Outcome State Fault Refusal :=
  .next (s.request (.rdOwn tag space line))

/-- RD_NC (R533). -/
def execRdNc (tag : BitVec 12) (space : BitVec 2) (line : BitVec 40) (s : State) : Host.Outcome State Fault Refusal :=
  .next (s.request (.rdNc tag space line))

/-- WR_NC (R533). -/
def execWrNc (tag : BitVec 12) (space : BitVec 2) (line : BitVec 40) (data : Vector Byte 64) (s : State) :
    Host.Outcome State Fault Refusal := .next (s.request (.wrNc tag space line data))

/-- WRITEBACK (R534). -/
def execWriteback (tag : BitVec 12) (line : BitVec 40) (data : Vector Byte 64) (s : State) :
    Host.Outcome State Fault Refusal := .next (s.request (.writeback tag line data))

/-- EVICT (R534). -/
def execEvict (tag : BitVec 12) (line : BitVec 40) (s : State) : Host.Outcome State Fault Refusal :=
  .next (s.request (.evict tag line))

/-- The snoop of a tag. -/
def State.snoop? (s : State) (tag : BitVec 12) : Option Snoop := s.host.snoops.find? fun x => x.tag == tag

/-- SNP_ACK (R534): for a line recorded as modified the snoop ends only with its WRITEBACK or EVICT, which may be waiting
already. -/
def State.snoopAck (s : State) (x : Snoop) : State :=
  if s.owned x.line then
    if s.host.waiting.any fun w => w.1 == x.line && givesBack w.2 then s.snoopDone x.line
    else s.mapHost fun h => { h with snoops := h.snoops.map fun y => if y.tag = x.tag then { y with acked := true } else y }
  else (if x.inv then s.mapHost fun h => h.forget x.line else s).snoopDone x.line

/-- SNP_ACK (R534). -/
def execSnpAck (tag : BitVec 12) (s : State) : Host.Outcome State Fault Refusal :=
  if !s.linkActive then .next s
  else
    let s := s.took .rsp 1
    match s.snoop? tag with
    | some x => .next (s.snoopAck x)
    | none => .next s

/-- SNP_DATA (R534): the modified line comes home; after SNP_SHARE the companion keeps a shared copy. -/
def execSnpData (tag : BitVec 12) (data : Vector Byte 64) (s : State) : Host.Outcome State Fault Refusal :=
  if !s.linkActive then .next s
  else
    let s := s.took .rsp 5
    match s.snoop? tag with
    | some x =>
      let s := s.writeMem (lineMa x.line) data.toList
      .next ((s.mapHost fun h => if x.inv then h.forget x.line else h.grant x.line false).snoopDone x.line)
    | none => .next s

/-- HOST_DOORBELL (R542): PRODUCER is read; a doorbell that finds commands under way has it read again. -/
def State.doorbell (s : State) : State :=
  if s.host.phase = .idle then (s.mapHost fun h => { h with phase := .producer }).cmdGo
  else
    let (ok, s) := s.shareRun commandRing.base 64
    (if ok then s.readProducer else s).cmdGo

/-- HOST_DOORBELL (R542). -/
def execHostDoorbell (s : State) : Host.Outcome State Fault Refusal :=
  if s.power.core ∧ s.windowReady then .next s.doorbell else .next s

/-- HOLDOFF_EXPIRY (R546): the oldest interval ends; a deferred INTR of its bit goes out and starts another. -/
def execHoldoffExpiry (s : State) : Host.Outcome State Fault Refusal :=
  match s.host.intrHold with
  | [] => .next s
  | b :: t =>
    let owed := s.host.intrDeferred.contains b
    let s := s.mapHost fun h => { h with intrHold := t, intrDeferred := h.intrDeferred.filter (· != b) }
    .next (if owed then s.sendIntr b else s)

end Sys2Proof.Machine
end

