-- ==== Sys2Proof/Machine/Commands.lean ====
section
/-! DEFINITION. The commands of ring 0: loads, unloads, saves, restores, images and ledger reads (spec/08_job_plans.md R236
to R242; 11_switch_core.md R312; 14_failure_survival.md R375, R378; 22_companion_link.md R542 to R545). A command is carried
out by the control firmware once its entry has been taken and the bytes it reads are the newest. -/
namespace Sys2Proof.Machine

open Sys2Proof

/-! ## The entry (R542) -/

/-- OPCODE of the entry taken. -/
def State.cmdOp (s : State) : Nat := leAt s.host.cmd 0 2
/-- JOB_ID. -/
def State.cmdJob (s : State) : BitVec 12 := BitVec.ofNat 12 (leAt s.host.cmd 2 2 / 16)
/-- BUF_OFFSET. -/
def State.cmdBuf (s : State) : Nat := leAt s.host.cmd 8 8
/-- BUF_BYTES. -/
def State.cmdBytes (s : State) : Nat := leAt s.host.cmd 16 8
/-- STEP. -/
def State.cmdStepNum (s : State) : BitVec 32 := BitVec.ofNat 32 (leAt s.host.cmd 24 4)
/-- SLOT, of the four slots of a landing (R364; log entry 31). -/
def State.cmdSlot (s : State) : Nat := leAt s.host.cmd 28 1 % 4
/-- KEEP_LANDING. -/
def State.cmdKeep (s : State) : Bool := bitOf (leAt s.host.cmd 29 1) 0
/-- ENTRIES. -/
def State.cmdEntries (s : State) : Bool := bitOf (leAt s.host.cmd 29 1) 1
/-- OWNER_GEN. -/
def State.cmdGen (s : State) : BitVec 4 := BitVec.ofNat 4 (leAt s.host.cmd 30 1)
/-- IMAGE_OFFSET. -/
def State.cmdImageOff (s : State) : Nat := leAt s.host.cmd 32 8
/-- IMAGE_BYTES. -/
def State.cmdImageBytes (s : State) : Nat := leAt s.host.cmd 40 8
/-- DATA_POS. -/
def State.cmdDataPos (s : State) : List Byte := sliceB s.host.cmd 64 64

/-- Does the control firmware hold a taken command of an opcode? -/
def State.holds (s : State) (op : Nat) : Bool := s.power.fw && s.host.phase == .taken && s.cmdOp == op

/-- First byte of the staging area of the window, and the first beyond it (R538). -/
def stagingStart : Nat := 0x200000
/-- The end of staging. -/
def stagingEnd : Nat := 0x40000000

/-- Does the buffer of the command lie within staging? -/
def State.bufferOk (s : State) : Bool := decide (stagingStart ≤ s.cmdBuf) && decide (s.cmdBuf + s.cmdBytes ≤ stagingEnd)

/-- Memory address of the buffer. -/
def State.bufferMa (s : State) : Nat := ringsBase + s.cmdBuf

/-- Reply and go on to the next entry (R543). -/
def State.finish (s : State) (status : Nat) (detail : List Byte) : State := (s.replyTo status detail).cmdGo

/-- Carry a command out with the bytes of its buffer: BAD_BUFFER outside staging; else, once every line of it that the
companion has modified is home, the act (R535). -/
def State.withBuffer (s : State) (act : State → List Byte → State) : State :=
  if !s.bufferOk then s.finish 3 []
  else
    let (ok, s) := s.shareRun s.bufferMa s.cmdBytes
    if ok then act s (s.readMem s.bufferMa s.cmdBytes) else s

/-! ## LOAD (R236, R240, R312) -/

/-- Does a LOAD wait for its delayed reply? -/
def State.replyOwed (s : State) : Bool := s.jobs.any fun j => !j.admitted

/-- The reply to a load that was admitted. -/
def State.admitted (s : State) (j : Job) : State :=
  let self := match j.next with | some n => n.self | none => j.cur.self
  let s := s.mapJob j.id fun j => { j with admitted := true }
  (s.countAdmission j.id 0).finish 0 (admissionBytes 0 self 0 0 0)

/-- Send ADMITTED if the free units and lines of every mill cover the unused quotas. -/
def State.tryAdmitted (s : State) (job : BitVec 12) : State :=
  match s.job? job with
  | some j => if !j.admitted && s.quotasCovered then s.admitted j else s
  | none => s

/-- Carry a plan file through the checks, and reserve for it or refuse it. -/
def State.loadPlan (s : State) (bs : List Byte) : State :=
  match s.judgePlan bs with
  | .refused sw r =>
    (s.countAdmission (parsePlan bs).job r.code).finish 0 (admissionBytes r.code sw r.detail r.needed r.available)
  | .passed p self => (s.admitPlan p self).tryAdmitted p.job

/-- LOAD (R236). -/
def execLoad (s : State) : Host.Outcome State Fault Refusal :=
  if s.holds 1 && !s.replyOwed && !s.workStops then .next (s.withBuffer State.loadPlan) else .next s

/-- ADMISSION_REPLY_DEFERRED (R312). -/
def execAdmissionReplyDeferred (job : BitVec 12) (s : State) : Host.Outcome State Fault Refusal :=
  if s.holds 1 then .next (s.tryAdmitted job) else .next s

/-! ## UNLOAD (R240) -/

/-- UNLOAD (R240): NO_JOB where the job is not live, unless it frees a landing that an earlier one kept (R374; log entry 102). -/
def execUnload (s : State) : Host.Outcome State Fault Refusal :=
  if !s.holds 2 then .next s
  else
    match s.job? s.cmdJob with
    | none =>
      .next (if !s.cmdKeep && s.keepsLanding s.cmdJob then (s.dropKept s.cmdJob).finish 0 [] else s.finish 5 [])
    | some j => .next ((s.unloadJob j.id s.cmdKeep).mapHost fun h => { h with phase := .unloading })

/-- Do records still wait to be produced in a ring of a job? -/
def State.recordsWait (s : State) (j : Job) : Bool :=
  s.ringQueue.any fun x => x.1.ref.base == j.jrings.completion.base || x.1.ref.base == j.jrings.statistics.base
    || x.1.ref.base == j.jrings.events.base

/-- UNLOAD_FREE (R240): every context is IDLE and the last ring records are out. -/
def execUnloadFree (job : BitVec 12) (s : State) : Host.Outcome State Fault Refusal :=
  match s.job? job with
  | none => .next s
  | some j =>
    match j.unloading with
    | none => .next s
    | some keep =>
      if !s.power.fw || s.host.phase != .unloading || (s.ctxs.any fun x => x.2.job == job) || s.recordsWait j then .next s
      else .next ((s.freeJob job (keep == 1)).finish 0 [])

/-! ## SAVE and RESTORE (R375, R377) -/

/-- Is a save or a restore under way? -/
def State.saveBusy (s : State) : Bool := s.flag F.SAVE_STATUS_SAVE_BUSY 0 || s.flag F.SAVE_STATUS_RESTORE_BUSY 0

/-- A save is accepted: it waits for the floor, and the job is held above P. -/
def State.acceptSave (s : State) (j : Job) : State :=
  let v : SaveReq := { memBad := false, p := s.cmdStepNum, dataPos := s.cmdDataPos, slot := s.cmdSlot, running := false }
  let s := s.mapJob j.id fun j => { j with save := some v }
  (s.setFlag F.SAVE_STATUS_SAVE_BUSY 0 true).setFld F.SAVE_STATUS_LAST_JOB 0 j.id.toNat

/-- SAVE (R375). -/
def execSave (s : State) : Host.Outcome State Fault Refusal :=
  if !s.holds 3 then .next s
  else
    match s.job? s.cmdJob with
    | none => .next (s.finish 5 [])
    | some j => .next (if s.saveBusy then s.finish 4 [] else (s.acceptSave j).finish 1 [])

/-- RESTORE (R378). A request that found neither busy when it was taken is the one under way. -/
def execRestore (s : State) : Host.Outcome State Fault Refusal :=
  if !s.holds 4 then .next s
  else
    match s.job? s.cmdJob with
    | none => .next (s.finish 5 [])
    | some j =>
      .next (if s.saveBusy && !j.restoring then s.finish 4 []
        else (s.restore j s.cmdSlot s.cmdGen s.cmdStepNum s.cmdDataPos).finish 1 [])

/-! ## LANDING_WRITE (R544) -/

/-- Write the part, and reply with the code of R379 where it is refused. -/
def State.landPart (s : State) (j : Job) (bs : List Byte) : State :=
  let (code, t) := s.imagePart j s.cmdSlot s.cmdImageOff s.cmdImageBytes bs
  if code = 0 then t.finish 0 [] else t.finish 7 (leBytes 2 code)

/-- LANDING_WRITE (R544). -/
def execLandingWrite (s : State) : Host.Outcome State Fault Refusal :=
  if !s.holds 5 then .next s
  else
    match s.job? s.cmdJob with
    | none => .next (s.finish 5 [])
    | some j => .next (s.withBuffer fun s bs => s.landPart j bs)

/-! ## LEDGER_READ (R545) -/

/-- The ledger entries of a step of a job at this switch, where it holds them. -/
def State.entriesOf? (s : State) (job : BitVec 12) (step : BitVec 32) : Option (List Byte) :=
  match s.job? job with
  | some j => (j.entryArrays.find? fun a => a.step == step).map fun a => (a.entries.map LedgerEntry.bytes).flatten
  | none => none

/-- What a LEDGER_READ asks for. -/
def State.ledgerData (s : State) : Option (List Byte) :=
  if s.cmdEntries then s.entriesOf? s.cmdJob s.cmdStepNum
  else (s.record? s.cmdJob s.cmdStepNum).map StepRecord.bytes

/-- Write the answer once no line of it is held by the companion. A buffer that cannot hold it is a bad buffer (log entry
32). -/
def State.ledgerWrite (s : State) (bs : List Byte) : State :=
  if !s.bufferOk || decide (s.cmdBytes < bs.length) then s.finish 3 []
  else
    let (ok, s) := s.clearRun s.bufferMa bs.length
    if ok then (s.writeMem s.bufferMa bs).finish 0 [] else s

/-- LEDGER_READ (R545). -/
def execLedgerRead (s : State) : Host.Outcome State Fault Refusal :=
  if !s.holds 6 then .next s
  else
    match s.ledgerData with
    | none => .next (s.finish 6 [])
    | some bs => .next (s.ledgerWrite bs)

end Sys2Proof.Machine
end

