-- ==== Sys2Proof/Machine/Dcl.lean ====
section
/-! DEFINITION. The companion link: training, flits with their acknowledgements and credits, replay and loss
(spec/22_companion_link.md R522 to R528, R531, R546). -/
namespace Sys2Proof.Machine

open Sys2Proof

/-! ## States (R522) -/

/-- LINK_STATE. -/
def State.linkState (s : State) : Nat := s.fld F.DCL_STATUS_LINK_STATE 0

/-- Set LINK_STATE. -/
def State.setLink (s : State) (n : Nat) : State := s.setFld F.DCL_STATUS_LINK_STATE 0 n

/-- WIDTH code of a number of lanes; 0 where it is no width of R523. -/
def widthCode (w : Nat) : Nat := if w = 16 then 3 else if w = 8 then 2 else if w = 4 then 1 else 0

/-- The narrowest WIDTH code accepted. -/
def State.minWidth (s : State) : Nat := max 1 (s.fld F.DCL_CONTROL_MIN_WIDTH 0)

/-- Send INTR for every source that is set and enabled (R546). -/
def State.sendIntrs (s : State) : State :=
  (List.range 8).foldl (fun s b =>
    if bitOf (s.fld F.HOST_INT_STATUS_STATUS 0) b && bitOf (s.fld F.HOST_INT_ENABLE_ENABLE 0) b then s.sendIntr b else s) s

/-- The scramblers start over, on entry to ACTIVE or RETRAIN (R524). -/
def HostSt.reseed (h : HostSt) : HostSt := { h with scrambler := 0x7FFFFFFF }

/-- A flit without a new message: IDLE or NAK. -/
def State.bareFlit (s : State) (type : Nat) : State := s.mapHost fun h => h.sendFlit s.dclWidth type 0 []

/-- CONFIG has fixed the width and the lane order: ACTIVE with credits at zero; the first flit grants 512 REQ and 256 RSP slots
(R523, R531; log entry 106). -/
def State.linkUp (s : State) (t : DclTrain) : State :=
  let s := (s.setFld F.DCL_STATUS_WIDTH 0 (widthCode t.width)).setFlag F.DCL_STATUS_REVERSED 0 t.reversed
  let s := (s.setFld F.DCL_STATUS_LANE_INVERTED 0 t.inverted.toNat).setLink 4
  ((s.mapHost fun h => { h.reseed with creditReq := 0, creditRsp := 0, creditSnp := 0, owedReq := 512, owedRsp := 256 }).bareFlit
    0).sendIntrs

/-- The condition of the present training state is met (R522, R523). -/
def State.trainStep (s : State) (t : DclTrain) : State :=
  match s.linkState with
  | 0 => s.setLink 1
  | 1 => s.setLink 2
  | 2 => s.setLink 3
  | 3 => if s.minWidth ≤ widthCode t.width then s.linkUp t else s.setLink 1
  | 5 => (((s.setLink 4).mapHost HostSt.reseed).bareFlit 0).pumpLink.sendIntrs
  | _ => s

/-- DCL_TRAINING_STEP (R522). -/
def execDclTrainingStep (r : DclTrain) (s : State) : Host.Outcome State Fault Refusal :=
  if s.power.core then .next (s.trainStep r) else .next s

/-! ## DOWN (R528) -/

/-- Nothing is left of what the link carried; the doorbell, the command taken and the interrupt intervals stay. -/
def HostSt.lost (h : HostSt) : HostSt :=
  { HostSt.down with phase := h.phase, produced := h.produced, cmd := h.cmd, landing := h.landing,
                     intrHold := h.intrHold, intrDeferred := h.intrDeferred }

/-- The records that waited for a CONSUMER are produced: no cache holds it any more. -/
def State.flushRings (s : State) : State :=
  s.ringQueue.foldl (fun s x => s.ringPutNow x.1 x.2.1 x.2.2) { s with ringQueue := [] }

/-- Entry to DOWN. -/
def State.dclDown (s : State) : State :=
  let s := if s.dclUp then s.setFlag F.DCL_STATUS_LINK_LOST 0 true else s
  let s := (((s.setLink 0).setFld F.DCL_STATUS_WIDTH 0 0).setFlag F.DCL_STATUS_REVERSED 0 false).setFld
    F.DCL_STATUS_LANE_INVERTED 0 0
  (s.mapHost HostSt.lost).flushRings.cmdGo

/-- DCL_LINK_DOWN (R528). -/
def execDclLinkDown (s : State) : Host.Outcome State Fault Refusal :=
  if s.power.core && s.linkState != 0 then .next s.dclDown else .next s

/-! ## RETRAIN (R522, R527) -/

/-- Start a retrain: buffers and credits are kept. A flit that is awaited stays awaited. -/
def State.retrain (s : State) : State :=
  ((s.setLink 5).bump F.DCL_COUNTS_RETRAINS 0).mapHost fun h => { h.reseed with naks := min h.naks 1 }

/-- Failed retrains within the last 100 ms, in fabric time. -/
def State.recentFails (s : State) : List Nat := s.host.failedRetrains.filter fun t => decide (s.ns - t < 100000000)

/-- A retrain has failed: the fourth within 100 ms takes the link down; before that it retrains again. -/
def State.retrainFailed (s : State) : State :=
  let fails := s.recentFails ++ [s.ns]
  if 4 ≤ fails.length then s.dclDown else (s.mapHost fun h => { h with failedRetrains := fails }).retrain

/-- DCL_TRAINING_TIMEOUT (R522). -/
def execDclTrainingTimeout (s : State) : Host.Outcome State Fault Refusal :=
  if !s.power.core then .next s
  else if s.linkState = 2 ∨ s.linkState = 3 then .next (s.setLink 1)
  else if s.linkState = 5 then .next s.retrainFailed
  else .next s

/-- A write of FORCE_RETRAIN (R522). -/
def State.forceRetrain (s : State) : State := if s.linkState = 4 then s.retrain else s

/-- FORCE_RETRAIN (R522). -/
def execForceRetrain (s : State) : Host.Outcome State Fault Refusal := .next s.forceRetrain

/-! ## Flits (R526, R527) -/

/-- Free the PAYLOAD flits up to the one that ACK_SEQ names. -/
def HostSt.acked (h : HostSt) (ackSeq : Nat) : HostSt :=
  if h.replay.any fun x => x.1 == ackSeq then
    { h with replay := (h.replay.dropWhile fun x => x.1 != ackSeq).drop 1 }
  else h

/-- Send the NAK for the flit that is awaited, or retrain where eight have been sent. -/
def State.sendNak (s : State) : State :=
  if 8 ≤ s.host.naks then s.retrain else (s.mapHost fun h => { h with naks := h.naks + 1 }).bareFlit 2

/-- DCL_FLIT_BAD (R527). -/
def execDclFlitBad (_crcBad : Bool) (s : State) : Host.Outcome State Fault Refusal :=
  if s.linkActive then .next ((s.bump F.DCL_COUNTS_BAD_FLITS 0).sendNak) else .next s

/-- DCL_NAK_REPEAT (R527). -/
def execDclNakRepeat (s : State) : Host.Outcome State Fault Refusal :=
  if s.linkActive && s.host.naks != 0 then .next s.sendNak else .next s

/-- DCL_NAK (R527): what follows ACK_SEQ is sent again. -/
def execDclNak (ackSeq : BitVec 10) (s : State) : Host.Outcome State Fault Refusal :=
  if s.linkActive then
    .next ((s.bump F.DCL_COUNTS_REPLAYS 0).mapHost fun h =>
      let h := h.acked ackSeq.toNat
      (h.sendFlits s.dclWidth h.replay).pumpOut s.dclWidth)
  else .next s

/-- Is a flit taken: IDLE, or the PAYLOAD flit that follows the last good one? -/
def HostSt.inOrder (h : HostSt) : Option (BitVec 10) → Bool
  | none => true
  | some q => q.toNat == (h.rxSeq + 1) % 1024

/-- Take a good flit: its acknowledgement, its credit, its sequence number. What it lets go is sent, or an IDLE flit that
acknowledges it. -/
def HostSt.take (h : HostSt) (w : Nat) (payload : Option (BitVec 10)) (ackSeq req rsp snp : Nat) : HostSt :=
  let h := h.acked ackSeq
  let h := { h with creditReq := h.creditReq + req, creditRsp := h.creditRsp + rsp, creditSnp := h.creditSnp + snp }
  match payload with
  | some q =>
    let h := { h with rxSeq := q.toNat, naks := 0 }
    let g := h.pumpOut w
    if g.replay.length = h.replay.length then g.sendFlit w 0 0 [] else g
  | none => h.pumpOut w

/-- DCL_FLIT_GOOD (R526). A PAYLOAD flit out of order is discarded whole (log entry 33). -/
def execDclFlitGood (payload : Option (BitVec 10)) (ackSeq reqCredit rspCredit snpCredit : BitVec 10) (s : State) :
    Host.Outcome State Fault Refusal :=
  if s.linkActive && s.host.inOrder payload then
    .next (s.mapHost fun h => h.take s.dclWidth payload ackSeq.toNat reqCredit.toNat rspCredit.toNat snpCredit.toNat)
  else .next s

end Sys2Proof.Machine
end

