-- ==== Sys2Proof/Machine/Update.lean ====
section
/-! DEFINITION. The update interface: flash operations through the update buffer (spec/22_companion_link.md R547;
21_boot_security.md R516). -/
namespace Sys2Proof.Machine

open Sys2Proof

/-- KEY of UPD_CONTROL that makes a write act. -/
def updKey : Nat := 0x6E

/-- Does a run of flash bytes lie within one image slot? -/
def inSlot (slot off len : Nat) : Bool := decide (slotBase slot ≤ off) && decide (off + len ≤ slotBase slot + slotBytes)

/-- Does a run lie within the slot that is started (R547)? -/
def State.inStarted (s : State) (off len : Nat) : Bool :=
  match s.boot.started with
  | some slot => s.stage == 3 && inSlot slot off len
  | none => false

/-- May flash bytes be changed by an operation? -/
def State.mayChange (s : State) (off len : Nat) : Bool :=
  (inSlot 1 off len || inSlot 2 off len) && !s.inStarted off len

/-- The operation that a keyed write asks for; none where it is refused. LENGTH is 1 to 65,536; erases start and end on
sectors and programs start on pages, by the sizes of SFDP. -/
def State.updAsked (s : State) (op len : Nat) : Option SpiOp :=
  let off := s.fld F.UPD_OFFSET_FLASH_OFFSET 0
  if len = 0 ∨ 65536 < len then none
  else
    match op with
    | 1 => if s.mayChange off len && off % s.flash.sector == 0 && len % s.flash.sector == 0 then some (.erase off len)
           else none
    | 2 => if s.mayChange off len && off % s.flash.page == 0 then some (.program off len) else none
    | _ => some (.read off len)

/-- A write of UPD_CONTROL with the key: the operation is queued with the other flash commands, or refused as R10 sets
out. OP 0 asks for nothing. -/
def State.updOp (s : State) (op len : Nat) : State :=
  if op = 0 then s
  else
    match s.updAsked op len with
    | some o => { s with upd := { s.upd with ops := s.upd.ops ++ [o] } }
    | none => (s.setFld F.UPD_STATUS_UPD_ERR 0 1).reservedWrite (regAddr .UPD_CONTROL 0)
        (updKey * 2 ^ 24 + op * 2 ^ 22 + len)

/-- Any write of UPD_CONTROL. -/
def State.writeUpdControl (s : State) (v : Word) : State :=
  if bitsOf v.toNat 31 24 = updKey then s.updOp (bitsOf v.toNat 23 22) (bitsOf v.toNat 16 0) else s

/-- UPD_ERASE (R547). -/
def execUpdErase (length : BitVec 17) (s : State) : Host.Outcome State Fault Refusal :=
  if s.power.core then .next (s.updOp 1 length.toNat) else .next s

/-- UPD_PROGRAM (R547). -/
def execUpdProgram (length : BitVec 17) (s : State) : Host.Outcome State Fault Refusal :=
  if s.power.core then .next (s.updOp 2 length.toNat) else .next s

/-- UPD_READ (R547). -/
def execUpdRead (length : BitVec 17) (s : State) : Host.Outcome State Fault Refusal :=
  if s.power.core then .next (s.updOp 3 length.toNat) else .next s

/-- The bytes a READ brings; beyond the part nothing is specified (assumption 6). -/
def State.flashRead (s : State) (draw off len : Nat) : List Byte :=
  let n := min len (s.flash.bytes - off)
  s.flashAt off n ++ (List.range (len - n)).map fun i => Config.freeFlashByte draw (n + i)

/-- Bytes that a flash error leaves open (assumption 6). -/
def errorBytes (draw len : Nat) : List Byte := (List.range len).map (Config.freeFlashByte draw)

/-- Carry a flash operation out. -/
def State.spiDone (s : State) : SpiOp → State
  | .erase off len => s.flashErase off len
  | .program off len => s.flashProgram off ((s.upd.buf |> sgetRun 0 0 len))
  | .read off len =>
    let (k, s) := s.draw1
    s.bufferWrite 0 (s.flashRead k off len)

/-- A flash operation has ended in an error: the bytes it was to change are open. -/
def State.spiFailed (s : State) (o : SpiOp) : State :=
  let (k, s) := s.draw1
  match o with
  | .erase off len | .program off len =>
    { s with flash := { s.flash with data := ssetRun flashErased off (errorBytes k len) s.flash.data } }
  | .read _ len => s.bufferWrite 0 (errorBytes k len)

/-- UPD_OPERATION_DONE (R547): the operation at the head of the queue ends. -/
def execUpdOperationDone (ok : Bool) (s : State) : Host.Outcome State Fault Refusal :=
  match s.upd.ops with
  | [] => .next s
  | o :: rest =>
    if !s.power.core then .next s
    else
      let s := { s with upd := { s.upd with ops := rest } }
      let s := if ok then s.spiDone o else s.spiFailed o
      let s := (s.setFld F.UPD_STATUS_UPD_ERR 0 (if ok then 0 else 2)).setFlag F.UPD_STATUS_UPD_DONE 0 true
      .next (s.bump F.UPD_STATUS_OPERATIONS 0)

end Sys2Proof.Machine
end

