-- ==== Sys2Proof/Machine/Registers.lean ====
section
/-! DEFINITION. Accesses to the management space: where an address leads, what an access draws, and what a read and a write
of each register and array do (spec/23_register_map.md R550 to R564; 00_scope.md R8 to R10; 18_watchtower.md R457;
19_clocks.md R470, R471). -/
namespace Sys2Proof.Machine

open Sys2Proof

/-! ## Where an address leads (R550 to R552, R563) -/

/-- What lies at a mapped address. -/
inductive Target where
  | reg (n : RegName) (i : Nat)
  | shaper (die entry word : Nat)
  | gate (die port list word : Nat)
  | bank (die : Nat) (bit : Bool) (off : Nat)
  | entries (off : Nat)
  | report (off : Nat)
  | factory (off : Nat)
  deriving DecidableEq, Repr

/-- An array or window of the control die. -/
def windowAt (a : Nat) : Option Target :=
  if 0x00208000 ≤ a ∧ a < 0x00210000 then some (.entries (a - 0x00208000))
  else if 0x00C01000 ≤ a ∧ a < 0x00C03000 then some (.report (a - 0x00C01000))
  else if 0x00C04000 ≤ a ∧ a < 0x00C08000 then some (.factory (a - 0x00C04000))
  else none

/-- An array of a fabric die: the gate lists, the shaper table and the table banks. -/
def dieArrayAt (d off : Nat) : Option Target :=
  if 0x00040000 ≤ off ∧ off < 0x00080000 then
    let x := off - 0x00040000
    some (.gate d (x / 0x1000) (x % 0x1000 / 0x800) (x % 0x800 / 4))
  else if 0x00100000 ≤ off ∧ off < 0x00110000 then
    let x := off - 0x00100000
    some (.shaper d (x / 16) (x % 16 / 4))
  else if 0x00200000 ≤ off ∧ off < 0x00400000 then
    let x := off % 0x00100000
    if x < 0x2400 ∨ (0x8000 ≤ x ∧ x < 0x88000) then some (.bank d (decide (0x00300000 ≤ off)) x) else none
  else none

/-- What lies at an address; none where it is unmapped. -/
def targetAt (a : Nat) : Option Target :=
  match regAt a with
  | some (n, i) => some (.reg n i)
  | none =>
    if a < 0x01000000 then windowAt a
    else if 0x10000000 ≤ a ∧ a < 0x20000000 then dieArrayAt ((a - 0x10000000) / 0x04000000) (a % 0x04000000)
    else none

/-! ## Which accesses are answered (R555, R558) -/

/-- The fabric die that an address of a die or a stack belongs to. -/
def dieAt (a : Nat) : Option Nat :=
  if 0x10000000 ≤ a ∧ a < 0x20000000 then some ((a - 0x10000000) / 0x04000000)
  else if 0x30000000 ≤ a ∧ a < 0x31400000 then some ((a - 0x30000000) / 0x00500000)
  else none

/-- The lane chiplet of an address. -/
def chipletAt (a : Nat) : Option Nat :=
  if 0x20000000 ≤ a ∧ a < 0x22000000 then some ((a - 0x20000000) / 0x00100000) else none

/-- Is the domain of a mapped address powered and out of reset? -/
def State.domainUp (s : State) (a : Nat) : Bool :=
  match dieAt a, chipletAt a with
  | some d, _ => s.power.dies.contains d
  | _, some c => s.power.groups.contains (c / 4)
  | _, _ => decide (0x01000000 ≤ a) || s.power.core

/-- The mill whose register block holds an address. -/
def millAt (a : Nat) : Option Nat :=
  match dieAt a with
  | some d =>
    let off := a % 0x04000000
    if a < 0x20000000 ∧ 0x01000000 ≤ off ∧ off < 0x01200000 then some (32 * d + (off - 0x01000000) / 0x00010000) else none
  | none => none

/-- Is a mill enabled (R101)? -/
def State.millEnabled (s : State) (m : Nat) : Bool := bitOf (s.reg .MILL_ENABLE (m / 32)) (m % 32)

/-- Is the block at an address gated: a fabric die or its stacks in DOZE, or a disabled mill (R471, R477)? -/
def State.gatedAt (s : State) (a : Nat) : Bool :=
  (match dieAt a with | some d => s.power.dozing.contains d | none => false)
    || match millAt a with | some m => !s.millEnabled m | none => false

/-- Rows 1 to 3 of R558. -/
inductive BusCause where
  | unaligned | unmapped | notReady
  deriving DecidableEq, Repr

/-- LAST_CAUSE of a row. -/
def BusCause.code : BusCause → Nat
  | .unaligned => 0
  | .unmapped => 1
  | .notReady => 2

/-- The rows of R558 in their order. -/
inductive Access where
  | err (c : BusCause)
  | gated
  | normal (t : Target)
  deriving DecidableEq, Repr

/-- The first case of R558 that applies. -/
def State.accessAt (s : State) (a : Nat) : Access :=
  if a % 4 ≠ 0 then .err .unaligned
  else
    match targetAt a with
    | none => .err .unmapped
    | some t => if !s.domainUp a then .err .notReady else if s.gatedAt a then .gated else .normal t

/-- LAST_MASTER of a master. -/
def masterCode : Master → Nat
  | .dcl => 0
  | .core => 1
  | .smbus => 2
  | .jtag => 3

/-- Count an answer under rows 1 to 3 (R559). -/
def State.busError (s : State) (m : Master) (c : BusCause) (a : Nat) : State :=
  if s.power.core then
    ((((s.bump F.BUS_ERRORS_COUNT 0).setFld F.BUS_ERRORS_LAST_MASTER 0 (masterCode m)).setFld
      F.BUS_ERRORS_LAST_CAUSE 0 c.code)).setReg .BUS_ERROR_ADDR 0 a
  else s

/-- The die that owns the block at an address. -/
def ownerDie (a : Nat) : Nat :=
  match dieAt a, chipletAt a with
  | some d, _ => d
  | _, some _ => dieLC
  | _, _ => dieCD

/-- A gated access (R457). -/
def State.gatedAccess (s : State) (a : Nat) : State :=
  ((s.bump F.GATED_ACCESS_GATED_ACCESS_COUNT 0).setReg .GATED_ADDR 0 a).raise (ownerDie a) blkBus 0 0x05 a 0

/-! ## Reading (R8, R400, R561, R563) -/

/-- The registers of a port block. -/
def isPortReg (n : RegName) : Bool :=
  [RegName.TFP_PORT_STATUS, .TFP_DISCARD_COUNT, .LINK_ASYM, .PORT_CRUISE, .PORT_PEER, .PORT_PEER_FW, .PORT_LINK,
   .PORT_LINK_CONTROL].contains n

/-- Is a port block the first block of a port? Any other reads as zero and ignores writes. -/
def State.blockUsed (s : State) (n : RegName) (i : Nat) : Bool := !isPortReg n || s.ports.any fun c => c.lane0 == i

/-- Bits that read as their value: every field but WO. -/
def readMask (n : RegName) : Nat :=
  (regRow n).mask .rw + (regRow n).mask .ro + (regRow n).mask .w1c + (regRow n).mask .rws

/-- A read of FT_NOW_LOW latches the whole of fabric time (R250). -/
def State.latchTime (s : State) : State := { s with time := { s.time with latch := s.time.now } }

/-- A read of MEM_ERR_ADDR_LOW latches the high word (R561). -/
def State.latchAddr (s : State) (k : Nat) : State :=
  s.setReg .MEM_ERR_ADDR_HIGH k (((s.memory.addrHigh.find? fun x => x.1 == k).map fun x => x.2.toNat).getD 0)

/-- What a read of a register changes. -/
def State.readEffect (s : State) (n : RegName) (i : Nat) : State :=
  match n with
  | .FT_NOW_LOW => s.latchTime
  | .MEM_ERR_ADDR_LOW => s.latchAddr i
  | _ => s

/-- The value a register reads as. -/
def State.regValue (s : State) (n : RegName) (i : Nat) : Nat :=
  if s.blockUsed n i then s.view n i &&& readMask n else 0

/-- A DOWN entry as its word. -/
def DownEntry.word (e : DownEntry) : Nat := 2 ^ 31 * b2n e.valid + e.group

/-- A FLAT entry as its two words. -/
def FlatEntry.word (e : FlatEntry) (high : Bool) : Nat :=
  if high then 2 ^ 31 * b2n e.valid + 2 ^ 30 * b2n e.consume + 2 ^ 16 * e.group else e.flat.toNat

/-- A word of a port mask. -/
def maskWord (ports : List Nat) (w : Nat) : Nat := sumN ((List.range 32).map fun b => if ports.contains (32 * w + b) then 2 ^ b else 0)

/-- A word of a table bank (R273). -/
def Bank.word (k : Bank) (off : Nat) : Nat :=
  if off < 0x400 then
    match k.down.find? fun e => e.child == off / 4 with
    | some e => e.word
    | none => 0
  else if off < 0x2400 then maskWord (k.groupPorts ((off - 0x400) / 32)) ((off - 0x400) % 32 / 4)
  else
    match k.flat[(off - 0x8000) / 8]? with
    | some e => e.word (off / 4 % 2 == 1)
    | none => 0

/-- Address of a word of a gate list (R327). -/
def gateWordAddr (d j k w : Nat) : Nat := dieBase d + 0x00040000 + j * 0x1000 + k * 0x800 + w * 4

/-- The words of an array or window; what lies beyond its content reads as zero. -/
def State.readTarget (s : State) (t : Target) : Nat :=
  match t with
  | .reg n i => s.regValue n i
  | .shaper d e w => (s.arr (shaperAddr d e + 4 * w)).toNat
  | .gate d j k w => (s.arr (gateWordAddr d j k w)).toNat
  | .bank d b off => (s.dieBank d b).word off
  | .entries off => match s.wt.queue[off / 32]? with | some e => leAt e.bytes (off % 32) 4 | none => 0
  | .report off => leAt s.boot.report off 4
  | .factory off => leAt s.boot.factory off 4

/-- What a read changes. -/
def State.readAt (s : State) (t : Target) : State :=
  match t with
  | .reg n i => s.readEffect n i
  | _ => s

/-! ## Writing RW fields (R10, R557) -/

/-- Does a source code use a DIE or a BLOCK that R443 reserves? -/
def reservedSource (src : Nat) : Bool :=
  src / 2 ^ 16 == 7 || !((List.range 0x0D).drop 1 ++ (List.range 0x19).drop 0x10 ++ [0x20, 0x21, 0x28]).contains (src / 2 ^ 10 % 64)

/-- RW fields that would take a reserved encoding (R10). -/
def reservedFlds (n : RegName) (v : Nat) : List Fld :=
  let above (f : Fld) (limit : Nat) : List Fld := if limit < bitsOf v f.hi f.lo then [f] else []
  match n with
  | .TIME_CONTROL => above F.TIME_CONTROL_DEFAULT_LEAD 1000 ++ above F.TIME_CONTROL_SYNC_PERIOD 1000
  | .PORT_LINK_CONTROL => above F.PORT_LINK_CONTROL_QUIET_IDLE 1000
  | .FORCE_SOURCE => if reservedSource (bitsOf v F.FORCE_SOURCE_SOURCE.hi F.FORCE_SOURCE_SOURCE.lo) then [F.FORCE_SOURCE_SOURCE] else []
  | _ => []

/-- The registers of which every fabric die holds the same value (the routing registers of chapter 10). -/
def onEveryDie : RegName → Bool
  | .ROUTE_CONTROL | .ROUTE_DISCARDS | .EPOCH_DISCARDS => true
  | _ => false

/-- Bits of a field. -/
def Fld.bits (f : Fld) : Nat := (2 ^ f.width - 1) * 2 ^ f.lo

/-- Set the RW fields of a register; a field that would take a reserved encoding stays, and the write is recorded. -/
def State.writeFields (s : State) (n : RegName) (i v : Nat) : State :=
  let bad := reservedFlds n v
  let m := (regRow n).mask .rw + (regRow n).mask .rws - sumN (bad.map Fld.bits)
  let old := s.reg n i
  let w := old - (old &&& m) + (v &&& m)
  let s := if onEveryDie n then (List.range 4).foldl (fun s d => s.setReg n d w) s else s.setReg n i w
  if bad.isEmpty then s else s.reservedWrite (regAddr n i) v

/-- HOST_INT_ENABLE: a source that is set and becomes enabled sends INTR (R546). -/
def State.writeIntEnable (s : State) (v : Nat) : State :=
  let old := s.fld F.HOST_INT_ENABLE_ENABLE 0
  let s := s.writeFields .HOST_INT_ENABLE 0 v
  (List.range 8).foldl (fun s b =>
    if bitOf v b && !bitOf old b && bitOf (s.fld F.HOST_INT_STATUS_STATUS 0) b then s.sendIntr b else s) s

/-- PORT_LINK_CONTROL: FORCE_DOWN acts where it changes (R413). -/
def State.writeLinkControl (s : State) (i v : Nat) : State :=
  let was := s.flag F.PORT_LINK_CONTROL_FORCE_DOWN i
  let s := s.writeFields .PORT_LINK_CONTROL i v
  match s.ports.find? fun c => c.lane0 == i with
  | some c => if bitOf v 31 != was then s.forceDown c (bitOf v 31) else s
  | none => s

/-- Set the RW fields, with what they start. -/
def State.writeRw (s : State) (n : RegName) (i v : Nat) : State :=
  match n with
  | .FORCE => s.writeForce v
  | .REACTION => s.writeReaction i v
  | .ISLAND_CLOCK => s.writeIsland i v
  | .CLOCK_GATE_CD => (List.range 5).foldl (fun s b => s.gateWrite v b) s
  | .LANE_PRBS => s.writePrbs i (BitVec.ofNat 32 v)
  | .PORT_LINK_CONTROL => s.writeLinkControl i v
  | .HOST_INT_ENABLE => s.writeIntEnable v
  | _ => s.writeFields n i v

/-! ## WO fields -/

/-- A write of PWR_COMMAND: only DCL commands a state (R478). -/
def State.writePower (s : State) (m : Master) (v : Nat) : State :=
  match m with
  | .dcl => s.powerCommand (bitsOf v 1 0)
  | .smbus => (s.reservedWrite (regAddr .PWR_COMMAND 0) v).bump F.SMB_STATUS_SMB_REFUSED 0
  | _ => s.reservedWrite (regAddr .PWR_COMMAND 0) v

/-- Act on the WO fields of the registers of the control die and the keep. -/
def State.writeWoControl (s : State) (m : Master) (n : RegName) (v : Nat) : State :=
  match n with
  | .RETIRE => s.retireN (bitsOf v 10 0)
  | .LEDGER_SIGN_STEP => s.signRequest (BitVec.ofNat 32 v)
  | .CRUISE_CONTROL => if bitOf v 31 && !s.flag F.CRUISE_STATUS_SWEEP_ACTIVE 0 then s.fullSweep else s
  | .FENCE_REQUEST_RANK => s.fenceByWrite (bitsOf v 17 0)
  | .BOOT_CONTROL => s.writeBootControl v
  | .ATTEST_STATUS => if bitOf v 30 then s.attestRequest else s
  | .DCL_CONTROL => if bitOf v 31 then s.forceRetrain else s
  | .HOST_DOORBELL => if s.windowReady then s.doorbell else s
  | .UPD_CONTROL => s.writeUpdControl (BitVec.ofNat 32 v)
  | .WDT_CONTROL => s.service (bitsOf v 15 0)
  | .DOMAIN_RESET => s.domainReset v
  | .PWR_COMMAND => s.writePower m v
  | _ => s

/-- Act on the WO fields. -/
def State.writeWo (s : State) (m : Master) (n : RegName) (i v : Nat) : State :=
  match n with
  | .REFCOUNT_STATUS => if bitOf v 30 then s.startSweep i else s
  | .GATE_CONTROL => if bitOf v 31 then s.gateArm (i / 64) (i % 64) else s
  | _ => s.writeWoControl m n v

/-- A write of a register: W1C bits clear, RW fields take their values, WO fields act (R557). -/
def State.writeReg (s : State) (m : Master) (n : RegName) (i v : Nat) : State :=
  if !s.blockUsed n i then s
  else
    let s := if n = .ISLAND_CLOCK then s else s.clearW1c n i v
    (s.writeRw n i v).writeWo m n i v

/-! ## Writing arrays (R317, R318, R328, R563) -/

/-- A word of a shaper entry: the write is one of the whole entry as it then stands. -/
def State.writeShaperWord (s : State) (d e w : Nat) (v : Word) : State :=
  let a := shaperAddr d e
  match w with
  | 0 => s.writeShaper d e v (s.arr (a + 4)) (s.arr (a + 8))
  | 1 => s.writeShaper d e (s.arr a) v (s.arr (a + 8))
  | 2 => s.writeShaper d e (s.arr a) (s.arr (a + 4)) v
  | _ => s

/-- Is a gate list the active one of its port? -/
def State.listActive (s : State) (d j k : Nat) : Bool :=
  match (s.gate d j).active with
  | some a => a.1 == k
  | none => false

/-- A word of a gate list: the active list, and the standby list while a swap is pending, ignore it and set GATE_ERR. -/
def State.writeGate (s : State) (d j k w : Nat) (v : Word) : State :=
  if s.listActive d j k || !s.gateWriteOk d j k then s.setFlag F.GATE_CONTROL_GATE_ERR (gateInst d j) true
  else s.setArr (gateWordAddr d j k w) (if w % 2 = 0 then v else v &&& 0x800000FF)

/-- Replace a DOWN entry. -/
def Bank.putDown (k : Bank) (e : DownEntry) : Bank :=
  { k with down := k.down.filter (fun (x : DownEntry) => x.child != e.child) ++ [e] }

/-- Replace the ports of a group that one mask word selects; a group's ports stand in ascending number (R278). -/
def Bank.putMask (k : Bank) (g w v : Nat) : Bank :=
  let mine := (List.range 32).filterMap fun b => if bitOf v b then some (32 * w + b) else none
  let old := k.groupPorts g
  let ps := old.filter (fun p => decide (p / 32 < w)) ++ mine ++ old.filter fun p => decide (w < p / 32)
  { k with groups := k.groups.filter (fun (x : Nat × List Nat) => x.1 != g) ++ [(g, ps)] }

/-- An entry that is not valid. -/
def noFlat : FlatEntry := ⟨false, false, 0, 0⟩

/-- Replace one word of a FLAT entry. -/
def Bank.putFlat (k : Bank) (idx : Nat) (high : Bool) (v : Nat) : Bank :=
  let xs := k.flat ++ List.replicate (idx + 1 - k.flat.length) noFlat
  let e := nth xs idx noFlat
  let e : FlatEntry :=
    if high then { e with valid := bitOf v 31, consume := bitOf v 30, group := bitsOf v 23 16 }
    else { e with flat := BitVec.ofNat 24 v }
  { k with flat := xs.set idx e }

/-- Write a word of a table bank (R273). -/
def Bank.write (k : Bank) (off v : Nat) : Bank :=
  if off < 0x400 then k.putDown ⟨off / 4, bitOf v 31, bitsOf v 7 0⟩
  else if off < 0x2400 then k.putMask ((off - 0x400) / 32) ((off - 0x400) % 32 / 4) v
  else k.putFlat ((off - 0x8000) / 8) (off / 4 % 2 == 1) v

/-- A write of what lies at an address. -/
def State.writeAt (s : State) (m : Master) (t : Target) (v : Word) : State :=
  match t with
  | .reg n i => s.writeReg m n i v.toNat
  | .shaper d e w => s.writeShaperWord d e w v
  | .gate d j k w => s.writeGate d j k w v
  | .bank d b off => if m = .core then s.setDieBank d b ((s.dieBank d b).write off v.toNat) else s
  | _ => s

/-! ## Accesses -/

/-- Carry a read out: what it draws, and the value. -/
def State.busRead (s : State) (m : Master) (a : Nat) : Option BusCause × Nat × State :=
  match s.accessAt a with
  | .err c => (some c, 0, s.busError m c a)
  | .gated => (none, 0, s.gatedAccess a)
  | .normal t => (none, s.readTarget t, s.readAt t)

/-- Carry a write out. -/
def State.busWrite (s : State) (m : Master) (a : Nat) (v : Word) : Option BusCause × State :=
  match s.accessAt a with
  | .err c => (some c, s.busError m c a)
  | .gated => (none, s.gatedAccess a)
  | .normal t => (none, s.writeAt m t v)

/-- Is the TAP powered: VDDIO, which follows CORE_PWR_EN, is up (R567, R570, R586)? -/
def State.tapPowered (s : State) : Bool := s.power.pins.corePwrEn && s.power.pins.pwrgd

/-- Can a master's access be made: DCL over an ACTIVE link, the core while the control die runs, SMBus outside KEEP and
wakes, JTAG through the instrument network (R549, R556)? -/
def State.reaches (s : State) : Master → Bool
  | .dcl => s.linkActive
  | .core => s.power.core
  | .smbus => s.pwr != 3 && !s.waking
  | .jtag => s.tapPowered && s.power.core && s.flag F.CLOCK_GATE_CD_INSTR_EN 0

/-- STATUS of a DCL answer (R530, R558). -/
def dclStatus : Option BusCause → Nat
  | none => 0
  | some .notReady => 3
  | some _ => 4

/-- REG_RD (R557). -/
def execRegRd (tag : BitVec 12) (addr : Word) (s : State) : Host.Outcome State Fault Refusal :=
  if s.reaches .dcl then
    let (c, v, s) := (s.took .req 1).busRead .dcl addr.toNat
    .next (s.post (.regData tag (dclStatus c) (BitVec.ofNat 32 v)))
  else .next s

/-- REG_WR (R557). -/
def execRegWr (tag : BitVec 12) (addr value : Word) (s : State) : Host.Outcome State Fault Refusal :=
  if s.reaches .dcl then
    let (c, s) := (s.took .req 1).busWrite .dcl addr.toNat value
    .next (s.post (.cmp tag (dclStatus c)))
  else .next s

/-- A master that exchanges no messages is answered: the management core by its bus, JTAG by the TAP (R556, R558). -/
def State.answer (s : State) (m : Master) (c : Option BusCause) (v : Nat) : State :=
  let a : BusAnswer := ⟨c.isSome, if c.isSome then 0 else BitVec.ofNat 32 v⟩
  match m with
  | .jtag => s.mapPower fun p => { p with tap := a }
  | .core => s.mapPower fun p => { p with coreBus := a }
  | .dcl | .smbus => s

/-- An access that cannot be made; a powered TAP reports ERROR status (R556). -/
def State.unreached (s : State) (m : Master) : State :=
  if m == .jtag && s.tapPowered then s.mapPower fun p => { p with tap := ⟨true, 0⟩ } else s

/-- REGISTER_READ (R558). -/
def execRegisterRead (m : Master) (addr : Word) (s : State) : Host.Outcome State Fault Refusal :=
  if s.reaches m then
    let (c, v, s) := s.busRead m addr.toNat
    .next (s.answer m c v)
  else .next (s.unreached m)

/-- REGISTER_WRITE (R557). -/
def execRegisterWrite (m : Master) (addr value : Word) (s : State) : Host.Outcome State Fault Refusal :=
  if s.reaches m then
    let (c, s) := s.busWrite m addr.toNat value
    .next (s.answer m c 0)
  else .next (s.unreached m)

/-- FT_NOW_LOW_READ (R250). -/
def execFtNowLowRead (s : State) : Host.Outcome State Fault Refusal := if s.power.core then .next s.latchTime else .next s

/-- MEM_ERR_ADDR_LOW_READ (R561): a stack whose domain is off or gated latches nothing. -/
def execMemErrAddrLowRead (stack : Nat) (s : State) : Host.Outcome State Fault Refusal :=
  if stack < 20 ∧ s.power.dies.contains (stack / 5) ∧ !s.power.dozing.contains (stack / 5) then .next (s.latchAddr stack)
  else .next s

end Sys2Proof.Machine
end

