-- ==== Sys2Proof/Machine/Smbus.lean ====
section
/-! DEFINITION. The SMBus management port (spec/22_companion_link.md R548, R549; 23_register_map.md R556, R558). -/
namespace Sys2Proof.Machine

open Sys2Proof

/-- Change the port's record. -/
def State.mapSmb (s : State) (g : SmbSt → SmbSt) : State := { s with smb := g s.smb }

/-- Does an address lie in the keep? -/
def inKeep (a : Nat) : Bool := decide (0x01000000 ≤ a) && decide (a < 0x01010000)

/-- Count a refused access. -/
def State.smbRefused (s : State) : State := s.bump F.SMB_STATUS_SMB_REFUSED 0

/-- An access that draws an answer under rows 1 to 3 is counted in SMB_REFUSED as well (R558). -/
def State.smbOutcome (s : State) : Option BusCause → State
  | some _ => s.smbRefused
  | none => s

/-- Fetch the register at the management address now. -/
def State.smbLoad (s : State) : State :=
  let (c, v, s) := s.busRead .smbus s.smb.addr.toNat
  (s.smbOutcome c).mapSmb fun b => { b with value := BitVec.ofNat 32 v, fetching := false }

/-- Start a fetch: the keep answers at once, other registers read as zero in KEEP and while a wake is in progress, and
else the fetch takes its time. -/
def State.smbFetch (s : State) : State :=
  if inKeep s.smb.addr.toNat then s.smbLoad
  else if s.reaches .smbus then s.mapSmb fun b => { b with fetching := true }
  else s.mapSmb fun b => { b with value := 0, fetching := false }

/-- The end of a fetch. -/
def State.smbFetched (s : State) : State :=
  if s.reaches .smbus then s.smbLoad else s.mapSmb fun b => { b with value := 0, fetching := false }

/-- Write the register at the management address: outside the keep not in KEEP and not while a wake is in progress. -/
def State.smbStore (s : State) (v : Word) : State :=
  if inKeep s.smb.addr.toNat || s.reaches .smbus then
    let (c, s) := s.busWrite .smbus s.smb.addr.toNat v
    s.smbOutcome c
  else s.smbRefused

/-- The management address rises by 4. -/
def State.smbAdvance (s : State) : State := s.mapSmb fun b => { b with addr := b.addr + 4 }

/-- Is a transaction acknowledged: PEC_REQ asks for a correct PEC? -/
def State.pecGood (s : State) (t : SmbTxn) : Bool := !s.flag F.SMB_CONFIG_PEC_REQ 0 || (t.pec && t.pecOk)

/-- A transaction to the port's address: the address match, then the PEC, then the command. -/
def State.smbus (s : State) (t : SmbTxn) (act : State → State) : State :=
  let s := s.addressMatch
  if s.pecGood t then act s else s.bump F.SMB_STATUS_PEC_ERRORS 0

/-- SET_ADDR (R549). -/
def execSetAddr (t : SmbTxn) (addr : Word) (s : State) : Host.Outcome State Fault Refusal :=
  .next (s.smbus t fun s => (s.mapSmb fun b => { b with addr := addr }).smbFetch)

/-- SMB_READ (R549). -/
def execSmbRead (t : SmbTxn) (s : State) : Host.Outcome State Fault Refusal :=
  .next (s.smbus t fun s => s.smbAdvance.smbFetch)

/-- SMB_WRITE (R549). -/
def execSmbWrite (t : SmbTxn) (value : Word) (s : State) : Host.Outcome State Fault Refusal :=
  .next (s.smbus t fun s => (s.smbStore value).smbAdvance)

/-- SMB_STATUS_READ (R549): byte 0 of SMB_STATUS goes to the host, and nothing else changes. -/
def execSmbStatusRead (t : SmbTxn) (s : State) : Host.Outcome State Fault Refusal := .next (s.smbus t fun s => s)

/-- SMB_FETCH_DONE (R549). -/
def execSmbFetchDone (s : State) : Host.Outcome State Fault Refusal :=
  if s.smb.fetching then .next s.smbFetched else .next s

/-- ALERT_RESPONSE (R548): the port answers with its address while it drives SMB_ALERT_N low; the line follows
IRQ_PENDING and the link, and the answer changes neither. -/
def execAlertResponse (s : State) : Host.Outcome State Fault Refusal := .next s

end Sys2Proof.Machine
end

