-- ==== Sys2Proof/Machine/Dispatch.lean ====
section
/-! DEFINITION. The effect of every command on everything but the queue: one arm per row of spec/opcode_table.json. -/
namespace Sys2Proof.Machine

open Sys2Proof

/-- The effect of a command. -/
def exec (i : Instr) (s : State) : Host.Outcome State Fault Refusal :=
  match i with
  | .frameHeaderLookup port f bank => Sys2Proof.Machine.execFrameHeaderLookup port f bank s
  | .frameTailVerdict fid rx read => Sys2Proof.Machine.execFrameTailVerdict fid rx read s
  | .egressSelect port => Sys2Proof.Machine.execEgressSelect port s
  | .egressFrameDone cid read count => Sys2Proof.Machine.execEgressFrameDone cid read count s
  | .queueHeadDwellExpiry cid => Sys2Proof.Machine.execQueueHeadDwellExpiry cid s
  | .extensionReturn fid memBad => Sys2Proof.Machine.execExtensionReturn fid memBad s
  | .shaperRelease die entry => Sys2Proof.Machine.execShaperRelease die entry s
  | .refusalRecordExpiry die entry src msgId attempt => Sys2Proof.Machine.execRefusalRecordExpiry die entry src msgId attempt s
  | .arbiterRest port => Sys2Proof.Machine.execArbiterRest port s
  | .relayFrame port f canTake => Sys2Proof.Machine.execRelayFrame port f canTake s
  | .contribFrame port f flt => Sys2Proof.Machine.execContribFrame port f flt s
  | .partialFrame port f flt => Sys2Proof.Machine.execPartialFrame port f flt s
  | .resultReceived port f => Sys2Proof.Machine.execResultReceived port f s
  | .rescaleReceived port f => Sys2Proof.Machine.execRescaleReceived port f s
  | .supersedeReceived port f => Sys2Proof.Machine.execSupersedeReceived port f s
  | .stepCommitReceived port f flt => Sys2Proof.Machine.execStepCommitReceived port f flt s
  | .stepAbortReceived port f flt => Sys2Proof.Machine.execStepAbortReceived port f flt s
  | .ackFrame port f => Sys2Proof.Machine.execAckFrame port f s
  | .nackFrame port f => Sys2Proof.Machine.execNackFrame port f s
  | .checkFailNack port f => Sys2Proof.Machine.execCheckFailNack port f s
  | .resendTimerExpiry key => Sys2Proof.Machine.execResendTimerExpiry key s
  | .stragglerTimerExpiry w => Sys2Proof.Machine.execStragglerTimerExpiry w s
  | .fenceTimerExpiry w => Sys2Proof.Machine.execFenceTimerExpiry w s
  | .stepTimerExpiry job step => Sys2Proof.Machine.execStepTimerExpiry job step s
  | .stepReportSend job step => Sys2Proof.Machine.execStepReportSend job step s
  | .stepReport port f => Sys2Proof.Machine.execStepReport port f s
  | .reportWithdraw port f => Sys2Proof.Machine.execReportWithdraw port f s
  | .withdrawReply port f => Sys2Proof.Machine.execWithdrawReply port f s
  | .tallyReport port f => Sys2Proof.Machine.execTallyReport port f s
  | .bellArrive port f store => Sys2Proof.Machine.execBellArrive port f store s
  | .bellRelease port f => Sys2Proof.Machine.execBellRelease port f s
  | .mcRecordTimeout die src msgId => Sys2Proof.Machine.execMcRecordTimeout die src msgId s
  | .dispatchEnd port f => Sys2Proof.Machine.execDispatchEnd port f s
  | .dispatchGrant port f => Sys2Proof.Machine.execDispatchGrant port f s
  | .landingData port f => Sys2Proof.Machine.execLandingData port f s
  | .landingOpen port f => Sys2Proof.Machine.execLandingOpen port f s
  | .landingSeal port f => Sys2Proof.Machine.execLandingSeal port f s
  | .sealHashDone job owner gen slot => Sys2Proof.Machine.execSealHashDone job owner gen slot s
  | .landingRead port f => Sys2Proof.Machine.execLandingRead port f s
  | .landingDrop port f => Sys2Proof.Machine.execLandingDrop port f s
  | .epochRequest port f => Sys2Proof.Machine.execEpochRequest port f s
  | .epochPrepare port f => Sys2Proof.Machine.execEpochPrepare port f s
  | .epochPrepared port f => Sys2Proof.Machine.execEpochPrepared port f s
  | .epochCommit port f => Sys2Proof.Machine.execEpochCommit port f s
  | .epochDrainCondition => Sys2Proof.Machine.execEpochDrainCondition s
  | .epochDrained port f => Sys2Proof.Machine.execEpochDrained port f s
  | .epochRetire port f => Sys2Proof.Machine.execEpochRetire port f s
  | .epochQuery port f => Sys2Proof.Machine.execEpochQuery port f s
  | .timeSyncPeriod => Sys2Proof.Machine.execTimeSyncPeriod s
  | .timeSync port f t2 => Sys2Proof.Machine.execTimeSync port f t2 s
  | .timeSyncReply port f t4 => Sys2Proof.Machine.execTimeSyncReply port f t4 s
  | .timeHoldoverTimeout => Sys2Proof.Machine.execTimeHoldoverTimeout s
  | .hello port f => Sys2Proof.Machine.execHello port f s
  | .helloAck port f => Sys2Proof.Machine.execHelloAck port f s
  | .helloTimer port => Sys2Proof.Machine.execHelloTimer port s
  | .cruiseId port f => Sys2Proof.Machine.execCruiseId port f s
  | .cruiseReply port f => Sys2Proof.Machine.execCruiseReply port f s
  | .cruiseRetryTimer port => Sys2Proof.Machine.execCruiseRetryTimer port s
  | .cruiseSweepTimer => Sys2Proof.Machine.execCruiseSweepTimer s
  | .sweepNow => Sys2Proof.Machine.execSweepNow s
  | .epoch0Built => Sys2Proof.Machine.execEpoch0Built s
  | .pauseBlock port mask => Sys2Proof.Machine.execPauseBlock port mask s
  | .pauseRepeatTimer port => Sys2Proof.Machine.execPauseRepeatTimer port s
  | .gateArm die j => Sys2Proof.Machine.execGateArm die j s
  | .gateListSwap die j => Sys2Proof.Machine.execGateListSwap die j s
  | .gateEntryBoundary die j => Sys2Proof.Machine.execGateEntryBoundary die j s
  | .shaperEntryWrite die entry w0 w1 w2 => Sys2Proof.Machine.execShaperEntryWrite die entry w0 w1 w2 s
  | .sampleSnapshot die => Sys2Proof.Machine.execSampleSnapshot die s
  | .compactionDone mill => Sys2Proof.Machine.execCompactionDone mill s
  | .admissionReplyDeferred job => Sys2Proof.Machine.execAdmissionReplyDeferred job s
  | .restoreCounts die => Sys2Proof.Machine.execRestoreCounts die s
  | .refcountSweepDone die count => Sys2Proof.Machine.execRefcountSweepDone die count s
  | .errorMemoryAccess job bucket => Sys2Proof.Machine.execErrorMemoryAccess job bucket s
  | .lpddrAccess a => Sys2Proof.Machine.execLpddrAccess a s
  | .scrubLine stack channel line err checkErr => Sys2Proof.Machine.execScrubLine stack channel line err checkErr s
  | .mr4Reading stack temp rate => Sys2Proof.Machine.execMr4Reading stack temp rate s
  | .stackTrainingDone stack ok => Sys2Proof.Machine.execStackTrainingDone stack ok s
  | .fenceRequestRank rank => Sys2Proof.Machine.execFenceRequestRank rank s
  | .saveStart job => Sys2Proof.Machine.execSaveStart job s
  | .saveImageDone job => Sys2Proof.Machine.execSaveImageDone job s
  | .faultMessageAccept source => Sys2Proof.Machine.execFaultMessageAccept source s
  | .reactionHandle => Sys2Proof.Machine.execReactionHandle s
  | .entryReacted => Sys2Proof.Machine.execEntryReacted s
  | .retire count => Sys2Proof.Machine.execRetire count s
  | .forceGo w => Sys2Proof.Machine.execForceGo w s
  | .reactionWrite kind value => Sys2Proof.Machine.execReactionWrite kind value s
  | .faultBitClear addr mask => Sys2Proof.Machine.execFaultBitClear addr mask s
  | .flightRecorderCopy => Sys2Proof.Machine.execFlightRecorderCopy s
  | .watchdogService value => Sys2Proof.Machine.execWatchdogService value s
  | .watchdogExpiry => Sys2Proof.Machine.execWatchdogExpiry s
  | .firmwareReload => Sys2Proof.Machine.execFirmwareReload s
  | .pllEnWrite island v => Sys2Proof.Machine.execPllEnWrite island v s
  | .pllLockAcquired island => Sys2Proof.Machine.execPllLockAcquired island s
  | .selectWrite island v => Sys2Proof.Machine.execSelectWrite island v s
  | .muxSwitchDone island => Sys2Proof.Machine.execMuxSwitchDone island s
  | .muxTimeout island => Sys2Proof.Machine.execMuxTimeout island s
  | .domainReset w => Sys2Proof.Machine.execDomainReset w s
  | .clockGateWrite w => Sys2Proof.Machine.execClockGateWrite w s
  | .blockGated block => Sys2Proof.Machine.execBlockGated block s
  | .refLost count => Sys2Proof.Machine.execRefLost count s
  | .refOk count => Sys2Proof.Machine.execRefOk count s
  | .bootOscStopped => Sys2Proof.Machine.execBootOscStopped s
  | .thermalReading die temp => Sys2Proof.Machine.execThermalReading die temp s
  | .thermtrip => Sys2Proof.Machine.execThermtrip s
  | .signalDetected port => Sys2Proof.Machine.execSignalDetected port s
  | .trainingDone port => Sys2Proof.Machine.execTrainingDone port s
  | .adaptDone port inverted snr => Sys2Proof.Machine.execAdaptDone port inverted snr s
  | .alignDone port logical => Sys2Proof.Machine.execAlignDone port logical s
  | .bringupTimeout port => Sys2Proof.Machine.execBringupTimeout port s
  | .pcsLockLoss port => Sys2Proof.Machine.execPcsLockLoss port s
  | .forceDownWrite port v => Sys2Proof.Machine.execForceDownWrite port v s
  | .prbsEnableWrite lane w => Sys2Proof.Machine.execPrbsEnableWrite lane w s
  | .quietIdleExpiry port => Sys2Proof.Machine.execQuietIdleExpiry port s
  | .transmitterWake port => Sys2Proof.Machine.execTransmitterWake port s
  | .cmdRun => Sys2Proof.Machine.execCmdRun s
  | .cmdLaneQuiet => Sys2Proof.Machine.execCmdLaneQuiet s
  | .cmdDoze => Sys2Proof.Machine.execCmdDoze s
  | .cmdKeep => Sys2Proof.Machine.execCmdKeep s
  | .quiesceDone => Sys2Proof.Machine.execQuiesceDone s
  | .quiesceAbort why => Sys2Proof.Machine.execQuiesceAbort why s
  | .powerSaveDone => Sys2Proof.Machine.execPowerSaveDone s
  | .powerStateReached => Sys2Proof.Machine.execPowerStateReached s
  | .smbusAddressMatch => Sys2Proof.Machine.execSmbusAddressMatch s
  | .wakeUnitRelease u => Sys2Proof.Machine.execWakeUnitRelease u s
  | .startUnitRelease u => Sys2Proof.Machine.execStartUnitRelease u s
  | .sagNAsserted => Sys2Proof.Machine.execSagNAsserted s
  | .sagSaveComplete us => Sys2Proof.Machine.execSagSaveComplete us s
  | .sagRestart => Sys2Proof.Machine.execSagRestart s
  | .vkeepApplied straps => Sys2Proof.Machine.execVkeepApplied straps s
  | .pwrgdRise => Sys2Proof.Machine.execPwrgdRise s
  | .pwrgdFall => Sys2Proof.Machine.execPwrgdFall s
  | .keepRst straps => Sys2Proof.Machine.execKeepRst straps s
  | .bootStart puf => Sys2Proof.Machine.execBootStart puf s
  | .pufRetry puf => Sys2Proof.Machine.execPufRetry puf s
  | .slotVerified => Sys2Proof.Machine.execSlotVerified s
  | .svCommit => Sys2Proof.Machine.execSvCommit s
  | .bootRetry => Sys2Proof.Machine.execBootRetry s
  | .setBootNext w => Sys2Proof.Machine.execSetBootNext w s
  | .attestGo => Sys2Proof.Machine.execAttestGo s
  | .attestReportDone => Sys2Proof.Machine.execAttestReportDone s
  | .ledgerSignStep step => Sys2Proof.Machine.execLedgerSignStep step s
  | .ledgerSignatureDone => Sys2Proof.Machine.execLedgerSignatureDone s
  | .dclTrainingStep r => Sys2Proof.Machine.execDclTrainingStep r s
  | .dclTrainingTimeout => Sys2Proof.Machine.execDclTrainingTimeout s
  | .dclFlitBad crcBad => Sys2Proof.Machine.execDclFlitBad crcBad s
  | .dclNak ackSeq => Sys2Proof.Machine.execDclNak ackSeq s
  | .dclNakRepeat => Sys2Proof.Machine.execDclNakRepeat s
  | .forceRetrain => Sys2Proof.Machine.execForceRetrain s
  | .dclLinkDown => Sys2Proof.Machine.execDclLinkDown s
  | .rdShared tag space line => Sys2Proof.Machine.execRdShared tag space line s
  | .rdOwn tag space line => Sys2Proof.Machine.execRdOwn tag space line s
  | .rdNc tag space line => Sys2Proof.Machine.execRdNc tag space line s
  | .wrNc tag space line data => Sys2Proof.Machine.execWrNc tag space line data s
  | .writeback tag line data => Sys2Proof.Machine.execWriteback tag line data s
  | .evict tag line => Sys2Proof.Machine.execEvict tag line s
  | .regRd tag addr => Sys2Proof.Machine.execRegRd tag addr s
  | .regWr tag addr value => Sys2Proof.Machine.execRegWr tag addr value s
  | .snpAck tag => Sys2Proof.Machine.execSnpAck tag s
  | .snpData tag data => Sys2Proof.Machine.execSnpData tag data s
  | .hostDoorbell => Sys2Proof.Machine.execHostDoorbell s
  | .load => Sys2Proof.Machine.execLoad s
  | .unload => Sys2Proof.Machine.execUnload s
  | .unloadFree job => Sys2Proof.Machine.execUnloadFree job s
  | .save => Sys2Proof.Machine.execSave s
  | .restore => Sys2Proof.Machine.execRestore s
  | .landingWrite => Sys2Proof.Machine.execLandingWrite s
  | .ledgerRead => Sys2Proof.Machine.execLedgerRead s
  | .holdoffExpiry => Sys2Proof.Machine.execHoldoffExpiry s
  | .updErase length => Sys2Proof.Machine.execUpdErase length s
  | .updProgram length => Sys2Proof.Machine.execUpdProgram length s
  | .updRead length => Sys2Proof.Machine.execUpdRead length s
  | .updOperationDone ok => Sys2Proof.Machine.execUpdOperationDone ok s
  | .setAddr t addr => Sys2Proof.Machine.execSetAddr t addr s
  | .smbRead t => Sys2Proof.Machine.execSmbRead t s
  | .smbWrite t value => Sys2Proof.Machine.execSmbWrite t value s
  | .smbStatusRead t => Sys2Proof.Machine.execSmbStatusRead t s
  | .smbFetchDone => Sys2Proof.Machine.execSmbFetchDone s
  | .alertResponse => Sys2Proof.Machine.execAlertResponse s
  | .ftNowLowRead => Sys2Proof.Machine.execFtNowLowRead s
  | .memErrAddrLowRead stack => Sys2Proof.Machine.execMemErrAddrLowRead stack s
  | .registerWrite m addr value => Sys2Proof.Machine.execRegisterWrite m addr value s
  | .bridgeFatal die peer => Sys2Proof.Machine.execBridgeFatal die peer s
  | .bridgeTrained die peer => Sys2Proof.Machine.execBridgeTrained die peer s
  | .pllLockLost island => Sys2Proof.Machine.execPllLockLost island s
  | .chkLock chk => Sys2Proof.Machine.execChkLock chk s
  | .dclFlitGood payload ackSeq reqCredit rspCredit snpCredit => Sys2Proof.Machine.execDclFlitGood payload ackSeq reqCredit rspCredit snpCredit s
  | .coreEccUncorrectable addr => Sys2Proof.Machine.execCoreEccUncorrectable addr s
  | .registerRead m addr => Sys2Proof.Machine.execRegisterRead m addr s

end Sys2Proof.Machine
end

