-- ==== Sys2Proof/Machine/Tick.lean ====
section
/-! DEFINITION. What one core cycle does while no command waits: fabric time counts, and shaper entries gain tokens
(spec/00_scope.md; 09_belfry_and_time.md R250, R251, R255; 12_scheduling.md R318). Log entry 34 says why a tick is what the
idle block does. -/
namespace Sys2Proof.Machine

open Sys2Proof

/-- One core cycle, 5/8 ns, in units of 2^−16 ns. -/
def cycleUnits : Nat := 40960

/-- The slew of one core cycle: at most 200 ppm of its length either way (R255). -/
def slewUnits : Int := 8

/-- What is slewed in one core cycle. -/
def TimeSt.slewNow (t : TimeSt) : Int := max (-slewUnits) (min slewUnits t.slew)

/-- Fabric time over one core cycle. -/
def TimeSt.tick (t : TimeSt) : TimeSt :=
  { t with now := t.now + BitVec.ofInt 80 (cycleUnits + t.slewNow), slew := t.slew - t.slewNow }

/-- Does fabric time count: the switch has started forwarding (R251)? -/
def State.timeRuns (s : State) : Bool := s.core.forwarding || s.flag F.CRUISE_STATUS_FIRST_DONE 0

/-- One core cycle: shaper entries gain tokens, and fabric time counts where it does. -/
def State.tick (s : State) : State :=
  { s.refillShapers with time := if s.timeRuns then s.time.tick else s.time }

end Sys2Proof.Machine
end

