-- ==== Sys2Proof/WellFormed.lean ====
section
/-! DEFINITION. Well-formed commands: every unit that a command names exists, and a frame's payload is as long as its header
says (spec/00_scope.md; 02_fabric_frames.md R29, R30; 16_serial_lanes.md R399, R400; 19_clocks.md R464). -/
namespace Sys2Proof

/-- A unit that a command names, with its index. -/
inductive Place where
  /-- A device port, 0–255 (R400). -/
  | port (p : Nat)
  /-- A fabric die, 0–3. -/
  | die (d : Nat)
  /-- A lane, 0–1,023. -/
  | lane (l : Nat)
  /-- A clock island, 0–56 (R464). -/
  | island (i : Nat)
  /-- A memory stack, 0–19. -/
  | stack (k : Nat)
  /-- A mill, 0–127. -/
  | mill (m : Nat)
  /-- A local port of a die, 0–63. -/
  | localPort (j : Nat)
  /-- A shaper entry, 0–4,095 (R317). -/
  | shaper (i : Nat)
  /-- A block of CLOCK_GATE_CD, 0–4 (R470). -/
  | block (b : Nat)
  /-- A landing slot, 0–3 (R364). -/
  | slot (n : Nat)
  /-- An owner rank of a landing, 0–262,143 (R364). -/
  | rank (r : Nat)
  /-- A channel of a stack, 0–31. -/
  | channel (c : Nat)
  /-- A data line of memory, by its address (R429). -/
  | memory (ma : Nat)
  /-- A group of stacks, 0–4 (R487). -/
  | stackGroup (g : Nat)
  /-- A group of lane chiplets, 0–7 (R417). -/
  | laneGroup (g : Nat)
  /-- The symbols of one RS(35,32) word in error: at most two, which the code corrects or detects; what a word with more of them
  decodes to is left out (log entry 104). -/
  | word (e : WordErr)
  /-- A codeword that a port's lane received: its wrong symbols (R402). -/
  | laneWord (x : LaneWord)
  /-- A frame's payload and PAYLOAD_LEN. -/
  | frame (bytes payloadLen : Nat)
  deriving DecidableEq, Repr

/-- Does a named unit exist? -/
def Place.ok : Place → Bool
  | .port p => decide (p < 256)
  | .die d => decide (d < 4)
  | .lane l => decide (l < 1024)
  | .island i => decide (i < 57)
  | .stack k => decide (k < 20)
  | .mill m => decide (m < 128)
  | .localPort j => decide (j < 64)
  | .shaper i => decide (i < 4096)
  | .block b => decide (b < 5)
  | .slot n => decide (n < 4)
  | .rank r => decide (r < 2 ^ 18)
  | .channel c => decide (c < 32)
  | .memory ma => decide (ma < 1932735283200) && ma % 64 == 0
  | .stackGroup g => decide (g < 5)
  | .laneGroup g => decide (g < 8)
  | .word e => decide (e.length ≤ 2) && e.all (fun x => decide (x.1 < 35)) && (e.map (·.1)).dedup.length == e.length
  | .laneWord x => decide (x.lane < 8) && x.errs.all (fun e => decide (e.1 < 544)) && (x.errs.map (·.1)).dedup.length == x.errs.length
  | .frame bytes payloadLen => bytes == payloadLen

/-- The unit that a power sequence releases. -/
def unitPlace : PowerUnit → Place
  | .die d => .die d
  | .stackGroup g => .stackGroup g
  | .laneGroup g => .laneGroup g

/-- The units that a command names. -/
def Instr.places : Instr → List Place
  | .frameHeaderLookup port f bank => [.port port, .word bank, .frame f.payload.length f.h.payloadLen.toNat]
  | .frameTailVerdict _ rx read => [.word read.cell, .word read.unit] ++ rx.words.map .laneWord
  | .egressSelect port => [.port port]
  | .egressFrameDone _ read count => [.word read.cell, .word read.unit, .word count]
  | .queueHeadDwellExpiry _ => []
  | .extensionReturn _ _ => []
  | .shaperRelease die entry => [.die die, .shaper entry]
  | .refusalRecordExpiry die entry _ _ _ => [.die die, .shaper entry]
  | .arbiterRest port => [.port port]
  | .relayFrame port f _ => [.port port, .frame f.payload.length f.h.payloadLen.toNat]
  | .contribFrame port f flt => [.port port, .word flt.word, .word flt.desc, .frame f.payload.length f.h.payloadLen.toNat]
  | .partialFrame port f flt => [.port port, .word flt.word, .word flt.desc, .frame f.payload.length f.h.payloadLen.toNat]
  | .resultReceived port f => [.port port, .frame f.payload.length f.h.payloadLen.toNat]
  | .rescaleReceived port f => [.port port, .frame f.payload.length f.h.payloadLen.toNat]
  | .supersedeReceived port f => [.port port, .frame f.payload.length f.h.payloadLen.toNat]
  | .stepCommitReceived port f _ => [.port port, .frame f.payload.length f.h.payloadLen.toNat]
  | .stepAbortReceived port f _ => [.port port, .frame f.payload.length f.h.payloadLen.toNat]
  | .ackFrame port f => [.port port, .frame f.payload.length f.h.payloadLen.toNat]
  | .nackFrame port f => [.port port, .frame f.payload.length f.h.payloadLen.toNat]
  | .checkFailNack port f => [.port port, .frame f.payload.length f.h.payloadLen.toNat]
  | .resendTimerExpiry _ => []
  | .stragglerTimerExpiry _ => []
  | .fenceTimerExpiry _ => []
  | .stepTimerExpiry _ _ => []
  | .stepReportSend _ _ => []
  | .stepReport port f => [.port port, .frame f.payload.length f.h.payloadLen.toNat]
  | .reportWithdraw port f => [.port port, .frame f.payload.length f.h.payloadLen.toNat]
  | .withdrawReply port f => [.port port, .frame f.payload.length f.h.payloadLen.toNat]
  | .tallyReport port f => [.port port, .frame f.payload.length f.h.payloadLen.toNat]
  | .bellArrive port f store => [.port port, .word store, .frame f.payload.length f.h.payloadLen.toNat]
  | .bellRelease port f => [.port port, .frame f.payload.length f.h.payloadLen.toNat]
  | .mcRecordTimeout die _ _ => [.die die]
  | .dispatchEnd port f => [.port port, .frame f.payload.length f.h.payloadLen.toNat]
  | .dispatchGrant port f => [.port port, .frame f.payload.length f.h.payloadLen.toNat]
  | .landingData port f => [.port port, .frame f.payload.length f.h.payloadLen.toNat]
  | .landingOpen port f => [.port port, .frame f.payload.length f.h.payloadLen.toNat]
  | .landingSeal port f => [.port port, .frame f.payload.length f.h.payloadLen.toNat]
  | .sealHashDone _ owner _ slot => [.rank owner, .slot slot]
  | .landingRead port f => [.port port, .frame f.payload.length f.h.payloadLen.toNat]
  | .landingDrop port f => [.port port, .frame f.payload.length f.h.payloadLen.toNat]
  | .epochRequest port f => [.port port, .frame f.payload.length f.h.payloadLen.toNat]
  | .epochPrepare port f => [.port port, .frame f.payload.length f.h.payloadLen.toNat]
  | .epochPrepared port f => [.port port, .frame f.payload.length f.h.payloadLen.toNat]
  | .epochCommit port f => [.port port, .frame f.payload.length f.h.payloadLen.toNat]
  | .epochDrainCondition => []
  | .epochDrained port f => [.port port, .frame f.payload.length f.h.payloadLen.toNat]
  | .epochRetire port f => [.port port, .frame f.payload.length f.h.payloadLen.toNat]
  | .epochQuery port f => [.port port, .frame f.payload.length f.h.payloadLen.toNat]
  | .timeSyncPeriod => []
  | .timeSync port f _ => [.port port, .frame f.payload.length f.h.payloadLen.toNat]
  | .timeSyncReply port f _ => [.port port, .frame f.payload.length f.h.payloadLen.toNat]
  | .timeHoldoverTimeout => []
  | .hello port f => [.port port, .frame f.payload.length f.h.payloadLen.toNat]
  | .helloAck port f => [.port port, .frame f.payload.length f.h.payloadLen.toNat]
  | .helloTimer port => [.port port]
  | .cruiseId port f => [.port port, .frame f.payload.length f.h.payloadLen.toNat]
  | .cruiseReply port f => [.port port, .frame f.payload.length f.h.payloadLen.toNat]
  | .cruiseRetryTimer port => [.port port]
  | .cruiseSweepTimer => []
  | .sweepNow => []
  | .epoch0Built => []
  | .pauseBlock port _ => [.port port]
  | .pauseRepeatTimer port => [.port port]
  | .gateArm die j => [.die die, .localPort j]
  | .gateListSwap die j => [.die die, .localPort j]
  | .gateEntryBoundary die j => [.die die, .localPort j]
  | .shaperEntryWrite die entry _ _ _ => [.die die, .shaper entry]
  | .sampleSnapshot die => [.die die]
  | .compactionDone mill => [.mill mill]
  | .admissionReplyDeferred _ => []
  | .restoreCounts die => [.die die]
  | .refcountSweepDone die count => [.die die, .word count]
  | .errorMemoryAccess _ _ => []
  | .lpddrAccess a => [.memory a.ma]
  | .scrubLine stack channel _ _ _ => [.stack stack, .channel channel]
  | .mr4Reading stack _ _ => [.stack stack]
  | .stackTrainingDone stack _ => [.stack stack]
  | .fenceRequestRank _ => []
  | .saveStart _ => []
  | .saveImageDone _ => []
  | .faultMessageAccept _ => []
  | .reactionHandle => []
  | .entryReacted => []
  | .retire _ => []
  | .forceGo _ => []
  | .reactionWrite _ _ => []
  | .faultBitClear _ _ => []
  | .flightRecorderCopy => []
  | .watchdogService _ => []
  | .watchdogExpiry => []
  | .firmwareReload => []
  | .pllEnWrite island _ => [.island island]
  | .pllLockAcquired island => [.island island]
  | .selectWrite island _ => [.island island]
  | .muxSwitchDone island => [.island island]
  | .muxTimeout island => [.island island]
  | .domainReset _ => []
  | .clockGateWrite _ => []
  | .blockGated block => [.block block]
  | .refLost _ => []
  | .refOk _ => []
  | .bootOscStopped => []
  | .thermalReading die _ => [.die die]
  | .thermtrip => []
  | .signalDetected port => [.port port]
  | .trainingDone port => [.port port]
  | .adaptDone port _ _ => [.port port]
  | .alignDone port _ => [.port port]
  | .bringupTimeout port => [.port port]
  | .pcsLockLoss port => [.port port]
  | .forceDownWrite port _ => [.port port]
  | .prbsEnableWrite lane _ => [.lane lane]
  | .quietIdleExpiry port => [.port port]
  | .transmitterWake port => [.port port]
  | .cmdRun => []
  | .cmdLaneQuiet => []
  | .cmdDoze => []
  | .cmdKeep => []
  | .quiesceDone => []
  | .quiesceAbort _ => []
  | .powerSaveDone => []
  | .powerStateReached => []
  | .smbusAddressMatch => []
  | .wakeUnitRelease u => [unitPlace u]
  | .startUnitRelease u => [unitPlace u]
  | .sagNAsserted => []
  | .sagSaveComplete _ => []
  | .sagRestart => []
  | .vkeepApplied _ => []
  | .pwrgdRise => []
  | .pwrgdFall => []
  | .keepRst _ => []
  | .bootStart _ => []
  | .pufRetry _ => []
  | .slotVerified => []
  | .svCommit => []
  | .bootRetry => []
  | .setBootNext _ => []
  | .attestGo => []
  | .attestReportDone => []
  | .ledgerSignStep _ => []
  | .ledgerSignatureDone => []
  | .dclTrainingStep _ => []
  | .dclTrainingTimeout => []
  | .dclFlitBad _ => []
  | .dclNak _ => []
  | .dclNakRepeat => []
  | .forceRetrain => []
  | .dclLinkDown => []
  | .rdShared _ _ _ => []
  | .rdOwn _ _ _ => []
  | .rdNc _ _ _ => []
  | .wrNc _ _ _ _ => []
  | .writeback _ _ _ => []
  | .evict _ _ => []
  | .regRd _ _ => []
  | .regWr _ _ _ => []
  | .snpAck _ => []
  | .snpData _ _ => []
  | .hostDoorbell => []
  | .load => []
  | .unload => []
  | .unloadFree _ => []
  | .save => []
  | .restore => []
  | .landingWrite => []
  | .ledgerRead => []
  | .holdoffExpiry => []
  | .updErase _ => []
  | .updProgram _ => []
  | .updRead _ => []
  | .updOperationDone _ => []
  | .setAddr _ _ => []
  | .smbRead _ => []
  | .smbWrite _ _ => []
  | .smbStatusRead _ => []
  | .smbFetchDone => []
  | .alertResponse => []
  | .ftNowLowRead => []
  | .memErrAddrLowRead stack => [.stack stack]
  | .registerWrite _ _ _ => []
  | .bridgeFatal die _ => [.die die]
  | .bridgeTrained die _ => [.die die]
  | .pllLockLost island => [.island island]
  | .chkLock chk => [.lane chk.lane]
  | .dclFlitGood _ _ _ _ _ => []
  | .coreEccUncorrectable _ => []
  | .registerRead _ _ => []

/-- A command is well formed when every unit it names exists. -/
def Instr.wf (i : Instr) : Bool := i.places.all Place.ok

end Sys2Proof
end

