-- ==== Sys2Proof/Safety.lean ====
section
/-! DEFINITION. Safe runs: what every reachable state is to hold, what a command leaves alone, and what it is for a command to
complete, in the terms that statements use. -/
namespace Sys2Proof.Machine

open Sys2Proof

/-! ## What every state is to hold -/

/-- Every store that is kept sparse is in its one canonical form: the memory of the stacks, the flash and the update buffer
(addresses strictly rising, nothing listed that an unlisted address reads as), and the contexts, one to a descriptor. -/
def State.storesOk (s : State) : Bool :=
  Memory.wf s.mem && scanon (fun _ => flashErased) s.flash.data && scanon (fun _ => memDefault) s.upd.buf && srising s.ctxs

/-- The copies of the frames that wait for local cells (R294). -/
def State.waitingCopies (s : State) : List Copy := (s.core.backlog.map (·.2)).flatten

/-- The identifiers given to held frames and copies, those that wait for local cells among them (R294), are below the next one;
a frame that waits, and each of its copies, has one that nothing else has, and none of its copies has started. -/
def State.idsFresh (s : State) : Bool :=
  let held (h : Held) : Bool := decide (h.fid < s.core.nextId)
  let copy (c : Copy) : Bool := decide (c.cid < s.core.nextId) && decide (c.fid < s.core.nextId)
  s.core.held.all held && s.core.copies.all copy
    && s.core.backlog.all (fun x => held x.1 && !(s.core.held.any fun h => h.fid == x.1.fid)
      && x.2.all fun c => copy c && c.fid == x.1.fid && !c.started && !(s.core.copies.any fun y => y.cid == c.cid))
    && decide (s.core.backlog.map (·.1.fid)).Nodup && decide (s.waitingCopies.map (·.cid)).Nodup

/-- The ports of the port map are device ports on lanes that exist (R399, R400). -/
def State.portsOk (s : State) : Bool := s.ports.all fun c => decide (c.num < 256) && decide (c.lane0 < 1024)

/-- The invariant of the block. -/
def State.ok (s : State) : Bool := s.storesOk && s.idsFresh && s.portsOk

/-- A step that neither faults nor refuses. -/
def goesOn (s : State) : Prop := ∃ t, step s = .next t

/-- A run of n steps that neither faults nor refuses and keeps an invariant. -/
def safeRun (inv : State → Bool) : Nat → State → Prop
  | 0, s => inv s = true
  | n + 1, s => inv s = true ∧ ∃ t, step s = .next t ∧ safeRun inv n t

/-! ## What a command leaves alone -/

/-- The parts of the state. -/
inductive Part where
  | regs | arrays | mem | memory | image | ports | negs | cruise | time | bank0 | bank1 | dieTables | epoch | core | ctxs
  | descCache | jobs | landings | mcs | outs | ended | rxs | wt | host | ringQueue | retained | signQueue | power | flash | boot | upd | smb
  | freeCount | pending
  deriving DecidableEq, Repr

/-- Is a part the same in two states? -/
def Part.same (s t : State) : Part → Prop
  | .regs => t.regs = s.regs
  | .arrays => t.arrays = s.arrays
  | .mem => t.mem = s.mem
  | .memory => t.memory = s.memory
  | .image => t.image = s.image
  | .ports => t.ports = s.ports
  | .negs => t.negs = s.negs
  | .cruise => t.cruise = s.cruise
  | .time => t.time = s.time
  | .bank0 => t.bank0 = s.bank0
  | .bank1 => t.bank1 = s.bank1
  | .dieTables => t.dieTables = s.dieTables
  | .epoch => t.epoch = s.epoch
  | .core => t.core = s.core
  | .ctxs => t.ctxs = s.ctxs
  | .descCache => t.descCache = s.descCache
  | .jobs => t.jobs = s.jobs
  | .landings => t.landings = s.landings
  | .mcs => t.mcs = s.mcs
  | .outs => t.outs = s.outs
  | .ended => t.ended = s.ended
  | .rxs => t.rxs = s.rxs
  | .wt => t.wt = s.wt
  | .host => t.host = s.host
  | .ringQueue => t.ringQueue = s.ringQueue
  | .retained => t.retained = s.retained
  | .signQueue => t.signQueue = s.signQueue
  | .power => t.power = s.power
  | .flash => t.flash = s.flash
  | .boot => t.boot = s.boot
  | .upd => t.upd = s.upd
  | .smb => t.smb = s.smb
  | .freeCount => t.freeCount = s.freeCount
  | .pending => t.pending = s.pending

/-- Nothing but the listed parts has changed. -/
def onlyParts (changed : List Part) (s t : State) : Prop := ∀ p, p ∉ changed → p.same s t

/-- The listed parts are as they were. -/
def keepsParts (kept : List Part) (s t : State) : Prop := ∀ p ∈ kept, p.same s t

/-- The parts of the control half that no frame of the fabric touches: the image and the port map, table banks and epochs,
fabric time, power, flash, boot, the update unit and the SMBus port. -/
def controlParts : List Part :=
  [.arrays, .image, .ports, .negs, .cruise, .time, .bank0, .bank1, .dieTables, .epoch, .power, .flash, .boot, .upd, .smb, .pending]

/-- Every register word but those of the listed instances is as it was. -/
def onlyRegs (changed : List (RegName × Nat)) (s t : State) : Prop :=
  ∀ k, (∀ r ∈ changed, regAddr r.1 r.2 ≠ k) → sget k t.regs = sget k s.regs

/-- Every bit of a register but those of a field is as it was. -/
def onlyField (f : Fld) (i : Nat) (s t : State) : Prop :=
  ∀ b, b < f.lo ∨ f.hi < b → bitOf (t.reg f.reg i) b = bitOf (s.reg f.reg i) b

/-- A counter field has risen by k, no further than its width holds, and the rest of its register is as it was. -/
def counted (f : Fld) (i k : Nat) (s t : State) : Prop := t.fld f i = satAdd f.width (s.fld f i) k ∧ onlyField f i s t

/-- A field holds v, and the rest of its register is as it was. -/
def fieldSet (f : Fld) (i v : Nat) (s t : State) : Prop := t.fld f i = v ∧ onlyField f i s t

/-- A counter of a register that holds the same value on every fabric die has risen by one there (R275 to R284), and nothing else
of the register index has changed. -/
def countedOnDies (f : Fld) (s t : State) : Prop :=
  (∀ d, d < 4 → counted f d 1 s t) ∧ onlyRegs ((List.range 4).map fun d => (f.reg, d)) s t

/-- The switch's own messages are the listed ones, but for how many of their frames have left. -/
def outsAre (xs : List OutMsg) (t : State) : Prop :=
  t.outs.map (fun o => { o with unsent := 0 }) = xs.map fun o => { o with unsent := 0 }

/-- The switch's own messages are those they were, but for how many of their frames have left. -/
def sameOuts (s t : State) : Prop := outsAre s.outs t

/-- Every byte of memory reads as before but those of a descriptor that a cache held (R107): one that leaves it is written back. -/
def keepsBytes (s t : State) : Prop :=
  ∀ a, (∀ x ∈ s.descCache, a / 32 ≠ x.2) → t.readMem a 1 = s.readMem a 1

/-- Registers of the index but the pause registers of the ports (R296) and the listed ones are as they were. -/
def onlyRegsAndPauses (changed : List (RegName × Nat)) (s t : State) : Prop :=
  ∀ k, (∀ r ∈ changed, regAddr r.1 r.2 ≠ k) → (∀ c ∈ s.ports, regAddr .PORT_BUFFER c.num ≠ k) →
    sget k t.regs = sget k s.regs

/-! ## What it is to complete -/

/-- The command answers a next state, of which P holds. -/
def Completes (i : Instr) (s : State) (P : State → Prop) : Prop := ∃ t, exec i s = .next t ∧ P t

/-- A message of a kind, from a source of a die, is held for the watchtower (R442). -/
def State.reports (t : State) (die block kind : Nat) : Prop :=
  ∃ m ∈ t.wt.held, m.die.toNat = die ∧ m.block.toNat = block ∧ m.kind.toNat = kind

/-- A MGMT message of the switch's own to an address, with a payload, is among its new messages (R55, R58). -/
def State.sends (s t : State) (dest : BitVec 24) (payload : List Byte) : Prop :=
  ∃ o ∈ t.outs, s.freeCount ≤ o.key ∧ ∃ g ∈ o.frames, g.h.ftype = 8#4 ∧ g.h.dest = dest ∧ g.payload = payload

/-- A MGMT message of the switch's own to an address, whose frames carry a payload between them, is among its new messages (R29). -/
def State.sendsLong (s t : State) (dest : BitVec 24) (payload : List Byte) : Prop :=
  ∃ o ∈ t.outs, s.freeCount ≤ o.key ∧ (o.frames.map (·.payload)).flatten = payload
    ∧ ∀ g ∈ o.frames, g.h.ftype = 8#4 ∧ g.h.dest = dest ∧ g.payload.length ≤ 4096

/-- No job has a loaded layout, whose cutover would end fences (R363). -/
def State.noneLoaded (s : State) : Prop := ∀ j ∈ s.jobs, j.next = none

/-- The copies of frames in the packet buffer, and of those that wait for local cells (R294). -/
def State.allCopies (s : State) : List Copy := s.core.copies ++ s.waitingCopies

/-- What a word met with errors of SRAM or of a bridge comes to: is it uncorrectable (R18, R26)? -/
def wordDead (e : WordErr) : Bool := match wordRead e with | .uncorrectable => true | _ => false

/-- A new frame of the switch's own that satisfies Q is queued for a port, or waits for local cells to be. -/
def State.queuesOn (s t : State) (p : Nat) (Q : Frame → Prop) : Prop :=
  ∃ c ∈ t.allCopies, s.core.nextId ≤ c.cid ∧ c.dest = .port p ∧ Q c.out

/-- Nothing that a mill reads is in error. -/
def noFault : MillFault := ⟨none, false, false, [], []⟩

/-- A step of the layout in force, which a loaded layout does not take over, with few ended steps above it (R105, R244). -/
def Job.ownStep (j : Job) (st : BitVec 32) : Prop :=
  j.inWindow st = true ∧ (∀ n, j.next = some n → j.ahead st < j.ahead n.plan.firstStep)
    ∧ (j.steps.filter fun x => decide (j.ahead x.step < 2 ^ 31)).length < keepSteps

/-- What a job holds in LPDDR lies behind the window's first 2 GiB, where the command ring and the reply ring are (R429, R538). -/
def State.apart (s : State) (j : Job) : Prop :=
  let lo := ringsBase + 2 ^ 31
  lo ≤ j.jrings.events.base ∧ lo ≤ j.jrings.eventsAt.data ∧ (∀ r ∈ j.regions, lo ≤ r.base) ∧ ∀ x ∈ s.landings, lo ≤ x.base

/-- The control half is as it was, the banks too where the job has no loaded layout whose cutover would end its fences (R363). -/
def keepsControl (j : Job) (s t : State) : Prop :=
  (∀ p ∈ controlParts, p ≠ .bank0 → p ≠ .bank1 → p.same s t) ∧ (j.next = none → keepsParts controlParts s t)

/-- No epoch change runs, and no item waits for one. -/
def State.noChange (s : State) : Prop := s.epoch.asked = [] ∧ s.epoch.coord = .idle ∧ s.epoch.phase = .idle

/-- No port has PCS lock. -/
def State.portsDark (s : State) : Prop := ∀ c ∈ s.ports, s.pcsLock c.num = false

/-- Before epoch 0: the first sweep has not ended, no change runs or has ended, and no port waits for a judgement. -/
def State.beforeEpoch0 (s : State) : Prop :=
  s.noChange ∧ s.flag F.CRUISE_STATUS_FIRST_DONE 0 = false ∧ (∀ q, (s.crz q).phase ≠ .answered) ∧ s.epoch.retiredOnce = false

/-- A message of a kind, from a source that the spec leaves open (log entry 19), is held for the watchtower. -/
def State.reportsFrom (t : State) (src : BitVec 19) (kind : Nat) : Prop :=
  t.reports (src.toNat / 2 ^ 16) (src.toNat / 2 ^ 10 % 2 ^ 6) kind

/-- The command ring is at rest but for the command taken: the window is usable, the companion caches no line, and every entry
that PRODUCER covers has been taken; the reply ring has room. -/
def State.ringQuiet (s : State) : Prop :=
  s.windowReady = true ∧ s.host.filter = [] ∧ s.host.snoops = [] ∧ s.ringConsumer commandRing = s.host.produced
    ∧ s.ringFull replyRing.ref (zeros 32) = false

/-- The reply to the command that s holds is in the reply ring, and the firmware waits for the next doorbell (R543). -/
def State.repliesWith (s t : State) (status : Nat) (detail : List Byte) : Prop :=
  t.readMem (replyRing.data + (s.ringProducer replyRing.ref % 4096) * 32) 32
      = sliceB s.host.cmd 4 4 ++ sliceB s.host.cmd 0 2 ++ leBytes 2 status ++ sliceB detail 0 24
    ∧ t.readMem replyRing.ref.base 4 = leBytes 4 ((s.ringProducer replyRing.ref + 1) % 8192) ∧ t.host.phase = .idle

end Sys2Proof.Machine
end

