-- ==== Sys2Proof/Certificates/Slice0/Obligations.lean ====
section
/-! DEFINITION. The statements for the provers. -/

open Sys2Proof Sys2Proof.Machine

/-! ## The queue of commands, and what every step keeps -/

/-- Every step takes the command at the front of the queue and answers what the command answers with the queue's rest; a
step on an empty queue is one core cycle (log entry 34).
Model's choices: log entry 34. -/
def Obligations.StepRunsFront : Prop :=
  ∀ s : State,
    (∀ (c : Instr) (rest : List Instr), s.pending = c :: rest → step s = exec c { s with pending := rest })
      ∧ (s.pending = [] → step s = .next s.tick)

/-- No command touches the queue of the commands that wait.
Model's choices: log entry 34. -/
def Obligations.CommandsKeepTheQueue : Prop :=
  ∀ (c : Instr) (s t : State), exec c s = .next t → t.pending = s.pending

/-- Every step keeps the invariant: the sparse stores are canonical, the packet buffer's identifiers are fresh, the port map
names device ports.
Model's choices: log entry 34. -/
def Obligations.StepKeepsInvariant : Prop :=
  ∀ s t : State, s.ok = true → step s = .next t → t.ok = true

/-- The invariant holds right after reset; no command waits, nothing is held for the watchtower, and every register reads as its
reset value: those named here are the words the register sections give (VKEEP has just been applied, log entry 34).
Model's choices: log entries 24, 25, 34. -/
def Obligations.ResetMeetsInvariant : Prop :=
  State.reset.ok = true ∧ State.reset.pending = [] ∧ State.reset.wt.held = [] ∧ State.reset.ctxs = [] ∧ State.reset.jobs = []
    ∧ (∀ n i, State.reset.reg n i = regReset n i)
    ∧ State.reset.reg .WDT_CONTROL 0 = 0x07D00000 ∧ State.reset.reg .TIME_CONTROL 0 = 0x0014009D
    ∧ (∀ d, d < 4 → State.reset.reg .SAMPLE_CONTROL d = 0x3D09 ∧ State.reset.reg .THERMAL_CONTROL d = 0x64000000
      ∧ State.reset.reg .ROUTE_CONTROL d = 500)
    ∧ State.reset.reg .CLOCK_GATE_CD 0 = 0xF ∧ State.reset.reg .DCL_CONTROL 0 = 1
    ∧ State.reset.reg .HOST_INT_CONTROL 0 = 50 ∧ State.reset.reg .BOOT_STATUS 0 = 0 ∧ State.reset.reg .WT_STATUS 0 = 0

/-! ## The switch core -/

/-- FRAME_HEADER_LOOKUP discards a frame with a wrong HDR_CHECK or one that breaks a frame rule, and counts it at the
ingress port; nothing else changes. FRAME_HEADER_LOOKUP of a frame that passes the checks and has a route and room:
it is held in cells of its ingress port, its tail unknown, and one copy waits for the egress port that the route
lookup and the spray chose. -/
def Obligations.HeaderLookup : Prop :=
  (∀ (s : State) (port : Nat) (f : Frame) (b : WordErr), s.pcsLock port = true → f.h.ftype ≠ 7#4 →
      (hdrOk (s.versionFor port f) f = false →
        Completes (.frameHeaderLookup port f b) s fun t =>
          counted F.TFP_DISCARD_COUNT_HEADER_DISCARDS (s.blk port) 1 s t
            ∧ fieldSet F.TFP_PORT_STATUS_HEADER_ERR (s.blk port) 1 s t
            ∧ onlyRegs [(.TFP_DISCARD_COUNT, s.blk port), (.TFP_PORT_STATUS, s.blk port)] s t ∧ onlyParts [.regs] s t)
        ∧ (hdrOk (s.versionFor port f) f = true → ruleOk (s.versionFor port f) f = false →
          Completes (.frameHeaderLookup port f b) s fun t =>
            counted F.TFP_DISCARD_COUNT_RULE_DISCARDS (s.blk port) 1 s t
              ∧ fieldSet F.TFP_PORT_STATUS_RULE_ERR (s.blk port) 1 s t
              ∧ onlyRegs [(.TFP_DISCARD_COUNT, s.blk port), (.TFP_PORT_STATUS, s.blk port)] s t ∧ onlyParts [.regs] s t))
    ∧ (∀ (s s1 : State) (port q : Nat) (f : Frame) (ps : List Nat) (r : Region), s.idsFresh = true →
      s.pcsLock port = true → f.h.ftype ≠ 7#4 → hdrOk (s.versionFor port f) f = true →
      ruleOk (s.versionFor port f) f = true → s.quarantined port = false → s.bankLive f.h.epoch = true →
      s.police port f = none → isSetTagged f.h = false → toFabric f.h = false → s.mcAbsorbs port f.h = false →
      s.route (s.dieBank (dieOf port) f.h.epoch) f.h (s.cable port).uplink = .group ps → s.spray ps f.h = some q → q ≠ port →
      s.admitFrame port f (s.voqExt port f.h.vc.toNat (.port q)) = (some r, s1) →
      Completes (.frameHeaderLookup port f []) s fun t =>
        (∃ h ∈ t.core.held, h.fid = s.core.nextId ∧ h.die = dieOf port ∧ h.src = localOf port ∧ h.frame = f ∧ h.region = r
          ∧ h.cells = cellsOf f ∧ h.refcount = 1 ∧ h.tail = .pending)
          ∧ (∃ c ∈ t.core.copies, c.fid = s.core.nextId ∧ c.dest = .port q ∧ c.out = f ∧ c.started = false)
          ∧ onlyParts [.regs, .core, .outs] s t)

/-- FRAME_TAIL_VERDICT: a good tail makes the frame good and changes nothing but what the lanes and words of SRAM report; a bad one
(wrong CRC64 or CRC32, BAD, a frame cut short, a codeword or a word of SRAM or of the chiplet bridge uncorrectable) marks every started
copy of the frame with its cause, discards the others, and counts the frame once in TAIL_DISCARDS where there were any.
RELAY_FRAME: a relay leaf sends the frame again with RELAY zero and RELAYED 1; a top switch that is to relay a frame
that has been relayed before discards it and counts it in NO_ROUTE; firmware with no room discards it. RESTORE_COUNTS starts the
sweep of a die; REFCOUNT_SWEEP_DONE ends it: fallback ends, unless the count memory failed again, and, where no frame of the die waits
for local cells, every frame of the die holds the count of its copies and frames that no queue names are gone.
Model's choices: log entries 74, 77, 104, 105. -/
def Obligations.TailsRelaysCounts : Prop :=
  (∀ (s : State) (fid : Nat) (h : Held) (rx : TailRx) (cell unit : WordErr), s.held? fid = some h → h.tail = .pending →
      h.die < 4 → s.portsOk = true → s.idsFresh = true →
      let bridged := decide (h.src < 64) && (s.port? (64 * h.die + h.src)).isSome
      let dead := wordDead cell || (bridged && wordDead unit)
      ((tailGood h.frame && !rxBad rx && !dead) = true →
        Completes (.frameTailVerdict fid rx ⟨cell, unit⟩) s fun t =>
          t.held? fid = some { h with tail := .good } ∧ t.core.copies = s.core.copies ∧ onlyParts [.regs, .core, .wt] s t
            ∧ (cell = [] → unit = [] → onlyParts [.regs, .core] s t))
        ∧ ((tailGood h.frame && !rxBad rx && !dead) = false →
          Completes (.frameTailVerdict fid rx ⟨cell, unit⟩) s fun t =>
            (∀ c ∈ t.core.copies, c.fid = fid → c.started = true ∧ c.markBad =
              some (if h.frame.t.bad then h.frame.t.badCause else if dead then 2 else if rxBad rx then 1 else 0))
              ∧ t.fld F.TAIL_EVENTS_TAIL_DISCARDS h.die = satAdd 16 (s.fld F.TAIL_EVENTS_TAIL_DISCARDS h.die)
                  (b2n (s.core.copies.any fun c => c.fid == fid && !c.started))
              ∧ onlyParts [.regs, .core, .outs, .wt] s t))
    ∧ (∀ (s : State) (port : Nat) (f : Frame), relayable f.h = true → tailGood f = true →
      (relayOf f.h = s.image.ownFlat → relayOf f.h ≠ 0 → ∀ (ps : List Nat) (q : Nat),
        s.route s.curBank (s.stamp 0 (relayed f 0 true)).h false = .group ps →
        s.spray ps (s.stamp 0 (relayed f 0 true)).h = some q → s.idsFresh = true →
        Completes (.relayFrame port f true) s fun t =>
          (∃ c ∈ t.allCopies, c.dest = .port q ∧ c.own = true ∧ relayOf c.out.h = 0 ∧ relayedOf c.out.h = true
            ∧ c.out.h.seq = s.seqAhead 0 ∧ c.out.h.dest = f.h.dest ∧ c.out.h.src = f.h.src ∧ c.out.h.msgId = f.h.msgId
            ∧ c.out.h.attempt = f.h.attempt ∧ c.out.h.msgLen = f.h.msgLen ∧ c.out.payload = f.payload)
            ∧ onlyParts [.regs, .core, .outs] s t)
        ∧ (relayOf f.h ≠ s.image.ownFlat ∨ relayOf f.h = 0 → relayedOf f.h = true →
          s.route (s.dieBank (dieOf port) f.h.epoch) f.h (s.cable port).uplink = .relay →
          Completes (.relayFrame port f true) s fun t =>
            countedOnDies F.ROUTE_DISCARDS_NO_ROUTE s t ∧ onlyParts [.regs] s t)
        ∧ Completes (.relayFrame port f false) s fun t =>
          t = { s with core := { s.core with fwDrops := s.core.fwDrops + 1 } })
    ∧ (∀ (s : State) (die : Nat) (count : WordErr), die < 4 →
      (Completes (.restoreCounts die) s fun t => t.core.sweeping.contains die = true
          ∧ t = { s with core := { s.core with sweeping := t.core.sweeping } })
        ∧ (s.core.sweeping.contains die = true →
          (wordDead count = false → Completes (.refcountSweepDone die count) s fun t =>
            t.flag F.REFCOUNT_STATUS_REFCOUNT_FALLBACK die = false ∧ t.core.sweeping.contains die = false
              ∧ ((∀ x ∈ s.core.backlog, x.1.die ≠ die) →
                (∀ h ∈ t.core.held, h.die = die → h.refcount = t.countOf h.fid ∧ h.refcount ≠ 0)
                  ∧ t.core.copies = s.core.copies ∧ onlyParts [.regs, .core, .wt] s t)
              ∧ onlyParts [.regs, .core, .outs, .wt] s t)
            ∧ (wordDead count = true → Completes (.refcountSweepDone die count) s fun t =>
              t.flag F.REFCOUNT_STATUS_REFCOUNT_FALLBACK die = true ∧ t.core.sweeping.contains die = false
                ∧ t.core.held = s.core.held ∧ t.reports die 0x18 0x1B ∧ onlyParts [.regs, .core, .wt] s t)))

/-- EGRESS_SELECT starts the copy that deficit round robin chose, an eligible head of its VOQ, and keeps the arbiter's
new state; no other copy starts. A frame of the switch's own gets its SEQ as it starts, and the counter rises by one (R54).
EGRESS_FRAME_DONE of a copy that leaves its port whole: the frame is on the wire as
the port sends it, with BAD and its cause where a cell proved uncorrectable, the copy is gone, and the cells are freed when no
other copy holds them.
Model's choices: log entries 74, 104. -/
def Obligations.EgressStartsAndSends : Prop :=
  (∀ (s : State) (port : Nat) (c : Copy) (x : Drr), s.busyOut port = false →
      s.drrPick port 512 (s.drr port) = (some c, x) → s.egressDiscard port c = none →
      s.eligible port c = true ∧ s.isHead c = true ∧ c.dest = .port port ∧
      Completes (.egressSelect port) s fun t =>
        (∃ y ∈ t.core.copies, y.cid = c.cid ∧ y.started = true ∧ y.out = if c.own then s.departing c.out else c.out)
          ∧ (∀ y ∈ t.core.copies, y.started = true → y.cid = c.cid ∨ ∃ z ∈ s.core.copies, z.cid = y.cid ∧ z.started = true)
          ∧ t.core.seq = (if c.own then s.core.seq + 1 else s.core.seq) ∧ (s.departing c.out).h.seq = s.core.seq
          ∧ t.drr port = x ∧ t.core.held = s.core.held ∧ onlyParts [.regs, .core, .outs] s t
          ∧ ((∀ y ∈ s.core.copies, s.isLate y = false) →
            t.core.copies.map (fun y => (y.cid, y.started))
                = s.core.copies.map (fun y => (y.cid, y.started || y.cid == c.cid))
              ∧ onlyParts [.core] s t))
    ∧ (∀ (s : State) (cid p : Nat) (c : Copy) (h : Held) (cell count unit : WordErr), s.copy? cid = some c →
      c.dest = .port p → c.started = true → s.held? c.fid = some h → h.tail = .good → c.markBad = none → s.idsFresh = true →
      let dead := wordDead cell || ((s.port? p).isSome && wordDead unit)
      Completes (.egressFrameDone cid ⟨cell, unit⟩ count) s fun t =>
        t.copy? cid = none ∧ (p, s.leaving p c (if s.isLate c || dead then some 2 else none)) ∈ t.core.wire
          ∧ (s.flag F.REFCOUNT_STATUS_REFCOUNT_FALLBACK h.die = false → h.refcount ≤ 1 → t.held? h.fid = none)
          ∧ onlyParts [.regs, .core, .outs, .wt] s t)

/-- QUEUE_HEAD_DWELL_EXPIRY discards and counts the copy on VC1, VC3, VC6 and VC7; on another VC the copy is kept and a contained
fault (kind 0x19) names the port and VC. EXTENSION_RETURN: a frame that is the first extension frame of every VOQ it has a copy in
comes back into its port's guaranteed cells where they have room for it; one with an uncorrectable line of memory is discarded; one
that others come before stays. PAUSE_BLOCK on a port with PCS lock writes the neighbour's mask and nothing else; PAUSE_REPEAT_TIMER
sends the port's present mask again, as a block on every lane of the port (R406).
Model's choices: log entries 66, 80, 105. -/
def Obligations.QueueHeadsAndPauses : Prop :=
  (∀ (s : State) (cid : Nat) (c : Copy), s.copy? cid = some c → c.started = false → s.dwells c = true → c.die < 4 →
      (c.vc ∈ [1, 3, 6, 7] → s.idsFresh = true → Completes (.queueHeadDwellExpiry cid) s fun t =>
        t.copy? cid = none ∧ t.core.dwellDrops = s.core.dwellDrops + 1 ∧ onlyParts [.regs, .core, .outs] s t)
        ∧ (c.vc ∉ [1, 3, 6, 7] → Completes (.queueHeadDwellExpiry cid) s fun t =>
          t.core = s.core ∧ t.reports c.die 0x10 0x19 ∧ onlyParts [.regs, .wt] s t))
    ∧ (∀ (s : State) (fid : Nat) (h : Held), s.held? fid = some h → h.region = .extension → h.tail = .good →
      (s.extTurn fid = false → ∀ b, Completes (.extensionReturn fid b) s fun t => t = s)
        ∧ (s.extTurn fid = true → s.cellsHeld h.die (fun x => x.region == .guaranteed && x.src == h.src && x.vc == h.vc) + h.cells
          ≤ s.image.policies.guarCells →
        Completes (.extensionReturn fid false) s fun t =>
          t.held? fid = some { h with region := .guaranteed } ∧ t.core.copies = s.core.copies
            ∧ onlyRegsAndPauses [] s t ∧ onlyParts [.regs, .core] s t)
        ∧ (s.extTurn fid = true → Completes (.extensionReturn fid true) s fun t =>
          (∀ x ∈ t.core.copies, x.fid ≠ fid) ∧ onlyParts [.regs, .core, .outs] s t))
    ∧ ((∀ (s : State) (port : Nat) (mask : BitVec 8), s.pcsLock port = true →
      Completes (.pauseBlock port mask) s fun t => fieldSet F.PORT_BUFFER_PAUSED port mask.toNat s t
        ∧ onlyRegs [(.PORT_BUFFER, port)] s t ∧ onlyParts [.regs] s t)
      ∧ ∀ (s : State) (port : Nat), Completes (.pauseRepeatTimer port) s fun t =>
        (∀ x ∈ t.core.pauses, x.port = port → x.sent = BitVec.ofNat 8 (s.pausing port) ∧ x.repeats ≤ 8)
          ∧ t = { s with core := { s.core with pauses := t.core.pauses, pcs := t.core.pcs } }
          ∧ (∀ c, s.port? port = some c → (∃ x ∈ s.core.pauses, x.port = port) →
            t.pcs port = (s.pcs port).pause c.width (BitVec.ofNat 8 (s.pausing port)))
          ∧ (∀ p, p ≠ port → t.pcs p = s.pcs p)
          ∧ t.core.pauses.filter (fun x => x.port != port) = s.core.pauses.filter fun x => x.port != port)

/-! ## Scheduling -/

/-- SHAPER_ENTRY_WRITE stores the entry; an enabled entry in range fills TOKENS to BURST × 1,024, one out of range sets
SHAPER_ERR and names itself. SHAPER_RELEASE with TOKENS not negative and one copy of the entry waiting at a head:
it is released and TOKENS falls by the frame's length; an entry that has released one in this core cycle releases no other.
REFUSAL_RECORD_EXPIRY forgets the attempt.
Model's choices: log entries 49, 73. -/
def Obligations.ShaperEntries : Prop :=
  (∀ (s : State) (die entry : Nat) (w0 w1 w2 : Word), die < 4 → entry < 4096 → w0.getLsbD 24 = true →
      Completes (.shaperEntryWrite die entry w0 w1 w2) s fun t =>
        t.arr (shaperAddr die entry) = w0 &&& 0x033F0FFF ∧ t.arr (shaperAddr die entry + 4) = w1
          ∧ t.arr (shaperAddr die entry + 8) = w2
          ∧ (w1 ≠ 0 ∧ w2.setWidth 16 ≠ 0#16 ∧ w1.toNat ≤ 200000 →
              (t.shaperSt die entry).tokens = (w2.setWidth 16).toNat * 1024 ∧ t.regs = s.regs)
          ∧ (w1 = 0 ∨ w2.setWidth 16 = 0#16 ∨ 200000 < w1.toNat →
              t.flag F.SHAPER_STATUS_SHAPER_ERR die = true ∧ t.fld F.SHAPER_STATUS_LAST_BAD_ENTRY die = entry
                ∧ t.core = s.core ∧ onlyRegs [(.SHAPER_STATUS, die)] s t)
          ∧ onlyParts [.regs, .arrays, .core] s t)
    ∧ ((∀ (s : State) (die entry : Nat), (s.shaperSt die entry).spent = true →
      Completes (.shaperRelease die entry) s fun t => t = s)
      ∧ (∀ (s : State) (die entry : Nat) (c : Copy) (h : Held), 0 ≤ (s.shaperSt die entry).tokens →
      (s.shaperSt die entry).spent = false →
      (s.core.copies.filter fun y => y.die == die && !y.released && s.isHead y
        && match s.held? y.fid with | some g => g.shaper == some entry | none => false) = [c] →
      s.held? c.fid = some h →
      Completes (.shaperRelease die entry) s fun t =>
        (t.shaperSt die entry).tokens = (s.shaperSt die entry).tokens - frameLen h.frame
          ∧ t.core.copies.map (fun y => (y.cid, y.released))
              = s.core.copies.map (fun y => (y.cid, y.released || y.cid == c.cid))
          ∧ (t.shaperSt die entry).spent = true
          ∧ t.core.held = s.core.held ∧ onlyParts [.core] s t)
      ∧ ∀ (s : State) (die entry : Nat) (src : BitVec 24) (m : BitVec 16) (a : BitVec 3),
        (s.shaperSt die entry).refusals.contains (src, m, a) = true →
        Completes (.refusalRecordExpiry die entry src m a) s fun t =>
          (t.shaperSt die entry).refusals = (s.shaperSt die entry).refusals.filter (· != (src, m, a))
            ∧ (t.shaperSt die entry).tokens = (s.shaperSt die entry).tokens ∧ t.core.copies = s.core.copies
            ∧ onlyParts [.core] s t)

/-- ARBITER_REST (R396): every DEFICIT of the port is zero and no source was served last, so the next turn of a VC goes to the lowest
of the eligible source numbers; the arbiter is the one that an idle start has, whatever it was before. No other port's arbiter and
nothing else changes. -/
def Obligations.ArbiterRests : Prop :=
  ∀ (s : State) (port : Nat), Completes (.arbiterRest port) s fun t =>
    t.drr port = Drr.rest port
      ∧ (∀ v, v < 8 → nth (t.drr port).deficit v 0 = 0 ∧ nth (t.drr port).lastSrc v none = none)
      ∧ (∀ v, v < 8 → ∀ cs : List Copy, cs ≠ [] → ∃ c ∈ cs, nextSource (nth (t.drr port).lastSrc v none) cs = some c
        ∧ ∀ y ∈ cs, c.source ≤ y.source)
      ∧ (∀ p, p ≠ port → t.drr p = s.drr p) ∧ t.core.copies = s.core.copies ∧ t.core.held = s.core.held
      ∧ onlyParts [.core] s t

/-- GATE_ARM with no list active or pending: a list the switch may take waits for GATE_SWITCH or the present instant,
with SWAP_PENDING; one it may not take sets GATE_ERR and changes nothing. GATE_LIST_SWAP makes the accepted list
active and clears SWAP_PENDING; GATE_ENTRY_BOUNDARY opens the VCs that the schedule now opens.
Model's choices: log entry 49. -/
def Obligations.GateLists : Prop :=
  (∀ (s : State) (die j : Nat) (c : PortCfg), die < 4 → j < 64 → s.gate die j = ⟨die, j, none, none, 0xFF⟩ →
      s.port? (64 * die + j) = some c →
      (∀ es, s.gateList die j 0 256 0 = some es → gateOk es c.gbps = true →
        Completes (.gateArm die j) s fun t =>
          (t.gate die j).pending = some (0, es, max (s.gateSwitch die j) s.ns) ∧ (t.gate die j).active = none
            ∧ fieldSet F.GATE_CONTROL_SWAP_PENDING (64 * die + j) 1 s t ∧ onlyRegs [(.GATE_CONTROL, 64 * die + j)] s t
            ∧ onlyParts [.regs, .core] s t)
        ∧ ((s.gateList die j 0 256 0 = none ∨ ∃ es, s.gateList die j 0 256 0 = some es ∧ gateOk es c.gbps = false) →
          Completes (.gateArm die j) s fun t =>
            fieldSet F.GATE_CONTROL_GATE_ERR (64 * die + j) 1 s t ∧ onlyRegs [(.GATE_CONTROL, 64 * die + j)] s t
              ∧ onlyParts [.regs] s t))
    ∧ ((∀ (s : State) (die j : Nat) (q : Nat × List (Nat × BitVec 8) × Nat), (s.gate die j).pending = some q →
      q.1 < 2 →
      Completes (.gateListSwap die j) s fun t =>
        (t.gate die j).active = some q ∧ (t.gate die j).pending = none
          ∧ t.flag F.GATE_CONTROL_SWAP_PENDING (64 * die + j) = false
          ∧ t.fld F.GATE_CONTROL_ACTIVE_LIST (64 * die + j) = q.1
          ∧ onlyRegs [(.GATE_CONTROL, 64 * die + j)] s t ∧ onlyParts [.regs, .core] s t)
      ∧ ∀ (s : State) (die j : Nat), (s.gate die j).active.isSome = true →
        Completes (.gateEntryBoundary die j) s fun t =>
          (t.gate die j).openNow = ((s.gate die j).maskAt s.ns).1 ∧ (t.gate die j).active = (s.gate die j).active
            ∧ t = { s with core := { s.core with gates := t.core.gates } })

/-! ## Reduction -/

/-- CONTRIB_FRAME at row 12 of R108, in an OPEN context that holds its granules, without a breach of the anchor: the
frame's elements are added, its bit of the slot's mask is set, its exponent is recorded; the frame that completes
the slot raises DONE and RUN_CHECK, and while other slots are awaited the context stays OPEN. PARTIAL_FRAME of one
frame at row 12 of R108: a partial whose check is right is folded and completes its slot; one whose check is wrong
folds nothing and counts in PARTIAL_FAILS. -/
def Obligations.ContributionsFold : Prop :=
  (∀ (s u : State) (port d m : Nat) (f : Frame) (l : Layout) (b : PlanBucket) (g : PlanGroup) (w : SlotId) (c : Ctx),
      s.millBehind port f = false → u = s.takeMill port f → tailGood f = true → u.classify port f false = .pass l b g d w → u.ctx? d = some c →
      c.state = .openS → c.held = false → c.gclass ≠ 0 → c.mill = m → m < 128 → u.refused port f.h = false →
      (∃ y ∈ c.slots, y.who = w) → (c.slot w).complete = false → (c.slot w).ext = none → (c.slot w).mask = 0#16 →
      (redOf f).sumCheck.toNat < checkP → (contribTile b (redOf f) f.payload).breach = false → c.done + 1 < c.expect →
      (∀ x ∈ u.ctxs, x.2.commitWait = false) → (∀ k, u.job? c.job = some k → (k.step c.step).heldFails = []) →
      (∀ q ∈ l.plan.groups, l.releases q = true → q.minSurvivors ≤ (u.curBank.survivors l.plan.job q).length) →
      Completes (.contribFrame port f noFault) s fun t =>
        (∃ c', t.ctx? d = some c' ∧ c'.state = .openS ∧ c'.anchor = c.anchor ∧ c'.generation = c.generation
          ∧ c'.acc = (c.addTile (contribTile b (redOf f) f.payload).off (contribTile b (redOf f) f.payload).vals
              (contribTile b (redOf f) f.payload).sps).acc
          ∧ ((redOf f).frameCnt ≠ 0#4 → c'.done = c.done ∧ c'.runCheck = c.runCheck
              ∧ (c'.slot w).mask = BitVec.ofNat 16 (2 ^ (redOf f).frameIdx.toNat) ∧ (c'.slot w).complete = false)
          ∧ ((redOf f).frameCnt = 0#4 ∧ (redOf f).frameIdx = 0#4 → c'.done = c.done + 1 ∧ (c'.slot w).complete = true
              ∧ c'.runCheck = (c.runCheck + (redOf f).sumCheck.toNat) % checkP
              ∧ c'.contributions = c.contributions + 1))
          ∧ (∀ e, e ≠ d → t.ctx? e = u.ctx? e) ∧ keepsParts controlParts s t ∧ keepsParts [.jobs, .wt] u t
          ∧ keepsBytes u t ∧ sameOuts u t)
    ∧ (∀ (s u : State) (port d m : Nat) (f : Frame) (l : Layout) (b : PlanBucket) (g : PlanGroup) (w : SlotId) (c : Ctx) (t0 : Tile),
      s.millBehind port f = false → u = s.takeMill port f → tailGood f = true → isRequest (redOf f) = false → u.classify port f true = .pass l b g d w →
      u.ctx? d = some c → c.state = .openS → c.held = false → c.gclass ≠ 0 → c.mill = m → m < 128 → u.refused port f.h = false →
      (∃ y ∈ c.slots, y.who = w) → (c.slot w).complete = false → (c.slot w).ext = none → (c.slot w).msgId = none →
      (redOf f).frameCnt = 0#4 → (redOf f).sumCheck.toNat < checkP →
      partialTile b (b.compress && u.isThin port) (redOf f) f.payload = some t0 → c.done + 1 < c.expect →
      (∀ x ∈ u.ctxs, x.2.commitWait = false) → (∀ k, u.job? c.job = some k → (k.step c.step).heldFails = []) →
      (∀ q ∈ l.plan.groups, l.releases q = true → q.minSurvivors ≤ (u.curBank.survivors l.plan.job q).length) →
      Completes (.partialFrame port f noFault) s fun t =>
        (∃ c', t.ctx? d = some c' ∧ c'.state = .openS ∧ c'.anchor = c.anchor ∧ c'.generation = c.generation
          ∧ (b.check c.step c.chunk (joinParts c.elems [⟨(redOf f).frameIdx.toNat, t0.off, t0.vals, t0.sps⟩]).1
                = (redOf f).sumCheck.toNat →
              c'.done = c.done + 1 ∧ (c'.slot w).complete = true
                ∧ c'.runCheck = (c.runCheck + (redOf f).sumCheck.toNat) % checkP
                ∧ c'.contributions = c.contributions + ((redOf f).memberRank.toNat + 1))
          ∧ (b.check c.step c.chunk (joinParts c.elems [⟨(redOf f).frameIdx.toNat, t0.off, t0.vals, t0.sps⟩]).1
                ≠ (redOf f).sumCheck.toNat →
              c'.done = c.done ∧ c'.acc = c.acc ∧ c'.runCheck = c.runCheck ∧ (c'.slot w).complete = false
                ∧ t.fld F.CHECK_EVENTS_PARTIAL_FAILS m = satAdd 16 (u.fld F.CHECK_EVENTS_PARTIAL_FAILS m) 1))
          ∧ (∀ e, e ≠ d → t.ctx? e = u.ctx? e) ∧ keepsParts controlParts s t ∧ keepsParts [.jobs, .wt] u t
          ∧ keepsBytes u t ∧ sameOuts u t)

/-- COMPACTION_DONE counts in COMPACTIONS and moves what the mill holds down until the request that waited fits, where the mill has
room for it at all; no context gains or loses granules, and nothing else of it changes; the frame that waited is taken up (here, one
of a job that has gone meanwhile). RESCALE_RECEIVED: the new anchor
is written, the chunk state cleared and the context OPEN again. SUPERSEDE_RECEIVED at a higher generation: the
context is OPEN at that generation with nothing folded, and members fenced in the newest bank are awaited no more. -/
def Obligations.CompactionRescaleSupersede : Prop :=
  (∀ (s : State) (mill : Nat) (x : PoolWait), mill < 128 → s.core.compacting = [x] → x.mill = mill →
      s.job? x.frame.h.jobId = none → (∀ y ∈ s.ctxs, y.2.commitWait = false) → srising s.ctxs = true →
      Completes (.compactionDone mill) s fun t =>
        t.fld F.POOL_EVENTS_COMPACTIONS mill = satAdd 16 (s.fld F.POOL_EVENTS_COMPACTIONS mill) 1
          ∧ t.core.compacting = [] ∧ runTotal (t.unitRuns mill) = runTotal (s.unitRuns mill)
          ∧ runTotal (t.lineRuns mill) = runTotal (s.lineRuns mill)
          ∧ (((s.unitRuns mill).map (·.1)).Nodup → runTotal (s.unitRuns mill) + x.grans * x.units ≤ poolUnits →
            (placeRuns poolUnits x.units x.grans (t.unitRuns mill)).isSome = true)
          ∧ (((s.lineRuns mill).map (·.1)).Nodup → runTotal (s.lineRuns mill) + x.lines ≤ poolLines →
            (firstFit (t.lineRuns mill) poolLines x.lines).isSome = true)
          ∧ (∀ d c, s.ctx? d = some c → ∃ c', t.ctx? d = some c'
            ∧ c' = { c with granules := c'.granules, arrival := c'.arrival } ∧ c'.granules.length = c.granules.length
            ∧ (c.mill ≠ mill → c' = c))
          ∧ keepsParts controlParts s t ∧ keepsParts [.jobs, .wt] s t ∧ sameOuts s t
          ∧ ∀ a, (∀ y ∈ s.descCache, a / 32 ≠ y.2) → (∀ y ∈ s.ctxs, a / 32 ≠ y.1) → t.readMem a 1 = s.readMem a 1)
    ∧ (∀ (s u : State) (port d : Nat) (f : Frame) (j : Job) (l : Layout) (b : PlanBucket) (g : PlanGroup) (c : Ctx),
      s.queuedBehind .firmware port f = false →
      tailGood f = true → f.h.ftype = 4#4 → (s.takeFrom .firmware port f).receive port f = (.complete, u) →
      s.ctlCtx f = some (d, c, j, l) → s.layoutOf c = some (j, l) → l.bucketOf c = some (b, g) →
      (∀ x ∈ s.ctxs, x.2.commitWait = false) →
      ((redOf f).code = codeRescale → (redOf f).generation.toNat = c.generation →
        c.state = .rescaleWait ∨ c.state = .forwarded →
        Completes (.rescaleReceived port f) s fun t =>
          (∃ c', t.ctx? d = some c' ∧ c'.state = .openS ∧ c'.anchor = (redOf f).anchor.toInt ∧ c'.done = 0 ∧ c'.acc = []
            ∧ c'.runCheck = 0 ∧ c'.gclass = 0 ∧ c'.generation = c.generation)
            ∧ (∀ e, e ≠ d → t.ctx? e = s.ctx? e) ∧ keepsParts controlParts s t ∧ keepsParts [.jobs, .wt] s t ∧ keepsBytes s t)
        ∧ ((redOf f).code = codeSupersede → c.generation < (redOf f).generation.toNat → c.state ≠ .aborted →
          Completes (.supersedeReceived port f) s fun t =>
            (∃ c', t.ctx? d = some c' ∧ c'.state = .openS ∧ c'.generation = (redOf f).generation.toNat ∧ c'.done = 0
              ∧ c'.acc = [] ∧ c'.held = false ∧ c'.anchor = c.anchor
              ∧ ∀ y ∈ c'.slots, ∀ r, y.who = .member r → s.newest.1.fenced c.job r = true → y.live = false)
              ∧ (∀ e, e ≠ d → t.ctx? e = s.ctx? e) ∧ keepsParts controlParts s t ∧ keepsParts [.wt] s t
              ∧ (j.errs = [] → keepsBytes s t)))

/-- RESULT_RECEIVED at a lower tier that has forwarded its partial: the last frame of the RESULT releases the context, which frees
its granules, remembers the parent's message and replicates the RESULT to every receiver.
Model's choices: log entry 59. -/
def Obligations.ResultIsReplicated : Prop :=
  ∀ (s u : State) (port d : Nat) (f : Frame) (j : Job) (l : Layout) (b : PlanBucket) (g : PlanGroup) (c : Ctx),
    s.queuedBehind .firmware port f = false → s.silenced (some l.plan.job) = false →
    u = s.takeFrom .firmware port f → tailGood f = true → f.h.ftype = 4#4 → (redOf f).code = codeResult →
    s.job? f.h.jobId = some j → j.layout f.h.layoutGen = some l → j.inWindow (redOf f).step = true →
    d = l.desc (redOf f).step (redOf f).chunkId.toNat → s.ctx? d = some c → c.job = f.h.jobId → c.step = (redOf f).step →
    c.chunk = (redOf f).chunkId → c.generation = (redOf f).generation.toNat → c.state = .forwarded →
    c.resultParts.length = (redOf f).frameCnt.toNat → (∀ q ∈ c.resultParts, q.1 ≠ (redOf f).frameIdx.toNat) →
    l.bucketOf c = some (b, g) → u.receivers l b g c.chunk.toNat ≠ [] →
    Completes (.resultReceived port f) s fun t =>
      (∃ c', t.ctx? d = some c' ∧ c'.state = .released ∧ c'.awaiting = u.receivers l b g c.chunk.toNat ∧ c'.gclass = 0
        ∧ c'.parentMsg = some (f.h, port) ∧ c'.result = some (resultInfoOf (redOf f) c) ∧ c'.generation = c.generation)
        ∧ (∀ w ∈ u.receivers l b g c.chunk.toNat, ∃ o ∈ t.outs, o.purpose = .result d c.generation w)
        ∧ (∀ e, e ≠ d → t.ctx? e = s.ctx? e) ∧ keepsParts controlParts s t ∧ keepsParts [.jobs, .wt] s t ∧ keepsBytes s t

/-- STEP_COMMIT_RECEIVED: the step has committed at the switch, and none of its FINAL contexts is left.
STEP_ABORT_RECEIVED and STEP_TIMER_EXPIRY at a switch whose timer of the step runs: every context of the step is
ABORTED, and the step has ended as aborted.
Model's choices: log entry 59. -/
def Obligations.StepsEnd : Prop :=
  (∀ (s u : State) (port : Nat) (f : Frame) (flt : MillFault) (j : Job), s.queuedBehind .firmware port f = false →
      tailGood f = true → f.h.ftype = 4#4 → (redOf f).code = codeCommit →
      (s.takeFrom .firmware port f).receive port f = (.complete, u) →
      s.job? f.h.jobId = some j → j.stepEnded (redOf f).step = false → j.ownStep (redOf f).step →
      (∀ x ∈ s.ctxs, x.2.commitWait = false) →
      Completes (.stepCommitReceived port f flt) s fun t =>
        (∀ x ∈ t.ctxs, ¬(x.2.job = f.h.jobId ∧ x.2.step = (redOf f).step ∧ x.2.state = .final))
          ∧ (∃ j', t.job? f.h.jobId = some j' ∧ (j'.step (redOf f).step).ended = some .committed
              ∧ (j'.step (redOf f).step).timerOn = false)
          ∧ keepsControl j s t)
    ∧ (∀ (s : State) (id : BitVec 12) (st : BitVec 32) (j : Job), s.job? id = some j → j.stepEnded st = false →
      j.ownStep st → (∀ x ∈ s.ctxs, x.2.commitWait = false) → srising s.ctxs = true →
      ((j.step st).timerOn = true → Completes (.stepTimerExpiry id st) s fun t =>
        (∀ x ∈ t.ctxs, x.2.job = id → x.2.step = st → x.2.state = .aborted)
          ∧ (∃ j', t.job? id = some j' ∧ (j'.step st).ended = some .aborted ∧ st ∈ j'.aborted)
          ∧ keepsControl j s t)
        ∧ ∀ (u : State) (port : Nat) (f : Frame) (flt : MillFault), s.queuedBehind .firmware port f = false →
          tailGood f = true → f.h.ftype = 4#4 →
          (redOf f).code = codeAbort → f.h.jobId = id → (redOf f).step = st →
          (s.takeFrom .firmware port f).receive port f = (.complete, u) →
          Completes (.stepAbortReceived port f flt) s fun t =>
            (∀ x ∈ t.ctxs, x.2.job = id → x.2.step = st → x.2.state = .aborted)
              ∧ (∃ j', t.job? id = some j' ∧ (j'.step st).ended = some .aborted ∧ st ∈ j'.aborted)
              ∧ keepsControl j s t)

/-- ACK_FRAME that answers a message of the switch: the message is forgotten; a partial that was acknowledged frees its
context's granules, and a RESULT's receiver is awaited no more. NACK_FRAME that answers a message of the switch:
BUSY keeps it for its timer, and for RETRY_HINT microseconds at least; STALE_LAYOUT, SCALE_EXCEEDED, NO_CONTEXT and GEN_SUPERSEDED end
it; FENCED ends every message of the job, for which the switch sends no more; CHECK_FAIL of a switch sends it anew under another
MSG_ID, at attempt 0.
Model's choices: log entries 59, 60, 71. -/
def Obligations.AcksAndNacks : Prop :=
  (∀ (s u : State) (port : Nat) (f : Frame) (o : OutMsg), s.queuedBehind .firmware port f = false →
      u = s.takeFrom .firmware port f → tailGood f = true →
      f.h.ftype = 6#4 → u.mcAbsorbs port f.h = false → u.outFor port f.h = some o →
      (∀ x ∈ u.ctxs, x.2.commitWait = false) →
      (o.purpose = .plain → Completes (.ackFrame port f) s fun t =>
        outsAre (u.outs.filter fun x => x.key != o.key) t ∧ keepsParts controlParts s t
          ∧ keepsParts [.mem, .jobs, .ctxs, .wt, .rxs] s t)
        ∧ (∀ (d gen : Nat) (c : Ctx), o.purpose = .partialUp d gen → u.ctx? d = some c → c.generation = gen →
          c.state = .forwarded → Completes (.ackFrame port f) s fun t =>
            outsAre (u.outs.filter fun x => x.key != o.key) t ∧ (∃ c', t.ctx? d = some c' ∧ c'.gclass = 0 ∧ c'.granules = []
              ∧ c'.state = .forwarded) ∧ (∀ e, e ≠ d → t.ctx? e = s.ctx? e) ∧ keepsParts controlParts s t ∧ keepsBytes s t)
        ∧ ∀ (d gen : Nat) (w w' : SlotId) (c : Ctx), o.purpose = .result d gen w → u.ctx? d = some c → c.generation = gen →
          c.state = .released → w' ∈ c.awaiting → w' ≠ w → Completes (.ackFrame port f) s fun t =>
            (∃ c', t.ctx? d = some c' ∧ c'.awaiting = c.awaiting.filter (· != w) ∧ c'.state = .released)
              ∧ (∀ e, e ≠ d → t.ctx? e = s.ctx? e) ∧ keepsParts controlParts s t ∧ keepsBytes s t)
    ∧ (∀ (s u : State) (port : Nat) (f : Frame) (o : OutMsg), s.queuedBehind .firmware port f = false →
      u = s.takeFrom .firmware port f → tailGood f = true →
      f.h.ftype = 5#4 → u.mcAbsorbs port f.h = false → u.outFor port f.h = some o →
      ((nackOf f).code = nackBusy → Completes (.nackFrame port f) s fun t =>
        t = { u with outs := u.outs.map fun x =>
          if x.key = o.key then { x with holdUntil := u.ns + 1000 * (nackOf f).retryHint.toNat } else x })
        ∧ ((nackOf f).code ∈ [nackStaleLayout, nackScaleExceeded, nackNoContext, nackGenSuperseded] →
          Completes (.nackFrame port f) s fun t =>
            outsAre (u.outs.filter fun x => x.key != o.key) t ∧ keepsParts controlParts s t
              ∧ keepsParts [.mem, .jobs, .ctxs, .wt] s t)
        ∧ ((nackOf f).code = nackFenced → Completes (.nackFrame port f) s fun t =>
          outsAre (u.outs.filter fun x => x.key != o.key && !(o.job.isSome && x.job == o.job)) t
            ∧ (∀ id, o.job = some id → ∀ k, t.job? id = some k → k.silenced = true)
            ∧ (o.job = none → keepsParts [.jobs] s t)
            ∧ keepsParts controlParts s t ∧ keepsParts [.mem, .ctxs, .wt] s t)
        ∧ ((nackOf f).code = nackCheckFail → o.checkedBelow = false → o.key < s.freeCount → s.silenced o.job = false →
          Completes (.nackFrame port f) s fun t =>
          (∃ x ∈ t.outs, x.key = s.freeCount ∧ x.purpose = o.purpose ∧ x.attempt = 0 ∧ x.hop = o.hop
            ∧ ∀ g ∈ x.frames, g.h.attempt = 0#3
              ∧ (u.outs.length + u.ended.length < 2 ^ 16 - 1 → g.h.msgId ≠ f.h.msgId))
            ∧ (∀ x ∈ t.outs, x.key ≠ o.key) ∧ keepsParts controlParts s t ∧ keepsParts [.mem, .jobs, .ctxs, .wt] s t))

/-- CHECK_FAIL_NACK from a member, for a chunk at its current generation at the releasing tier, the first of its kind
and before the step is reported: DOWNSTREAM_FAILS counts, a check failure is reported, and the chunk goes to the
next generation. RESEND_TIMER_EXPIRY: a message all of whose frames have left and that has attempts left is sent
again whole with ATTEMPT raised by one; a fenced member's message is forgotten. STRAGGLER_TIMER_EXPIRY, once its limit has passed,
counts every awaited member in STRAGGLER_REPORTS and marks the context. FENCE_TIMER_EXPIRY, once its limit has passed, under
FENCE_ACTION 0 requests the awaited member's fence, once, and counts it; under FENCE_ACTION 1 it fences nobody.
Model's choices: log entry 60. -/
def Obligations.ChecksResendsWaits : Prop :=
  (∀ (s u : State) (port d r : Nat) (f : Frame) (j : Job) (l : Layout) (b : PlanBucket) (g : PlanGroup) (c : Ctx),
      s.queuedBehind .firmware port f = false →
      u = s.takeFrom .firmware port f → tailGood f = true → f.h.ftype = 5#4 → (nackOf f).code = nackCheckFail →
      (∃ o, u.outFor port f.h = some o ∧ o.checkedBelow = true) →
      s.job? f.h.jobId = some j → j.layout f.h.layoutGen = some l → d = l.desc (nackOf f).step (nackOf f).chunkId.toNat →
      s.ctx? d = some c → c.job = f.h.jobId → c.step = (nackOf f).step → c.chunk = (nackOf f).chunkId →
      c.generation = (nackOf f).generation.toNat → c.state ≠ .aborted → j.stepEnded c.step = false →
      s.slotOn l port f.h.src = some (.member r) → l.bucketOf c = some (b, g) →
      (s.slotsIn s.curBank l g).contains (.member r) = true → l.releases g = true → s.layoutOf c = some (j, l) →
      c.checkFails = 0 → c.generation + 1 < 256 → (j.step c.step).reported = false → c.mill < 128 →
      (∀ x ∈ s.ctxs, x.2.commitWait = false) →
      Completes (.checkFailNack port f) s fun t =>
        (∃ c', t.ctx? d = some c' ∧ c'.generation = c.generation + 1 ∧ c'.state = .openS ∧ c'.checkFails = 1 ∧ c'.done = 0)
          ∧ t.fld F.SUPERSEDE_EVENTS_DOWNSTREAM_FAILS c.mill = satAdd 16 (s.fld F.SUPERSEDE_EVENTS_DOWNSTREAM_FAILS c.mill) 1
          ∧ t.reports (c.mill / 32) 0x11 0x21 ∧ keepsParts controlParts s t)
    ∧ (∀ (s : State) (o : OutMsg) (key : Nat), s.outs.find? (fun x => x.key == key) = some o → o.unsent = 0 → o.failed = false →
      (s.ns < o.holdUntil → Completes (.resendTimerExpiry key) s fun t => t = s) ∧ (o.holdUntil ≤ s.ns →
      ((∀ j r, o.job = some j → o.rank = some r → s.curBank.fenced j r = false) → o.attempt + 1 < 8 →
        Completes (.resendTimerExpiry key) s fun t =>
          (∃ x ∈ t.outs, x.key = key ∧ x.attempt = o.attempt + 1 ∧ x.purpose = o.purpose
            ∧ x.frames = o.frames.map fun g => { g with h := { g.h with attempt := BitVec.ofNat 3 (o.attempt + 1) } })
            ∧ t.outs.map (·.key) = s.outs.map (·.key) ∧ keepsParts controlParts s t
            ∧ keepsParts [.mem, .jobs, .ctxs, .wt, .rxs] s t)
        ∧ (∀ j r, o.job = some j → o.rank = some r → s.curBank.fenced j r = true →
          Completes (.resendTimerExpiry key) s fun t =>
            t.outs = s.outs.filter (fun x => x.key != key) ∧ onlyParts [.outs, .ended] s t)))
    ∧ (∀ (s : State) (d : Nat) (w : Wait) (c : Ctx) (j : Job), s.ctx? d = some c → s.ctxWait d = some w → s.job? w.job = some j →
      (s.waitOver w j.cur.plan.policy.stragglerUs = false → Completes (.stragglerTimerExpiry (.context d)) s fun t => t = s)
        ∧ (s.waitOver w j.cur.plan.policy.fenceUs = false → Completes (.fenceTimerExpiry (.context d)) s fun t => t = s)
        ∧ (w.sent = false → s.waitOver w j.cur.plan.policy.stragglerUs = true → Completes (.stragglerTimerExpiry (.context d)) s fun t =>
        (∃ c', t.ctx? d = some c' ∧ c'.stragglerSent = true ∧ c'.state = c.state ∧ c'.done = c.done)
          ∧ t.fld F.SURVIVAL_EVENTS_STRAGGLER_REPORTS 0
              = satAdd F.SURVIVAL_EVENTS_STRAGGLER_REPORTS.width (s.fld F.SURVIVAL_EVENTS_STRAGGLER_REPORTS 0) w.ranks.length
          ∧ (∀ e, e ≠ d → t.ctx? e = s.ctx? e) ∧ keepsParts controlParts s t)
        ∧ (∀ r, j.cur.plan.policy.wait = false → s.waitOver w j.cur.plan.policy.fenceUs = true →
          w.ranks = [r] → r ∉ j.fenceReqs → s.newest.1.fenced w.job r = false → s.isTimeRoot = false → s.epoch.coord = .idle →
          Completes (.fenceTimerExpiry (.context d)) s fun t =>
            (∃ j', t.job? w.job = some j' ∧ j'.fenceReqs = j.fenceReqs ++ [r])
              ∧ t.fld F.SURVIVAL_EVENTS_FENCE_REQUESTS 0
                  = satAdd F.SURVIVAL_EVENTS_FENCE_REQUESTS.width (s.fld F.SURVIVAL_EVENTS_FENCE_REQUESTS 0) 1
              ∧ t.ctxs = s.ctxs)
        ∧ (j.cur.plan.policy.wait = true → Completes (.fenceTimerExpiry (.context d)) s fun t => t = s))

/-! ## The step root, tallies, bells and dispatch -/

/-- STEP_REPORT_SEND, once the chunks are FINAL and nothing of the step is owed: the step is marked as reported, and the
report goes to the step root with RELEASER_INDEX, the chunks and the digest of the ledger entries. STEP_REPORT at
the step root while another releasing switch's report is missing: it is stored, and the step stays open.
REPORT_WITHDRAW before the commit takes the report back and is answered WITHDRAWN, after it COMMITTED.
Model's choices: log entry 60. -/
def Obligations.StepReports : Prop :=
  (∀ (s : State) (id : BitVec 12) (st : BitVec 32) (j : Job), s.job? id = some j → s.mayReport j st = true →
      j.cur.isRoot = false → s.silenced (some id) = false → Completes (.stepReportSend id st) s fun t =>
        (∃ j', t.job? id = some j' ∧ (j'.step st).reported = true ∧ j'.floor = j.floor)
          ∧ s.sends t j.cur.rootFlat (reportBytes id j.cur.plan.gen st (j.cur.plan.releaserIndex j.cur.self) (j.reportOf st) none)
          ∧ t.ctxs = s.ctxs ∧ keepsParts controlParts s t ∧ keepsParts [.mem, .wt, .rxs] s t)
    ∧ (∀ (s u : State) (port : Nat) (f : Frame) (j : Job), s.queuedBehind .firmware port f = false → tailGood f = true →
      f.h.ftype = 8#4 → (∀ x ∈ s.ctxs, x.2.commitWait = false) →
      (s.takeFrom .firmware port f).receive port f = (.complete, u) → s.job? (stepMsg f.payload).job = some j →
      j.cur.isRoot = true →
      (mgmtKind f = 0x41 → j.cur.plan.gen = (stepMsg f.payload).gen → (stepMsg f.payload).step = j.floor →
        j.stepEnded j.floor = false → j.inWindow j.floor = true → (stepMsg f.payload).idx < j.cur.plan.releasers.length →
        leAt f.payload 11 1 ≠ 1 →
        (∃ i, i < j.cur.plan.releasers.length ∧ i ≠ (stepMsg f.payload).idx
          ∧ ∀ r ∈ (j.step j.floor).reports, r.releaser ≠ i) →
        Completes (.stepReport port f) s fun t =>
          (∃ j', t.job? (stepMsg f.payload).job = some j' ∧ j'.stepEnded j.floor = false
            ∧ ∃ r ∈ (j'.step j.floor).reports, r.releaser = (stepMsg f.payload).idx ∧ r.digest = sliceB f.payload 24 64
              ∧ r.chunksHere = leAt f.payload 12 4 ∧ r.flags = leAt f.payload 10 1)
            ∧ t.ctxs = s.ctxs ∧ keepsParts controlParts s t ∧ keepsParts [.mem, .wt, .retained] s t)
        ∧ (mgmtKind f = 0x42 → s.silenced (some (stepMsg f.payload).job) = false → Completes (.reportWithdraw port f) s fun t =>
          (∃ j', t.job? (stepMsg f.payload).job = some j' ∧ (j.committed (stepMsg f.payload).step = false →
            ∀ r ∈ (j'.step (stepMsg f.payload).step).reports, r.releaser ≠ (stepMsg f.payload).idx))
            ∧ s.sends t f.h.src (leBytes 2 0x43 ++ leBytes 2 (jobGen (stepMsg f.payload).job (stepMsg f.payload).gen)
                ++ leBytes 4 (stepMsg f.payload).step.toNat ++ leBytes 2 (stepMsg f.payload).idx
                ++ leBytes 1 (b2n (j.committed (stepMsg f.payload).step)) ++ zeros 5)
            ∧ t.ctxs = s.ctxs ∧ keepsParts controlParts s t ∧ keepsParts [.mem, .wt] s t))

/-- WITHDRAW_REPLY: WITHDRAWN supersedes the chunk that waited for it; COMMITTED raises POST_COMMIT (kind 0x24) for it.
TALLY_REPORT at the releasing switch before its own totals are in: the report's share is added, once per switch.
BELL_ARRIVE of a barrier while others are awaited is recorded, and the first arrival of a phase sets OPENED; a BELL_RELEASE of the
bell's phase clears its record and moves it to the next phase.
Model's choices: log entries 60, 72. -/
def Obligations.WithdrawalsTalliesBells : Prop :=
  (∀ (s u : State) (port d : Nat) (f : Frame) (j : Job) (l : Layout) (b : PlanBucket) (g : PlanGroup) (c : Ctx),
      s.queuedBehind .firmware port f = false → tailGood f = true → f.h.ftype = 8#4 → mgmtKind f = 0x43 →
      (s.takeFrom .firmware port f).receive port f = (.complete, u) → s.job? (stepMsg f.payload).job = some j →
      (j.step (stepMsg f.payload).step).withdrawn = true →
      (s.stepCtxs (stepMsg f.payload).job (stepMsg f.payload).step).filter (·.2.withdrawing) = [(d, c)] →
      s.ctx? d = some c → s.layoutOf c = some (j, l) → l.bucketOf c = some (b, g) → c.mill < 128 →
      Completes (.withdrawReply port f) s fun t =>
        (leAt f.payload 10 1 = 0 → ∃ c', t.ctx? d = some c' ∧ c'.generation = c.generation + 1 ∧ c'.state = .openS
          ∧ c'.withdrawing = false)
          ∧ (leAt f.payload 10 1 ≠ 0 → (∃ c', t.ctx? d = some c' ∧ c'.generation = c.generation ∧ c'.state = c.state
            ∧ c'.withdrawing = false) ∧ t.reports (c.mill / 32) 0x11 0x24)
          ∧ (∃ j', t.job? (stepMsg f.payload).job = some j' ∧ (j'.step (stepMsg f.payload).step).withdrawn = false)
          ∧ (∀ e, e ≠ d → t.ctx? e = s.ctx? e) ∧ keepsParts controlParts s t)
    ∧ (∀ (s u : State) (port : Nat) (f : Frame) (j : Job) (l : Layout) (b : PlanBucket) (g : PlanGroup) (w : PlanSwitch)
      (id : BitVec 12) (st : BitVec 32), s.queuedBehind .firmware port f = false → tailGood f = true → f.h.ftype = 8#4 → mgmtKind f = 0x45 →
      id = BitVec.ofNat 12 (leAt f.payload 2 2 / 16) → st = BitVec.ofNat 32 (leAt f.payload 4 4) →
      (s.takeFrom .firmware port f).receive port f = (.complete, u) → s.job? id = some j →
      j.layout (BitVec.ofNat 4 (leAt f.payload 2 2)) = some l → l.plan.job = id →
      l.plan.buckets.find? (fun b => b.id == leAt f.payload 8 2) = some b → l.plan.swByFlat f.h.src = some w →
      l.plan.group? b.group = some g → l.releases g = true → (l.plan.tallyOwers g).contains w.index = true → b.tally = true →
      ((j.step st).tallyOf b.id).reports.contains w.index = false →
      ((j.step st).tallyOf b.id).reports.contains l.self = false → w.index ≠ l.self →
      Completes (.tallyReport port f) s fun t =>
        (∃ j', t.job? id = some j'
          ∧ ((j'.step st).tallyOf b.id).sumIn = ((j.step st).tallyOf b.id).sumIn + leAt f.payload 16 16
          ∧ ((j'.step st).tallyOf b.id).reports = ((j.step st).tallyOf b.id).reports ++ [w.index]
          ∧ ((j'.step st).tallyOf b.id).clamped = (((j.step st).tallyOf b.id).clamped || bitOf (leAt f.payload 10 1) 0))
          ∧ t.ctxs = s.ctxs ∧ keepsParts controlParts s t ∧ keepsParts [.mem, .wt] s t)
    ∧ ((∀ (s u : State) (port : Nat) (f : Frame) (j : Job) (l : Layout) (g : PlanGroup) (w : SlotId) (x : Bell),
      s.queuedBehind .firmware port f = false → u = s.takeFrom .firmware port f → tailGood f = true →
      (u.rxOf port (bellFrame f).h).done = false →
      u.classifyBell (bellFrame f).h (bellMsg f.payload) = .record l g w → s.job? (bellMsg f.payload).job = some j →
      j.bell? (bellMsg f.payload).bell = some x → x.kind = .barrier → x.arrived.length + 1 < x.slots.length →
      Completes (.bellArrive port f []) s fun t =>
        (∃ j' x', t.job? (bellMsg f.payload).job = some j' ∧ j'.bell? (bellMsg f.payload).bell = some x'
          ∧ x'.arrived = x.arrived ++ [w] ∧ x'.phase = x.phase ∧ x'.lead = max x.lead (bellMsg f.payload).lead
          ∧ x'.at_ = max x.at_ (bellMsg f.payload).at_ ∧ x'.begun = true ∧ x'.opened = if x.begun then x.opened else s.ns)
          ∧ t.ctxs = s.ctxs ∧ keepsParts controlParts s t ∧ keepsParts [.mem, .wt] s t ∧ sameOuts s t)
      ∧ ∀ (s u : State) (port : Nat) (f : Frame) (j : Job) (g : PlanGroup) (x : Bell),
        s.queuedBehind .firmware port f = false → tailGood f = true →
        (s.takeFrom .firmware port f).receive port f = (.complete, u) →
        s.job? (BitVec.ofNat 12 (leAt f.payload 2 2 / 16)) = some j → j.bell? (leAt f.payload 4 2) = some x →
        j.cur.plan.group? x.group = some g → x.phase = BitVec.ofNat 16 (leAt f.payload 6 2) →
        Completes (.bellRelease port f) s fun t =>
          (∃ j' x', t.job? (BitVec.ofNat 12 (leAt f.payload 2 2 / 16)) = some j' ∧ j'.bell? (leAt f.payload 4 2) = some x'
            ∧ x'.arrived = [] ∧ x'.phase = x.phase + 1 ∧ x'.lead = 0 ∧ x'.at_ = 0 ∧ x'.begun = false
            ∧ x'.opened = x.opened)
            ∧ t.ctxs = s.ctxs ∧ keepsParts controlParts s t ∧ keepsParts [.mem, .wt] s t)

/-- MC_RECORD_TIMEOUT frees the record and sets RECORD_TIMEOUT. DISPATCH_GRANT at the source's leaf records its grants.
DISPATCH_END of the first round, from a source whose END is new while another source is awaited: its counts are
recorded, and the instance stays as it was.
Model's choices: log entries 11, 72. -/
def Obligations.MulticastAndDispatch : Prop :=
  ((∀ (s : State) (die : Nat) (src : BitVec 24) (m : BitVec 16) (r : McRecord), die < 4 →
      s.mcs.find? (fun r => r.die == die && r.src == src && r.msgId == m) = some r →
      Completes (.mcRecordTimeout die src m) s fun t =>
        (∀ x ∈ t.mcs, ¬(x.src = src ∧ x.msgId = m)) ∧ fieldSet F.SPIRE_RECORDS_RECORD_TIMEOUT die 1 s t
          ∧ onlyRegs [(.SPIRE_RECORDS, die)] s t ∧ onlyParts [.regs, .mcs] s t)
      ∧ ∀ (s : State) (port src : Nat) (f : Frame) (j : Job) (d : PlanDispatch) (w : PlanSwitch) (rank : Nat), tailGood f = true →
        f.h.ftype = 8#4 → mgmtKind f = 0x44 → s.job? f.h.jobId = some j →
        j.cur.plan.dset? (leAt f.payload 2 2 % 4096) = some d → d.sourceAt j.cur.plan f.h.dest = some src →
        d.sources[src]? = some rank → j.cur.plan.leafSw rank = some w → w.index = j.cur.self →
        Completes (.dispatchGrant port f) s fun t =>
          (∃ j', t.job? f.h.jobId = some j' ∧ ∀ e, e < d.experts →
            j'.grantOf d.id (BitVec.ofNat 8 (leAt f.payload 4 1)) src (leAt f.payload 8 2) e = leAt f.payload (16 + 2 * e) 2)
            ∧ onlyParts [.jobs] s t)
    ∧ (∀ (s u : State) (port src other : Nat) (f : Frame) (j : Job) (d : PlanDispatch) (dst : DispatchDest) (w : PlanSwitch)
      (x : DispInst), s.queuedBehind .firmware port f = false → tailGood f = true → isSetTagged f.h = true →
      (s.takeFrom .firmware port f).receive port f = (.complete, u) → s.job? f.h.jobId = some j → j.cur.plan.job = f.h.jobId →
      j.setRefusal f.h.layoutGen = none → (setTag f.h.remoteAddr).part = 3 →
      j.cur.plan.dset? (setTag f.h.remoteAddr).set = some d → d.dests[(setTag f.h.remoteAddr).dest]? = some dst →
      d.sourceAt j.cur.plan f.h.src = some src → j.cur.plan.leafSw dst.rank = some w → w.index = j.cur.self →
      s.curBank.fenced j.id dst.rank = false → s.sourceAlive j.id d src = true →
      (s.bank f.h.epoch).sourceOk j.id d src = true →
      ((setTag f.h.remoteAddr).inst - j.winBase d.id (setTag f.h.remoteAddr).dest).toNat < min 128 d.window →
      leAt f.payload 0 1 = 1 → j.inst? d.id (setTag f.h.remoteAddr).inst (setTag f.h.remoteAddr).dest = some x →
      x.phase = .collecting → x.endOf src 1 = none → other ∈ s.aliveSources f.h.jobId d → other ≠ src →
      x.endOf other 1 = none →
      Completes (.dispatchEnd port f) s fun t =>
        (∃ j' x', t.job? f.h.jobId = some j'
          ∧ j'.inst? d.id (setTag f.h.remoteAddr).inst (setTag f.h.remoteAddr).dest = some x' ∧ x'.phase = .collecting
          ∧ ∀ e, e < d.experts → x'.count src 1 e = leAt f.payload (8 + 2 * e) 2)
          ∧ t.ctxs = s.ctxs ∧ keepsParts controlParts s t ∧ keepsParts [.mem, .wt] s t ∧ sameOuts s t)

/-! ## Landing -/

/-- LANDING_OPEN with room opens a fresh shard of the sender at a first-fit place; without room the landing stays as it
was. LANDING_DATA stores its bytes at OFFSET of the OPEN shard, in the record and in the landing partition where the shard lies, and
nowhere else. LANDING_DROP frees a shard that is not being hashed, and one that is once its hashing ends. LANDING_SEAL of an OPEN
shard whose step has committed starts hashing; SEAL_HASH_DONE makes it SEALED where the digest is the one given, else OPEN again; one
that memory has made CORRUPT stays so, and one that was dropped meanwhile goes. LANDING_READ of a SEALED shard at its step and
position starts a read of it.
Model's choices: log entries 4, 62, 96. -/
def Obligations.LandingShards : Prop :=
  (∀ (s u v : State) (port r : Nat) (f : Frame) (j : Job) (x : Landing) (g : LandTag), s.queuedBehind .firmware port f = false →
      u = s.takeFrom .firmware port f →
      tailGood f = true → isLanding s.image.ownFlat f.h = true → (u.rxOf port f.h).done = false →
      u.landReq f = .take j x r g → u.receive port f = (.complete, v) → s.landing? j.id = some x →
      (g.op = 1 → Completes (.landingOpen port f) s fun t =>
        (∃ x', t.landing? j.id = some x'
          ∧ (∀ base, x.place r j.cur.plan.gen g.slot (leAt f.payload 8 8) = some base →
            ∃ y, x'.shard? r j.cur.plan.gen g.slot = some y ∧ y.state = .openS ∧ y.base = base ∧ y.bytes = leAt f.payload 8 8
              ∧ y.step = BitVec.ofNat 32 (leAt f.payload 0 4) ∧ y.data = [])
          ∧ (x.place r j.cur.plan.gen g.slot (leAt f.payload 8 8) = none → x' = x))
          ∧ keepsParts controlParts s t ∧ keepsParts [.mem, .jobs, .ctxs, .wt] s t)
        ∧ (∀ y, g.op = 0 → x.shard? r j.cur.plan.gen g.slot = some y → Completes (.landingData port f) s fun t =>
          (∃ x' y', t.landing? j.id = some x' ∧ x'.shard? r j.cur.plan.gen g.slot = some y' ∧ y'.bytes = y.bytes
            ∧ ∀ i, i < y.bytes → y'.content[i]? =
                if g.offset ≤ i ∧ i < g.offset + f.payload.length then f.payload[i - g.offset]? else y.content[i]?)
            ∧ t.readMem (x.base + y.base + g.offset) f.payload.length = f.payload
            ∧ (∀ a, a < x.base + y.base + g.offset ∨ x.base + y.base + g.offset + f.payload.length ≤ a →
              t.readMem a 1 = s.readMem a 1)
            ∧ keepsParts controlParts s t ∧ keepsParts [.jobs, .ctxs, .wt] s t ∧ sameOuts s t)
        ∧ (∀ y, g.op = 4 → x.shard? r j.cur.plan.gen g.slot = some y →
          Completes (.landingDrop port f) s fun t =>
            (∃ x', t.landing? j.id = some x'
              ∧ ((∀ o ∈ x.seals, ¬(o.owner = r ∧ o.gen = j.cur.plan.gen ∧ o.slot = g.slot ∧ o.draw = y.draw)) →
                x'.shard? r j.cur.plan.gen g.slot = none)
              ∧ ((∃ o ∈ x.seals, o.owner = r ∧ o.gen = j.cur.plan.gen ∧ o.slot = g.slot ∧ o.draw = y.draw) →
                x'.shards = x.shards
                  ∧ ∀ o ∈ x'.seals, o.owner = r → o.gen = j.cur.plan.gen → o.slot = g.slot → o.draw = y.draw → o.dropped = true))
              ∧ keepsParts controlParts s t ∧ keepsParts [.mem, .jobs, .ctxs, .wt] s t ∧ sameOuts s t))
    ∧ ((∀ (s u v : State) (port r : Nat) (f : Frame) (j : Job) (x : Landing) (g : LandTag) (y : Shard),
      s.queuedBehind .firmware port f = false →
      u = s.takeFrom .firmware port f → tailGood f = true → isLanding s.image.ownFlat f.h = true →
      (u.rxOf port f.h).done = false → u.landReq f = .take j x r g → u.receive port f = (.complete, v) →
      s.landing? j.id = some x →
      (g.op = 2 → x.shard? r j.cur.plan.gen g.slot = some y → y.state = .openS →
        j.committed (BitVec.ofNat 32 (leAt f.payload 0 4)) = true → Completes (.landingSeal port f) s fun t =>
          (∃ x' o, t.landing? j.id = some x' ∧ x'.shard? r j.cur.plan.gen g.slot = some { y with state := .sealing }
            ∧ x'.seals = x.seals ++ [o] ∧ o.owner = r ∧ o.gen = j.cur.plan.gen ∧ o.slot = g.slot ∧ o.draw = y.draw
            ∧ o.step = BitVec.ofNat 32 (leAt f.payload 0 4) ∧ o.bytes = y.bytes ∧ o.digest = sliceB f.payload 16 64
            ∧ o.dataPos = sliceB f.payload 80 64 ∧ o.statusAddr = leAt f.payload 8 8 ∧ o.dropped = false)
            ∧ keepsParts controlParts s t ∧ keepsParts [.mem, .jobs, .ctxs, .wt] s t ∧ sameOuts s t)
        ∧ (g.op = 3 → x.shard? (leAt f.payload 0 4 % 2 ^ 18) (BitVec.ofNat 4 (leAt f.payload 4 4)) g.slot = some y →
          y.state = .sealed → y.step = BitVec.ofNat 32 (leAt f.payload 8 4) → y.dataPos = sliceB f.payload 32 64 →
          Completes (.landingRead port f) s fun t =>
            (∃ x' o, t.landing? j.id = some x' ∧ o ∈ x'.reads ∧ o.rid = s.freeCount ∧ o.shard = y ∧ o.rank = r
              ∧ o.digest = sha3 y.content ∧ x'.shards = x.shards)
              ∧ keepsParts controlParts s t ∧ keepsParts [.mem, .jobs, .ctxs, .wt] s t))
      ∧ ∀ (s : State) (id : BitVec 12) (owner slot : Nat) (gen : BitVec 4) (x : Landing) (o : SealOp), s.landing? id = some x →
        x.seal? owner gen slot = some o →
        Completes (.sealHashDone id owner gen slot) s fun t =>
          (∃ x', t.landing? id = some x' ∧ x'.seals = x.seals.erase o
            ∧ (o.dropped = true → ∀ z ∈ x'.shards, ¬(z.owner = owner ∧ z.gen = gen ∧ z.slot = slot ∧ z.draw = o.draw))
            ∧ (∀ y, o.dropped = false → x.shard? owner gen slot = some y → y.draw = o.draw →
              ∃ y', x'.shard? owner gen slot = some y' ∧ y'.content = y.content
                ∧ (y.state = .corrupt → y' = y)
                ∧ (y.state ≠ .corrupt → sha3 y.content = o.digest →
                  y'.state = .sealed ∧ y'.digest = sha3 y.content ∧ y'.step = o.step ∧ y'.dataPos = o.dataPos)
                ∧ (y.state ≠ .corrupt → sha3 y.content ≠ o.digest → y'.state = .openS)))
            ∧ keepsParts controlParts s t ∧ keepsParts [.mem, .jobs, .ctxs, .wt] s t)

/-! ## Epoch changes -/

/-- EPOCH_REQUEST at an idle coordinator whose last EPOCH_RETIRE is acknowledged starts a change: EPOCH_NUM + 1 is prepared for the items that are new, here and
at every other switch; while a change runs, the items wait. EPOCH_PREPARE for the next EPOCH_NUM at an idle switch:
the items are prepared while the current bank stays, and EPOCH_PREPARED answers. A message longer than a frame is taken with the
frame that completes it. EPOCH_PREPARED and EPOCH_DRAINED at
the coordinator tick the switch off; with the last EPOCH_PREPARED the commit begins.
Model's choices: log entries 63, 99. -/
def Obligations.EpochRequestsAndAnswers : Prop :=
  (∀ (s u : State) (port : Nat) (f : Frame) (q : List Byte), s.queuedBehind .firmware port f = false → tailGood f = true →
      f.h.ftype = 8#4 → q = (s.takeFrom .firmware port f).mgmtBody port f → leAt q 0 2 = 0x70 → f.h.amode = true →
      (s.takeFrom .firmware port f).receive port f = (.complete, u) → s.isTimeRoot = true →
      (s.epoch.coord = .idle → s.epoch.phase = .idle → s.retiring = false → s.epoch.asked = [] → s.otherSwitches ≠ [] →
        s.fwWaits = false → ((itemsOf q).dedup.filter fun i => !s.curBank.applied i) ≠ [] →
        Completes (.epochRequest port f) s fun t =>
          t.epoch.coord = .preparing ∧ t.epoch.coordNum = s.epoch.num + 1 ∧ t.epoch.num = s.epoch.num
            ∧ t.epoch.running = ((itemsOf q).dedup.filter fun i => !s.curBank.applied i)
            ∧ t.epoch.owing = s.otherSwitches ∧ t.epoch.phase = .prepared ∧ (s.noneLoaded → t.curBank = s.curBank)
            ∧ (∀ w ∈ s.otherSwitches, s.sendsLong t w (leBytes 2 0x71 ++ zeros 2 ++ leBytes 4 (s.epoch.num + 1).toNat
                ++ itemBytes t.epoch.running))
            ∧ keepsParts [.arrays, .image, .ports, .time, .power, .flash, .boot, .upd, .smb] s t)
        ∧ (s.epoch.coord ≠ .idle → s.epoch.owing ≠ [] → Completes (.epochRequest port f) s fun t =>
          t.epoch = { s.epoch with asked := s.epoch.asked ++ itemsOf q } ∧ t.bank0 = s.bank0 ∧ t.bank1 = s.bank1
            ∧ keepsParts [.arrays, .image, .ports, .time, .power, .flash, .boot, .upd, .smb, .jobs, .ctxs, .wt] s t))
    ∧ (∀ (s u : State) (port : Nat) (f : Frame) (q : List Byte), s.queuedBehind .firmware port f = false → tailGood f = true →
      f.h.ftype = 8#4 → f.h.amode = true → q = (s.takeFrom .firmware port f).mgmtBody port f →
      (s.takeFrom .firmware port f).receive port f = (.complete, u) →
      (leAt q 0 2 = 0x71 → BitVec.ofNat 32 (leAt q 4 4) = s.epoch.num + 1 → s.epoch.phase = .idle →
        Completes (.epochPrepare port f) s fun t =>
          t.epoch.phase = .prepared ∧ t.epoch.items = itemsOf q ∧ t.epoch.num = s.epoch.num
            ∧ t.epoch.coordinator = f.h.src ∧ (s.noneLoaded → t.curBank = s.curBank)
            ∧ s.sends t f.h.src (leBytes 2 0x72 ++ zeros 2 ++ leBytes 4 (s.epoch.num + 1).toNat ++ zeros 8)
            ∧ keepsParts [.arrays, .image, .ports, .time, .power, .flash, .boot, .upd, .smb] s t)
        ∧ (leAt q 0 2 = 0x72 → s.epoch.coord = .preparing → BitVec.ofNat 32 (leAt q 4 4) = s.epoch.coordNum →
          ((∃ w ∈ s.epoch.owing, w ≠ f.h.src) → Completes (.epochPrepared port f) s fun t =>
            t.epoch = { s.epoch with owing := s.epoch.owing.filter (· != f.h.src) } ∧ t.bank0 = s.bank0 ∧ t.bank1 = s.bank1
              ∧ keepsParts [.jobs, .ctxs, .wt, .image, .ports, .time] s t)
            ∧ ((∀ w ∈ s.epoch.owing, w = f.h.src) → s.otherSwitches ≠ [] → s.fwWaits = false → s.epoch.phase = .prepared →
              s.epoch.num + 1 = s.epoch.coordNum → Completes (.epochPrepared port f) s fun t =>
                t.epoch.coord = .committing ∧ t.epoch.owing = s.otherSwitches ∧ t.epoch.num = s.epoch.num + 1
                  ∧ t.epoch.phase = .switched))
        ∧ (leAt q 0 2 = 0x74 → s.epoch.coord = .committing → BitVec.ofNat 32 (leAt q 4 4) = s.epoch.coordNum →
          (∃ w ∈ s.epoch.owing, w ≠ f.h.src) → Completes (.epochDrained port f) s fun t =>
            t.epoch = { s.epoch with owing := s.epoch.owing.filter (· != f.h.src) } ∧ t.bank0 = s.bank0 ∧ t.bank1 = s.bank1
              ∧ keepsParts [.jobs, .ctxs, .wt, .image, .ports, .time] s t))

/-- EPOCH_COMMIT at a prepared switch makes the standby bank current and raises EPOCH_NUM; EPOCH_DRAIN_CONDITION tells the coordinator
once no endpoint's acknowledgement is owed; EPOCH_RETIRE goes back to IDLE and leaves no waiting frame of the old epoch.
Model's choices: log entry 63. -/
def Obligations.EpochCommitDrainRetire : Prop :=
  (∀ (s u : State) (port : Nat) (f : Frame) (q : List Byte), s.queuedBehind .firmware port f = false → tailGood f = true →
    f.h.ftype = 8#4 → f.h.amode = true → q = (s.takeFrom .firmware port f).mgmtBody port f →
    (s.takeFrom .firmware port f).receive port f = (.complete, u) →
    (leAt q 0 2 = 0x73 → BitVec.ofNat 32 (leAt q 4 4) = s.epoch.num + 1 → s.epoch.phase = .prepared →
      Completes (.epochCommit port f) s fun t =>
        t.epoch.num = s.epoch.num + 1 ∧ t.epoch.phase = .switched
          ∧ (s.noneLoaded → t.curBank = s.bank (!s.curBit)
            ∧ t.bank s.curBit = { s.curBank with fences := (s.bank (!s.curBit)).fences })
          ∧ t.epoch.announce = (s.ports.map (·.num)).filter s.isEndpoint ∧ t.epoch.drainedSent = false
          ∧ keepsParts [.arrays, .image, .ports, .power, .flash, .boot, .upd, .smb] s t)
      ∧ (leAt q 0 2 = 0x75 → BitVec.ofNat 32 (leAt q 4 4) = s.epoch.num → s.epoch.phase = .switched →
        s.epoch.coord ≠ .querying → Completes (.epochRetire port f) s fun t =>
          t.epoch.phase = .idle ∧ t.epoch.num = s.epoch.num ∧ t.epoch.retiredOnce = true
            ∧ (∀ c ∈ t.allCopies, c.started = false → c.out.h.epoch = s.curBit)
            ∧ t.bank0 = s.bank0 ∧ t.bank1 = s.bank1
            ∧ keepsParts [.arrays, .image, .ports, .time, .power, .flash, .boot, .upd, .smb, .ctxs] s t)
      ∧ (leAt q 0 2 = 0x77 → s.epoch.phase = .prepared → Completes (.epochQuery port f) s fun t =>
        t.epoch = { s.epoch with coordinator := f.h.src }
          ∧ s.sends t f.h.src (leBytes 2 0x72 ++ zeros 2 ++ leBytes 4 (s.epoch.num + 1).toNat ++ zeros 8)
          ∧ keepsParts [.jobs, .ctxs, .wt, .image, .ports, .time, .bank0, .bank1] s t))
    ∧ ∀ s : State, s.fwWaits = false → s.drained = true → s.epoch.drainedSent = false → s.epoch.coord = .idle → s.isTimeRoot = false →
      s.epoch.coordinator ≠ s.image.ownFlat → Completes .epochDrainCondition s fun t =>
        t.epoch = { s.epoch with drainedSent := true }
          ∧ s.sends t s.epoch.coordinator (leBytes 2 0x74 ++ zeros 2 ++ leBytes 4 s.epoch.num.toNat
              ++ (leBytes 4 s.epoch.announceFailed ++ zeros 4))
          ∧ keepsParts [.jobs, .ctxs, .wt, .image, .ports, .time, .bank0, .bank1] s t

/-! ## Fabric time -/

/-- TIME_SYNC_PERIOD sends a TIME_SYNC with a fresh SYNC_ID on every usable inter-switch port; TIME_SYNC is answered on
its port with its SYNC_ID, T1 and T2; a LOCKED switch with no valid exchange enters HOLDOVER. None of them moves
fabric time. TIME_SYNC_REPLY from the parent while ACQUIRING: the offset of R253 is slewed out, and the sixteenth
good exchange in a row locks the switch.
Model's choices: log entry 48. -/
def Obligations.FabricTime : Prop :=
  ((∀ s : State, Completes .timeSyncPeriod s fun t =>
      (∀ p ∈ s.syncPorts, ∃ x ∈ t.time.syncs, x.port = p) ∧ t.time.nextSync = s.time.nextSync + BitVec.ofNat 16 s.syncPorts.length
        ∧ t.time.now = s.time.now ∧ t.time.state = s.time.state ∧ keepsParts [.jobs, .ctxs, .wt, .mem, .epoch] s t ∧ sameOuts s t)
      ∧ (∀ (s u : State) (port : Nat) (f : Frame) (t2 : BitVec 80), s.queuedBehind .firmware port f = false → s.idsFresh = true → tailGood f = true → f.h.ftype = 8#4 →
        mgmtKind f = 0x50 → (s.takeFrom .firmware port f).receive port f = (.complete, u) → s.pcsLock port = true →
        s.portsOk = true → port < 256 →
        Completes (.timeSync port f t2) s fun t =>
          (∃ c ∈ t.allCopies, c.dest = .port port ∧ c.own = true ∧ mgmtKind c.out = 0x51
            ∧ sliceB c.out.payload 2 2 = sliceB f.payload 2 2 ∧ leAt c.out.payload 5 1 = s.distance % 256
            ∧ sliceB c.out.payload 16 16 = sliceB f.payload 16 16 ∧ sliceB c.out.payload 32 16 = stampBytes t2)
            ∧ t.time = s.time ∧ keepsParts [.jobs, .ctxs, .wt, .mem, .epoch] s t)
      ∧ ∀ s : State, s.time.state = .locked → Completes .timeHoldoverTimeout s fun t =>
        t.time = { s.time with state := .holdover, slew := 0, good := 0 } ∧ t.flag F.TIME_STATUS_HOLDOVER_SEEN 0 = true
          ∧ (∀ d, d < 4 → t.fld F.REPEAT_STATUS_TIME_UNLOCKED d = 1) ∧ onlyParts [.regs, .time] s t
          ∧ onlyRegs [(.TIME_STATUS, 0), (.REPEAT_STATUS, 0), (.REPEAT_STATUS, 1), (.REPEAT_STATUS, 2), (.REPEAT_STATUS, 3)] s t)
    ∧ (∀ (s u : State) (port : Nat) (f : Frame) (t4 : BitVec 80) (th2 : Int), s.queuedBehind .firmware port f = false → s.portsOk = true → port < 256 → tailGood f = true →
      f.h.ftype = 8#4 → mgmtKind f = 0x51 → (s.takeFrom .firmware port f).receive port f = (.complete, u) →
      s.time.syncs.contains ⟨port, BitVec.ofNat 16 (leAt f.payload 2 2)⟩ = true → s.time.state = .acquiring →
      s.time.parent = some port → (BitVec.ofNat 8 (leAt f.payload 4 1)).getLsbD 0 = true →
      th2 = ((stampAt f.payload 32).toNat : Int) - (stampAt f.payload 16).toNat
        - ((t4.toNat : Int) - (stampAt f.payload 48).toNat)
        - (BitVec.ofNat 32 (s.fld F.LINK_ASYM_ASYM (s.blk port))).toInt →
      Completes (.timeSyncReply port f t4) s fun t =>
        t.time.slew = th2 / 2 ∧ t.time.now = s.time.now ∧ t.time.parentDistance = leAt f.payload 5 1
          ∧ t.time.good = (if -(2 * 2 ^ 16) < th2 ∧ th2 < 2 * 2 ^ 16 then s.time.good + 1 else 0)
          ∧ (t.time.state = .locked ↔ 16 ≤ t.time.good) ∧ (∀ x ∈ t.time.syncs, x.port ≠ port)
          ∧ keepsParts [.jobs, .ctxs, .wt, .mem, .epoch] s t ∧ sameOuts s t)

/-- The commands of fabric time, form by form (R251, R252, R255). TIME_SYNC_PERIOD queues a TIME_SYNC on every usable inter-switch
port, and does nothing without one. A TIME_SYNC whose message has been taken before is only acknowledged; behind an earlier frame for
the firmware it waits. A TIME_SYNC_REPLY ends the exchange on its port and records the neighbour; the time root keeps its state, a
switch that is UNLOCKED or in HOLDOVER and has no other neighbour takes a valid one as its parent, and one with an unknown SYNC_ID
moves no time. TIME_HOLDOVER_TIMEOUT acts on a LOCKED switch alone.
Model's choices: log entry 48. -/
def Obligations.TimeExchangesComplete : Prop :=
  (∀ s : State, s.idsFresh = true → Completes .timeSyncPeriod s fun t =>
      t.time = { s.time with nextSync := t.time.nextSync, syncs := t.time.syncs } ∧ (s.syncPorts = [] → t = s)
        ∧ ∀ p ∈ s.syncPorts, (∃ x ∈ t.time.syncs, x.port = p) ∧ s.queuesOn t p fun g => g.h.ftype = 8#4 ∧ mgmtKind g = 0x50)
    ∧ (∀ (s : State) (port : Nat) (f : Frame) (x : BitVec 80) (c : Instr) (k : Nat),
      (c = .timeSync port f x ∧ k = 0x50) ∨ (c = .timeSyncReply port f x ∧ k = 0x51) →
      (s.queuedBehind .firmware port f = true → Completes c s fun t => t = s)
      ∧ (s.queuedBehind .firmware port f = false → tailGood f = false ∨ f.h.ftype ≠ 8#4 ∨ mgmtKind f ≠ k → Completes c s fun t =>
        t = s.takeFrom .firmware port f)
      ∧ ∀ u, s.queuedBehind .firmware port f = false → tailGood f = true → f.h.ftype = 8#4 → mgmtKind f = k →
        (s.takeFrom .firmware port f).receive port f = (.again, u) → Completes c s fun t =>
          t = u.ack port f.h ∧ t.time = s.time ∧ keepsParts [.jobs, .ctxs, .wt, .mem, .epoch] s t)
    ∧ (∀ (s u : State) (port : Nat) (f : Frame) (t2 : BitVec 80), s.queuedBehind .firmware port f = false → tailGood f = true →
      f.h.ftype = 8#4 → mgmtKind f = 0x50 → (s.takeFrom .firmware port f).receive port f = (.complete, u) → s.idsFresh = true →
      Completes (.timeSync port f t2) s fun t => t.time = s.time
        ∧ (s.pcsLock port = true → u.queuesOn t port fun g => g.h.ftype = 8#4 ∧ mgmtKind g = 0x51
          ∧ sliceB g.payload 2 2 = sliceB f.payload 2 2 ∧ sliceB g.payload 32 16 = stampBytes t2))
    ∧ (∀ (s u : State) (port : Nat) (f : Frame) (t4 : BitVec 80) (th2 : Int), s.queuedBehind .firmware port f = false →
      tailGood f = true → f.h.ftype = 8#4 → mgmtKind f = 0x51 → (s.takeFrom .firmware port f).receive port f = (.complete, u) →
      th2 = theta2 (stampAt f.payload 16) (stampAt f.payload 32) (stampAt f.payload 48) t4
        (BitVec.ofNat 32 (s.fld F.LINK_ASYM_ASYM (s.blk port))) →
      let flags := BitVec.ofNat 8 (leAt f.payload 4 1)
      let known := s.time.syncs.contains ⟨port, BitVec.ofNat 16 (leAt f.payload 2 2)⟩
      (known = false → Completes (.timeSyncReply port f t4) s fun t => t.time = s.time)
      ∧ (known = true → Completes (.timeSyncReply port f t4) s fun t =>
        (∀ x ∈ t.time.syncs, x.port ≠ port) ∧ ⟨port, flags.getLsbD 0, leAt f.payload 5 1⟩ ∈ t.time.neighbours
          ∧ (s.time.state = .root → t.time.now = s.time.now ∧ t.time.state = .root)
          ∧ (s.time.state = .unlocked ∨ s.time.state = .holdover → s.time.neighbours = [] → port ∈ s.syncPorts →
            leAt f.payload 5 1 < 254 → flags.getLsbD 0 = true →
            t.time.state = .acquiring ∧ t.time.parent = some port ∧ t.time.parentDistance = leAt f.payload 5 1 ∧ t.time.good = 0
              ∧ (s.time.state = .unlocked → 2 ≤ th2 → t.time.now = s.time.now + BitVec.ofInt 80 (th2 / 2) ∧ t.time.slew = 0)
              ∧ (s.time.state = .holdover → th2 ≤ 0 → t.time.now = s.time.now ∧ t.time.slew = th2 / 2))))
    ∧ ∀ s : State, Completes .timeHoldoverTimeout s fun t =>
      (s.time.state = .locked → t.time.state = .holdover ∧ t.time.now = s.time.now ∧ t.flag F.TIME_STATUS_HOLDOVER_SEEN 0 = true)
        ∧ (s.time.state ≠ .locked → t = s)

/-! ## Links, cruise and the boot sweep -/

/-- HELLO (R62, R63): the neighbour's versions are recorded; no version in common is NEG_STATE 3; a HELLO that chooses
the version in force is answered; any other is answered in a negotiation of NEG_STATE 1, which ends in 2 once
HELLO_ACK went both ways. HELLO_ACK (R62, R63) of the version computed from the neighbour's HELLO ends the
negotiation once HELLO_ACK was sent; one of another version is discarded. HELLO_TIMER sends HELLO again until both
went.
Model's choices: log entries 13, 47. -/
def Obligations.Negotiation : Prop :=
  (∀ (s : State) (port v : Nat) (f : Frame) (x : LinkExt), s.idsFresh = true → s.portsOk = true → tailGood f = true → s.pcsLock port = true →
      linkOf f = some x → x.op = 1 → (s.crz port).phase ≠ .waiting → v = chooseVer x.minVer.toNat x.maxVer.toNat →
      Completes (.hello port f) s fun t =>
        let st := s.fld F.TFP_PORT_STATUS_NEG_STATE (s.blk port)
        let sel := s.fld F.TFP_PORT_STATUS_SELECTED_VER (s.blk port)
        t.fld F.TFP_PORT_STATUS_PEER_MIN_VER (s.blk port) = x.minVer.toNat
          ∧ t.fld F.TFP_PORT_STATUS_PEER_MAX_VER (s.blk port) = x.maxVer.toNat
          ∧ (v = 0 → t.fld F.TFP_PORT_STATUS_NEG_STATE (s.blk port) = 3
            ∧ t.fld F.TFP_PORT_STATUS_SELECTED_VER (s.blk port) = 0 ∧ t.core = s.core)
          ∧ (v ≠ 0 → s.queuesOn t port fun g => ∃ y, g.ext = .link y ∧ y.op = 2 ∧ y.selectedVer.toNat = v)
          ∧ (v ≠ 0 → st = 2 → v = sel → t.fld F.TFP_PORT_STATUS_NEG_STATE (s.blk port) = 2 ∧ t.negs = s.negs
            ∧ t.fld F.TFP_PORT_STATUS_SELECTED_VER (s.blk port) = sel)
          ∧ (v ≠ 0 → (st ≠ 2 ∨ v ≠ sel) → (t.neg port).ackSent = true
            ∧ t.fld F.TFP_PORT_STATUS_NEG_STATE (s.blk port) = (if st = 1 ∧ (s.neg port).ackGot = true then 2 else 1)
            ∧ (st = 1 ∧ (s.neg port).ackGot = true → t.fld F.TFP_PORT_STATUS_SELECTED_VER (s.blk port) = v))
          ∧ onlyParts [.regs, .negs, .core, .outs] s t ∧ sameOuts s t
          ∧ onlyRegs ((.REFCOUNT_STATUS, dieOf port) :: (.TFP_PORT_STATUS, s.blk port) :: (.THIN_ACTIVE, 2 * dieOf port + localOf port / 32)
              :: (List.range 64).map fun m => (.METRO_EXT, m)) s t)
    ∧ (∀ (s : State) (port : Nat) (f : Frame) (x : LinkExt), s.idsFresh = true → s.portsOk = true → s.pcsLock port = true →
      (s.crz port).phase ≠ .waiting →
      (tailGood f = true → linkOf f = some x → x.op = 2 →
        (x.selectedVer.toNat ≠ s.chosen port → Completes (.helloAck port f) s fun t => t = s)
        ∧ (x.selectedVer.toNat = s.chosen port → s.chosen port ≠ 0 → Completes (.helloAck port f) s fun t =>
          (t.neg port).ackGot = true ∧ (t.neg port).ackSent = (s.neg port).ackSent
            ∧ (s.fld F.TFP_PORT_STATUS_NEG_STATE (s.blk port) = 1 → (s.neg port).ackSent = true →
              t.fld F.TFP_PORT_STATUS_NEG_STATE (s.blk port) = 2
                ∧ t.fld F.TFP_PORT_STATUS_SELECTED_VER (s.blk port) = s.chosen port)
            ∧ (¬(s.fld F.TFP_PORT_STATUS_NEG_STATE (s.blk port) = 1 ∧ (s.neg port).ackSent = true) → t.regs = s.regs)
            ∧ onlyParts [.regs, .negs] s t ∧ onlyRegs [(.TFP_PORT_STATUS, s.blk port)] s t))
      ∧ ((s.neg port).ackSent = true → (s.neg port).ackGot = true → Completes (.helloTimer port) s fun t => t = s)
      ∧ (¬((s.neg port).ackSent = true ∧ (s.neg port).ackGot = true) → Completes (.helloTimer port) s fun t =>
        (s.queuesOn t port fun g => ∃ y, g.ext = .link y ∧ y.op = 1 ∧ y.minVer = 1 ∧ y.maxVer = 2) ∧ onlyParts [.regs, .core, .outs] s t
          ∧ sameOuts s t ∧ onlyRegs [(.REFCOUNT_STATUS, dieOf port)] s t))

/-- CRUISE_ID is answered with CRUISE_REPLY once the negotiation has ended, before which the link carries no MGMT frame (R62, R341). CRUISE_REPLY in the boot sweep records the neighbour, and where no swap comes
into question the first row of R342 that applies is the port's result: any but MATCH quarantines it, and a new quarantine raises
kind 0x1C (R345). -/
def Obligations.CruiseAnswersAndJudges : Prop :=
  ∀ (s u : State) (port : Nat) (f : Frame), s.idsFresh = true → s.portsOk = true → s.queuedBehind .firmware port f = false →
    u = s.takeFrom .firmware port f →
    (isCruise f 0x20 = true → u.pcsLock port = true → u.negOver port = true → Completes (.cruiseId port f) s fun t =>
      (u.queuesOn t port fun g => g.h.ftype = 8#4 ∧ g.payload = s.cruiseBytes port 0x21 (BitVec.ofNat 16 (leAt f.payload 2 2)))
        ∧ onlyParts [.regs, .core, .outs, .ended, .freeCount] s t ∧ sameOuts s t
        ∧ onlyRegsAndPauses [(.REFCOUNT_STATUS, dieOf port)] s t)
    ∧ (isCruise f 0x20 = true → u.negOver port = false → Completes (.cruiseId port f) s fun t => t = u)
    ∧ (isCruise f 0x21 = true → (s.port? port).isSome = true → s.noChange → s.flag F.CRUISE_STATUS_FIRST_DONE 0 = false →
      (s.crz port).phase = .asked → leAt f.payload 2 2 = (s.crz port).sweep.toNat →
      (∀ q, (s.crz q).phase ≠ .answered) → s.swapCandidates port (cruiseReplyOf f.payload) = [] →
      Completes (.cruiseReply port f) s fun t =>
        let r := cruiseReplyOf f.payload
        let c := s.cable port
        let code :=
          if c.role = .unused then 3
          else if s.fld F.TFP_PORT_STATUS_NEG_STATE (s.blk port) = 3 then 6
          else if c.expects r = false ∨ r.role ≠ c.roleCode
              ∨ r.tier ≠ (if c.role = .switch then c.peerTier else 0) then 5
          else if r.role = 1 ∧ r.planTag ≠ s.image.planTag then 7
          else if (c.thin = true ∧ r.caps.getLsbD 1 = false) ∨ (c.metro = true ∧ r.caps.getLsbD 3 = false) then 8
          else if (if c.metro = true then 524288 else 4096) < s.headroomCells port then 9
          else 1
        t.fld F.PORT_PEER_PEER_PORT (s.blk port) = leAt f.payload 10 2 % 2 ^ 8
          ∧ t.fld F.PORT_PEER_PEER_FLAT_ID (s.blk port) = leAt f.payload 4 4 % 2 ^ 24
          ∧ t.fld F.PORT_PEER_FW_PEER_FW_VERSION (s.blk port) = leAt f.payload 16 4
          ∧ t.fld F.PORT_CRUISE_RESULT (s.blk port) = code
          ∧ t.flag F.PORT_CRUISE_FW_DIFFERS (s.blk port) = decide (r.fw ≠ s.image.fwVersion)
          ∧ (t.crz port).phase = .idle
          ∧ (code ≠ 1 → s.fld F.PORT_CRUISE_RESULT (s.blk port) ≤ 1 → t.reports 4 0x07 0x1C
            ∧ t.fld F.CRUISE_EVENTS_QUARANTINES 0
              = satAdd F.CRUISE_EVENTS_QUARANTINES.width (s.fld F.CRUISE_EVENTS_QUARANTINES 0) 1))

/-- CRUISE_RETRY_TIMER in the boot sweep: CRUISE_ID goes out again, at most 3 times; then the port has no reply, which
is MATCH for an unused port and MISSING for any other (R339, R342). SWEEP_NOW and CRUISE_SWEEP_TIMER: nothing while
a sweep runs; else a full sweep begins, of the next number, and every port whose negotiation has ended sends
CRUISE_ID (R339); while the control firmware waits the sweep waits with it (R460).
Model's choices: log entry 111. -/
def Obligations.CruiseRetriesAndSweeps : Prop :=
  (∀ (s : State) (port : Nat), s.idsFresh = true → s.portsOk = true → (s.port? port).isSome = true → s.noChange →
      s.flag F.CRUISE_STATUS_FIRST_DONE 0 = false → (∀ q, (s.crz q).phase ≠ .answered) →
      ((s.crz port).phase = .idle → Completes (.cruiseRetryTimer port) s fun t => t = s)
      ∧ ((s.crz port).phase = .asked → (s.crz port).tries < 3 → s.fwWaits = false → s.pcsLock port = true → s.negOver port = true →
        Completes (.cruiseRetryTimer port) s fun t =>
          (s.queuesOn t port fun g => g.payload = s.cruiseBytes port 0x20 (s.crz port).sweep)
            ∧ t.crz port = { s.crz port with tries := (s.crz port).tries + 1 }
            ∧ onlyParts [.regs, .cruise, .core, .outs, .ended, .freeCount] s t ∧ sameOuts s t
            ∧ onlyRegs [(.REFCOUNT_STATUS, dieOf port)] s t)
      ∧ (s.fwWaits = false → (s.crz port).phase = .waiting ∨ ((s.crz port).phase = .asked ∧ 3 ≤ (s.crz port).tries) →
        Completes (.cruiseRetryTimer port) s fun t =>
          t.fld F.PORT_CRUISE_RESULT (s.blk port) = (if (s.cable port).role = .unused then 1 else 2)
            ∧ (t.crz port).phase = .idle ∧ (t.crz port).reply = none))
    ∧ (∀ (s : State) (c : Instr), c = .sweepNow ∨ c = .cruiseSweepTimer →
      (s.fwWaits = true → Completes c s fun t => t = { s with power := { s.power with sweepWanted := true } })
      ∧ (s.fwWaits = false → s.flag F.CRUISE_STATUS_SWEEP_ACTIVE 0 = true → Completes c s fun t => t = s)
      ∧ (s.fwWaits = false → s.flag F.CRUISE_STATUS_SWEEP_ACTIVE 0 = false → s.idsFresh = true → s.portsOk = true → s.ports ≠ [] → s.noChange →
        s.flag F.CRUISE_STATUS_FIRST_DONE 0 = false → (∀ x ∈ s.ports, s.pcsLock x.num = true
          ∧ (s.fld F.TFP_PORT_STATUS_NEG_STATE (s.blk x.num) = 2 ∨ s.fld F.TFP_PORT_STATUS_NEG_STATE (s.blk x.num) = 3)) →
        Completes c s fun t =>
          t.flag F.CRUISE_STATUS_SWEEP_ACTIVE 0 = true
            ∧ t.fld F.CRUISE_STATUS_SWEEP 0 = (s.fld F.CRUISE_STATUS_SWEEP 0 + 1) % 2 ^ 16
            ∧ (∀ x ∈ s.ports, (t.crz x.num).phase = .asked ∧ (t.crz x.num).tries = 1
              ∧ s.queuesOn t x.num fun g => g.payload = s.cruiseBytes x.num 0x20 (s.sweepNo + 1))
            ∧ onlyRegs ((.CRUISE_STATUS, 0) :: (List.range 4).flatMap fun d => [(.REFCOUNT_STATUS, d), (.ROUTE_DISCARDS, d)]) s t))

/-! ## Samples, saves, fences, memory -/

/-- SAMPLE_SNAPSHOT (R333 to R335): with room in the die's ring the block is written there, PRODUCER moves past it and bit 5 of
HOST_INT_STATUS rises; without room it is dropped and counted, and the next block says so. -/
def Obligations.SamplesAreTaken : Prop :=
  ∀ (s : State) (die : Nat) (x : SampleSt) (blk : List Byte) (r : RingAt), die < 4 →
    s.flag F.SAMPLE_CONTROL_SAMPLE_EN die = true → s.power.dozing.contains die = false →
    x = (s.core.samples.find? fun x => x.die == die).getD ⟨die, 0, false⟩ → blk = s.sampleBlock die x →
    r = telemetryRing die → s.ringWaits r = false →
    let out := if x.overrun = true then blk.modify 9 (· ||| 2#8) else blk
    (s.ringFull r.ref blk = false → Completes (.sampleSnapshot die) s fun t =>
      t.readMem r.ref.base 4 = leBytes 4 ((s.ringProducer r.ref + ringUnits r.ref blk) % (2 * r.ref.entries))
        ∧ (∀ i, i < ringUnits r.ref blk →
          t.readMem (r.data + ((s.ringProducer r.ref + i) % r.ref.entries) * 64) 64 = sliceB out (i * 64) 64)
        ∧ bitOf (t.fld F.HOST_INT_STATUS_STATUS 0) 5 = true
        ∧ (∃ y ∈ t.core.samples, y.die = die ∧ y.seq = x.seq + 1 ∧ y.overrun = false)
        ∧ onlyParts [.regs, .mem, .memory, .core, .host] s t)
    ∧ (s.ringFull r.ref blk = true → s.owned (windowLine (r.ref.base + 64)) = false →
      Completes (.sampleSnapshot die) s fun t =>
        counted F.SAMPLE_EVENTS_SAMPLE_DROPS die 1 s t
          ∧ (∃ y ∈ t.core.samples, y.die = die ∧ y.seq = x.seq + 1 ∧ y.overrun = true)
          ∧ onlyRegs [(.SAMPLE_EVENTS, die)] s t ∧ onlyParts [.regs, .core] s t)

/-- R335: a block for which its die's telemetry ring has no room is dropped and counted, and the next block written says OVERRUN; the
switch core's frames, arbiters, gates and shapers and memory stay as they were. While CONSUMER of the ring is in the companion's
cache the block waits for that line first, and so do blocks behind it (R535, R539). -/
def Obligations.SampleDrops : Prop :=
  ∀ (s : State) (die : Nat) (x : SampleSt) (blk : List Byte) (r : RingAt), die < 4 →
    s.flag F.SAMPLE_CONTROL_SAMPLE_EN die = true → s.power.dozing.contains die = false →
    x = (s.core.samples.find? fun x => x.die == die).getD ⟨die, 0, false⟩ → blk = s.sampleBlock die x →
    r = telemetryRing die → s.ringFull r.ref blk = true →
    (s.ringWaits r = false → s.owned (windowLine (r.ref.base + 64)) = false → Completes (.sampleSnapshot die) s fun t =>
      counted F.SAMPLE_EVENTS_SAMPLE_DROPS die 1 s t ∧ onlyRegs [(.SAMPLE_EVENTS, die)] s t
        ∧ (∀ (u : State) (y : SampleSt), u.core.samples = t.core.samples → u.core.samples.find? (fun x => x.die == die) = some y →
          leAt (u.ringRecord r (u.sampleBlock die y)) 9 1 / 2 % 2 = 1)
        ∧ (∃ y, t.core.samples.find? (fun x => x.die == die) = some y ∧ y.seq = x.seq + 1)
        ∧ t.core = { s.core with samples := t.core.samples } ∧ onlyParts [.regs, .core] s t)
    ∧ (s.ringWaits r = true ∨ s.owned (windowLine (r.ref.base + 64)) = true → Completes (.sampleSnapshot die) s fun t =>
      t.ringQueue = s.ringQueue ++ [(r, blk, 5)] ∧ t.core = { s.core with samples := t.core.samples }
        ∧ onlyParts [.core, .host, .ringQueue] s t)

/-- SAVE_START (R375): refused with 6 where P aborted, with 5 where a context is in use or a barrier has arrivals, with 7 where the
slot does not fit; else the slot is SEALING with the image, which stands in memory too. SAVE_IMAGE_DONE (R376, R439): SEALED under the image's digest, or
refused with 2 where memory failed or the slot is no longer there to be sealed.
Model's choices: log entries 29, 96, 111. -/
def Obligations.SavesStartAndEnd : Prop :=
  ∀ (s : State) (id : BitVec 12) (j : Job) (v : SaveReq), s.job? id = some j → j.save = some v → s.fwWaits = false →
    (v.running = false → j.floor = v.p + 1 →
      let busy := (s.ctxs.any fun x => x.2.job == id) || j.bells.any fun b => b.kind == .barrier && !b.arrived.isEmpty
      let image := saveImage j (s.curBank.fences.any fun f => f.1 == id) v.p v.dataPos
      let place := (s.landing? id).bind fun x => x.openOwn j.cur.plan.gen v.slot image.length v.p s.freeCount
      Completes (.saveStart id) s fun t =>
        ((j.aborted.contains v.p = true ∨ busy = true ∨ place = none) →
          t.fld F.SAVE_STATUS_LAST_CODE 0 = (if j.aborted.contains v.p then 6 else if busy then 5 else 7)
            ∧ t.fld F.SAVE_STATUS_LAST_JOB 0 = id.toNat ∧ (∃ j', t.job? id = some j' ∧ j'.save = none)
            ∧ t.landings = s.landings)
          ∧ (j.aborted.contains v.p = false → busy = false → place.isSome = true →
            (∃ x y, t.landing? id = some x ∧ x.own? v.slot = some y ∧ y.state = .sealing ∧ y.content = image
              ∧ y.dataPos = v.dataPos ∧ t.readMem (x.base + y.base) image.length = image)
              ∧ (∃ j', t.job? id = some j' ∧ j'.save = some { v with running := true } ∧ ∀ r ∈ j'.errs, r.copying = true)
              ∧ onlyParts [.jobs, .landings, .freeCount, .mem, .memory] s t))
    ∧ (v.running = true → (∀ x ∈ s.ctxs, x.2.commitWait = false) → Completes (.saveImageDone id) s fun t =>
      let there := ((s.landing? id).bind fun x => x.own? v.slot).any fun y => y.state == .sealing
      t.fld F.SAVE_STATUS_LAST_CODE 0 = (if v.memBad = true ∨ there = false then 2 else 0) ∧ t.fld F.SAVE_STATUS_LAST_JOB 0 = id.toNat
        ∧ (∃ j', t.job? id = some j' ∧ j'.save = none ∧ ∀ r ∈ j'.errs, r.copying = false)
        ∧ (∀ x y, s.landing? id = some x → x.own? v.slot = some y → y.state = .sealing → ∃ x' y', t.landing? id = some x'
          ∧ x'.own? v.slot = some y' ∧ y'.content = y.content
          ∧ (v.memBad = false → y'.state = .sealed ∧ y'.digest = sha3 y.content) ∧ (v.memBad = true → y'.state = .openS))
        ∧ t.ctxs = s.ctxs ∧ keepsParts controlParts s t)

/-- FENCE_REQUEST_RANK (R360) of a member of a loaded job, not asked before here nor fenced on another switch's request: counted once, remembered, and the item goes to the time
root; a rank no job of FENCE_REQUEST_JOB has is a reserved value. ERROR_MEMORY_ACCESS leaves everything as it is (R186).
Model's choices: log entries 28, 95. -/
def Obligations.FencesByWriteAndErrorMemory : Prop :=
  (∀ (s : State) (rank : BitVec 18) (id : BitVec 12) (j : Job), id = BitVec.ofNat 12 (s.fld F.FENCE_REQUEST_JOB_JOB 0) →
    s.job? id = some j → rank.toNat < j.cur.plan.members.length → s.isTimeRoot = false → s.noChange →
    s.ringWaits j.jrings.eventsAt = false →
    Completes (.fenceRequestRank rank) s fun t =>
      (j.fenceReqs.contains rank.toNat = true ∨ s.newest.1.fenced id rank.toNat = true → t = s)
        ∧ (j.fenceReqs.contains rank.toNat = false → s.newest.1.fenced id rank.toNat = false →
          t.fld F.SURVIVAL_EVENTS_FENCE_REQUESTS 0
              = satAdd F.SURVIVAL_EVENTS_FENCE_REQUESTS.width (s.fld F.SURVIVAL_EVENTS_FENCE_REQUESTS 0) 1
            ∧ (∃ j', t.job? id = some j' ∧ j'.fenceReqs = j.fenceReqs ++ [rank.toNat])
            ∧ s.sends t s.timeRoot (leBytes 2 0x70 ++ zeros 2 ++ leBytes 4 s.epoch.num.toNat
                ++ itemBytes [itemFence id rank.toNat])
            ∧ t.ctxs = s.ctxs ∧ keepsParts controlParts s t))
    ∧ (∀ (s : State) (rank : BitVec 18), s.job? (BitVec.ofNat 12 (s.fld F.FENCE_REQUEST_JOB_JOB 0)) = none →
      Completes (.fenceRequestRank rank) s fun t => t.reports 4 0x09 0x04 ∧ onlyParts [.regs, .wt] s t)
    ∧ ∀ (s : State) (id : BitVec 12) (b : Nat), Completes (.errorMemoryAccess id b) s fun t => t = s

/-- LPDDR_ACCESS (R424 to R426): a write of the whole line stores its 64 bytes and nothing else, a masked write of a sound line only
its enabled bytes, a group write the 15 lines of the group; a read of a sound line changes nothing but the cache of check lines, to whose front every access brings its
group's (R427), and the count of delays (R398), of a corrected one is counted
and reported (kind 0x40), of an uncorrectable one is reported (0x41, or 0x43 where the line is poisoned) with its address.
Model's choices: log entries 8, 45, 66. -/
def Obligations.MemoryAccesses : Prop :=
  ∀ (s : State) (a : MemAccess) (line : Nat) (p : Machine.Place), line = a.ma / 64 → p = memPlace (line * 64) → a.ma < memBytes →
    s.stackReady p.stack = true → s.memory.tagBad.contains (p.stack, p.channel, p.group) = false →
    tagErrors p a.checkErr = 0 →
    let ok := rsDecode 4 (s.codeword line p.pos a.err a.checkErr) = .clean
    let cached (t : State) (w : Bool) : Prop := ∃ d xs, t.memory.checkCache = (p.stack, p.channel, p.group, d) :: xs
      ∧ (w = true → d = true) ∧ (a.delayed = false → t.fld F.REPEAT_STATUS_REFRESH_DELAYS (p.stack / 5)
        = s.fld F.REPEAT_STATUS_REFRESH_DELAYS (p.stack / 5))
    let keeps (t : State) : Prop := ∀ x, x / 64 ≠ line → t.readMem x 1 = s.readMem x 1
    (a.what = .read → ok → Completes (.lpddrAccess a) s fun t => cached t false
      ∧ t = { s with regs := t.regs, memory := { s.memory with checkCache := t.memory.checkCache } }
      ∧ (a.delayed = false → t.regs = s.regs) ∧ onlyRegs [(.REPEAT_STATUS, p.stack / 5)] s t
      ∧ (a.delayed = true → s.partOf a.ma = 0 → counted F.REPEAT_STATUS_REFRESH_DELAYS (p.stack / 5) 1 s t))
    ∧ (∀ bs, a.what = .read → rsDecode 4 (s.codeword line p.pos a.err a.checkErr) = .corrected bs →
      Completes (.lpddrAccess a) s fun t => t.reports (p.stack / 5) 0x15 0x40 ∧ onlyParts [.regs, .memory, .wt] s t ∧ cached t false
        ∧ t.fld F.MEM_ERRORS_CORRECTED p.stack
          = satAdd F.MEM_ERRORS_CORRECTED.width (s.fld F.MEM_ERRORS_CORRECTED p.stack) 1)
    ∧ (a.what = .read → rsDecode 4 (s.codeword line p.pos a.err a.checkErr) = .uncorrectable → s.partOf (line * 64) = 3 →
      Completes (.lpddrAccess a) s fun t =>
        t.reports (p.stack / 5) 0x15 (if s.memory.poisoned.contains line then 0x43 else 0x41)
          ∧ t.reg .MEM_ERR_ADDR_LOW p.stack = line * 64 % 2 ^ 32 ∧ onlyParts [.regs, .memory, .wt] s t
          ∧ t.fld F.MEM_ERRORS_UNCORRECTABLE p.stack
            = satAdd F.MEM_ERRORS_UNCORRECTABLE.width (s.fld F.MEM_ERRORS_UNCORRECTABLE p.stack) 1)
    ∧ (∀ en data, a.what = .write en data → en = BitVec.allOnes 64 → Completes (.lpddrAccess a) s fun t =>
      t.readMem (line * 64) 64 = data.toList ∧ keeps t ∧ t.memory.poisoned.contains line = false
        ∧ cached t true
        ∧ onlyParts [.regs, .mem, .memory] s t ∧ onlyRegs [(.REPEAT_STATUS, p.stack / 5)] s t)
    ∧ (∀ en data, a.what = .write en data → en ≠ BitVec.allOnes 64 → ok → s.memory.poisoned.contains line = false →
      Completes (.lpddrAccess a) s fun t =>
        t.readMem (line * 64) 64 = mergeBytes en data.toList (s.readMem (line * 64) 64) ∧ keeps t
          ∧ cached t true
        ∧ onlyParts [.regs, .mem, .memory] s t ∧ onlyRegs [(.REPEAT_STATUS, p.stack / 5)] s t)
    ∧ (∀ data, a.what = .writeGroup data → data.length = 960 → Completes (.lpddrAccess a) s fun t =>
      (∀ i, i < 15 → t.readMem (nth (groupLines p) i 0 * 64) 64 = sliceB data (i * 64) 64)
        ∧ (∀ x, x / 64 ∉ groupLines p → t.readMem x 1 = s.readMem x 1) ∧ cached t true
        ∧ onlyParts [.regs, .mem, .memory] s t ∧ onlyRegs [(.REPEAT_STATUS, p.stack / 5)] s t)

/-- SCRUB_LINE of a sound line counts it, and the pass with the last line of it; an uncorrectable line is poisoned (R435).
MR4_READING sets MAX_TEMP and, above 105 °C, THERMAL with kind 0x45 (R434). STACK_TRAINING_DONE: READY, or FAILED with kind 0x44
(R437). MEM_ERR_ADDR_LOW_READ latches the high part with the low one (R561).
Model's choices: log entry 66. -/
def Obligations.MemoryPatrolAndTraining : Prop :=
  (∀ (s : State) (stack channel line : Nat) (err chk : List (Nat × Byte)) (p : Machine.Place), stack < 20 → channel < 32 →
    line < 3145728 * 16 → s.stackReady stack = true → p = ⟨stack, channel, line / 16, line % 16⟩ → p.pos ≠ 15 → s.memory.tagBad.contains (stack, channel, p.group) = false → tagErrors p chk = 0 →
    let n := ((s.memory.scrubbed.find? fun x => x.1 == stack).map (·.2)).getD 0 + 1
    (rsDecode 4 (s.codeword p.usable p.pos err chk) = .clean → Completes (.scrubLine stack channel line err chk) s fun t =>
      t.fld F.MEM_STATUS_SCRUB_PASSES stack = (s.fld F.MEM_STATUS_SCRUB_PASSES stack + b2n (decide (scrubTotal ≤ n)))
          % 2 ^ F.MEM_STATUS_SCRUB_PASSES.width
        ∧ (n < scrubTotal → (t.memory.scrubbed.find? fun x => x.1 == stack) = some (stack, n) ∧ t.regs = s.regs)
        ∧ t.memory.poisoned = s.memory.poisoned ∧ onlyParts [.regs, .memory] s t ∧ onlyRegs [(.MEM_STATUS, stack)] s t)
    ∧ (rsDecode 4 (s.codeword p.usable p.pos err chk) = .uncorrectable → s.partOf (p.usable * 64) = 3 →
      Completes (.scrubLine stack channel line err chk) s fun t => t.memory.poisoned.contains p.usable = true
        ∧ t.reports (stack / 5) 0x15 (if s.memory.poisoned.contains p.usable then 0x43 else 0x41)
        ∧ onlyParts [.regs, .memory, .wt] s t))
    ∧ (∀ (s : State) (stack rate : Nat) (temp : BitVec 8), stack < 20 → s.stackReady stack = true →
      Completes (.mr4Reading stack temp rate) s fun t =>
        t.fld F.MEM_STATUS_MAX_TEMP stack = temp.toNat ∧ (stack, rate) ∈ t.memory.refresh
          ∧ (105 < temp.toInt → t.flag F.MEM_STATUS_THERMAL stack = true ∧ t.reports (stack / 5) 0x15 0x45)
          ∧ (temp.toInt ≤ 105 → t.wt = s.wt ∧ t.flag F.MEM_STATUS_THERMAL stack = s.flag F.MEM_STATUS_THERMAL stack)
          ∧ onlyParts [.regs, .memory, .wt] s t)
    ∧ (∀ (s : State) (stack : Nat) (ok : Bool), stack < 20 →
      s.fld F.MEM_STATUS_STATE stack = 1 ∨ s.fld F.MEM_STATUS_STATE stack = 2 →
      (ok = true → (s.setFld F.MEM_STATUS_STATE stack 3).windowReady = false →
        Completes (.stackTrainingDone stack ok) s fun t =>
          fieldSet F.MEM_STATUS_STATE stack 3 s t ∧ onlyRegs [(.MEM_STATUS, stack)] s t ∧ onlyParts [.regs] s t)
      ∧ (ok = false → Completes (.stackTrainingDone stack ok) s fun t =>
        t.fld F.MEM_STATUS_STATE stack = 5 ∧ t.reports (stack / 5) 0x15 0x44 ∧ onlyParts [.regs, .wt] s t))
    ∧ ∀ (s : State) (stack : Nat), stack < 20 → s.power.dies.contains (stack / 5) = true →
      s.power.dozing.contains (stack / 5) = false → Completes (.memErrAddrLowRead stack) s fun t =>
        t.reg .MEM_ERR_ADDR_HIGH stack = (((s.memory.addrHigh.find? fun x => x.1 == stack).map (·.2.toNat)).getD 0)
          ∧ onlyRegs [(.MEM_ERR_ADDR_HIGH, stack)] s t ∧ onlyParts [.regs] s t

/-! ## The watchtower -/

/-- FAULT_MESSAGE_ACCEPT (R446 to R451): the source's earliest message is taken; it merges into the entries of its source, kind and
class, or enters at the end, or, with 1,008 entries held, is lost and OVERFLOW counts it. A fatal-to-device one enters before the
first entry that yields to it, and HALT forces every port down.
Model's choices: log entry 35. -/
def Obligations.FaultsAreAccepted : Prop :=
  ∀ (s : State) (src : BitVec 19) (m : FaultMsg), s.wtRuns = true → (s.wt.held.find? fun m => m.source == src) = some m →
    let merges := s.wt.queue.any fun e => e.msg.same m
    (m.cls ≠ 3 → Completes (.faultMessageAccept src) s fun t =>
      t.wt.held = dropHeld src s.wt.held ∧ bitOf (t.fld F.WT_STATUS_CLASS_SEEN 0) m.cls.toNat = true
        ∧ onlyParts [.regs, .wt] s t
        ∧ (merges = true → t.wt.queue = s.wt.queue.map fun e => if e.msg.same m then e.merge m else e)
        ∧ (merges = false → s.wt.queue.length < 1008 → ∃ e, t.wt.queue = s.wt.queue ++ [e] ∧ e.msg = m
          ∧ e.state = .pending ∧ e.seq = s.wt.nextSeq ∧ e.rep = m.localRepeats.setWidth 16 ∧ t.wt.ring = s.wt.ring)
        ∧ (merges = false → 1008 ≤ s.wt.queue.length → t.wt.queue = s.wt.queue ∧ t.flag F.WT_STATUS_OVERFLOW 0 = true
          ∧ t.fld F.WT_COUNTS_OVERFLOW_COUNT 0
            = satAdd F.WT_COUNTS_OVERFLOW_COUNT.width (s.fld F.WT_COUNTS_OVERFLOW_COUNT 0) 1))
    ∧ (m.cls = 3 → m.forced = false → merges = false → s.wt.queue.length < 1024 → s.portsDark → s.portsOk = true →
      s.power.change = none → Completes (.faultMessageAccept src) s fun t =>
        t.wt.held = dropHeld src s.wt.held ∧ t.flag F.WT_STATUS_HALTED 0 = true
          ∧ (∃ e, t.wt.queue = s.wt.queue.takeWhile (fun x => !x.yields) ++ e :: s.wt.queue.dropWhile (fun x => !x.yields)
            ∧ e.msg = m ∧ e.state = .pending ∧ e.seq = s.wt.nextSeq)
          ∧ (∀ c ∈ s.ports, t.flag F.PORT_LINK_CONTROL_FORCE_DOWN c.lane0 = true ∧ t.fld F.PORT_LINK_LINK_STATE c.lane0 = 0)
          ∧ onlyParts [.regs, .wt, .power] s t)

/-- REACTION_HANDLE (R451, R452): the first PENDING entry goes to HANDLING with the ACTIONS of that moment, and they are carried out:
LOG appends its record, INTERRUPT sets IRQ_PENDING, FENCE_PORT forces the port's quarantine, ABORT_STEP of a job not here is counted
as skipped. ENTRY_REACTED and RETIRE (R454) move entries on.
Model's choices: log entry 36. -/
def Obligations.ReactionsRun : Prop :=
  (∀ (s : State) (e : WtEntry) (v : Nat), s.wtRuns = true → s.portsOk = true →
    (s.wt.queue.any fun e => e.state == .handling) = false → (s.wt.queue.find? fun e => e.state == .pending) = some e →
    v = s.actionsOf e → bitOf v 4 = false →
    (bitOf v 3 = true → s.job? (BitVec.ofNat 12 (e.msg.address.toNat / 2 ^ 32)) = none) →
    Completes .reactionHandle s fun t =>
      (∃ y ∈ t.wt.queue, y.seq = e.seq ∧ y.msg = e.msg ∧ y.state = .handling ∧ y.actions = BitVec.ofNat 8 v)
        ∧ (∀ y ∈ s.wt.queue, y.seq ≠ e.seq → y ∈ t.wt.queue) ∧ t.wt.queue.length = s.wt.queue.length
        ∧ (bitOf v 0 = true → (∃ y, t.wt.ring.getLast? = some y ∧ y.seq = e.seq ∧ y.msg = e.msg ∧ y.state = .handling)
          ∧ t.reg .FR_WRITE_SEQ 0 = e.seq.toNat)
        ∧ (bitOf v 0 = false → t.wt.ring = s.wt.ring)
        ∧ (bitOf v 1 = true → t.flag F.WT_STATUS_IRQ_PENDING 0 = true ∧ bitOf (t.fld F.HOST_INT_STATUS_STATUS 0) 0 = true)
        ∧ (bitOf v 1 = false → t.flag F.WT_STATUS_IRQ_PENDING 0 = s.flag F.WT_STATUS_IRQ_PENDING 0)
        ∧ (∀ c, bitOf v 2 = true → s.port? (bitsOf e.msg.address.toNat 7 0) = some c →
          t.flag F.PORT_CRUISE_FORCE c.lane0 = true)
        ∧ (bitOf v 3 = true → t.fld F.WT_COUNTS_ABORT_SKIPPED 0
          = satAdd F.WT_COUNTS_ABORT_SKIPPED.width (s.fld F.WT_COUNTS_ABORT_SKIPPED 0) 1)
        ∧ t.wt.held = s.wt.held ∧ onlyParts [.regs, .wt, .host, .time] s t)
    ∧ (∀ s : State, s.wtRuns = true → Completes .entryReacted s fun t =>
      t.wt.queue = s.wt.queue.map (fun e => if e.state = .handling then { e with state := .reacted } else e)
        ∧ t.wt.held = s.wt.held ∧ t.wt.ring = s.wt.ring ∧ onlyParts [.wt] s t)
    ∧ ∀ (s : State) (n : BitVec 11), s.wtRuns = true → Completes (.retire n) s fun t =>
      t.wt.queue = s.wt.queue.drop (min n.toNat s.reactedLead) ∧ t.wt.held = s.wt.held
        ∧ ((∀ e ∈ s.wt.queue, e.loggedRepeat = none ∨ e.loggedRepeat = some e.rep) → t = { s with wt := t.wt })
        ∧ onlyParts [.regs, .wt] s t

/-- FAULT_BIT_CLEAR (R455): exactly the W1C bits written as 1 clear, in a register none of whose bits has a cause that persists; a
KIND_PENDING bit whose cause persists stays 1, and its source raises it again. FORCE_GO (R456): the message named is raised, marked
FORCED; a source or kind that does not exist is a reserved value, and a reserved KIND stays unwritten (R10). REACTION_WRITE (R453):
an allowed value is written, another is reserved. The die that reports a reserved write is the model's choice.
Model's choices: log entries 37, 38, 95. -/
def Obligations.FaultBitsAndForces : Prop :=
  (∀ (s : State) (addr mask : Word) (n : RegName) (i : Nat), regAt addr.toNat = some (n, i) →
    ((n ∉ [.WT_STATUS, .HOST_INT_STATUS, .BRIDGE_STATUS, .CLOCK_STATUS, .REPEAT_STATUS, .KIND_PENDING]
        ∨ (n = .KIND_PENDING ∧ ∀ m ∈ s.wt.causes ++ s.wt.forcedHold, m.kind.toNat / 32 ≠ i)) →
      Completes (.faultBitClear addr mask) s fun t =>
        (∀ b, bitOf (t.reg n i) b = (bitOf (s.reg n i) b && !(bitOf mask.toNat b && bitOf (w1cMask n) b)))
          ∧ onlyRegs [(n, i)] s t ∧ onlyParts [.regs] s t)
    ∧ (∀ m ∈ s.wt.causes, n = .KIND_PENDING → m.kind.toNat / 32 = i → bitOf (s.reg n i) (m.kind.toNat % 32) = true →
      bitOf mask.toNat (m.kind.toNat % 32) = true → Completes (.faultBitClear addr mask) s fun t =>
        bitOf (t.reg n i) (m.kind.toNat % 32) = true ∧ t.reports m.die.toNat m.block.toNat m.kind.toNat
          ∧ onlyParts [.regs, .wt] s t))
    ∧ (∀ (s : State) (w : Word) (src kind : Nat), src = s.fld F.FORCE_SOURCE_SOURCE 0 → kind = bitsOf w.toNat 7 0 →
      ((sourceExists src = false ∨ (kindRow kind).isNone = true) →
        Completes (.forceGo w) s fun t => t.reports 4 0x09 0x04 ∧ onlyParts [.regs, .wt] s t
          ∧ t.fld F.FORCE_KIND 0 = (if (kindRow kind).isNone = true then s.fld F.FORCE_KIND 0 else kind))
      ∧ (sourceExists src = true → (kindRow kind).isSome = true →
        (∀ m ∈ s.wt.held, m.source ≠ (forcedMsg src kind (bitsOf w.toNat 9 8)).source) →
        Completes (.forceGo w) s fun t =>
          t.wt.held = s.wt.held ++ [forcedMsg src kind (bitsOf w.toNat 9 8)]
            ∧ t.wt.forcedHold = (if bitOf w.toNat 30 then s.wt.forcedHold else [])
              ++ (if bitOf w.toNat 30 && isCondition kind then [forcedMsg src kind (bitsOf w.toNat 9 8)] else [])
            ∧ t.wt.queue = s.wt.queue ∧ onlyParts [.regs, .wt] s t))
    ∧ ∀ (s : State) (kind value : BitVec 8),
      (actionsOk kind.toNat (value.toNat % 32) = true → Completes (.reactionWrite kind value) s fun t =>
        t.fld F.REACTION_ACTIONS kind.toNat = value.toNat % 32 ∧ onlyRegs [(.REACTION, kind.toNat)] s t
          ∧ onlyParts [.regs] s t)
      ∧ (actionsOk kind.toNat (value.toNat % 32) = false → Completes (.reactionWrite kind value) s fun t =>
        t.fld F.REACTION_ACTIONS kind.toNat = s.fld F.REACTION_ACTIONS kind.toNat ∧ t.reports 4 0x09 0x04)

/-- The watchdog and the firmware (R459, R460, R463, R511): SERVICE with its value counts; an expiry without one since the last is
fatal to the device, and resets the management core, as an uncorrectable error of the core's memory does; the reload runs an image
that verifies, and with it the work that waited for the firmware, and reports one that does not; a copy of the flight recorder takes the oldest records that wait.
Model's choices: log entries 41, 111. -/
def Obligations.WatchdogAndFirmware : Prop :=
  (∀ (s : State) (v : BitVec 16), Completes (.watchdogService v) s fun t =>
    (v = 0xA5C3 → t.power.serviced = true ∧ onlyParts [.power] s t) ∧ (v ≠ 0xA5C3 → t = s))
    ∧ (∀ s : State, s.wtRuns = true → Completes .watchdogExpiry s fun t =>
      (∃ m ∈ t.wt.held, m.die = 4 ∧ m.block = 2 ∧ m.kind = 1 ∧ (s.power.serviced = false → m.cls = 3))
        ∧ t.power.fw = false ∧ t.power.serviced = false ∧ t.reg .ISLAND_CLOCK 0 = 0 ∧ onlyParts [.regs, .wt, .power] s t)
    ∧ (∀ (s : State) (a : Word), s.wtRuns = true → Completes (.coreEccUncorrectable a) s fun t =>
      t.reports 4 1 3 ∧ t.power.fw = false ∧ t.reg .ISLAND_CLOCK 0 = 0 ∧ onlyParts [.regs, .wt, .power] s t)
    ∧ (∀ (s : State) (slot : Nat), s.boot.started = some slot → s.power.fw = false → s.railsGood = true →
      (s.reloadOk (s.slotImage slot) = true → Completes .firmwareReload s fun t =>
        t.power.fw = true ∧ t.power.core = true
          ∧ (s.power.sweepWanted = false → s.noChange → s.flag F.CRUISE_STATUS_FIRST_DONE 0 = false → onlyParts [.power] s t))
      ∧ (s.reloadOk (s.slotImage slot) = false → Completes .firmwareReload s fun t =>
        t.power.fw = false ∧ t.reportsFrom Config.bootSource 0x64 ∧ onlyParts [.regs, .wt, .power] s t))
    ∧ ∀ (s : State) (es : List WtEntry) (e : WtEntry), s.power.fw = true → s.booted = true → s.wt.waiting ≠ 0 → s.upd.ops = [] →
      es = (s.wt.ring.drop (s.wt.ring.length - s.wt.waiting)).take 128 → es.getLast? = some e →
      Completes .flightRecorderCopy s fun t =>
        t.wt.copied = e.seq ∧ t.reg .FR_COPY_SEQ 0 = e.seq.toNat ∧ t.wt.waiting = s.wt.waiting - es.length
          ∧ t.wt.ring = s.wt.ring ∧ t.wt.queue = s.wt.queue ∧ onlyParts [.regs, .wt, .flash, .freeCount] s t

/-! ## Clocks, bridges, lanes -/

/-- PLLs and multiplexers (R465, R466, R468, R474): an enable or a disable, the refusal to turn off a PLL in use, a switch, which
needs the lock, its end, its timeout (kind 0x0A); a stack leaves self-refresh when its PLL locks.
Model's choices: log entries 38, 43. -/
def Obligations.ClocksSwitch : Prop :=
  ∀ (s : State) (i : Nat), i < 57 → s.clockRuns = true →
    (Completes (.pllEnWrite i true) s fun t => fieldSet F.ISLAND_CLOCK_PLL_EN i 1 s t ∧ onlyParts [.regs] s t)
    ∧ (s.flag F.ISLAND_CLOCK_SELECT i = true → Completes (.pllEnWrite i false) s fun t =>
      t.reg .ISLAND_CLOCK i = s.reg .ISLAND_CLOCK i ∧ t.reports 4 0x09 0x04 ∧ onlyParts [.regs, .wt] s t)
    ∧ (s.flag F.ISLAND_CLOCK_SELECT i = false → Completes (.pllEnWrite i false) s fun t =>
      t.flag F.ISLAND_CLOCK_PLL_EN i = false ∧ t.flag F.ISLAND_CLOCK_PLL_LOCK i = false
        ∧ t.flag F.ISLAND_CLOCK_COASTING i = false ∧ onlyRegs [(.ISLAND_CLOCK, i)] s t ∧ onlyParts [.regs] s t)
    ∧ (s.flag F.ISLAND_CLOCK_PLL_LOCK i = false → Completes (.selectWrite i true) s fun t =>
      t.reg .ISLAND_CLOCK i = s.reg .ISLAND_CLOCK i ∧ t.reports 4 0x09 0x04 ∧ onlyParts [.regs, .wt] s t)
    ∧ (∀ v, v = false ∨ s.flag F.ISLAND_CLOCK_PLL_LOCK i = true → Completes (.selectWrite i v) s fun t =>
      t.flag F.ISLAND_CLOCK_SELECT i = v ∧ t.flag F.ISLAND_CLOCK_SWITCH_DONE i = false
        ∧ t.flag F.ISLAND_CLOCK_PLL_EN i = s.flag F.ISLAND_CLOCK_PLL_EN i ∧ onlyRegs [(.ISLAND_CLOCK, i)] s t
        ∧ onlyParts [.regs] s t)
    ∧ (s.flag F.ISLAND_CLOCK_PLL_EN i = true → s.flag F.CLOCK_STATUS_REF_OK 0 = true →
      Completes (.pllLockAcquired i) s fun t =>
        t.flag F.ISLAND_CLOCK_PLL_LOCK i = true ∧ t.flag F.ISLAND_CLOCK_COASTING i = false
          ∧ (5 ≤ i → i < 25 → s.power.dozing.contains ((i - 5) / 5) = false → s.fld F.MEM_STATUS_STATE (i - 5) = 4 →
            t.fld F.MEM_STATUS_STATE (i - 5) = 3)
          ∧ onlyRegs [(.ISLAND_CLOCK, i), (.MEM_STATUS, i - 5)] s t ∧ onlyParts [.regs, .core] s t)
    ∧ (s.flag F.ISLAND_CLOCK_MUX_TIMEOUT i = false → Completes (.muxSwitchDone i) s fun t =>
      fieldSet F.ISLAND_CLOCK_SWITCH_DONE i 1 s t ∧ onlyParts [.regs] s t)
    ∧ (s.flag F.ISLAND_CLOCK_SWITCH_DONE i = false → Completes (.muxTimeout i) s fun t =>
      fieldSet F.ISLAND_CLOCK_MUX_TIMEOUT i 1 s t ∧ t.reports (islandDie i) 0x03 0x0A ∧ onlyParts [.regs, .wt] s t)

/-- The reference, the boot oscillator, clock enables, temperature (R463, R470, R472 to R476): a lost lock or reference opens the
loops, puts ready stacks into self-refresh and raises kind 0x08; REF_OK ends it; a stopped boot oscillator resets the control die and
leaves the fabric alone; a block's enable falls when it is idle; LEVEL follows HOT_TEMP.
Model's choices: log entries 38, 42. -/
def Obligations.ClocksFail : Prop :=
  (∀ (s : State) (i : Nat), i < 57 → s.clockRuns = true → s.portsDark → s.flag F.CLOCK_STATUS_REF_OK 0 = true →
    s.flag F.ISLAND_CLOCK_PLL_LOCK i = true → s.flag F.ISLAND_CLOCK_PLL_EN i = true →
    (∀ m ∈ s.wt.causes, m.kind ≠ 8) → Completes (.pllLockLost i) s fun t =>
      t.flag F.ISLAND_CLOCK_PLL_LOCK i = false ∧ t.flag F.ISLAND_CLOCK_COASTING i = true
        ∧ t.reports (islandDie i) 0x03 0x08 ∧ (∀ k, k < 20 → s.fld F.MEM_STATUS_STATE k = 3 → t.fld F.MEM_STATUS_STATE k = 4)
        ∧ onlyParts [.regs, .wt] s t)
    ∧ (∀ (s : State) (c : BitVec 20), s.clockRuns = true →
      (countOk c.toNat = true → Completes (.refLost (some c)) s fun t =>
        fieldSet F.CLOCK_STATUS_REF_COUNT 0 c.toNat s t ∧ onlyParts [.regs, .power] s t)
      ∧ (countOk c.toNat = true → Completes (.refOk c) s fun t =>
        t.fld F.CLOCK_STATUS_REF_COUNT 0 = c.toNat ∧ t.flag F.CLOCK_STATUS_REF_OK 0 = true ∧ t.time.refGone = false
          ∧ t.power.refEdges = true ∧ (∀ m ∈ t.wt.causes, m.kind ≠ 8) ∧ t.wt.held = s.wt.held
          ∧ onlyRegs [(.CLOCK_STATUS, 0)] s t ∧ onlyParts [.regs, .wt, .time, .power] s t)
      ∧ (s.portsDark → (∀ m ∈ s.wt.causes, m.kind ≠ 8) → Completes (.refLost none) s fun t =>
        t.flag F.CLOCK_STATUS_REF_LOST 0 = true ∧ t.flag F.CLOCK_STATUS_REF_OK 0 = false ∧ t.time.refGone = true
          ∧ t.power.refEdges = false ∧ t.reports 4 0x03 0x08
          ∧ (∀ i, i < 57 → s.flag F.ISLAND_CLOCK_PLL_EN i = true →
            t.flag F.ISLAND_CLOCK_PLL_LOCK i = false ∧ t.flag F.ISLAND_CLOCK_COASTING i = true)
          ∧ (∀ k, k < 20 → s.fld F.MEM_STATUS_STATE k = 3 → t.fld F.MEM_STATUS_STATE k = 4)
          ∧ onlyParts [.regs, .wt, .time, .power] s t))
    ∧ (∀ s : State, s.clockRuns = true → Completes .bootOscStopped s fun t =>
      t.power.core = false ∧ t.power.fw = false ∧ t.wt.queue = [] ∧ t.host = HostSt.down
        ∧ t.flag F.WT_STATUS_HALTED 0 = s.flag F.WT_STATUS_HALTED 0 ∧ (∀ w, w < 16 → t.reg .MEAS_DIGEST w = 0)
        ∧ onlyParts [.regs, .arrays, .wt, .host, .signQueue, .upd, .ringQueue, .boot, .power] s t
        ∧ ∀ d, d < 4 → t.reg .BRIDGE_STATUS d = s.reg .BRIDGE_STATUS d)
    ∧ (∀ (s : State) (w : Word), s.clockRuns = true → Completes (.clockGateWrite w) s fun t =>
      (∀ b, b < 5 →
        (w.getLsbD b = true → t.flag (gateFld b) 0 = true ∧ t.flag (gatePend b) 0 = false)
        ∧ (w.getLsbD b = false → s.blockIdle b = true → t.flag (gateFld b) 0 = false ∧ t.flag (gatePend b) 0 = false)
        ∧ (w.getLsbD b = false → s.blockIdle b = false → s.flag (gateFld b) 0 = true →
          t.flag (gateFld b) 0 = true ∧ t.flag (gatePend b) 0 = true))
        ∧ onlyRegs [(.CLOCK_GATE_CD, 0)] s t ∧ onlyParts [.regs] s t)
    ∧ (∀ (s : State) (b : Nat), b < 5 → s.flag (gatePend b) 0 = true → Completes (.blockGated b) s fun t =>
      t.flag (gateFld b) 0 = false ∧ t.flag (gatePend b) 0 = false ∧ onlyRegs [(.CLOCK_GATE_CD, 0)] s t
        ∧ onlyParts [.regs] s t)
    ∧ ∀ (s : State) (d : Nat) (temp : BitVec 8), s.power.dies.contains d = true → d < 4 →
      (∀ m ∈ s.wt.causes, m.kind ≠ 9) → Completes (.thermalReading d temp) s fun t =>
        let lv := nextLevel (s.fld F.THERMAL_CONTROL_LEVEL d) (s.hotTemp d temp) (s.throttleTemp d)
        t.fld F.THERMAL_CONTROL_LEVEL d = lv ∧ t.fld F.THERMAL_CONTROL_HOT_TEMP d = ofSigned 8 (s.hotTemp d temp)
          ∧ (lv ≠ 0 → t.flag F.REPEAT_STATUS_THROTTLED d = true ∧ t.reports d 0x03 0x09) ∧ (lv = 0 → t.wt.held = s.wt.held)
          ∧ onlyRegs [(.THERMAL_CONTROL, d), (.REPEAT_STATUS, d), (.KIND_PENDING, 0)] s t ∧ onlyParts [.regs, .wt] s t

/-- Bridges and domain resets (R18, R19, R444, R469, R553): a bridge that fails takes BRIDGE_UP away at both ends and stops
forwarding, kind 0x11; one that may train comes up; DOMAIN_RESET of an island resets its die or chiplet, a die then taking the routing registers
that every die holds alike from another one, and one without the key, or
of island 0, does nothing.
Model's choices: log entries 27, 39, 40. -/
def Obligations.BridgesAndDomainResets : Prop :=
  (∀ (s : State) (d p : Nat), d < 4 → p < 4 → p ≠ d → s.power.dies.contains d = true →
    ((∀ m ∈ s.wt.causes, m.kind ≠ 0x11) → Completes (.bridgeFatal d p) s fun t =>
      bitOf (t.fld F.BRIDGE_STATUS_BRIDGE_UP d) p = false ∧ bitOf (t.fld F.BRIDGE_STATUS_BRIDGE_UP p) d = false
        ∧ bitOf (t.fld F.BRIDGE_STATUS_BRIDGE_FAULT d) p = true ∧ t.core.forwarding = false
        ∧ t.power.deadBridges.contains (bridgeKey d p) = true ∧ t.reports d 0x16 0x11
        ∧ onlyParts [.regs, .wt, .core, .power] s t)
    ∧ (s.power.deadBridges.contains (bridgeKey d p) = true → Completes (.bridgeTrained d p) s fun t => t = s)
    ∧ (s.power.deadBridges.contains (bridgeKey d p) = false → s.power.dies.contains p = true →
      Completes (.bridgeTrained d p) s fun t =>
        bitOf (t.fld F.BRIDGE_STATUS_BRIDGE_UP d) p = true ∧ bitOf (t.fld F.BRIDGE_STATUS_BRIDGE_UP p) d = true
          ∧ (∀ m ∈ t.wt.causes, m.same (bridgeMsg d p) = false) ∧ (t.core.forwarding = true ↔
            s.core.forwarding = true ∨ t.mayForward = true)
          ∧ onlyRegs [(.BRIDGE_STATUS, d), (.BRIDGE_STATUS, p)] s t ∧ onlyParts [.regs, .wt, .core] s t))
    ∧ (∀ (s : State) (d g : Nat), d < 4 → g < 8 → s.power.dies.contains d = true →
      ((∀ m ∈ s.wt.causes, m.kind ≠ 0x11) → Completes (.bridgeFatal d (8 + g)) s fun t =>
        bitOf (t.fld F.BRIDGE_STATUS_CHIPLET_UP d) g = false ∧ t.core.forwarding = false ∧ t.reports d 0x16 0x11
          ∧ t.power = s.power)
      ∧ Completes (.bridgeTrained d (8 + g)) s fun t => bitOf (t.fld F.BRIDGE_STATUS_CHIPLET_UP d) g = true
          ∧ onlyRegs [(.BRIDGE_STATUS, d)] s t)
    ∧ ∀ (s : State) (w : Word) (i : Nat), i = bitsOf w.toNat 5 0 →
      ((bitsOf w.toNat 31 24 ≠ 0x5D ∨ i = 0 ∨ 57 ≤ i ∨ s.power.sag.isSome = true) →
        Completes (.domainReset w) s fun t => t = s)
      ∧ (∀ d, bitsOf w.toNat 31 24 = 0x5D → s.power.sag = none → 1 ≤ i → i < 25 → d = islandDie i →
        s.power.dies.contains d = true → s.jobs = [] → s.portsDark → Completes (.domainReset w) s fun t =>
          t.core.forwarding = false ∧ (∀ x ∈ t.ctxs, x.2.mill / 32 ≠ d) ∧ (∀ h ∈ t.core.held, h.die ≠ d)
            ∧ t.reg .BRIDGE_STATUS d = regReset .BRIDGE_STATUS d ∧ t.reg .ISLAND_CLOCK i = 0
            ∧ (∀ e, e < 4 → e ≠ d → bitOf (t.fld F.BRIDGE_STATUS_BRIDGE_UP e) d = false)
            ∧ (∀ g ∈ t.power.groups, g ≠ 2 * d ∧ g ≠ 2 * d + 1) ∧ t.mem = s.mem
            ∧ (∀ x ∈ t.dieTables, x.die ≠ d) ∧ (∀ x ∈ t.descCache, x.1 ≠ d) ∧ (∀ x ∈ t.core.pcs, dieOf x.port ≠ d)
            ∧ (∀ x ∈ t.core.backlog, x.1.die ≠ d)
            ∧ ∀ e, e < 4 → (s.power.dies.filter (· != d)).head? = some e → t.reg .ROUTE_CONTROL d = s.reg .ROUTE_CONTROL e)
      ∧ (bitsOf w.toNat 31 24 = 0x5D → s.power.sag = none → 25 ≤ i → i < 57 →
        s.power.groups.contains ((i - 25) / 4) = true → s.portsDark → Completes (.domainReset w) s fun t =>
          t.reg .ISLAND_CLOCK i = 0 ∧ onlyParts [.regs, .arrays] s t)

/-- Bring-up (R411, R414, R416): each event of a port in the state it belongs to moves LINK_STATE on and sets the lanes'
status; ALIGN_DONE begins negotiation with a HELLO; with PRBS enabled a port stays in SIGNAL_WAIT; SHALLOW is
entered and left. Loss and shut-down of ports (R412 to R414): a bring-up that times out starts over and is counted;
a lost lock is counted, reported (kind 0x18), ends the negotiation and discards what waits for the port (R58);
FORCE_DOWN disables and, taken away, lets the port come up; the transmitter sends QUIET and WAKE blocks (R416); a checker that has locked counts the bits in error; a
PRBS enable that rises sends a port in bring-up back to
SIGNAL_WAIT.
Model's choices: log entries 44, 105. -/
def Obligations.PortsUpAndDown : Prop :=
  (∀ (s : State) (port : Nat) (c : PortCfg), s.portsOk = true → s.port? port = some c → c.lane0 + c.width ≤ 1024 →
      (s.link port = 1 → s.prbsOn c = false → Completes (.signalDetected port) s fun t =>
        t.link port = (if c.medium = 0 then 3 else 2) ∧ (∀ l ∈ c.lanes, t.flag F.LANE_STATUS_SIGNAL l = true)
          ∧ onlyRegs ((.PORT_LINK, c.lane0) :: c.lanes.map fun l => (.LANE_STATUS, l)) s t ∧ onlyParts [.regs] s t)
      ∧ (s.link port = 1 → s.prbsOn c = true → Completes (.signalDetected port) s fun t => t = s)
      ∧ (s.link port = 2 → Completes (.trainingDone port) s fun t =>
        fieldSet F.PORT_LINK_LINK_STATE c.lane0 3 s t ∧ onlyParts [.regs] s t)
      ∧ (∀ inv snr, s.link port = 3 → Completes (.adaptDone port inv snr) s fun t =>
        t.link port = 4 ∧ (∀ k, k < c.width → t.flag F.LANE_STATUS_CDR_LOCK (c.lane0 + k) = true
          ∧ t.flag F.LANE_CONFIG_RX_INVERTED (c.lane0 + k) = nth inv k false) ∧ onlyParts [.regs] s t)
      ∧ (∀ logical, s.link port = 4 → s.idsFresh = true → s.beforeEpoch0 → Completes (.alignDone port logical) s fun t =>
        t.link port = 5 ∧ t.fld F.TFP_PORT_STATUS_NEG_STATE c.lane0 = 1 ∧ (t.crz port).phase = .waiting
          ∧ (s.queuesOn t port fun g => ∃ y, g.ext = .link y ∧ y.op = 1)
          ∧ ∀ l ∈ c.lanes, t.flag F.LANE_STATUS_CW_LOCK l = true ∧ t.flag F.LANE_STATUS_MARKER_LOCK l = true)
      ∧ (s.link port = 5 → s.laneQuiet = true → s.toSend port = false → Completes (.quietIdleExpiry port) s fun t =>
        fieldSet F.PORT_LINK_LINK_STATE c.lane0 6 s t ∧ t.pcs port = (s.pcs port).puts c.width (List.replicate 8 quietBlock)
          ∧ t.core = { s.core with pcs := t.core.pcs } ∧ onlyParts [.regs, .core] s t)
      ∧ (s.link port = 6 → Completes (.transmitterWake port) s fun t =>
        fieldSet F.PORT_LINK_LINK_STATE c.lane0 5 s t ∧ t.pcs port = (s.pcs port).put c.width wakeBlock
          ∧ t.core = { s.core with pcs := t.core.pcs } ∧ onlyParts [.regs, .core] s t)
      ∧ ∀ l ∈ c.lanes, ∀ n, s.flag F.LANE_PRBS_CHK_EN l = true → Completes (.chkLock ⟨l, n⟩) s fun t =>
        fieldSet F.LANE_PRBS_CHK_LOCK l 1 s t
          ∧ t.fld F.PRBS_ERRORS_ERRORS l = satAdd F.PRBS_ERRORS_ERRORS.width (s.fld F.PRBS_ERRORS_ERRORS l) n
          ∧ onlyParts [.regs] s t)
    ∧ (∀ (s : State) (port : Nat) (c : PortCfg), s.portsOk = true → s.port? port = some c → c.lane0 + c.width ≤ 1024 →
      (s.link port = 2 ∨ s.link port = 3 ∨ s.link port = 4 → Completes (.bringupTimeout port) s fun t =>
        t.link port = 1 ∧ t.fld F.PORT_LINK_TRAIN_FAILS c.lane0
            = satAdd F.PORT_LINK_TRAIN_FAILS.width (s.fld F.PORT_LINK_TRAIN_FAILS c.lane0) 1
          ∧ (∀ l ∈ c.lanes, t.flag F.LANE_STATUS_SIGNAL l = false) ∧ onlyParts [.regs] s t)
      ∧ (s.pcsLock port = true → s.beforeEpoch0 → Completes (.pcsLockLoss port) s fun t =>
        t.link port = 1 ∧ t.reports 6 0x21 0x18 ∧ t.fld F.TFP_PORT_STATUS_NEG_STATE c.lane0 = 0
          ∧ t.fld F.PORT_LINK_LOCK_LOSSES c.lane0 = satAdd F.PORT_LINK_LOCK_LOSSES.width (s.fld F.PORT_LINK_LOCK_LOSSES c.lane0) 1
          ∧ (∀ x ∈ t.core.copies, x.dest = .port port → x.started = true)
          ∧ (s.core.backlog = [] → (∀ x ∈ s.core.copies, x.dest = .port port → x.started = true) → t.core = s.core))
      ∧ (s.pcsLock port = false →
        (Completes (.forceDownWrite port true) s fun t =>
          t.link port = 0 ∧ t.flag F.PORT_LINK_CONTROL_FORCE_DOWN c.lane0 = true ∧ onlyParts [.regs] s t)
        ∧ (Completes (.forceDownWrite port false) s fun t => t.flag F.PORT_LINK_CONTROL_FORCE_DOWN c.lane0 = false
          ∧ t.link port = (if s.link port = 0 ∧ s.power.groups.contains c.group = true ∧ s.flag F.WT_STATUS_HALTED 0 = false
              then 1 else s.link port) ∧ onlyParts [.regs] s t))
      ∧ ∀ (l : Nat) (w : Word), l < 1024 → s.portOfLane l = some c → s.pcsLock port = false →
        Completes (.prbsEnableWrite l w) s fun t =>
          t.flag F.LANE_PRBS_GEN_EN l = w.getLsbD 31 ∧ t.flag F.LANE_PRBS_CHK_EN l = w.getLsbD 30
            ∧ t.fld F.LANE_PRBS_PATTERN l
              = (if bitsOf w.toNat 29 28 = 3 then s.fld F.LANE_PRBS_PATTERN l else bitsOf w.toNat 29 28)
            ∧ (w.getLsbD 30 = false → t.flag F.LANE_PRBS_CHK_LOCK l = false)
            ∧ ((w.getLsbD 31 = true ∧ s.flag F.LANE_PRBS_GEN_EN l = false) ∨ (w.getLsbD 30 = true
                ∧ s.flag F.LANE_PRBS_CHK_EN l = false) → s.link port = 2 ∨ s.link port = 3 ∨ s.link port = 4 → t.link port = 1)
            ∧ onlyParts [.regs, .wt] s t)

/-! ## Power states, sags and supplies -/

/-- A power command (R478 to R480): ignored while a change runs; a target the state does not allow is a reserved value; an entry
with a vote against it is refused, and the refusal of the lowest source recorded; else QUIESCE begins. RUN leaves DOZE, or
LANE_QUIET at once.
Model's choices: log entries 19, 64. -/
def Obligations.PowerCommands : Prop :=
  ∀ (s : State) (c : Instr) (k : Nat),
    (c = .cmdRun ∧ k = 0) ∨ (c = .cmdLaneQuiet ∧ k = 1) ∨ (c = .cmdDoze ∧ k = 2) ∨ (c = .cmdKeep ∧ k = 3) →
    (s.pwrBusy = true → Completes c s fun t => fieldSet F.PWR_STATUS_CMD_IGNORED 0 1 s t ∧ onlyParts [.regs] s t)
    ∧ (s.pwrBusy = false → targetOk s.pwr k = false → Completes c s fun t =>
      t.reports 4 0x09 0x04 ∧ t.pwr = s.pwr ∧ onlyParts [.regs, .wt] s t)
    ∧ (s.pwrBusy = false → targetOk s.pwr k = true → k = 0 → Completes c s fun t =>
      t.pwr = 0 ∧ (s.pwr = 2 → t.pwrBusy = true ∧ t.pwrPhase = 0 ∧ t.power.change = some .leaveDoze
          ∧ t.power.release = unitOrder)
        ∧ (s.pwr = 1 → t.pwrBusy = false ∧ t.power = s.power ∧ (s.portsOk = true → ∀ x ∈ s.ports, s.link x.num = 6 → t.link x.num = 5))
        ∧ t.core = { s.core with pcs := t.core.pcs } ∧ onlyParts [.regs, .core, .power] s t)
    ∧ (∀ v, s.pwrBusy = false → targetOk s.pwr k = true → k ≠ 0 → firstVote (s.votes k) = some v → Completes c s fun t =>
      t.fld F.PWR_EVENTS_REFUSALS 0 = satAdd F.PWR_EVENTS_REFUSALS.width (s.fld F.PWR_EVENTS_REFUSALS 0) 1
        ∧ t.reg .PWR_LAST_REFUSER 0 = v.word k % 2 ^ 32 ∧ t.pwr = s.pwr ∧ t.pwrBusy = false
        ∧ t.reportsFrom Config.powerSource 0x50 ∧ onlyParts [.regs, .wt] s t)
    ∧ (s.pwrBusy = false → targetOk s.pwr k = true → k ≠ 0 → s.votes k = [] → (k = 1 ∨ s.portsDark) → s.portsOk = true →
      Completes c s fun t =>
        t.pwr = s.pwr ∧ t.pwrBusy = true ∧ t.pwrPhase = 1 ∧ t.power.change = some (.enter k)
          ∧ (k = 1 → onlyRegs [(.PWR_STATUS, 0)] s t)
          ∧ (k ≠ 1 → ∀ x ∈ s.ports, t.link x.num = 0 ∨ t.link x.num = 7) ∧ onlyParts [.regs, .power] s t)

/-- The phases of an entry (R479, R481, R484): QUIESCE_DONE moves on unless a vote has come to hold; an abort undoes QUIESCE, is
counted and names its source; POWER_SAVE_DONE leaves the save area; POWER_STATE_REACHED enters LANE_QUIET, DOZE (core clocks gated,
lane groups off, stacks in self-refresh) or KEEP (CORE_PWR_EN low, everything else off).
Model's choices: log entries 19, 64. -/
def Obligations.PowerPhases : Prop :=
  ∀ (s : State) (k : Nat),
    (s.quiescing = some k → s.votes k = [] → Completes .quiesceDone s fun t =>
      fieldSet F.PWR_STATUS_PHASE 0 (if k = 1 then 3 else 2) s t ∧ onlyParts [.regs] s t)
    ∧ (∀ v why, s.quiescing = some k → s.portsOk = true →
      (why = .smbus ∧ v = smbusVote) ∨ (∃ src, why = .fatal src ∧ v = ⟨src.toNat, 0⟩)
        ∨ (why = .condition ∧ firstVote (s.votes k) = some v) →
      Completes (.quiesceAbort why) s fun t =>
        t.pwrBusy = false ∧ t.pwrPhase = 0 ∧ t.power.change = none ∧ t.pwr = s.pwr
          ∧ t.fld F.PWR_EVENTS_ABORTS 0 = satAdd F.PWR_EVENTS_ABORTS.width (s.fld F.PWR_EVENTS_ABORTS 0) 1
          ∧ t.reg .PWR_LAST_ABORTER 0 = v.word k % 2 ^ 32 ∧ t.reportsFrom Config.powerSource 0x51
          ∧ (k = 1 → ∀ x ∈ s.ports, s.link x.num = 6 → t.link x.num = 5)
          ∧ (k ≠ 1 → s.pwr ≠ 2 → ∀ x ∈ s.ports, s.link x.num = 7 → t.link x.num = 1) ∧ t.core = { s.core with pcs := t.core.pcs }
          ∧ onlyParts [.regs, .wt, .core, .power] s t)
    ∧ (s.power.change = some (.enter k) → s.pwrPhase = 2 → Completes .powerSaveDone s fun t =>
      t.power.saveArea = saveBytes k (s.saveEntries k) ∧ fieldSet F.PWR_STATUS_PHASE 0 3 s t ∧ onlyParts [.regs, .power] s t)
    ∧ (s.power.change = some (.enter k) → s.pwrPhase = 3 → s.power.matched = false →
      (k = 1 → Completes .powerStateReached s fun t => t.pwr = 1 ∧ t.pwrBusy = false ∧ t.power.change = none
        ∧ onlyParts [.regs, .power] s t)
      ∧ (k = 2 → Completes .powerStateReached s fun t => t.pwr = 2 ∧ t.pwrBusy = false ∧ t.power.dozing = [0, 1, 2, 3]
        ∧ t.power.groups = [] ∧ (∀ i, i < 20 → s.fld F.MEM_STATUS_STATE i = 3 → t.fld F.MEM_STATUS_STATE i = 4)
        ∧ onlyParts [.regs, .power] s t)
      ∧ (k = 3 → Completes .powerStateReached s fun t => t.pwr = 3 ∧ t.pwrBusy = false ∧ t.power.core = false
        ∧ t.power.pins.corePwrEn = false ∧ t.power.dies = [] ∧ t.mem = [] ∧ t.ctxs = [] ∧ t.power.saveArea = s.power.saveArea
        ∧ t.retained = s.retained ∧ t.flash = s.flash))

/-- Wakes and releases (R481, R486 to R488): an address match wakes DOZE and KEEP, aborts QUIESCE, and is remembered later; units are
released in their order, a die's clock or its PLL, a group's stacks, a lane group; the last release of a wake ends it.
Model's choices: log entries 19, 64. -/
def Obligations.WakesAndReleases : Prop :=
  (∀ s : State,
    (s.power.change = none → s.pwr = 2 → Completes .smbusAddressMatch s fun t => t.pwr = 0 ∧ t.pwrBusy = true
      ∧ t.power.change = some .leaveDoze ∧ t.power.release = unitOrder ∧ onlyParts [.regs, .power] s t)
    ∧ (s.power.change = none → s.pwr = 3 → Completes .smbusAddressMatch s fun t => t.pwr = 0 ∧ t.pwrBusy = true
      ∧ t.power.change = some .leaveKeep ∧ t.power.pins.corePwrEn = !s.power.pins.pwrgd ∧ onlyParts [.regs, .power] s t)
    ∧ (s.power.change = none → s.pwr < 2 → Completes .smbusAddressMatch s fun t => t = s)
    ∧ (∀ k, s.power.change = some (.enter k) → s.pwrPhase ≠ 1 → Completes .smbusAddressMatch s fun t =>
      t.power.matched = true ∧ onlyParts [.power] s t))
    ∧ ∀ (s : State) (u : PowerUnit) (rest : List PowerUnit), s.power.release = u :: rest →
      (∀ d, u = .die d → d < 4) → (∀ h, u = .stackGroup h → h < 5) → (∀ g, u = .laneGroup g → g < 8) →
      (s.power.change = some .leaveDoze → Completes (.wakeUnitRelease u) s fun t =>
        t.power.release = rest ∧ (rest = [] → t.pwrBusy = false ∧ t.power.change = none)
          ∧ (rest ≠ [] → t.power.change = some .leaveDoze) ∧ (∀ d, u = .die d → t.power.dozing.contains d = false)
          ∧ (∀ h k, u = .stackGroup h → k ∈ stackGroup h → s.fld F.MEM_STATUS_STATE k = 4 → t.fld F.MEM_STATUS_STATE k = 3)
          ∧ (∀ g, u = .laneGroup g → t.power.groups.contains g = true)
          ∧ (u = .laneGroup 0 → s.power.saved = none → t.flag F.PWR_STATUS_RESTORE_FAIL 0 = true
            ∧ t.reportsFrom Config.powerSource 0x54))
      ∧ (s.power.fw = true → s.power.change = none → Completes (.startUnitRelease u) s fun t =>
        t.power.release = rest ∧ t.power.change = none
          ∧ (∀ d, u = .die d → t.power.dies.contains d = true ∧ t.flag F.ISLAND_CLOCK_PLL_EN (1 + d) = true)
          ∧ (∀ h k, u = .stackGroup h → k ∈ stackGroup h → t.flag F.ISLAND_CLOCK_PLL_EN (5 + k) = true
            ∧ (s.fld F.MEM_STATUS_STATE k = 0 → t.fld F.MEM_STATUS_STATE k = 1))
          ∧ (∀ g x, u = .laneGroup g → x ∈ chipletsIn g → t.power.groups.contains g = true
            ∧ t.flag F.ISLAND_CLOCK_PLL_EN (25 + x) = true))

/-- A supply sag (R490 to R493, R572): SAG_N freezes the switch and is counted; the save appends the queue and a record of kind 0x52,
marks the area complete and sets SAG_SAVED; the restart comes when SAG_N is high again.
Model's choices: log entries 17, 30. -/
def Obligations.SagSaves : Prop :=
  (∀ s : State,
    (s.power.sag.isSome = true → Completes .sagNAsserted s fun t => t = s)
    ∧ (s.power.sag = none → s.power.core = true → s.power.pins.pwrgd = true → Completes .sagNAsserted s fun t =>
      t.fld F.SAG_STATUS_SAG_COUNT 0 = satAdd F.SAG_STATUS_SAG_COUNT.width (s.fld F.SAG_STATUS_SAG_COUNT 0) 1
        ∧ t.fld F.SAG_STATUS_LAST_SAVE_US 0 = 0xFFFF ∧ t.power.pins.sagN = false ∧ t.power.core = true ∧ t.power.dies = []
        ∧ (∃ x, t.power.sag = some x ∧ x.reset = none) ∧ t.ctxs = [] ∧ t.jobs = [] ∧ t.mem = [] ∧ t.wt = s.wt
        ∧ leAt t.power.sagArea 4 4 = (leAt s.power.sagArea 4 4 + 1) % 2 ^ 32 ∧ leAt t.power.sagArea 8 1 = s.pwr)
    ∧ (s.power.sag = none → s.power.core = false → Completes .sagNAsserted s fun t =>
      t.power.pins.sagN = false ∧ t.power.sagHold = true ∧ onlyParts [.power] s t))
    ∧ (∀ (s : State) (us : Nat) (x : SagSave), s.power.sag = some x → x.reset = none → us < 2 ^ 16 → 10 ≤ s.power.sagArea.length →
      Completes (.sagSaveComplete us) s fun t =>
        t.flag F.PWR_STATUS_SAG_SAVED 0 = true ∧ t.fld F.SAG_STATUS_LAST_SAVE_US 0 = us ∧ t.power.core = false
          ∧ t.power.afterSag = true ∧ t.power.sagHold = true ∧ t.power.sag = none ∧ leAt t.power.sagArea 9 1 = 1
          ∧ (∃ e, t.wt.ring.getLast? = some e ∧ e.msg.kind = 0x52) ∧ t.wt.queue = [] ∧ t.retained = s.retained
          ∧ t.flash = s.flash)
    ∧ ∀ s : State, s.power.sag = none → s.power.sagHold = true → s.power.core = false → s.power.afterSag = true →
      Completes .sagRestart s fun t =>
        t.power.sagHold = false ∧ t.power.pins.sagN = true ∧ t.wt.ring = s.wt.ring
          ∧ (s.power.pins.corePwrEn = true → s.power.pins.pwrgd = true → s.power.pins.thermtripN = true →
            t.power.core = true ∧ t.power.rom = true ∧ t.power.fw = false
              ∧ (s.restoring = false → t.fld F.PWR_STATUS_START_CAUSE 0 = 2))
          ∧ (¬(s.power.pins.corePwrEn = true ∧ s.power.pins.pwrgd = true ∧ s.power.pins.thermtripN = true) →
            t.power.core = false)

/-- Supplies and the keep's reset (R570 to R574, R582): VKEEP and KEEP_RST_N reset every domain and sample the straps; PWRGD rising
starts the control die; its fall outside a sag switches everything but the keep off; the thermal trip holds CORE_PWR_EN low.
Model's choices: log entries 24, 65. -/
def Obligations.SuppliesAndResets : Prop :=
  (∀ (s : State) (straps : BitVec 2) (c : Instr), c = .vkeepApplied straps ∨ (c = .keepRst straps ∧ s.power.sag = none) →
    Completes c s fun t =>
      t.fld F.SMB_CONFIG_ADDRESS 0 = 0x4C + straps.toNat ∧ t.power.core = false ∧ t.power.pins.corePwrEn = true
        ∧ t.power.pins.pwrgd = false ∧ t.power.pins.thermtripN = true ∧ t.ctxs = [] ∧ t.jobs = [] ∧ t.mem = []
        ∧ t.core = State.reset.core ∧ t.epoch = State.reset.epoch
        ∧ (∀ n i, regAddr n i ≠ regAddr .SMB_CONFIG 0 → t.reg n i = regReset n i)
        ∧ t.retained = s.retained ∧ t.flash = s.flash ∧ t.wt.ring = s.wt.ring ∧ t.boot.store = s.boot.store
        ∧ t.pending = s.pending)
    ∧ (∀ (s : State) (straps : BitVec 2) (x : SagSave), s.power.sag = some x → Completes (.keepRst straps) s fun t =>
      t.power.sag = some { x with reset := some straps } ∧ onlyParts [.power] s t)
    ∧ (∀ s : State, s.power.core = false → s.restoring = false → Completes .pwrgdRise s fun t =>
      t.power.pins.pwrgd = true ∧ t.power.core = (s.power.pins.corePwrEn && s.power.pins.sagN && s.power.pins.thermtripN
          && !s.power.sagHold)
        ∧ (t.power.core = true → t.power.rom = true ∧ t.power.fw = false ∧ t.pwr = 0
          ∧ t.fld F.PWR_STATUS_START_CAUSE 0 = (if s.power.afterSag then 2 else 0)) ∧ onlyParts [.regs, .wt, .power] s t)
    ∧ (∀ s : State, (s.power.sag.isSome = true → Completes .pwrgdFall s fun t =>
        t.power.pins.pwrgd = false ∧ onlyParts [.power] s t)
      ∧ (s.power.sag = none → s.power.pins.pwrgd = true → s.power.pins.sagN = true → s.power.pins.corePwrEn = true →
        Completes .pwrgdFall s fun t =>
          t.power.pins.pwrgd = false ∧ t.power.core = false ∧ t.power.dies = [] ∧ t.power.afterSag = false ∧ t.ctxs = []
            ∧ t.mem = [] ∧ t.pwrBusy = false ∧ t.retained = s.retained ∧ t.flash = s.flash))
    ∧ ∀ s : State, Completes .thermtrip s fun t => t.power.pins.thermtripN = false ∧ t.power.pins.corePwrEn = false
        ∧ t.power.core = false ∧ t.power.dies = [] ∧ t.mem = [] ∧ t.flash = s.flash

/-! ## Boot, identity, signatures -/

/-- Boot (R506 to R508, R514, R517): the flash, the factory record and the identity are checked in turn, each with its
code; an identity that fails is read again, at most 4 times; a slot that fails gives its code, and the other slot is
tried once; one that holds runs, and epoch 0 follows the first sweep. BOOT_CONTROL with its key (R508, R514, R515):
SV_COMMIT raises the floors to the running image's values, RETRY starts over from BOOT_FAILED, NEXT is remembered
and its value 3 is reserved; without the key nothing happens.
Model's choices: log entries 5, 19, 50, 51. -/
def Obligations.BootAndItsControl : Prop :=
  ((∀ (s : State) (puf : PufReading), s.power.core = true → s.power.rom = true →
      (s.flash.usable = false → Completes (.bootStart puf) s fun t => t.stage = 4 ∧ t.fld F.BOOT_STATUS_BOOT_CODE 0 = 10
        ∧ t.power.rom = false)
      ∧ (s.flash.usable = true → s.factoryChecked = none → Completes (.bootStart puf) s fun t => t.stage = 4
        ∧ t.fld F.BOOT_STATUS_BOOT_CODE 0 = 8)
      ∧ (∀ r, s.flash.usable = true → s.factoryChecked = some r → identityOk r puf = true → Completes (.bootStart puf) s fun t =>
        t.stage = 1 ∧ t.boot.factory = r ∧ t.boot.store.bootNext = 0
          ∧ t.boot.slot = (if s.boot.store.bootNext ≠ 0 then s.boot.store.bootNext
              else if s.boot.store.lastGood ≠ 0 then s.boot.store.lastGood else 1)))
      ∧ (∀ (s : State) (puf : PufReading), s.power.core = true → s.boot.pufWait = true →
        s.fld F.BOOT_STATUS_PUF_READINGS 0 < 4 → identityOk s.boot.factory puf = false → Completes (.pufRetry puf) s fun t =>
          t.fld F.BOOT_STATUS_PUF_READINGS 0 = s.fld F.BOOT_STATUS_PUF_READINGS 0 + 1
            ∧ (s.fld F.BOOT_STATUS_PUF_READINGS 0 < 3 → t.boot.pufWait = true ∧ t.reportsFrom Config.bootSource 0x65)
            ∧ (s.fld F.BOOT_STATUS_PUF_READINGS 0 = 3 → t.boot.pufWait = false ∧ t.stage = 4
              ∧ t.fld F.BOOT_STATUS_BOOT_CODE 0 = 9))
      ∧ (∀ (s : State) (bs : List Byte), s.power.core = true → s.stage = 1 → bs = s.slotImage s.boot.slot →
        (∀ code, code ≠ 0 → code < 16 → s.slotCode bs = code → Completes .slotVerified s fun t =>
          t.fld (if s.boot.slot = 2 then F.BOOT_STATUS_CODE_B else F.BOOT_STATUS_CODE_A) 0 = code
            ∧ t.reportsFrom Config.bootSource 0x60 ∧ t.boot.store = s.boot.store ∧ t.boot.started = s.boot.started
            ∧ (s.boot.second = false → t.boot.slot = 3 - s.boot.slot ∧ t.boot.second = true ∧ t.stage = 1)
            ∧ (s.boot.second = true → t.stage = 4 ∧ t.reportsFrom Config.bootSource 0x61))
        ∧ (∀ u, s.checkSlot bs = (0, u) → ((u.toStage 2).measure bs).configOk (imageOf bs) = true → s.beforeEpoch0 →
          Completes .slotVerified s fun t =>
            t.boot.started = some s.boot.slot ∧ t.power.fw = true ∧ t.power.release = unitOrder ∧ t.stage = 2
              ∧ t.image = imageOf bs ∧ t.boot.store = u.boot.store
              ∧ ∀ w, w < 16 → t.reg .MEAS_DIGEST w = leAt (measurement bs) (4 * w) 4))
      ∧ ∀ s : State, s.power.fw = true → s.stage = 2 → s.flag F.CRUISE_STATUS_SWEEP_ACTIVE 0 = false →
        Completes .epoch0Built s fun t =>
          t.stage = 3 ∧ t.flag F.CRUISE_STATUS_FIRST_DONE 0 = true ∧ t.boot.store.lastGood = s.boot.started.getD 0
            ∧ t.epoch = EpochSt.fresh ∧ t.curBank.cutLinks = s.epoch0.cutLinks
            ∧ (t.core.forwarding = true ↔ s.core.forwarding = true ∨ t.mayForward = true))
    ∧ (∀ s : State, s.power.core = true →
      (s.stage = 3 → Completes .svCommit s fun t =>
        t.boot.store.svFloor = max s.boot.store.svFloor s.image.securityVersion
          ∧ t.boot.store.configFloor = max s.boot.store.configFloor s.image.configSeq)
      ∧ (s.stage = 4 → Completes .bootRetry s fun t =>
        t.reg .BOOT_STATUS 0 = 0 ∧ t.power.rom = true ∧ t.boot.factory = [])
      ∧ (s.stage ≠ 4 → s.boot.store.bootNext = 0 → Completes .bootRetry s fun t => t = s)
      ∧ ∀ w : Word, (bitsOf w.toNat 31 24 ≠ 0xB7 → Completes (.setBootNext w) s fun t => t = s)
        ∧ (bitsOf w.toNat 31 24 = 0xB7 → bitOf w.toNat 23 = false → bitOf w.toNat 22 = false →
          (bitsOf w.toNat 1 0 = 3 → Completes (.setBootNext w) s fun t => t.boot = s.boot ∧ t.reports 4 0x09 0x04)
          ∧ (bitsOf w.toNat 1 0 ≠ 3 → Completes (.setBootNext w) s fun t => t.boot.store.bootNext = bitsOf w.toNat 1 0
            ∧ t.boot.store.svFloor = s.boot.store.svFloor ∧ onlyParts [.boot] s t)))

/-- Signatures (R166, R519): a step the switch holds a record of is queued, another sets SIGN_ERR; the engine signs the head of its
queue; ATTEST_GO makes the report and queues it, unless one is being signed; the signature follows the report.
Model's choices: log entries 3, 52. -/
def Obligations.SignaturesAndAttestation : Prop :=
  ∀ s : State,
    (∀ (st : BitVec 32) (id : BitVec 12), s.power.core = true → id = BitVec.ofNat 12 (s.fld F.LEDGER_CONTROL_SIGN_JOB 0) →
      s.record? id st = none → Completes (.ledgerSignStep st) s fun t =>
        t.flag F.LEDGER_STATUS_SIGN_ERR 0 = true ∧ t.signQueue = s.signQueue ∧ onlyParts [.regs] s t)
    ∧ (∀ (st : BitVec 32) (id : BitVec 12), s.power.core = true → id = BitVec.ofNat 12 (s.fld F.LEDGER_CONTROL_SIGN_JOB 0) →
      (s.record? id st).isSome = true → Completes (.ledgerSignStep st) s fun t =>
        t.signQueue = s.signQueue ++ [some (id, st)] ∧ onlyParts [.signQueue] s t)
    ∧ (∀ id st rest, s.signQueue = some (id, st) :: rest → s.power.fw = true → s.record? id st = none →
      Completes .ledgerSignatureDone s fun t =>
        t.signQueue = rest ∧ t.flag F.LEDGER_STATUS_SIGN_ERR 0 = true ∧ onlyParts [.regs, .signQueue] s t)
    ∧ (∀ id st rest r, s.signQueue = some (id, st) :: rest → s.power.fw = true → s.record? id st = some r →
      Completes .ledgerSignatureDone s fun t =>
        t.signQueue = rest ∧ (∃ x, t.record? id st = some x
            ∧ x.signature = some (signature s.freeCount (ledgerMessage r)))
          ∧ t.fld F.LEDGER_STATUS_SIGNATURES 0
            = satAdd F.LEDGER_STATUS_SIGNATURES.width (s.fld F.LEDGER_STATUS_SIGNATURES 0) 1
          ∧ onlyParts [.regs, .mem, .memory, .jobs, .retained, .signQueue, .freeCount] s t)
    ∧ (s.power.core = true → s.attestBusy = false → s.hasIdentity = true → Completes .attestGo s fun t =>
      t.boot.report = s.attestReport ∧ t.signQueue = s.signQueue ++ [none] ∧ onlyParts [.boot, .signQueue] s t)
    ∧ (s.attestBusy = true ∨ s.hasIdentity = false → Completes .attestGo s fun t => t = s)
    ∧ ∀ rest, s.signQueue = none :: rest → s.power.fw = true → Completes .attestReportDone s fun t =>
      t.signQueue = rest ∧ t.boot.report = s.boot.report ++ signature s.freeCount s.boot.report
        ∧ t.fld F.ATTEST_STATUS_REPORTS 0 = satAdd F.ATTEST_STATUS_REPORTS.width (s.fld F.ATTEST_STATUS_REPORTS 0) 1
        ∧ onlyParts [.regs, .boot, .signQueue, .freeCount] s t

/-! ## The companion link and the coherent window -/

/-- Training and loss of the link (R522, R523, R528): the states in their order; CONFIG accepts a width at or above the
least and gives ACTIVE without credits, its first flit granting the companion's own over the scrambled lanes (R524, R525); time-outs go back, and the fourth failed retrain within 100 ms takes the
link down; DOWN forgets what the link carried and sets LINK_LOST. Flits (R526, R527, R531): a good flit in order is
taken, with its acknowledgement and its credit, and one out of order is not; a bad one is counted and draws a NAK,
and after 8 NAKs a retrain; a NAK of the companion is counted, and what it acknowledges is freed.
Model's choices: log entries 33, 53, 106. -/
def Obligations.CompanionLink : Prop :=
  (∀ s : State, s.power.core = true → s.ringQueue = [] → s.host.phase = .idle →
      (∀ r : DclTrain,
        (s.linkState < 3 → Completes (.dclTrainingStep r) s fun t => fieldSet F.DCL_STATUS_LINK_STATE 0 (s.linkState + 1) s t
          ∧ onlyParts [.regs] s t)
        ∧ (s.linkState = 3 → widthCode r.width < s.minWidth → Completes (.dclTrainingStep r) s fun t => t.linkState = 1
          ∧ onlyParts [.regs] s t)
        ∧ (s.linkState = 3 → s.minWidth ≤ widthCode r.width → Completes (.dclTrainingStep r) s fun t => t.linkState = 4
          ∧ t.fld F.DCL_STATUS_WIDTH 0 = widthCode r.width ∧ t.flag F.DCL_STATUS_REVERSED 0 = r.reversed
          ∧ t.host.creditReq = 0 ∧ t.host.creditRsp = 0 ∧ t.host.creditSnp = 0 ∧ onlyParts [.regs, .host] s t
          ∧ t.host.lanes = (List.range t.dclWidth).map fun l =>
            (scramble 0x7FFFFFFF (laneBytes t.dclWidth l (flitBytes ⟨0, 0, s.host.rxSeq, 512, 256, 0⟩ []))).1)
        ∧ (s.linkState = 5 → Completes (.dclTrainingStep r) s fun t => t.linkState = 4 ∧ t.host.snoops = s.host.snoops
          ∧ onlyParts [.regs, .host] s t))
      ∧ (s.linkState = 2 ∨ s.linkState = 3 → Completes .dclTrainingTimeout s fun t => t.linkState = 1 ∧ onlyParts [.regs] s t)
      ∧ (s.linkState = 5 → s.recentFails.length < 3 → Completes .dclTrainingTimeout s fun t => t.linkState = 5
        ∧ t.host.failedRetrains = s.recentFails ++ [s.ns] ∧ t.host.queue = s.host.queue ∧ t.host.replay = s.host.replay
        ∧ t.host.scrambler = 0x7FFFFFFF
        ∧ t.fld F.DCL_COUNTS_RETRAINS 0 = satAdd F.DCL_COUNTS_RETRAINS.width (s.fld F.DCL_COUNTS_RETRAINS 0) 1)
      ∧ (s.linkState = 5 → 3 ≤ s.recentFails.length → Completes .dclTrainingTimeout s fun t => t.linkState = 0
        ∧ t.flag F.DCL_STATUS_LINK_LOST 0 = true ∧ t.host.queue = [] ∧ t.host.filter = [])
      ∧ (s.linkState = 4 → Completes .forceRetrain s fun t => t.linkState = 5 ∧ t.host.queue = s.host.queue
        ∧ t.host.replay = s.host.replay ∧ t.host.scrambler = 0x7FFFFFFF ∧ onlyParts [.regs, .host] s t
        ∧ t.fld F.DCL_COUNTS_RETRAINS 0 = satAdd F.DCL_COUNTS_RETRAINS.width (s.fld F.DCL_COUNTS_RETRAINS 0) 1)
      ∧ (s.linkState ≠ 4 → Completes .forceRetrain s fun t => t = s)
      ∧ (s.linkState ≠ 0 → Completes .dclLinkDown s fun t => t.linkState = 0 ∧ t.fld F.DCL_STATUS_WIDTH 0 = 0
        ∧ (4 ≤ s.linkState → s.linkState ≤ 5 → t.flag F.DCL_STATUS_LINK_LOST 0 = true) ∧ t.host.queue = []
        ∧ t.host.replay = [] ∧ t.host.snoops = [] ∧ t.host.filter = [] ∧ onlyParts [.regs, .host] s t))
    ∧ (∀ s : State, s.linkActive = true →
      (∀ (p : Option (BitVec 10)) (a q r n : BitVec 10), s.host.inOrder p = false →
        Completes (.dclFlitGood p a q r n) s fun t => t = s)
      ∧ (∀ (p : Option (BitVec 10)) (a q r n : BitVec 10), s.host.inOrder p = true → s.host.queue = [] →
        Completes (.dclFlitGood p a q r n) s fun t =>
          t.host.creditReq = s.host.creditReq + q.toNat ∧ t.host.creditRsp = s.host.creditRsp + r.toNat
            ∧ t.host.creditSnp = s.host.creditSnp + n.toNat ∧ (∀ x, p = some x → t.host.rxSeq = x.toNat ∧ t.host.naks = 0)
            ∧ (p = none → t.host.rxSeq = s.host.rxSeq ∧ t.host.naks = s.host.naks)
            ∧ t.host.replay = (s.host.acked a.toNat).replay ∧ onlyParts [.host] s t)
      ∧ (∀ b, s.host.naks < 8 → Completes (.dclFlitBad b) s fun t => t.host.naks = s.host.naks + 1
        ∧ counted F.DCL_COUNTS_BAD_FLITS 0 1 s t ∧ t.host.rxSeq = s.host.rxSeq ∧ onlyParts [.regs, .host] s t)
      ∧ (∀ b, 8 ≤ s.host.naks → Completes (.dclFlitBad b) s fun t => t.linkState = 5 ∧ t.host.naks = 1
        ∧ onlyParts [.regs, .host] s t)
      ∧ (∀ a : BitVec 10, s.host.queue = [] → Completes (.dclNak a) s fun t => t.host.replay = (s.host.acked a.toNat).replay
        ∧ counted F.DCL_COUNTS_REPLAYS 0 1 s t ∧ onlyParts [.regs, .host] s t)
      ∧ (s.host.naks = 0 → Completes .dclNakRepeat s fun t => t = s)
      ∧ (0 < s.host.naks → s.host.naks < 8 → Completes .dclNakRepeat s fun t => t.host.naks = s.host.naks + 1
        ∧ onlyParts [.host] s t)
      ∧ (8 ≤ s.host.naks → Completes .dclNakRepeat s fun t => t.linkState = 5))

/-- Requests for lines with no snoop in flight (R529, R530, R533, R534, R537, R547): RD_SHARED and RD_OWN grant a line,
which the snoop filter records; RD_NC shows one; WR_NC and WRITEBACK write it where the companion may; EVICT gives
it back; each is taken off the input, for which credit is owed (R526, R532), and answered, with the status that applies. Answers to snoops (R533 to R536): SNP_ACK for a line not
recorded as modified ends the snoop, for a modified one it is noted; SNP_DATA brings the line home. HOLDOFF_EXPIRY
lets a deferred INTR out (R546).
Model's choices: log entry 54. -/
def Obligations.WindowAccesses : Prop :=
  (∀ (s : State) (tag : BitVec 12) (l : BitVec 40) (st : Nat), s.linkActive = true → s.snooping l.toNat = false →
      s.host.phase ≠ .entry → st = s.windowStatus l.toNat →
      let answered (n : Nat) (m : DclMsg) (t : State) : Prop := t.host = ((s.took .req n).post m).host
      (∀ (sp : BitVec 2) (c : Instr) (own : Bool), (c = .rdShared tag sp l ∧ own = false) ∨ (c = .rdOwn tag sp l ∧ own = true) →
        (sp ≠ 0 → Completes c s fun t => answered 1 (refuseData tag 1) t ∧ onlyParts [.host] s t)
        ∧ (sp = 0 → st ≠ 0 → Completes c s fun t => answered 1 (refuseData tag st) t ∧ onlyParts [.host] s t)
        ∧ (sp = 0 → st = 0 → own = true → s.writable l.toNat = false → Completes c s fun t =>
          answered 1 (refuseData tag 2) t ∧ onlyParts [.host] s t)
        ∧ (sp = 0 → st = 0 → own = false ∨ s.writable l.toNat = true →
          (s.host.filter.length < filterLines ∨ s.tracked l.toNat = true) → Completes c s fun t =>
            t.host = ((s.took .req 1).post (.data tag (if own then 2 else 1) 0 (s.linePoison l.toNat)
                (s.readMem (lineMa l.toNat) 64))).host.grant l.toNat own
              ∧ t.tracked l.toNat = true ∧ t.owned l.toNat = own ∧ onlyParts [.host] s t))
      ∧ (Completes (.rdNc tag 2 l) s fun t => answered 1 (if s.bufferStatus l.toNat = 0 then .data tag 0 0 false (s.bufferLine l.toNat)
          else refuseData tag (s.bufferStatus l.toNat)) t ∧ onlyParts [.host] s t)
      ∧ (Completes (.rdNc tag 0 l) s fun t => answered 1 (if st = 0 then .data tag 0 0 (s.linePoison l.toNat)
          (s.readMem (lineMa l.toNat) 64) else refuseData tag st) t ∧ onlyParts [.host] s t)
      ∧ (∀ sp, sp = 1 ∨ sp = 3 → Completes (.rdNc tag sp l) s fun t => answered 1 (refuseData tag 1) t ∧ onlyParts [.host] s t)
      ∧ (∀ data : Vector Byte 64,
        (s.bufferStatus l.toNat = 0 → Completes (.wrNc tag 2 l data) s fun t => answered 5 (.cmp tag 0) t
          ∧ t.bufferLine l.toNat = data.toList ∧ onlyParts [.upd, .host] s t)
        ∧ (st = 0 → s.writable l.toNat = true → Completes (.wrNc tag 0 l data) s fun t => answered 5 (.cmp tag 0) t
          ∧ t.readMem (lineMa l.toNat) 64 = data.toList ∧ onlyParts [.mem, .memory, .host] s t
          ∧ ∀ a, a < lineMa l.toNat ∨ lineMa l.toNat + 64 ≤ a → t.readMem a 1 = s.readMem a 1)
        ∧ (st = 0 → s.writable l.toNat = false → Completes (.wrNc tag 0 l data) s fun t => answered 5 (.cmp tag 2) t
          ∧ onlyParts [.host] s t)
        ∧ (st = 0 → s.writable l.toNat = true → Completes (.writeback tag l data) s fun t =>
          t.readMem (lineMa l.toNat) 64 = data.toList ∧ t.tracked l.toNat = false ∧ onlyParts [.mem, .memory, .host] s t))
      ∧ (st = 0 → Completes (.evict tag l) s fun t => t.tracked l.toNat = false ∧ onlyParts [.host] s t)
      ∧ (st ≠ 0 → Completes (.evict tag l) s fun t => answered 1 (.cmp tag st) t ∧ t.host.filter = s.host.filter))
    ∧ ((∀ (s : State) (tag : BitVec 12) (x : Snoop), s.linkActive = true → s.snoop? tag = some x → s.host.waiting = [] →
      s.ringQueue = [] → x.line ≠ windowLine commandRing.base → s.host.phase = .idle →
      (s.owned x.line = false → Completes (.snpAck tag) s fun t => t.snooping x.line = false
        ∧ (x.inv = true → t.tracked x.line = false) ∧ (x.inv = false → t.host.filter = s.host.filter) ∧ onlyParts [.host] s t)
      ∧ (s.owned x.line = true → Completes (.snpAck tag) s fun t => t.ackedSnoop x.line = true
        ∧ t.host.filter = s.host.filter ∧ onlyParts [.host] s t)
      ∧ ∀ data : Vector Byte 64, Completes (.snpData tag data) s fun t =>
        t.readMem (lineMa x.line) 64 = data.toList ∧ t.snooping x.line = false ∧ (x.inv = true → t.tracked x.line = false)
          ∧ (x.inv = false → t.tracked x.line = true ∧ t.owned x.line = false) ∧ onlyParts [.mem, .memory, .host] s t)
      ∧ ∀ (s : State) (b : Nat) (rest : List Nat), s.host.intrHold = b :: rest → Completes .holdoffExpiry s fun t =>
        (s.host.intrDeferred.contains b = false → t.host.intrHold = rest ∧ t.host.queue = s.host.queue)
          ∧ (s.host.intrDeferred.contains b = true → rest.contains b = false → t.host.intrDeferred.contains b = false
            ∧ t.host.intrHold = rest ++ (if s.fld F.HOST_INT_CONTROL_HOLDOFF 0 = 0 then [] else [b]))
          ∧ onlyParts [.host] s t)

/-! ## The command ring -/

/-- HOST_DOORBELL (R540, R542): PRODUCER is read; with nothing new the ring rests, else the entry at CONSUMER is taken
and CONSUMER advances; a restore request begins with that (R380). LOAD (R236, R237, R312): a buffer outside staging is BAD_BUFFER; a plan that fails a check is
refused with its code and counted; a new job's plan that passes is admitted, and replied to once the quotas are
covered, at once or by ADMISSION_REPLY_DEFERRED. While the device goes into DOZE or KEEP a LOAD waits (R479).
Model's choices: log entries 55, 61, 62, 111. -/
def Obligations.CommandRingAndPlans : Prop :=
  (∀ (s : State) (c : Nat), s.power.core = true → s.windowReady = true → s.host.phase = .idle → s.host.filter = [] →
      s.host.snoops = [] → c = s.ringConsumer commandRing →
      let entry := s.readMem (ringsBase + 0x20000 + (c % 4096) * 128) 128
      (c = s.ringProducer commandRing → Completes .hostDoorbell s fun t => t.host.phase = .idle
        ∧ t.host.produced = s.ringProducer commandRing ∧ onlyParts [.host] s t)
      ∧ (c ≠ s.ringProducer commandRing → s.ringFull replyRing.ref (zeros 32) = false → 1 ≤ leAt entry 0 2 →
        leAt entry 0 2 ≤ 6 → (leAt entry 0 2 = 4 → s.saveBusy = true ∨ s.job? (BitVec.ofNat 12 (leAt entry 2 2 / 16)) = none) → Completes .hostDoorbell s fun t => t.host.phase = .taken ∧ t.host.cmd = entry
          ∧ t.readMem (commandRing.base + 64) 4 = leBytes 4 ((c + 1) % 8192) ∧ onlyParts [.mem, .memory, .host] s t)
      ∧ (∀ j, c ≠ s.ringProducer commandRing → s.ringFull replyRing.ref (zeros 32) = false → leAt entry 0 2 = 4 →
        s.saveBusy = false → s.job? (BitVec.ofNat 12 (leAt entry 2 2 / 16)) = some j → Completes .hostDoorbell s fun t =>
          t.host.phase = .taken ∧ t.host.cmd = entry ∧ t.flag F.SAVE_STATUS_RESTORE_BUSY 0 = true
            ∧ (∃ j', t.job? j.id = some j' ∧ j' = { j with restoring := true })
            ∧ onlyParts [.regs, .jobs, .mem, .memory, .host] s t))
    ∧ (∀ s : State, s.holds 1 = true → s.workStops = false → s.ringQuiet → 4 ≤ s.image.ringsGib →
      (s.replyOwed = false → s.bufferOk = false → Completes .load s fun t => s.repliesWith t 3 [] ∧ t.jobs = s.jobs)
      ∧ (∀ sw r, s.replyOwed = false → s.bufferOk = true → s.judgePlan (s.readMem s.bufferMa s.cmdBytes) = .refused sw r →
        Completes .load s fun t => s.repliesWith t 0 (admissionBytes r.code sw r.detail r.needed r.available)
          ∧ t.jobs = s.jobs ∧ t.landings = s.landings ∧ t.ctxs = s.ctxs
          ∧ (r.code ≠ 0 → t.fld F.ADMIT_COUNTS_REFUSALS 0
            = satAdd F.ADMIT_COUNTS_REFUSALS.width (s.fld F.ADMIT_COUNTS_REFUSALS 0) 1))
      ∧ (∀ p self, s.replyOwed = false → s.bufferOk = true → s.judgePlan (s.readMem s.bufferMa s.cmdBytes) = .passed p self →
        s.job? p.job = none → Completes .load s fun t =>
          (∃ j, t.job? p.job = some j ∧ j.cur.plan = p ∧ j.cur.self = self ∧ j.floor = p.firstStep ∧ j.next = none
            ∧ j.admitted = (s.admitPlan p self).quotasCovered)
            ∧ (∃ x, t.landing? p.job = some x) ∧ (∀ id, id ≠ p.job → t.job? id = s.job? id) ∧ t.ctxs = s.ctxs)
      ∧ (∀ (id : BitVec 12) (j : Job), s.job? id = some j → j.admitted = false →
        (s.quotasCovered = false → Completes (.admissionReplyDeferred id) s fun t => t = s)
        ∧ (s.quotasCovered = true → Completes (.admissionReplyDeferred id) s fun t =>
          (∃ j', t.job? id = some j' ∧ j'.admitted = true ∧ j'.cur = j.cur) ∧ t.fld F.ADMIT_STATUS_LAST_CODE 0 = 0
            ∧ t.fld F.ADMIT_COUNTS_ADMISSIONS 0 = satAdd F.ADMIT_COUNTS_ADMISSIONS.width (s.fld F.ADMIT_COUNTS_ADMISSIONS 0) 1
            ∧ s.repliesWith t 0 (admissionBytes 0 (match j.next with | some n => n.self | none => j.cur.self) 0 0 0))))

/-- UNLOAD, its end, SAVE, RESTORE, LANDING_WRITE and LEDGER_READ (R240, R375, R378, R543 to R545): NO_JOB where the job is not live,
but for an UNLOAD that frees a landing kept by an earlier one (R374),
BUSY while a save runs; an unload drops the contexts, and frees the job when its records are out; a save is accepted; a restore that
fails a check changes no job; a ledger record is copied to the buffer, or NOT_FOUND.
Model's choices: log entries 31, 32, 55, 102. -/
def Obligations.HostCommands : Prop :=
  ∀ s : State, s.ringQuiet →
    (∀ (c : Instr) (op : Nat), (c = .unload ∧ op = 2) ∨ (c = .save ∧ op = 3) ∨ (c = .restore ∧ op = 4) ∨ (c = .landingWrite ∧ op = 5) →
      s.holds op = true → s.job? s.cmdJob = none → (c = .unload → s.cmdKeep = true ∨ s.keepsLanding s.cmdJob = false) → Completes c s fun t => s.repliesWith t 5 [] ∧ t.jobs = s.jobs)
    ∧ (s.holds 2 = true → s.job? s.cmdJob = none → s.cmdKeep = false → s.keepsLanding s.cmdJob = true →
      Completes .unload s fun t => s.repliesWith t 0 [] ∧ t.keepsLanding s.cmdJob = false
        ∧ (∀ x ∈ s.landings, x.job ≠ s.cmdJob ∨ x.kept = false → x ∈ t.landings) ∧ t.jobs = s.jobs)
    ∧ (∀ (c : Instr) (op : Nat) (j : Job), (c = .save ∧ op = 3) ∨ (c = .restore ∧ op = 4) → s.holds op = true →
      s.job? s.cmdJob = some j → (c = .restore → j.restoring = false) → s.saveBusy = true → Completes c s fun t => s.repliesWith t 4 [] ∧ t.jobs = s.jobs)
    ∧ (∀ j, s.holds 2 = true → s.job? s.cmdJob = some j → Completes .unload s fun t =>
      t.host.phase = .unloading ∧ (∀ x ∈ t.ctxs, x.2.job ≠ j.id)
        ∧ ∀ j', t.job? j.id = some j' → j'.unloading = some (b2n s.cmdKeep) ∧ j'.bells = [])
    ∧ (∀ id j keep, s.job? id = some j → j.unloading = some keep → s.power.fw = true → s.host.phase = .unloading →
      (s.ctxs.any fun x => x.2.job == id) = false → s.recordsWait j = false → Completes (.unloadFree id) s fun t =>
        s.repliesWith t 0 [] ∧ t.job? id = none ∧ (∀ e, e ≠ id → t.job? e = s.job? e)
          ∧ (keep ≠ 1 → t.landing? id = none) ∧ (keep = 1 → ∀ x, s.landing? id = some x → t.landing? id = some x.keep))
    ∧ (∀ j, s.holds 3 = true → s.job? s.cmdJob = some j → s.saveBusy = false → Completes .save s fun t =>
      s.repliesWith t 1 [] ∧ t.flag F.SAVE_STATUS_SAVE_BUSY 0 = true ∧ t.fld F.SAVE_STATUS_LAST_JOB 0 = j.id.toNat
        ∧ ∃ j' v, t.job? j.id = some j' ∧ j'.save = some v ∧ v.p = s.cmdStepNum ∧ v.slot = s.cmdSlot
          ∧ v.dataPos = s.cmdDataPos ∧ v.running = false)
    ∧ (∀ j y code, s.holds 4 = true → s.job? s.cmdJob = some j → (s.saveBusy = false ∨ j.restoring = true) → s.apart j →
      y = ((s.landing? j.id).bind fun x => x.own? s.cmdSlot) →
      code = s.restoreCode j y s.cmdGen s.cmdStepNum s.cmdDataPos → code ≠ 0 → Completes .restore s fun t =>
        t.fld F.SAVE_STATUS_LAST_CODE 0 = code ∧ t.fld F.SAVE_STATUS_LAST_JOB 0 = j.id.toNat
          ∧ t.jobs = s.jobs.map (fun x => if x.id = j.id then { x with restoring := false } else x) ∧ t.landings = s.landings
          ∧ (j.restoring = true → t.flag F.SAVE_STATUS_RESTORE_BUSY 0 = false))
    ∧ (∀ j, s.holds 5 = true → s.job? s.cmdJob = some j → s.bufferOk = false → Completes .landingWrite s fun t =>
      s.repliesWith t 3 [] ∧ t.landings = s.landings)
    ∧ (∀ j t', s.holds 5 = true → s.job? s.cmdJob = some j → s.apart j → s.bufferOk = true →
      s.imagePart j s.cmdSlot s.cmdImageOff s.cmdImageBytes (s.readMem s.bufferMa s.cmdBytes) = (0, t') →
      Completes .landingWrite s fun t => s.repliesWith t 0 [] ∧ t.landings = t'.landings ∧ t.jobs = s.jobs)
    ∧ (s.holds 6 = true → s.ledgerData = none → Completes .ledgerRead s fun t => s.repliesWith t 6 [])
    ∧ ∀ bs, s.holds 6 = true → s.ledgerData = some bs → s.bufferOk = true → bs.length ≤ s.cmdBytes →
      Completes .ledgerRead s fun t => t.readMem s.bufferMa bs.length = bs ∧ s.repliesWith t 0 [] ∧ t.jobs = s.jobs

/-- PUF_RETRY with a reading that derives the identity of the factory record ends step 3 and chooses the slot (R506, R514, R517).
RESTORE whose checks hold takes the image's residuals, amax rings and tally totals over and reports code 0 (R378, R380).
Model's choices: log entries 14, 31. -/
def Obligations.RetriesAndRestoresComplete : Prop :=
  (∀ (s : State) (puf : PufReading),
      (s.power.core = false ∨ s.boot.pufWait = false → Completes (.pufRetry puf) s fun t => t = s)
      ∧ (s.power.core = true → s.boot.pufWait = true → identityOk s.boot.factory puf = true → Completes (.pufRetry puf) s fun t =>
        t.stage = 1 ∧ t.boot.pufWait = false ∧ t.boot.factory = s.boot.factory ∧ t.boot.store.bootNext = 0
          ∧ t.boot.slot = (if s.boot.store.bootNext ≠ 0 then s.boot.store.bootNext
              else if s.boot.store.lastGood ≠ 0 then s.boot.store.lastGood else 1)
          ∧ (s.fld F.BOOT_STATUS_PUF_READINGS 0 < 4 →
            t.fld F.BOOT_STATUS_PUF_READINGS 0 = s.fld F.BOOT_STATUS_PUF_READINGS 0 + 1)
          ∧ onlyRegs [(.BOOT_STATUS, 0)] s t ∧ onlyParts [.regs, .boot] s t))
    ∧ ∀ (s : State) (j : Job) (y : Shard), s.ringQuiet → s.holds 4 = true → s.job? s.cmdJob = some j →
      (s.saveBusy = false ∨ j.restoring = true) → s.apart j → ((s.landing? j.id).bind fun x => x.own? s.cmdSlot) = some y →
      s.restoreCode j (some y) s.cmdGen s.cmdStepNum s.cmdDataPos = 0 → Completes .restore s fun t =>
        t.fld F.SAVE_STATUS_LAST_CODE 0 = 0 ∧ t.fld F.SAVE_STATUS_LAST_JOB 0 = j.id.toNat ∧ t.landings = s.landings
          ∧ t.ctxs = s.ctxs ∧ (∀ e, e ≠ j.id → t.job? e = s.job? e)
          ∧ ∃ j', t.job? j.id = some j' ∧ j'.restoring = false ∧ j'.floor = j.floor ∧ j'.cur = j.cur
            ∧ j'.rings = (sectionParts (40 + 2 * (j.depth + 1)) (imageSection y.content 3)).map (readRing j.depth s.cmdStepNum)
            ∧ j'.errs = readErrs (j.errs.length + 1) (imageSection y.content 5) j.errs

/-! ## Updates, SMBus, registers -/

/-- The update unit (R516, R547): an operation in bounds is queued, one out of bounds sets UPD_ERR 1 as a reserved value; its end
carries it out, sets UPD_DONE and counts it: an erased run reads 0xFF, a read brings the flash bytes to the buffer.
Model's choices: log entries 6, 56. -/
def Obligations.UpdateOperations : Prop :=
  (∀ (s : State) (c : Instr) (len : BitVec 17) (op : Nat), s.power.core = true →
    (c = .updErase len ∧ op = 1) ∨ (c = .updProgram len ∧ op = 2) ∨ (c = .updRead len ∧ op = 3) →
    (∀ o, s.updAsked op len.toNat = some o → Completes c s fun t => t.upd.ops = s.upd.ops ++ [o] ∧ onlyParts [.upd] s t)
    ∧ (s.updAsked op len.toNat = none → Completes c s fun t => t.fld F.UPD_STATUS_UPD_ERR 0 = 1 ∧ t.reports 4 0x09 0x04
      ∧ onlyParts [.regs, .wt] s t))
    ∧ ∀ (s : State) (o : SpiOp) (rest : List SpiOp) (ok : Bool), s.power.core = true → s.upd.ops = o :: rest →
      Completes (.updOperationDone ok) s fun t =>
        t.upd.ops = rest ∧ t.flag F.UPD_STATUS_UPD_DONE 0 = true ∧ t.fld F.UPD_STATUS_UPD_ERR 0 = (if ok then 0 else 2)
          ∧ t.fld F.UPD_STATUS_OPERATIONS 0 = satAdd F.UPD_STATUS_OPERATIONS.width (s.fld F.UPD_STATUS_OPERATIONS 0) 1
          ∧ (∀ off len, ok = true → o = .erase off len → ∀ a, off ≤ a → a < off + len →
            (sget a t.flash.data).getD flashErased = flashErased)
          ∧ (∀ off len, ok = true → o = .read off len → t.flash = s.flash
            ∧ sgetRun 0 0 len t.upd.buf = s.flashRead s.freeCount off len)
          ∧ (∀ off len, ok = true → o = .program off len → (s.flashAt off len).all (· == flashErased) = true →
            t.flashAt off len = sgetRun 0 0 len s.upd.buf)
          ∧ (∀ off len a, (o = .erase off len ∨ o = .program off len) → a < off ∨ off + len ≤ a →
            (sget a t.flash.data).getD flashErased = (sget a s.flash.data).getD flashErased)
          ∧ onlyParts [.regs, .flash, .upd, .freeCount] s t

/-- The SMBus port (R548, R549, R556, R558): a transaction that fails its PEC has no effect and is counted; SET_ADDR and SMB_READ move
the address and fetch, SMB_WRITE writes and moves on, an access that draws an error is counted; SMB_STATUS and the alert response
change nothing.
Model's choices: log entry 58. -/
def Obligations.SmbusTransactions : Prop :=
  ∀ (s : State) (x : SmbTxn), s.power.change = none → s.pwr < 2 →
    (∀ c, (∃ a, c = .setAddr x a) ∨ c = .smbRead x ∨ (∃ v, c = .smbWrite x v) ∨ c = .smbStatusRead x → s.pecGood x = false →
      Completes c s fun t => counted F.SMB_STATUS_PEC_ERRORS 0 1 s t ∧ onlyParts [.regs] s t)
    ∧ (∀ a, s.pecGood x = true → inKeep a.toNat = false → Completes (.setAddr x a) s fun t =>
      t.smb.addr = a ∧ t.smb.fetching = true ∧ t.smb.value = s.smb.value ∧ onlyParts [.smb] s t)
    ∧ (∀ a n i, s.pecGood x = true → inKeep a.toNat = true → s.accessAt a.toNat = .normal (.reg n i) →
      n ≠ .FT_NOW_LOW → n ≠ .MEM_ERR_ADDR_LOW → Completes (.setAddr x a) s fun t =>
        t.smb.addr = a ∧ t.smb.fetching = false ∧ t.smb.value = BitVec.ofNat 32 (s.regValue n i) ∧ onlyParts [.smb] s t)
    ∧ (s.pecGood x = true → inKeep (s.smb.addr + 4).toNat = false → Completes (.smbRead x) s fun t =>
      t.smb.addr = s.smb.addr + 4 ∧ t.smb.fetching = true ∧ onlyParts [.smb] s t)
    ∧ (∀ v e, s.pecGood x = true → s.accessAt s.smb.addr.toNat = .err e → Completes (.smbWrite x v) s fun t =>
      t.smb.addr = s.smb.addr + 4 ∧ onlyParts [.regs, .smb] s t
        ∧ t.fld F.SMB_STATUS_SMB_REFUSED 0 = satAdd F.SMB_STATUS_SMB_REFUSED.width (s.fld F.SMB_STATUS_SMB_REFUSED 0) 1)
    ∧ (∀ v g, s.pecGood x = true → s.accessAt s.smb.addr.toNat = .normal g → Completes (.smbWrite x v) s fun t =>
      t = { s.writeAt .smbus g v with smb := { (s.writeAt .smbus g v).smb with addr := (s.writeAt .smbus g v).smb.addr + 4 } })
    ∧ (s.pecGood x = true → Completes (.smbStatusRead x) s fun t => t = s)
    ∧ (s.smb.fetching = false → Completes .smbFetchDone s fun t => t = s)
    ∧ (∀ g, s.smb.fetching = true → s.accessAt s.smb.addr.toNat = .normal g → Completes .smbFetchDone s fun t =>
      t.smb.fetching = false ∧ t.smb.value = BitVec.ofNat 32 (s.readTarget g) ∧ t.smb.addr = s.smb.addr)
    ∧ Completes .alertResponse s fun t => t = s

/-- Register accesses (R8, R250, R457, R555 to R559): an access that is not aligned, not mapped or not powered is counted with its
master and cause and answered so; one to a gated block raises kind 0x05 and reads zero; a read of a register shows it and changes
nothing else; a write of a register of RW fields alone writes those and nothing else. The management core and JTAG are answered by their
ports, and a TAP that cannot reach the instrument network reports ERROR (R556); the registers that every fabric die holds alike are
written on all four. FT_NOW_LOW latches fabric time.
Model's choices: log entry 57. -/
def Obligations.RegisterAccesses : Prop :=
  ∀ (s : State) (a v : Word) (m : Master) (tag : BitVec 12),
    (s.reaches m = false → ∀ c, c = .registerRead m a ∨ c = .registerWrite m a v → Completes c s fun t =>
      (m = .jtag → s.tapPowered = true → t.power.tap = ⟨true, 0⟩) ∧ (m ≠ .jtag → t = s) ∧ onlyParts [.power] s t)
    ∧ (s.reaches m = true →
    let plain (n : RegName) : Prop := (regRow n).mask .w1c = 0 ∧ (regRow n).mask .wo = 0 ∧ (regRow n).mask .rws = 0
      ∧ n ∉ [.FORCE, .FORCE_SOURCE, .REACTION, .ISLAND_CLOCK, .CLOCK_GATE_CD, .LANE_PRBS, .PORT_LINK_CONTROL, .HOST_INT_ENABLE, .TIME_CONTROL]
    let written (n : RegName) (i : Nat) (t : State) : Prop := ∀ b, b < 32 →
      bitOf (t.reg n i) b = if bitOf ((regRow n).mask .rw) b then bitOf v.toNat b else bitOf (s.reg n i) b
    let regsOf (n : RegName) (i : Nat) : List (RegName × Nat) := if onEveryDie n then (List.range 4).map fun d => (n, d) else [(n, i)]
    let answered (e : Option BusCause) (x : Nat) (t : State) : Prop := t.power = (s.answer m e x).power
    let refused (e : BusCause) (t : State) : Prop := s.power.core = true →
      t.fld F.BUS_ERRORS_COUNT 0 = satAdd F.BUS_ERRORS_COUNT.width (s.fld F.BUS_ERRORS_COUNT 0) 1
        ∧ t.fld F.BUS_ERRORS_LAST_MASTER 0 = masterCode m ∧ t.fld F.BUS_ERRORS_LAST_CAUSE 0 = e.code
        ∧ t.reg .BUS_ERROR_ADDR 0 = a.toNat
    (∀ e c, c = .registerRead m a ∨ c = .registerWrite m a v → s.accessAt a.toNat = .err e → Completes c s fun t =>
      refused e t ∧ answered (some e) 0 t ∧ onlyRegs [(.BUS_ERRORS, 0), (.BUS_ERROR_ADDR, 0)] s t ∧ onlyParts [.regs, .power] s t)
    ∧ (∀ c, c = .registerRead m a ∨ c = .registerWrite m a v → s.accessAt a.toNat = .gated → Completes c s fun t =>
      t.reports (ownerDie a.toNat) 0x09 0x05 ∧ t.reg .GATED_ADDR 0 = a.toNat ∧ answered none 0 t ∧ onlyParts [.regs, .wt, .power] s t)
    ∧ (∀ n i, s.accessAt a.toNat = .normal (.reg n i) → n ≠ .FT_NOW_LOW → n ≠ .MEM_ERR_ADDR_LOW →
      Completes (.registerRead m a) s fun t => t = s.answer m none (s.regValue n i))
    ∧ (∀ n i, s.accessAt a.toNat = .normal (.reg n i) → s.blockUsed n i = true → plain n →
      Completes (.registerWrite m a v) s fun t => written n i t ∧ (onEveryDie n = true → ∀ d, d < 4 → t.reg n d = t.reg n i)
        ∧ answered none 0 t ∧ onlyRegs (regsOf n i) s t ∧ onlyParts [.regs, .power] s t)
    ∧ (m = .dcl → ∀ e, s.accessAt a.toNat = .err e →
      (Completes (.regRd tag a) s fun t => refused e t ∧ t.host = ((s.took .req 1).post (.regData tag (dclStatus (some e)) 0)).host)
      ∧ Completes (.regWr tag a v) s fun t => refused e t ∧ t.host = ((s.took .req 1).post (.cmp tag (dclStatus (some e)))).host)
    ∧ (m = .dcl → ∀ n i, s.accessAt a.toNat = .normal (.reg n i) →
      (n ≠ .FT_NOW_LOW → n ≠ .MEM_ERR_ADDR_LOW → Completes (.regRd tag a) s fun t =>
        t.host = ((s.took .req 1).post (.regData tag 0 (BitVec.ofNat 32 ((s.took .req 1).regValue n i)))).host ∧ onlyParts [.host] s t)
      ∧ (s.blockUsed n i = true → plain n → Completes (.regWr tag a v) s fun t =>
        written n i t ∧ onlyRegs (regsOf n i) s t ∧ onlyParts [.regs, .host] s t))
    ∧ (s.power.core = true → Completes .ftNowLowRead s fun t => t.time.latch = s.time.now ∧ onlyParts [.time] s t))

/-- R559: an access that draws an answer of rows 1 to 3 of R558 raises COUNT in BUS_ERRORS, sets LAST_MASTER and LAST_CAUSE and
latches the address in BUS_ERROR_ADDR while the control-die domain runs, and changes no register otherwise. -/
def Obligations.BusErrorsAreRecorded : Prop :=
  ∀ (s : State) (a v : Word) (m : Master) (e : BusCause) (tag : BitVec 12) (c : Instr), s.reaches m = true →
    s.accessAt a.toNat = .err e →
    (c = .registerRead m a ∨ c = .registerWrite m a v ∨ (m = .dcl ∧ (c = .regRd tag a ∨ c = .regWr tag a v))) →
    Completes c s fun t =>
      (s.power.core = true →
        t.fld F.BUS_ERRORS_COUNT 0 = satAdd 16 (s.fld F.BUS_ERRORS_COUNT 0) 1
          ∧ t.fld F.BUS_ERRORS_LAST_MASTER 0 = (match m with | .dcl => 0 | .core => 1 | .smbus => 2 | .jtag => 3)
          ∧ t.fld F.BUS_ERRORS_LAST_CAUSE 0 = (match e with | .unaligned => 0 | .unmapped => 1 | .notReady => 2)
          ∧ t.reg .BUS_ERROR_ADDR 0 = a.toNat)
      ∧ (s.power.core = false → t.regs = s.regs)
      ∧ onlyRegs [(.BUS_ERRORS, 0), (.BUS_ERROR_ADDR, 0)] s t ∧ onlyParts [.regs, .host, .power] s t

/-! ## Encodings and memory -/

/-- The header of a frame, laid out in its 32 bytes and read back, is the same header, whatever its fields. -/
def Obligations.HeadersRoundTrip : Prop :=
  (∀ h : BaseHdr, parseBase (baseBytes h) = h) ∧ ∀ x : RedExt, parseRed (redBytes x) = x

/-- Memory: what a write stored is read back, every other byte is as it was, and the list keeps its canonical form.
Model's choices: log entry 8. -/
def Obligations.MemoryReadsWhatWasWritten : Prop :=
  ∀ (s : State) (ma : Nat) (bs : List Byte),
    (s.writeMem ma bs).readMem ma bs.length = bs
      ∧ (∀ a n, a + n ≤ ma ∨ ma + bs.length ≤ a → (s.writeMem ma bs).readMem a n = s.readMem a n)
      ∧ (Memory.wf s.mem = true → Memory.wf (s.writeMem ma bs).mem = true)
end

