-- ==== Sys2Proof/Laws/Arith.lean ====
section
/-! SUPPORT. The lane check of R81 holds of every addition that the model makes: a mismatch can only come from a fault of the
lane's hardware. -/
namespace Sys2Proof.Machine

open Sys2Proof

/-- Six 16-bit digits sum to the number modulo 65,535. -/
theorem digits_mod (n : Nat) (h : n / 65536 / 65536 / 65536 / 65536 / 65536 / 65536 = 0) :
    (n % 65536 + n / 65536 % 65536 + n / 65536 / 65536 % 65536 + n / 65536 / 65536 / 65536 % 65536
      + n / 65536 / 65536 / 65536 / 65536 % 65536 + n / 65536 / 65536 / 65536 / 65536 / 65536 % 65536) % 65535
      = n % 65535 := by omega

/-- The residue of R81 is the remainder modulo 65,535, since 2^16 is 1 there. -/
theorem residue_eq (a : BitVec 96) : residue a = a.toNat % 65535 := by
  have h : a.toNat / 65536 / 65536 / 65536 / 65536 / 65536 / 65536 = 0 := by
    rw [Nat.div_div_eq_div_mul, Nat.div_div_eq_div_mul, Nat.div_div_eq_div_mul, Nat.div_div_eq_div_mul,
      Nat.div_div_eq_div_mul]
    exact Nat.div_eq_of_lt a.isLt
  rw [← digits_mod a.toNat h]
  simp [residue, sumN, List.range_succ, Nat.div_div_eq_div_mul]

/-- A piece addition passes its lane check. -/
theorem residueOk_add (a v : BitVec 96) (c : Bool) :
    residueOk a v (BitVec.ofNat 96 (a.toNat + v.toNat + b2n c)) c (decide (2 ^ 96 ≤ a.toNat + v.toNat + b2n c)) = true := by
  have ha := a.isLt
  have hv := v.isLt
  have hc : b2n c ≤ 1 := by cases c <;> decide
  simp only [residueOk, residue_eq, BitVec.toNat_ofNat, beq_iff_eq]
  generalize b2n c = k at *
  by_cases q : 2 ^ 96 ≤ a.toNat + v.toNat + k
  · have e : b2n (decide (2 ^ 96 ≤ a.toNat + v.toNat + k)) = 1 := by rw [decide_eq_true q]; rfl
    omega
  · have e : b2n (decide (2 ^ 96 ≤ a.toNat + v.toNat + k)) = 0 := by rw [decide_eq_false q]; rfl
    omega

/-- Every pass of an element's addition does. -/
theorem piecesOk_true : ∀ (as vs : List (BitVec 96)) (c : Bool), piecesOk as vs c = true
  | [], _, _ => by simp [piecesOk]
  | _ :: _, [], _ => by simp [piecesOk]
  | a :: as, v :: vs, c => by
    simp only [piecesOk, Bool.and_eq_true]
    exact ⟨residueOk_add a v c, piecesOk_true as vs _⟩

/-- No addition of a tile fails its check. -/
theorem residueMiss_none (c : Ctx) (off : Nat) (vals : List Int) : c.residueMiss off vals = none := by
  unfold Ctx.residueMiss
  rw [Option.map_eq_none_iff, List.find?_eq_none]
  intro e _
  split
  · simp [piecesOk_true]
  · simp

end Sys2Proof.Machine
end

