-- ==== Sys2Proof/Laws/Bits.lean ====
section
/-! SUPPORT. Laws of bit fields and of the sparse stores: what a read gives after a write, and that every write keeps the
one canonical form. -/
namespace Sys2Proof.Machine

/-! ## Bit fields -/

theorem bitsOf_lt (n hi lo : Nat) : bitsOf n hi lo < 2 ^ (hi + 1 - lo) := Nat.mod_lt _ (Nat.two_pow_pos _)

theorem two_pow_split (hi lo : Nat) (h : lo ≤ hi) : 2 ^ (hi + 1) = 2 ^ lo * 2 ^ (hi + 1 - lo) := by
  rw [← Nat.pow_add]; congr 1; omega

/-- A number, split at a field: what lies above it, the field, what lies below it. -/
theorem split_at_field (n hi lo : Nat) (h : lo ≤ hi) :
    n / 2 ^ (hi + 1) * 2 ^ (hi + 1) + bitsOf n hi lo * 2 ^ lo + n % 2 ^ lo = n := by
  have a := Nat.div_add_mod n (2 ^ lo)
  have b := Nat.div_add_mod (n / 2 ^ lo) (2 ^ (hi + 1 - lo))
  rw [two_pow_split hi lo h, ← Nat.div_div_eq_div_mul]
  unfold bitsOf
  calc _ = 2 ^ lo * (2 ^ (hi + 1 - lo) * (n / 2 ^ lo / 2 ^ (hi + 1 - lo)) + n / 2 ^ lo % 2 ^ (hi + 1 - lo)) + n % 2 ^ lo := by
        ring
    _ = n := by rw [b, a]

/-- Replacing a field keeps what lies above and below it. -/
theorem setBitsOf_eq (n hi lo v : Nat) (h : lo ≤ hi) :
    setBitsOf n hi lo v = n / 2 ^ (hi + 1) * 2 ^ (hi + 1) + v % 2 ^ (hi + 1 - lo) * 2 ^ lo + n % 2 ^ lo := by
  have a := split_at_field n hi lo h
  unfold setBitsOf
  omega

/-- Nothing of a field's value spills over its upper edge. -/
theorem field_fits (n hi lo v : Nat) (h : lo ≤ hi) : v % 2 ^ (hi + 1 - lo) * 2 ^ lo + n % 2 ^ lo < 2 ^ (hi + 1) := by
  have a : v % 2 ^ (hi + 1 - lo) < 2 ^ (hi + 1 - lo) := Nat.mod_lt _ (Nat.two_pow_pos _)
  have b : n % 2 ^ lo < 2 ^ lo := Nat.mod_lt _ (Nat.two_pow_pos _)
  rw [two_pow_split hi lo h]
  calc _ < v % 2 ^ (hi + 1 - lo) * 2 ^ lo + 2 ^ lo := by omega
    _ = (v % 2 ^ (hi + 1 - lo) + 1) * 2 ^ lo := by ring
    _ ≤ 2 ^ (hi + 1 - lo) * 2 ^ lo := Nat.mul_le_mul_right _ a
    _ = _ := Nat.mul_comm _ _

theorem setBitsOf_div (n hi lo v : Nat) (h : lo ≤ hi) : setBitsOf n hi lo v / 2 ^ (hi + 1) = n / 2 ^ (hi + 1) := by
  rw [setBitsOf_eq n hi lo v h, Nat.add_assoc, Nat.mul_comm, Nat.mul_add_div (Nat.two_pow_pos _),
    Nat.div_eq_of_lt (field_fits n hi lo v h), Nat.add_zero]

theorem setBitsOf_mod (n hi lo v : Nat) (h : lo ≤ hi) : setBitsOf n hi lo v % 2 ^ lo = n % 2 ^ lo := by
  rw [setBitsOf_eq n hi lo v h, two_pow_split hi lo h,
    show n / (2 ^ lo * 2 ^ (hi + 1 - lo)) * (2 ^ lo * 2 ^ (hi + 1 - lo)) + v % 2 ^ (hi + 1 - lo) * 2 ^ lo + n % 2 ^ lo
      = n % 2 ^ lo + 2 ^ lo * (n / (2 ^ lo * 2 ^ (hi + 1 - lo)) * 2 ^ (hi + 1 - lo) + v % 2 ^ (hi + 1 - lo)) by ring,
    Nat.add_mul_mod_self_left, Nat.mod_mod]

/-- A field reads as what was written to it, cut to its width. -/
theorem bitsOf_setBitsOf (n hi lo v : Nat) (h : lo ≤ hi) : bitsOf (setBitsOf n hi lo v) hi lo = v % 2 ^ (hi + 1 - lo) := by
  have a := split_at_field (setBitsOf n hi lo v) hi lo h
  rw [setBitsOf_div n hi lo v h, setBitsOf_mod n hi lo v h] at a
  have b := setBitsOf_eq n hi lo v h
  have c : bitsOf (setBitsOf n hi lo v) hi lo * 2 ^ lo = v % 2 ^ (hi + 1 - lo) * 2 ^ lo := by omega
  exact Nat.eq_of_mul_eq_mul_right (Nat.two_pow_pos _) c

/-- A field above a written one keeps its value. -/
theorem bitsOf_setBitsOf_above (n hi lo v k l : Nat) (h : lo ≤ hi) (d : hi < l) :
    bitsOf (setBitsOf n hi lo v) k l = bitsOf n k l := by
  have e : 2 ^ l = 2 ^ (hi + 1) * 2 ^ (l - (hi + 1)) := by rw [← Nat.pow_add]; congr 1; omega
  unfold bitsOf
  rw [e, ← Nat.div_div_eq_div_mul, ← Nat.div_div_eq_div_mul, setBitsOf_div n hi lo v h]

/-- The low part of a number decides a field that lies in it. -/
theorem bitsOf_mod (n k l w : Nat) (d : k < w) (h : l ≤ k) : bitsOf (n % 2 ^ w) k l = bitsOf n k l := by
  have e : 2 ^ w = 2 ^ l * 2 ^ (w - l) := by rw [← Nat.pow_add]; congr 1; omega
  unfold bitsOf
  rw [e, Nat.mod_mul_right_div_self, Nat.mod_mod_of_dvd]
  exact Nat.pow_dvd_pow 2 (by omega)

/-- A field below a written one keeps its value. -/
theorem bitsOf_setBitsOf_below (n hi lo v k l : Nat) (h : lo ≤ hi) (hk : l ≤ k) (d : k < lo) :
    bitsOf (setBitsOf n hi lo v) k l = bitsOf n k l := by
  rw [← bitsOf_mod (setBitsOf n hi lo v) k l lo d hk, setBitsOf_mod n hi lo v h, bitsOf_mod n k l lo d hk]

/-- A word stays a word. -/
theorem setBitsOf_lt (n hi lo v w : Nat) (h : lo ≤ hi) (hw : hi < w) (hn : n < 2 ^ w) : setBitsOf n hi lo v < 2 ^ w := by
  have e : 2 ^ w = 2 ^ (hi + 1) * 2 ^ (w - (hi + 1)) := by rw [← Nat.pow_add]; congr 1; omega
  rw [e] at hn ⊢
  have a := setBitsOf_div n hi lo v h
  have b : n / 2 ^ (hi + 1) < 2 ^ (w - (hi + 1)) := Nat.div_lt_of_lt_mul hn
  rw [← a] at b
  exact (Nat.div_lt_iff_lt_mul (Nat.two_pow_pos _)).mp b |>.trans_eq (Nat.mul_comm _ _)

/-! ## Sparse stores -/

section Sparse
variable {α : Type}

theorem sget_sput (k j : Nat) (v : α) (m : List (Nat × α)) : sget k (sput j v m) = if j = k then some v else sget k m := by
  induction m with
  | nil => simp [sput, sget]
  | cons p t ih =>
    obtain ⟨i, w⟩ := p
    by_cases a : j < i
    · simp [sput, a, sget]
    · by_cases b : j = i
      · subst b
        simp only [sput, a, if_false, if_true, sget]
        by_cases c : j = k <;> simp [c]
      · simp only [sput, a, b, if_false, sget, ih]
        by_cases c : i = k
        · subst c; simp [b]
        · simp [c]

theorem sget_sdel (k j : Nat) (m : List (Nat × α)) : sget k (sdel j m) = if j = k then none else sget k m := by
  induction m with
  | nil => simp [sdel, sget]
  | cons p t ih =>
    obtain ⟨i, w⟩ := p
    by_cases a : i = j
    · subst a
      simp only [sdel, if_true, ih, sget]
      by_cases c : i = k <;> simp [c]
    · simp only [sdel, a, if_false, sget, ih]
      by_cases c : i = k
      · subst c; simp [Ne.symm a]
      · simp [c]

variable [DecidableEq α]

/-- A write leaves every other key alone. -/
theorem sget_sset_ne (d : α) (k j : Nat) (v : α) (m : List (Nat × α)) (h : j ≠ k) : sget k (sset d j v m) = sget k m := by
  unfold sset; split <;> simp [sget_sdel, sget_sput, h]

/-- A key reads as what was written to it, where an unlisted key reads as `d`. -/
theorem sget_sset_getD (d : α) (k : Nat) (v : α) (m : List (Nat × α)) : (sget k (sset d k v m)).getD d = v := by
  unfold sset; split <;> simp_all [sget_sdel, sget_sput]

/-- A read of one key after a run of writes: the value of its place in the run, else what it read before. -/
theorem sget_ssetRun (d : α) (k : Nat) : ∀ (vs : List α) (j : Nat) (m : List (Nat × α)),
    (sget k (ssetRun d j vs m)).getD d = if j ≤ k ∧ k < j + vs.length then vs.getD (k - j) d else (sget k m).getD d := by
  intro vs
  induction vs with
  | nil => intro j m; simp only [ssetRun, List.length_nil]; rw [if_neg (by omega)]
  | cons v vs ih =>
    intro j m
    rw [ssetRun, ih]
    by_cases e : j = k
    · subst e
      rw [if_neg (by omega), sget_sset_getD, if_pos (by simp)]
      simp
    · rw [sget_sset_ne d k j v m e]
      by_cases c : j + 1 ≤ k ∧ k < j + 1 + vs.length
      · rw [if_pos c, if_pos (by simp only [List.length_cons]; omega)]
        obtain ⟨n, rfl⟩ : ∃ n, k = j + 1 + n := ⟨k - (j + 1), by omega⟩
        simp [show j + 1 + n - j = n + 1 by omega]
      · rw [if_neg c, if_neg (by simp only [List.length_cons]; omega)]

omit [DecidableEq α] in
/-- A read of a run is the read of each of its keys. -/
theorem getElem?_sgetRun (d : α) (m : List (Nat × α)) : ∀ (n k i : Nat),
    (sgetRun d k n m)[i]? = if i < n then some ((sget (k + i) m).getD d) else none := by
  intro n
  induction n with
  | zero => intro k i; simp [sgetRun]
  | succ n ih =>
    intro k i
    cases i with
    | zero => simp [sgetRun]
    | succ i => simp [sgetRun, ih, Nat.add_assoc, Nat.add_comm 1 i]

omit [DecidableEq α] in
theorem length_sgetRun (d : α) (m : List (Nat × α)) : ∀ n k : Nat, (sgetRun d k n m).length = n := by
  intro n; induction n with
  | zero => intro k; rfl
  | succ n ih => intro k; simp [sgetRun, ih]

/-! ### The canonical form -/

omit [DecidableEq α] in
/-- Keys strictly rising, as a statement about every pair of neighbours' first key. -/
theorem srising_cons (j : Nat) (w : α) (t : List (Nat × α)) :
    srising ((j, w) :: t) = true ↔ (∀ p, t.head? = some p → j < p.1) ∧ srising t = true := by
  cases t with
  | nil => simp [srising]
  | cons p t => obtain ⟨k, v⟩ := p; simp [srising]

omit [DecidableEq α] in
theorem head_sput (j : Nat) (v : α) (m : List (Nat × α)) :
    (sput j v m).head? = some (j, v) ∨ ((sput j v m).head? = m.head? ∧ ∀ p, m.head? = some p → p.1 < j) := by
  cases m with
  | nil => exact .inl rfl
  | cons p t =>
    obtain ⟨i, w⟩ := p
    by_cases a : j < i
    · exact .inl (by simp [sput, a])
    · by_cases b : j = i
      · exact .inl (by simp [sput, b])
      · refine .inr ⟨by simp [sput, a, b], ?_⟩
        intro p hp; cases hp; show i < j; omega

omit [DecidableEq α] in
theorem srising_sput (j : Nat) (v : α) : ∀ m : List (Nat × α), srising m = true → srising (sput j v m) = true := by
  intro m
  induction m with
  | nil => intro _; rfl
  | cons p t ih =>
    obtain ⟨i, w⟩ := p
    intro h
    have h' := (srising_cons i w t).mp h
    by_cases a : j < i
    · simp only [sput, a, if_true]; exact (srising_cons j v _).mpr ⟨by intro p hp; cases hp; exact a, h⟩
    · by_cases b : j = i
      · subst b; simp only [sput, a, if_false, if_true]; exact (srising_cons j v t).mpr h'
      · simp only [sput, a, b, if_false]
        refine (srising_cons i w _).mpr ⟨?_, ih h'.2⟩
        intro p hp
        rcases head_sput j v t with q | ⟨q, _⟩
        · rw [q] at hp; cases hp; show i < j; omega
        · rw [q] at hp; exact h'.1 p hp

omit [DecidableEq α] in
theorem head_sdel (j : Nat) : ∀ m : List (Nat × α), srising m = true → ∀ p, (sdel j m).head? = some p →
    ∃ q, m.head? = some q ∧ q.1 ≤ p.1 := by
  intro m
  induction m with
  | nil => intro _ p hp; cases hp
  | cons q t ih =>
    obtain ⟨i, w⟩ := q
    intro h p hp
    have h' := (srising_cons i w t).mp h
    by_cases a : i = j
    · simp only [sdel, a, if_true] at hp
      obtain ⟨q, hq, hle⟩ := ih h'.2 p hp
      exact ⟨(i, w), rfl, Nat.le_of_lt (Nat.lt_of_lt_of_le (h'.1 q hq) hle)⟩
    · simp only [sdel, a, if_false] at hp; cases hp; exact ⟨(i, w), rfl, Nat.le_refl _⟩

omit [DecidableEq α] in
theorem srising_sdel (j : Nat) : ∀ m : List (Nat × α), srising m = true → srising (sdel j m) = true := by
  intro m
  induction m with
  | nil => intro _; rfl
  | cons q t ih =>
    obtain ⟨i, w⟩ := q
    intro h
    have h' := (srising_cons i w t).mp h
    by_cases a : i = j
    · simp only [sdel, a, if_true]; exact ih h'.2
    · simp only [sdel, a, if_false]
      refine (srising_cons i w _).mpr ⟨?_, ih h'.2⟩
      intro p hp
      obtain ⟨q, hq, hle⟩ := head_sdel j t h'.2 p hp
      exact Nat.lt_of_lt_of_le (h'.1 q hq) hle

omit [DecidableEq α] in
theorem mem_sput (j : Nat) (v : α) : ∀ (m : List (Nat × α)) (p : Nat × α), p ∈ sput j v m → p = (j, v) ∨ p ∈ m := by
  intro m
  induction m with
  | nil => intro p hp; exact .inl (List.mem_singleton.mp hp)
  | cons q t ih =>
    obtain ⟨i, w⟩ := q
    intro p hp
    unfold sput at hp
    split at hp
    · rcases List.mem_cons.mp hp with e | e
      · exact .inl e
      · exact .inr e
    · split at hp
      · rcases List.mem_cons.mp hp with e | e
        · exact .inl e
        · exact .inr (List.mem_cons_of_mem _ e)
      · rcases List.mem_cons.mp hp with e | e
        · exact .inr (e ▸ List.mem_cons_self)
        · exact (ih p e).imp_right (List.mem_cons_of_mem _)

omit [DecidableEq α] in
theorem mem_sdel (j : Nat) : ∀ (m : List (Nat × α)) (p : Nat × α), p ∈ sdel j m → p ∈ m := by
  intro m
  induction m with
  | nil => intro p hp; exact hp
  | cons q t ih =>
    obtain ⟨i, w⟩ := q
    intro p hp
    unfold sdel at hp
    split at hp
    · exact List.mem_cons_of_mem _ (ih p hp)
    · rcases List.mem_cons.mp hp with e | e
      · exact e ▸ List.mem_cons_self
      · exact List.mem_cons_of_mem _ (ih p e)

theorem scanon_iff (d : Nat → α) (m : List (Nat × α)) :
    scanon d m = true ↔ srising m = true ∧ ∀ p ∈ m, p.2 ≠ d p.1 := by simp [scanon]

/-- A write keeps the canonical form. -/
theorem scanon_sset (d : α) (k : Nat) (v : α) (m : List (Nat × α)) (h : scanon (fun _ => d) m = true) :
    scanon (fun _ => d) (sset d k v m) = true := by
  obtain ⟨a, b⟩ := (scanon_iff _ m).mp h
  unfold sset
  split
  · exact (scanon_iff _ _).mpr ⟨srising_sdel k m a, fun p hp => b p (mem_sdel k m p hp)⟩
  · rename_i hv
    refine (scanon_iff _ _).mpr ⟨srising_sput k v m a, fun p hp => ?_⟩
    rcases mem_sput k v m p hp with e | e
    · exact e ▸ hv
    · exact b p e

/-- A run of writes keeps the canonical form. -/
theorem scanon_ssetRun (d : α) : ∀ (vs : List α) (k : Nat) (m : List (Nat × α)), scanon (fun _ => d) m = true →
    scanon (fun _ => d) (ssetRun d k vs m) = true := by
  intro vs
  induction vs with
  | nil => intro k m h; exact h
  | cons v vs ih => intro k m h; exact ih (k + 1) _ (scanon_sset d k v m h)

end Sparse

end Sys2Proof.Machine
end

