-- ==== Sys2Proof/Laws/State.lean ====
section
/-! SUPPORT. One lemma per field and update of the state: what each of the small operations leaves alone, so that no proof
unfolds a record update. -/
namespace Sys2Proof.Machine

open Sys2Proof

/-! ## State.setReg -/

@[simp] theorem setReg_arrays (s : State) (n : RegName) (i v : Nat) : (s.setReg n i v).arrays = s.arrays := rfl
@[simp] theorem setReg_mem (s : State) (n : RegName) (i v : Nat) : (s.setReg n i v).mem = s.mem := rfl
@[simp] theorem setReg_memory (s : State) (n : RegName) (i v : Nat) : (s.setReg n i v).memory = s.memory := rfl
@[simp] theorem setReg_image (s : State) (n : RegName) (i v : Nat) : (s.setReg n i v).image = s.image := rfl
@[simp] theorem setReg_ports (s : State) (n : RegName) (i v : Nat) : (s.setReg n i v).ports = s.ports := rfl
@[simp] theorem setReg_negs (s : State) (n : RegName) (i v : Nat) : (s.setReg n i v).negs = s.negs := rfl
@[simp] theorem setReg_cruise (s : State) (n : RegName) (i v : Nat) : (s.setReg n i v).cruise = s.cruise := rfl
@[simp] theorem setReg_time (s : State) (n : RegName) (i v : Nat) : (s.setReg n i v).time = s.time := rfl
@[simp] theorem setReg_bank0 (s : State) (n : RegName) (i v : Nat) : (s.setReg n i v).bank0 = s.bank0 := rfl
@[simp] theorem setReg_bank1 (s : State) (n : RegName) (i v : Nat) : (s.setReg n i v).bank1 = s.bank1 := rfl
@[simp] theorem setReg_dieTables (s : State) (n : RegName) (i v : Nat) : (s.setReg n i v).dieTables = s.dieTables := rfl
@[simp] theorem setReg_epoch (s : State) (n : RegName) (i v : Nat) : (s.setReg n i v).epoch = s.epoch := rfl
@[simp] theorem setReg_core (s : State) (n : RegName) (i v : Nat) : (s.setReg n i v).core = s.core := rfl
@[simp] theorem setReg_ctxs (s : State) (n : RegName) (i v : Nat) : (s.setReg n i v).ctxs = s.ctxs := rfl
@[simp] theorem setReg_descCache (s : State) (n : RegName) (i v : Nat) : (s.setReg n i v).descCache = s.descCache := rfl
@[simp] theorem setReg_jobs (s : State) (n : RegName) (i v : Nat) : (s.setReg n i v).jobs = s.jobs := rfl
@[simp] theorem setReg_landings (s : State) (n : RegName) (i v : Nat) : (s.setReg n i v).landings = s.landings := rfl
@[simp] theorem setReg_mcs (s : State) (n : RegName) (i v : Nat) : (s.setReg n i v).mcs = s.mcs := rfl
@[simp] theorem setReg_outs (s : State) (n : RegName) (i v : Nat) : (s.setReg n i v).outs = s.outs := rfl
@[simp] theorem setReg_ended (s : State) (n : RegName) (i v : Nat) : (s.setReg n i v).ended = s.ended := rfl
@[simp] theorem setReg_rxs (s : State) (n : RegName) (i v : Nat) : (s.setReg n i v).rxs = s.rxs := rfl
@[simp] theorem setReg_wt (s : State) (n : RegName) (i v : Nat) : (s.setReg n i v).wt = s.wt := rfl
@[simp] theorem setReg_host (s : State) (n : RegName) (i v : Nat) : (s.setReg n i v).host = s.host := rfl
@[simp] theorem setReg_ringQueue (s : State) (n : RegName) (i v : Nat) : (s.setReg n i v).ringQueue = s.ringQueue := rfl
@[simp] theorem setReg_retained (s : State) (n : RegName) (i v : Nat) : (s.setReg n i v).retained = s.retained := rfl
@[simp] theorem setReg_signQueue (s : State) (n : RegName) (i v : Nat) : (s.setReg n i v).signQueue = s.signQueue := rfl
@[simp] theorem setReg_power (s : State) (n : RegName) (i v : Nat) : (s.setReg n i v).power = s.power := rfl
@[simp] theorem setReg_flash (s : State) (n : RegName) (i v : Nat) : (s.setReg n i v).flash = s.flash := rfl
@[simp] theorem setReg_boot (s : State) (n : RegName) (i v : Nat) : (s.setReg n i v).boot = s.boot := rfl
@[simp] theorem setReg_upd (s : State) (n : RegName) (i v : Nat) : (s.setReg n i v).upd = s.upd := rfl
@[simp] theorem setReg_smb (s : State) (n : RegName) (i v : Nat) : (s.setReg n i v).smb = s.smb := rfl
@[simp] theorem setReg_freeCount (s : State) (n : RegName) (i v : Nat) : (s.setReg n i v).freeCount = s.freeCount := rfl
@[simp] theorem setReg_pending (s : State) (n : RegName) (i v : Nat) : (s.setReg n i v).pending = s.pending := rfl

/-! ## State.setFld -/

@[simp] theorem setFld_arrays (s : State) (f : Fld) (i v : Nat) : (s.setFld f i v).arrays = s.arrays := rfl
@[simp] theorem setFld_mem (s : State) (f : Fld) (i v : Nat) : (s.setFld f i v).mem = s.mem := rfl
@[simp] theorem setFld_memory (s : State) (f : Fld) (i v : Nat) : (s.setFld f i v).memory = s.memory := rfl
@[simp] theorem setFld_image (s : State) (f : Fld) (i v : Nat) : (s.setFld f i v).image = s.image := rfl
@[simp] theorem setFld_ports (s : State) (f : Fld) (i v : Nat) : (s.setFld f i v).ports = s.ports := rfl
@[simp] theorem setFld_negs (s : State) (f : Fld) (i v : Nat) : (s.setFld f i v).negs = s.negs := rfl
@[simp] theorem setFld_cruise (s : State) (f : Fld) (i v : Nat) : (s.setFld f i v).cruise = s.cruise := rfl
@[simp] theorem setFld_time (s : State) (f : Fld) (i v : Nat) : (s.setFld f i v).time = s.time := rfl
@[simp] theorem setFld_bank0 (s : State) (f : Fld) (i v : Nat) : (s.setFld f i v).bank0 = s.bank0 := rfl
@[simp] theorem setFld_bank1 (s : State) (f : Fld) (i v : Nat) : (s.setFld f i v).bank1 = s.bank1 := rfl
@[simp] theorem setFld_dieTables (s : State) (f : Fld) (i v : Nat) : (s.setFld f i v).dieTables = s.dieTables := rfl
@[simp] theorem setFld_epoch (s : State) (f : Fld) (i v : Nat) : (s.setFld f i v).epoch = s.epoch := rfl
@[simp] theorem setFld_core (s : State) (f : Fld) (i v : Nat) : (s.setFld f i v).core = s.core := rfl
@[simp] theorem setFld_ctxs (s : State) (f : Fld) (i v : Nat) : (s.setFld f i v).ctxs = s.ctxs := rfl
@[simp] theorem setFld_descCache (s : State) (f : Fld) (i v : Nat) : (s.setFld f i v).descCache = s.descCache := rfl
@[simp] theorem setFld_jobs (s : State) (f : Fld) (i v : Nat) : (s.setFld f i v).jobs = s.jobs := rfl
@[simp] theorem setFld_landings (s : State) (f : Fld) (i v : Nat) : (s.setFld f i v).landings = s.landings := rfl
@[simp] theorem setFld_mcs (s : State) (f : Fld) (i v : Nat) : (s.setFld f i v).mcs = s.mcs := rfl
@[simp] theorem setFld_outs (s : State) (f : Fld) (i v : Nat) : (s.setFld f i v).outs = s.outs := rfl
@[simp] theorem setFld_ended (s : State) (f : Fld) (i v : Nat) : (s.setFld f i v).ended = s.ended := rfl
@[simp] theorem setFld_rxs (s : State) (f : Fld) (i v : Nat) : (s.setFld f i v).rxs = s.rxs := rfl
@[simp] theorem setFld_wt (s : State) (f : Fld) (i v : Nat) : (s.setFld f i v).wt = s.wt := rfl
@[simp] theorem setFld_host (s : State) (f : Fld) (i v : Nat) : (s.setFld f i v).host = s.host := rfl
@[simp] theorem setFld_ringQueue (s : State) (f : Fld) (i v : Nat) : (s.setFld f i v).ringQueue = s.ringQueue := rfl
@[simp] theorem setFld_retained (s : State) (f : Fld) (i v : Nat) : (s.setFld f i v).retained = s.retained := rfl
@[simp] theorem setFld_signQueue (s : State) (f : Fld) (i v : Nat) : (s.setFld f i v).signQueue = s.signQueue := rfl
@[simp] theorem setFld_power (s : State) (f : Fld) (i v : Nat) : (s.setFld f i v).power = s.power := rfl
@[simp] theorem setFld_flash (s : State) (f : Fld) (i v : Nat) : (s.setFld f i v).flash = s.flash := rfl
@[simp] theorem setFld_boot (s : State) (f : Fld) (i v : Nat) : (s.setFld f i v).boot = s.boot := rfl
@[simp] theorem setFld_upd (s : State) (f : Fld) (i v : Nat) : (s.setFld f i v).upd = s.upd := rfl
@[simp] theorem setFld_smb (s : State) (f : Fld) (i v : Nat) : (s.setFld f i v).smb = s.smb := rfl
@[simp] theorem setFld_freeCount (s : State) (f : Fld) (i v : Nat) : (s.setFld f i v).freeCount = s.freeCount := rfl
@[simp] theorem setFld_pending (s : State) (f : Fld) (i v : Nat) : (s.setFld f i v).pending = s.pending := rfl

/-! ## State.setFlag -/

@[simp] theorem setFlag_arrays (s : State) (f : Fld) (i : Nat) (b : Bool) : (s.setFlag f i b).arrays = s.arrays := rfl
@[simp] theorem setFlag_mem (s : State) (f : Fld) (i : Nat) (b : Bool) : (s.setFlag f i b).mem = s.mem := rfl
@[simp] theorem setFlag_memory (s : State) (f : Fld) (i : Nat) (b : Bool) : (s.setFlag f i b).memory = s.memory := rfl
@[simp] theorem setFlag_image (s : State) (f : Fld) (i : Nat) (b : Bool) : (s.setFlag f i b).image = s.image := rfl
@[simp] theorem setFlag_ports (s : State) (f : Fld) (i : Nat) (b : Bool) : (s.setFlag f i b).ports = s.ports := rfl
@[simp] theorem setFlag_negs (s : State) (f : Fld) (i : Nat) (b : Bool) : (s.setFlag f i b).negs = s.negs := rfl
@[simp] theorem setFlag_cruise (s : State) (f : Fld) (i : Nat) (b : Bool) : (s.setFlag f i b).cruise = s.cruise := rfl
@[simp] theorem setFlag_time (s : State) (f : Fld) (i : Nat) (b : Bool) : (s.setFlag f i b).time = s.time := rfl
@[simp] theorem setFlag_bank0 (s : State) (f : Fld) (i : Nat) (b : Bool) : (s.setFlag f i b).bank0 = s.bank0 := rfl
@[simp] theorem setFlag_bank1 (s : State) (f : Fld) (i : Nat) (b : Bool) : (s.setFlag f i b).bank1 = s.bank1 := rfl
@[simp] theorem setFlag_dieTables (s : State) (f : Fld) (i : Nat) (b : Bool) : (s.setFlag f i b).dieTables = s.dieTables := rfl
@[simp] theorem setFlag_epoch (s : State) (f : Fld) (i : Nat) (b : Bool) : (s.setFlag f i b).epoch = s.epoch := rfl
@[simp] theorem setFlag_core (s : State) (f : Fld) (i : Nat) (b : Bool) : (s.setFlag f i b).core = s.core := rfl
@[simp] theorem setFlag_ctxs (s : State) (f : Fld) (i : Nat) (b : Bool) : (s.setFlag f i b).ctxs = s.ctxs := rfl
@[simp] theorem setFlag_descCache (s : State) (f : Fld) (i : Nat) (b : Bool) : (s.setFlag f i b).descCache = s.descCache := rfl
@[simp] theorem setFlag_jobs (s : State) (f : Fld) (i : Nat) (b : Bool) : (s.setFlag f i b).jobs = s.jobs := rfl
@[simp] theorem setFlag_landings (s : State) (f : Fld) (i : Nat) (b : Bool) : (s.setFlag f i b).landings = s.landings := rfl
@[simp] theorem setFlag_mcs (s : State) (f : Fld) (i : Nat) (b : Bool) : (s.setFlag f i b).mcs = s.mcs := rfl
@[simp] theorem setFlag_outs (s : State) (f : Fld) (i : Nat) (b : Bool) : (s.setFlag f i b).outs = s.outs := rfl
@[simp] theorem setFlag_ended (s : State) (f : Fld) (i : Nat) (b : Bool) : (s.setFlag f i b).ended = s.ended := rfl
@[simp] theorem setFlag_rxs (s : State) (f : Fld) (i : Nat) (b : Bool) : (s.setFlag f i b).rxs = s.rxs := rfl
@[simp] theorem setFlag_wt (s : State) (f : Fld) (i : Nat) (b : Bool) : (s.setFlag f i b).wt = s.wt := rfl
@[simp] theorem setFlag_host (s : State) (f : Fld) (i : Nat) (b : Bool) : (s.setFlag f i b).host = s.host := rfl
@[simp] theorem setFlag_ringQueue (s : State) (f : Fld) (i : Nat) (b : Bool) : (s.setFlag f i b).ringQueue = s.ringQueue := rfl
@[simp] theorem setFlag_retained (s : State) (f : Fld) (i : Nat) (b : Bool) : (s.setFlag f i b).retained = s.retained := rfl
@[simp] theorem setFlag_signQueue (s : State) (f : Fld) (i : Nat) (b : Bool) : (s.setFlag f i b).signQueue = s.signQueue := rfl
@[simp] theorem setFlag_power (s : State) (f : Fld) (i : Nat) (b : Bool) : (s.setFlag f i b).power = s.power := rfl
@[simp] theorem setFlag_flash (s : State) (f : Fld) (i : Nat) (b : Bool) : (s.setFlag f i b).flash = s.flash := rfl
@[simp] theorem setFlag_boot (s : State) (f : Fld) (i : Nat) (b : Bool) : (s.setFlag f i b).boot = s.boot := rfl
@[simp] theorem setFlag_upd (s : State) (f : Fld) (i : Nat) (b : Bool) : (s.setFlag f i b).upd = s.upd := rfl
@[simp] theorem setFlag_smb (s : State) (f : Fld) (i : Nat) (b : Bool) : (s.setFlag f i b).smb = s.smb := rfl
@[simp] theorem setFlag_freeCount (s : State) (f : Fld) (i : Nat) (b : Bool) : (s.setFlag f i b).freeCount = s.freeCount := rfl
@[simp] theorem setFlag_pending (s : State) (f : Fld) (i : Nat) (b : Bool) : (s.setFlag f i b).pending = s.pending := rfl

/-! ## State.bumpBy -/

@[simp] theorem bumpBy_arrays (s : State) (f : Fld) (i k : Nat) : (s.bumpBy f i k).arrays = s.arrays := rfl
@[simp] theorem bumpBy_mem (s : State) (f : Fld) (i k : Nat) : (s.bumpBy f i k).mem = s.mem := rfl
@[simp] theorem bumpBy_memory (s : State) (f : Fld) (i k : Nat) : (s.bumpBy f i k).memory = s.memory := rfl
@[simp] theorem bumpBy_image (s : State) (f : Fld) (i k : Nat) : (s.bumpBy f i k).image = s.image := rfl
@[simp] theorem bumpBy_ports (s : State) (f : Fld) (i k : Nat) : (s.bumpBy f i k).ports = s.ports := rfl
@[simp] theorem bumpBy_negs (s : State) (f : Fld) (i k : Nat) : (s.bumpBy f i k).negs = s.negs := rfl
@[simp] theorem bumpBy_cruise (s : State) (f : Fld) (i k : Nat) : (s.bumpBy f i k).cruise = s.cruise := rfl
@[simp] theorem bumpBy_time (s : State) (f : Fld) (i k : Nat) : (s.bumpBy f i k).time = s.time := rfl
@[simp] theorem bumpBy_bank0 (s : State) (f : Fld) (i k : Nat) : (s.bumpBy f i k).bank0 = s.bank0 := rfl
@[simp] theorem bumpBy_bank1 (s : State) (f : Fld) (i k : Nat) : (s.bumpBy f i k).bank1 = s.bank1 := rfl
@[simp] theorem bumpBy_dieTables (s : State) (f : Fld) (i k : Nat) : (s.bumpBy f i k).dieTables = s.dieTables := rfl
@[simp] theorem bumpBy_epoch (s : State) (f : Fld) (i k : Nat) : (s.bumpBy f i k).epoch = s.epoch := rfl
@[simp] theorem bumpBy_core (s : State) (f : Fld) (i k : Nat) : (s.bumpBy f i k).core = s.core := rfl
@[simp] theorem bumpBy_ctxs (s : State) (f : Fld) (i k : Nat) : (s.bumpBy f i k).ctxs = s.ctxs := rfl
@[simp] theorem bumpBy_descCache (s : State) (f : Fld) (i k : Nat) : (s.bumpBy f i k).descCache = s.descCache := rfl
@[simp] theorem bumpBy_jobs (s : State) (f : Fld) (i k : Nat) : (s.bumpBy f i k).jobs = s.jobs := rfl
@[simp] theorem bumpBy_landings (s : State) (f : Fld) (i k : Nat) : (s.bumpBy f i k).landings = s.landings := rfl
@[simp] theorem bumpBy_mcs (s : State) (f : Fld) (i k : Nat) : (s.bumpBy f i k).mcs = s.mcs := rfl
@[simp] theorem bumpBy_outs (s : State) (f : Fld) (i k : Nat) : (s.bumpBy f i k).outs = s.outs := rfl
@[simp] theorem bumpBy_ended (s : State) (f : Fld) (i k : Nat) : (s.bumpBy f i k).ended = s.ended := rfl
@[simp] theorem bumpBy_rxs (s : State) (f : Fld) (i k : Nat) : (s.bumpBy f i k).rxs = s.rxs := rfl
@[simp] theorem bumpBy_wt (s : State) (f : Fld) (i k : Nat) : (s.bumpBy f i k).wt = s.wt := rfl
@[simp] theorem bumpBy_host (s : State) (f : Fld) (i k : Nat) : (s.bumpBy f i k).host = s.host := rfl
@[simp] theorem bumpBy_ringQueue (s : State) (f : Fld) (i k : Nat) : (s.bumpBy f i k).ringQueue = s.ringQueue := rfl
@[simp] theorem bumpBy_retained (s : State) (f : Fld) (i k : Nat) : (s.bumpBy f i k).retained = s.retained := rfl
@[simp] theorem bumpBy_signQueue (s : State) (f : Fld) (i k : Nat) : (s.bumpBy f i k).signQueue = s.signQueue := rfl
@[simp] theorem bumpBy_power (s : State) (f : Fld) (i k : Nat) : (s.bumpBy f i k).power = s.power := rfl
@[simp] theorem bumpBy_flash (s : State) (f : Fld) (i k : Nat) : (s.bumpBy f i k).flash = s.flash := rfl
@[simp] theorem bumpBy_boot (s : State) (f : Fld) (i k : Nat) : (s.bumpBy f i k).boot = s.boot := rfl
@[simp] theorem bumpBy_upd (s : State) (f : Fld) (i k : Nat) : (s.bumpBy f i k).upd = s.upd := rfl
@[simp] theorem bumpBy_smb (s : State) (f : Fld) (i k : Nat) : (s.bumpBy f i k).smb = s.smb := rfl
@[simp] theorem bumpBy_freeCount (s : State) (f : Fld) (i k : Nat) : (s.bumpBy f i k).freeCount = s.freeCount := rfl
@[simp] theorem bumpBy_pending (s : State) (f : Fld) (i k : Nat) : (s.bumpBy f i k).pending = s.pending := rfl

/-! ## State.bump -/

@[simp] theorem bump_arrays (s : State) (f : Fld) (i : Nat) : (s.bump f i).arrays = s.arrays := rfl
@[simp] theorem bump_mem (s : State) (f : Fld) (i : Nat) : (s.bump f i).mem = s.mem := rfl
@[simp] theorem bump_memory (s : State) (f : Fld) (i : Nat) : (s.bump f i).memory = s.memory := rfl
@[simp] theorem bump_image (s : State) (f : Fld) (i : Nat) : (s.bump f i).image = s.image := rfl
@[simp] theorem bump_ports (s : State) (f : Fld) (i : Nat) : (s.bump f i).ports = s.ports := rfl
@[simp] theorem bump_negs (s : State) (f : Fld) (i : Nat) : (s.bump f i).negs = s.negs := rfl
@[simp] theorem bump_cruise (s : State) (f : Fld) (i : Nat) : (s.bump f i).cruise = s.cruise := rfl
@[simp] theorem bump_time (s : State) (f : Fld) (i : Nat) : (s.bump f i).time = s.time := rfl
@[simp] theorem bump_bank0 (s : State) (f : Fld) (i : Nat) : (s.bump f i).bank0 = s.bank0 := rfl
@[simp] theorem bump_bank1 (s : State) (f : Fld) (i : Nat) : (s.bump f i).bank1 = s.bank1 := rfl
@[simp] theorem bump_dieTables (s : State) (f : Fld) (i : Nat) : (s.bump f i).dieTables = s.dieTables := rfl
@[simp] theorem bump_epoch (s : State) (f : Fld) (i : Nat) : (s.bump f i).epoch = s.epoch := rfl
@[simp] theorem bump_core (s : State) (f : Fld) (i : Nat) : (s.bump f i).core = s.core := rfl
@[simp] theorem bump_ctxs (s : State) (f : Fld) (i : Nat) : (s.bump f i).ctxs = s.ctxs := rfl
@[simp] theorem bump_descCache (s : State) (f : Fld) (i : Nat) : (s.bump f i).descCache = s.descCache := rfl
@[simp] theorem bump_jobs (s : State) (f : Fld) (i : Nat) : (s.bump f i).jobs = s.jobs := rfl
@[simp] theorem bump_landings (s : State) (f : Fld) (i : Nat) : (s.bump f i).landings = s.landings := rfl
@[simp] theorem bump_mcs (s : State) (f : Fld) (i : Nat) : (s.bump f i).mcs = s.mcs := rfl
@[simp] theorem bump_outs (s : State) (f : Fld) (i : Nat) : (s.bump f i).outs = s.outs := rfl
@[simp] theorem bump_ended (s : State) (f : Fld) (i : Nat) : (s.bump f i).ended = s.ended := rfl
@[simp] theorem bump_rxs (s : State) (f : Fld) (i : Nat) : (s.bump f i).rxs = s.rxs := rfl
@[simp] theorem bump_wt (s : State) (f : Fld) (i : Nat) : (s.bump f i).wt = s.wt := rfl
@[simp] theorem bump_host (s : State) (f : Fld) (i : Nat) : (s.bump f i).host = s.host := rfl
@[simp] theorem bump_ringQueue (s : State) (f : Fld) (i : Nat) : (s.bump f i).ringQueue = s.ringQueue := rfl
@[simp] theorem bump_retained (s : State) (f : Fld) (i : Nat) : (s.bump f i).retained = s.retained := rfl
@[simp] theorem bump_signQueue (s : State) (f : Fld) (i : Nat) : (s.bump f i).signQueue = s.signQueue := rfl
@[simp] theorem bump_power (s : State) (f : Fld) (i : Nat) : (s.bump f i).power = s.power := rfl
@[simp] theorem bump_flash (s : State) (f : Fld) (i : Nat) : (s.bump f i).flash = s.flash := rfl
@[simp] theorem bump_boot (s : State) (f : Fld) (i : Nat) : (s.bump f i).boot = s.boot := rfl
@[simp] theorem bump_upd (s : State) (f : Fld) (i : Nat) : (s.bump f i).upd = s.upd := rfl
@[simp] theorem bump_smb (s : State) (f : Fld) (i : Nat) : (s.bump f i).smb = s.smb := rfl
@[simp] theorem bump_freeCount (s : State) (f : Fld) (i : Nat) : (s.bump f i).freeCount = s.freeCount := rfl
@[simp] theorem bump_pending (s : State) (f : Fld) (i : Nat) : (s.bump f i).pending = s.pending := rfl

/-! ## State.resetReg -/

@[simp] theorem resetReg_frame (s : State) (n : RegName) (i : Nat) :
    (s.resetReg n i).arrays = s.arrays ∧ (s.resetReg n i).mem = s.mem ∧ (s.resetReg n i).memory = s.memory ∧
    (s.resetReg n i).image = s.image ∧ (s.resetReg n i).ports = s.ports ∧ (s.resetReg n i).negs = s.negs ∧
    (s.resetReg n i).cruise = s.cruise ∧ (s.resetReg n i).time = s.time ∧ (s.resetReg n i).bank0 = s.bank0 ∧
    (s.resetReg n i).bank1 = s.bank1 ∧ (s.resetReg n i).dieTables = s.dieTables ∧ (s.resetReg n i).epoch = s.epoch ∧
    (s.resetReg n i).core = s.core ∧ (s.resetReg n i).ctxs = s.ctxs ∧ (s.resetReg n i).descCache = s.descCache ∧
    (s.resetReg n i).jobs = s.jobs ∧ (s.resetReg n i).landings = s.landings ∧ (s.resetReg n i).mcs = s.mcs ∧
    (s.resetReg n i).outs = s.outs ∧ (s.resetReg n i).ended = s.ended ∧ (s.resetReg n i).rxs = s.rxs ∧
    (s.resetReg n i).wt = s.wt ∧ (s.resetReg n i).host = s.host ∧ (s.resetReg n i).ringQueue = s.ringQueue ∧
    (s.resetReg n i).retained = s.retained ∧ (s.resetReg n i).signQueue = s.signQueue ∧
    (s.resetReg n i).power = s.power ∧ (s.resetReg n i).flash = s.flash ∧ (s.resetReg n i).boot = s.boot ∧
    (s.resetReg n i).upd = s.upd ∧ (s.resetReg n i).smb = s.smb ∧ (s.resetReg n i).freeCount = s.freeCount ∧
    (s.resetReg n i).pending = s.pending := by
  and_intros <;> rfl

/-! ## State.kindSeen -/

@[simp] theorem kindSeen_frame (s : State) (k : Nat) :
    (s.kindSeen k).arrays = s.arrays ∧ (s.kindSeen k).mem = s.mem ∧ (s.kindSeen k).memory = s.memory ∧
    (s.kindSeen k).image = s.image ∧ (s.kindSeen k).ports = s.ports ∧ (s.kindSeen k).negs = s.negs ∧
    (s.kindSeen k).cruise = s.cruise ∧ (s.kindSeen k).time = s.time ∧ (s.kindSeen k).bank0 = s.bank0 ∧
    (s.kindSeen k).bank1 = s.bank1 ∧ (s.kindSeen k).dieTables = s.dieTables ∧ (s.kindSeen k).epoch = s.epoch ∧
    (s.kindSeen k).core = s.core ∧ (s.kindSeen k).ctxs = s.ctxs ∧ (s.kindSeen k).descCache = s.descCache ∧
    (s.kindSeen k).jobs = s.jobs ∧ (s.kindSeen k).landings = s.landings ∧ (s.kindSeen k).mcs = s.mcs ∧
    (s.kindSeen k).outs = s.outs ∧ (s.kindSeen k).ended = s.ended ∧ (s.kindSeen k).rxs = s.rxs ∧
    (s.kindSeen k).wt = s.wt ∧ (s.kindSeen k).host = s.host ∧ (s.kindSeen k).ringQueue = s.ringQueue ∧
    (s.kindSeen k).retained = s.retained ∧ (s.kindSeen k).signQueue = s.signQueue ∧ (s.kindSeen k).power = s.power ∧
    (s.kindSeen k).flash = s.flash ∧ (s.kindSeen k).boot = s.boot ∧ (s.kindSeen k).upd = s.upd ∧
    (s.kindSeen k).smb = s.smb ∧ (s.kindSeen k).freeCount = s.freeCount ∧ (s.kindSeen k).pending = s.pending := by
  and_intros <;> rfl

/-! ## State.raiseMsg -/

@[simp] theorem raiseMsg_frame (s : State) (m : FaultMsg) :
    (s.raiseMsg m).arrays = s.arrays ∧ (s.raiseMsg m).mem = s.mem ∧ (s.raiseMsg m).memory = s.memory ∧
    (s.raiseMsg m).image = s.image ∧ (s.raiseMsg m).ports = s.ports ∧ (s.raiseMsg m).negs = s.negs ∧
    (s.raiseMsg m).cruise = s.cruise ∧ (s.raiseMsg m).time = s.time ∧ (s.raiseMsg m).bank0 = s.bank0 ∧
    (s.raiseMsg m).bank1 = s.bank1 ∧ (s.raiseMsg m).dieTables = s.dieTables ∧ (s.raiseMsg m).epoch = s.epoch ∧
    (s.raiseMsg m).core = s.core ∧ (s.raiseMsg m).ctxs = s.ctxs ∧ (s.raiseMsg m).descCache = s.descCache ∧
    (s.raiseMsg m).jobs = s.jobs ∧ (s.raiseMsg m).landings = s.landings ∧ (s.raiseMsg m).mcs = s.mcs ∧
    (s.raiseMsg m).outs = s.outs ∧ (s.raiseMsg m).ended = s.ended ∧ (s.raiseMsg m).rxs = s.rxs ∧
    (s.raiseMsg m).host = s.host ∧ (s.raiseMsg m).ringQueue = s.ringQueue ∧ (s.raiseMsg m).retained = s.retained ∧
    (s.raiseMsg m).signQueue = s.signQueue ∧ (s.raiseMsg m).power = s.power ∧ (s.raiseMsg m).flash = s.flash ∧
    (s.raiseMsg m).boot = s.boot ∧ (s.raiseMsg m).upd = s.upd ∧ (s.raiseMsg m).smb = s.smb ∧
    (s.raiseMsg m).freeCount = s.freeCount ∧ (s.raiseMsg m).pending = s.pending := by
  and_intros <;> rfl

/-! ## State.raise -/

@[simp] theorem raise_arrays (s : State) (d b i k a x : Nat) : (s.raise d b i k a x).arrays = s.arrays := rfl
@[simp] theorem raise_mem (s : State) (d b i k a x : Nat) : (s.raise d b i k a x).mem = s.mem := rfl
@[simp] theorem raise_memory (s : State) (d b i k a x : Nat) : (s.raise d b i k a x).memory = s.memory := rfl
@[simp] theorem raise_image (s : State) (d b i k a x : Nat) : (s.raise d b i k a x).image = s.image := rfl
@[simp] theorem raise_ports (s : State) (d b i k a x : Nat) : (s.raise d b i k a x).ports = s.ports := rfl
@[simp] theorem raise_negs (s : State) (d b i k a x : Nat) : (s.raise d b i k a x).negs = s.negs := rfl
@[simp] theorem raise_cruise (s : State) (d b i k a x : Nat) : (s.raise d b i k a x).cruise = s.cruise := rfl
@[simp] theorem raise_time (s : State) (d b i k a x : Nat) : (s.raise d b i k a x).time = s.time := rfl
@[simp] theorem raise_bank0 (s : State) (d b i k a x : Nat) : (s.raise d b i k a x).bank0 = s.bank0 := rfl
@[simp] theorem raise_bank1 (s : State) (d b i k a x : Nat) : (s.raise d b i k a x).bank1 = s.bank1 := rfl
@[simp] theorem raise_dieTables (s : State) (d b i k a x : Nat) : (s.raise d b i k a x).dieTables = s.dieTables := rfl
@[simp] theorem raise_epoch (s : State) (d b i k a x : Nat) : (s.raise d b i k a x).epoch = s.epoch := rfl
@[simp] theorem raise_core (s : State) (d b i k a x : Nat) : (s.raise d b i k a x).core = s.core := rfl
@[simp] theorem raise_ctxs (s : State) (d b i k a x : Nat) : (s.raise d b i k a x).ctxs = s.ctxs := rfl
@[simp] theorem raise_descCache (s : State) (d b i k a x : Nat) : (s.raise d b i k a x).descCache = s.descCache := rfl
@[simp] theorem raise_jobs (s : State) (d b i k a x : Nat) : (s.raise d b i k a x).jobs = s.jobs := rfl
@[simp] theorem raise_landings (s : State) (d b i k a x : Nat) : (s.raise d b i k a x).landings = s.landings := rfl
@[simp] theorem raise_mcs (s : State) (d b i k a x : Nat) : (s.raise d b i k a x).mcs = s.mcs := rfl
@[simp] theorem raise_outs (s : State) (d b i k a x : Nat) : (s.raise d b i k a x).outs = s.outs := rfl
@[simp] theorem raise_ended (s : State) (d b i k a x : Nat) : (s.raise d b i k a x).ended = s.ended := rfl
@[simp] theorem raise_rxs (s : State) (d b i k a x : Nat) : (s.raise d b i k a x).rxs = s.rxs := rfl
@[simp] theorem raise_host (s : State) (d b i k a x : Nat) : (s.raise d b i k a x).host = s.host := rfl
@[simp] theorem raise_ringQueue (s : State) (d b i k a x : Nat) : (s.raise d b i k a x).ringQueue = s.ringQueue := rfl
@[simp] theorem raise_retained (s : State) (d b i k a x : Nat) : (s.raise d b i k a x).retained = s.retained := rfl
@[simp] theorem raise_signQueue (s : State) (d b i k a x : Nat) : (s.raise d b i k a x).signQueue = s.signQueue := rfl
@[simp] theorem raise_power (s : State) (d b i k a x : Nat) : (s.raise d b i k a x).power = s.power := rfl
@[simp] theorem raise_flash (s : State) (d b i k a x : Nat) : (s.raise d b i k a x).flash = s.flash := rfl
@[simp] theorem raise_boot (s : State) (d b i k a x : Nat) : (s.raise d b i k a x).boot = s.boot := rfl
@[simp] theorem raise_upd (s : State) (d b i k a x : Nat) : (s.raise d b i k a x).upd = s.upd := rfl
@[simp] theorem raise_smb (s : State) (d b i k a x : Nat) : (s.raise d b i k a x).smb = s.smb := rfl
@[simp] theorem raise_freeCount (s : State) (d b i k a x : Nat) : (s.raise d b i k a x).freeCount = s.freeCount := rfl
@[simp] theorem raise_pending (s : State) (d b i k a x : Nat) : (s.raise d b i k a x).pending = s.pending := rfl

/-! ## State.raiseFrom -/

@[simp] theorem raiseFrom_frame (s : State) (c : BitVec 19) (k a x : Nat) :
    (s.raiseFrom c k a x).arrays = s.arrays ∧ (s.raiseFrom c k a x).mem = s.mem ∧
    (s.raiseFrom c k a x).memory = s.memory ∧ (s.raiseFrom c k a x).image = s.image ∧
    (s.raiseFrom c k a x).ports = s.ports ∧ (s.raiseFrom c k a x).negs = s.negs ∧
    (s.raiseFrom c k a x).cruise = s.cruise ∧ (s.raiseFrom c k a x).time = s.time ∧
    (s.raiseFrom c k a x).bank0 = s.bank0 ∧ (s.raiseFrom c k a x).bank1 = s.bank1 ∧
    (s.raiseFrom c k a x).dieTables = s.dieTables ∧ (s.raiseFrom c k a x).epoch = s.epoch ∧
    (s.raiseFrom c k a x).core = s.core ∧ (s.raiseFrom c k a x).ctxs = s.ctxs ∧
    (s.raiseFrom c k a x).descCache = s.descCache ∧ (s.raiseFrom c k a x).jobs = s.jobs ∧
    (s.raiseFrom c k a x).landings = s.landings ∧ (s.raiseFrom c k a x).mcs = s.mcs ∧
    (s.raiseFrom c k a x).outs = s.outs ∧ (s.raiseFrom c k a x).ended = s.ended ∧ (s.raiseFrom c k a x).rxs = s.rxs ∧
    (s.raiseFrom c k a x).host = s.host ∧ (s.raiseFrom c k a x).ringQueue = s.ringQueue ∧
    (s.raiseFrom c k a x).retained = s.retained ∧ (s.raiseFrom c k a x).signQueue = s.signQueue ∧
    (s.raiseFrom c k a x).power = s.power ∧ (s.raiseFrom c k a x).flash = s.flash ∧
    (s.raiseFrom c k a x).boot = s.boot ∧ (s.raiseFrom c k a x).upd = s.upd ∧ (s.raiseFrom c k a x).smb = s.smb ∧
    (s.raiseFrom c k a x).freeCount = s.freeCount ∧ (s.raiseFrom c k a x).pending = s.pending := by
  and_intros <;> rfl

/-! ## State.reservedWrite -/

@[simp] theorem reservedWrite_frame (s : State) (a x : Nat) :
    (s.reservedWrite a x).arrays = s.arrays ∧ (s.reservedWrite a x).mem = s.mem ∧
    (s.reservedWrite a x).memory = s.memory ∧ (s.reservedWrite a x).image = s.image ∧
    (s.reservedWrite a x).ports = s.ports ∧ (s.reservedWrite a x).negs = s.negs ∧
    (s.reservedWrite a x).cruise = s.cruise ∧ (s.reservedWrite a x).time = s.time ∧
    (s.reservedWrite a x).bank0 = s.bank0 ∧ (s.reservedWrite a x).bank1 = s.bank1 ∧
    (s.reservedWrite a x).dieTables = s.dieTables ∧ (s.reservedWrite a x).epoch = s.epoch ∧
    (s.reservedWrite a x).core = s.core ∧ (s.reservedWrite a x).ctxs = s.ctxs ∧
    (s.reservedWrite a x).descCache = s.descCache ∧ (s.reservedWrite a x).jobs = s.jobs ∧
    (s.reservedWrite a x).landings = s.landings ∧ (s.reservedWrite a x).mcs = s.mcs ∧
    (s.reservedWrite a x).outs = s.outs ∧ (s.reservedWrite a x).ended = s.ended ∧ (s.reservedWrite a x).rxs = s.rxs ∧
    (s.reservedWrite a x).host = s.host ∧ (s.reservedWrite a x).ringQueue = s.ringQueue ∧
    (s.reservedWrite a x).retained = s.retained ∧ (s.reservedWrite a x).signQueue = s.signQueue ∧
    (s.reservedWrite a x).power = s.power ∧ (s.reservedWrite a x).flash = s.flash ∧
    (s.reservedWrite a x).boot = s.boot ∧ (s.reservedWrite a x).upd = s.upd ∧ (s.reservedWrite a x).smb = s.smb ∧
    (s.reservedWrite a x).freeCount = s.freeCount ∧ (s.reservedWrite a x).pending = s.pending := by
  and_intros <;> rfl

/-! ## State.endCond -/

@[simp] theorem endCond_frame (s : State) (m : FaultMsg) :
    (s.endCond m).regs = s.regs ∧ (s.endCond m).arrays = s.arrays ∧ (s.endCond m).mem = s.mem ∧
    (s.endCond m).memory = s.memory ∧ (s.endCond m).image = s.image ∧ (s.endCond m).ports = s.ports ∧
    (s.endCond m).negs = s.negs ∧ (s.endCond m).cruise = s.cruise ∧ (s.endCond m).time = s.time ∧
    (s.endCond m).bank0 = s.bank0 ∧ (s.endCond m).bank1 = s.bank1 ∧ (s.endCond m).dieTables = s.dieTables ∧
    (s.endCond m).epoch = s.epoch ∧ (s.endCond m).core = s.core ∧ (s.endCond m).ctxs = s.ctxs ∧
    (s.endCond m).descCache = s.descCache ∧ (s.endCond m).jobs = s.jobs ∧ (s.endCond m).landings = s.landings ∧
    (s.endCond m).mcs = s.mcs ∧ (s.endCond m).outs = s.outs ∧ (s.endCond m).ended = s.ended ∧
    (s.endCond m).rxs = s.rxs ∧ (s.endCond m).host = s.host ∧ (s.endCond m).ringQueue = s.ringQueue ∧
    (s.endCond m).retained = s.retained ∧ (s.endCond m).signQueue = s.signQueue ∧ (s.endCond m).power = s.power ∧
    (s.endCond m).flash = s.flash ∧ (s.endCond m).boot = s.boot ∧ (s.endCond m).upd = s.upd ∧
    (s.endCond m).smb = s.smb ∧ (s.endCond m).freeCount = s.freeCount ∧ (s.endCond m).pending = s.pending := by
  and_intros <;> rfl

/-! ## State.mapWt -/

@[simp] theorem mapWt_frame (s : State) (g : WtSt → WtSt) :
    (s.mapWt g).regs = s.regs ∧ (s.mapWt g).arrays = s.arrays ∧ (s.mapWt g).mem = s.mem ∧
    (s.mapWt g).memory = s.memory ∧ (s.mapWt g).image = s.image ∧ (s.mapWt g).ports = s.ports ∧
    (s.mapWt g).negs = s.negs ∧ (s.mapWt g).cruise = s.cruise ∧ (s.mapWt g).time = s.time ∧
    (s.mapWt g).bank0 = s.bank0 ∧ (s.mapWt g).bank1 = s.bank1 ∧ (s.mapWt g).dieTables = s.dieTables ∧
    (s.mapWt g).epoch = s.epoch ∧ (s.mapWt g).core = s.core ∧ (s.mapWt g).ctxs = s.ctxs ∧
    (s.mapWt g).descCache = s.descCache ∧ (s.mapWt g).jobs = s.jobs ∧ (s.mapWt g).landings = s.landings ∧
    (s.mapWt g).mcs = s.mcs ∧ (s.mapWt g).outs = s.outs ∧ (s.mapWt g).ended = s.ended ∧ (s.mapWt g).rxs = s.rxs ∧
    (s.mapWt g).host = s.host ∧ (s.mapWt g).ringQueue = s.ringQueue ∧ (s.mapWt g).retained = s.retained ∧
    (s.mapWt g).signQueue = s.signQueue ∧ (s.mapWt g).power = s.power ∧ (s.mapWt g).flash = s.flash ∧
    (s.mapWt g).boot = s.boot ∧ (s.mapWt g).upd = s.upd ∧ (s.mapWt g).smb = s.smb ∧
    (s.mapWt g).freeCount = s.freeCount ∧ (s.mapWt g).pending = s.pending := by
  and_intros <;> rfl

/-! ## State.mapCore -/

@[simp] theorem mapCore_regs (s : State) (g : CoreSt → CoreSt) : (s.mapCore g).regs = s.regs := rfl
@[simp] theorem mapCore_arrays (s : State) (g : CoreSt → CoreSt) : (s.mapCore g).arrays = s.arrays := rfl
@[simp] theorem mapCore_mem (s : State) (g : CoreSt → CoreSt) : (s.mapCore g).mem = s.mem := rfl
@[simp] theorem mapCore_memory (s : State) (g : CoreSt → CoreSt) : (s.mapCore g).memory = s.memory := rfl
@[simp] theorem mapCore_image (s : State) (g : CoreSt → CoreSt) : (s.mapCore g).image = s.image := rfl
@[simp] theorem mapCore_ports (s : State) (g : CoreSt → CoreSt) : (s.mapCore g).ports = s.ports := rfl
@[simp] theorem mapCore_negs (s : State) (g : CoreSt → CoreSt) : (s.mapCore g).negs = s.negs := rfl
@[simp] theorem mapCore_cruise (s : State) (g : CoreSt → CoreSt) : (s.mapCore g).cruise = s.cruise := rfl
@[simp] theorem mapCore_time (s : State) (g : CoreSt → CoreSt) : (s.mapCore g).time = s.time := rfl
@[simp] theorem mapCore_bank0 (s : State) (g : CoreSt → CoreSt) : (s.mapCore g).bank0 = s.bank0 := rfl
@[simp] theorem mapCore_bank1 (s : State) (g : CoreSt → CoreSt) : (s.mapCore g).bank1 = s.bank1 := rfl
@[simp] theorem mapCore_dieTables (s : State) (g : CoreSt → CoreSt) : (s.mapCore g).dieTables = s.dieTables := rfl
@[simp] theorem mapCore_epoch (s : State) (g : CoreSt → CoreSt) : (s.mapCore g).epoch = s.epoch := rfl
@[simp] theorem mapCore_ctxs (s : State) (g : CoreSt → CoreSt) : (s.mapCore g).ctxs = s.ctxs := rfl
@[simp] theorem mapCore_descCache (s : State) (g : CoreSt → CoreSt) : (s.mapCore g).descCache = s.descCache := rfl
@[simp] theorem mapCore_jobs (s : State) (g : CoreSt → CoreSt) : (s.mapCore g).jobs = s.jobs := rfl
@[simp] theorem mapCore_landings (s : State) (g : CoreSt → CoreSt) : (s.mapCore g).landings = s.landings := rfl
@[simp] theorem mapCore_mcs (s : State) (g : CoreSt → CoreSt) : (s.mapCore g).mcs = s.mcs := rfl
@[simp] theorem mapCore_outs (s : State) (g : CoreSt → CoreSt) : (s.mapCore g).outs = s.outs := rfl
@[simp] theorem mapCore_ended (s : State) (g : CoreSt → CoreSt) : (s.mapCore g).ended = s.ended := rfl
@[simp] theorem mapCore_rxs (s : State) (g : CoreSt → CoreSt) : (s.mapCore g).rxs = s.rxs := rfl
@[simp] theorem mapCore_wt (s : State) (g : CoreSt → CoreSt) : (s.mapCore g).wt = s.wt := rfl
@[simp] theorem mapCore_host (s : State) (g : CoreSt → CoreSt) : (s.mapCore g).host = s.host := rfl
@[simp] theorem mapCore_ringQueue (s : State) (g : CoreSt → CoreSt) : (s.mapCore g).ringQueue = s.ringQueue := rfl
@[simp] theorem mapCore_retained (s : State) (g : CoreSt → CoreSt) : (s.mapCore g).retained = s.retained := rfl
@[simp] theorem mapCore_signQueue (s : State) (g : CoreSt → CoreSt) : (s.mapCore g).signQueue = s.signQueue := rfl
@[simp] theorem mapCore_power (s : State) (g : CoreSt → CoreSt) : (s.mapCore g).power = s.power := rfl
@[simp] theorem mapCore_flash (s : State) (g : CoreSt → CoreSt) : (s.mapCore g).flash = s.flash := rfl
@[simp] theorem mapCore_boot (s : State) (g : CoreSt → CoreSt) : (s.mapCore g).boot = s.boot := rfl
@[simp] theorem mapCore_upd (s : State) (g : CoreSt → CoreSt) : (s.mapCore g).upd = s.upd := rfl
@[simp] theorem mapCore_smb (s : State) (g : CoreSt → CoreSt) : (s.mapCore g).smb = s.smb := rfl
@[simp] theorem mapCore_freeCount (s : State) (g : CoreSt → CoreSt) : (s.mapCore g).freeCount = s.freeCount := rfl
@[simp] theorem mapCore_pending (s : State) (g : CoreSt → CoreSt) : (s.mapCore g).pending = s.pending := rfl

/-! ## State.mapHeld -/

@[simp] theorem mapHeld_frame (s : State) (i : Nat) (g : Held → Held) :
    (s.mapHeld i g).regs = s.regs ∧ (s.mapHeld i g).arrays = s.arrays ∧ (s.mapHeld i g).mem = s.mem ∧
    (s.mapHeld i g).memory = s.memory ∧ (s.mapHeld i g).image = s.image ∧ (s.mapHeld i g).ports = s.ports ∧
    (s.mapHeld i g).negs = s.negs ∧ (s.mapHeld i g).cruise = s.cruise ∧ (s.mapHeld i g).time = s.time ∧
    (s.mapHeld i g).bank0 = s.bank0 ∧ (s.mapHeld i g).bank1 = s.bank1 ∧ (s.mapHeld i g).dieTables = s.dieTables ∧
    (s.mapHeld i g).epoch = s.epoch ∧ (s.mapHeld i g).ctxs = s.ctxs ∧ (s.mapHeld i g).descCache = s.descCache ∧
    (s.mapHeld i g).jobs = s.jobs ∧ (s.mapHeld i g).landings = s.landings ∧ (s.mapHeld i g).mcs = s.mcs ∧
    (s.mapHeld i g).outs = s.outs ∧ (s.mapHeld i g).ended = s.ended ∧ (s.mapHeld i g).rxs = s.rxs ∧
    (s.mapHeld i g).wt = s.wt ∧ (s.mapHeld i g).host = s.host ∧ (s.mapHeld i g).ringQueue = s.ringQueue ∧
    (s.mapHeld i g).retained = s.retained ∧ (s.mapHeld i g).signQueue = s.signQueue ∧
    (s.mapHeld i g).power = s.power ∧ (s.mapHeld i g).flash = s.flash ∧ (s.mapHeld i g).boot = s.boot ∧
    (s.mapHeld i g).upd = s.upd ∧ (s.mapHeld i g).smb = s.smb ∧ (s.mapHeld i g).freeCount = s.freeCount ∧
    (s.mapHeld i g).pending = s.pending := by
  and_intros <;> rfl

/-! ## State.mapCopy -/

@[simp] theorem mapCopy_frame (s : State) (i : Nat) (g : Copy → Copy) :
    (s.mapCopy i g).regs = s.regs ∧ (s.mapCopy i g).arrays = s.arrays ∧ (s.mapCopy i g).mem = s.mem ∧
    (s.mapCopy i g).memory = s.memory ∧ (s.mapCopy i g).image = s.image ∧ (s.mapCopy i g).ports = s.ports ∧
    (s.mapCopy i g).negs = s.negs ∧ (s.mapCopy i g).cruise = s.cruise ∧ (s.mapCopy i g).time = s.time ∧
    (s.mapCopy i g).bank0 = s.bank0 ∧ (s.mapCopy i g).bank1 = s.bank1 ∧ (s.mapCopy i g).dieTables = s.dieTables ∧
    (s.mapCopy i g).epoch = s.epoch ∧ (s.mapCopy i g).ctxs = s.ctxs ∧ (s.mapCopy i g).descCache = s.descCache ∧
    (s.mapCopy i g).jobs = s.jobs ∧ (s.mapCopy i g).landings = s.landings ∧ (s.mapCopy i g).mcs = s.mcs ∧
    (s.mapCopy i g).outs = s.outs ∧ (s.mapCopy i g).ended = s.ended ∧ (s.mapCopy i g).rxs = s.rxs ∧
    (s.mapCopy i g).wt = s.wt ∧ (s.mapCopy i g).host = s.host ∧ (s.mapCopy i g).ringQueue = s.ringQueue ∧
    (s.mapCopy i g).retained = s.retained ∧ (s.mapCopy i g).signQueue = s.signQueue ∧
    (s.mapCopy i g).power = s.power ∧ (s.mapCopy i g).flash = s.flash ∧ (s.mapCopy i g).boot = s.boot ∧
    (s.mapCopy i g).upd = s.upd ∧ (s.mapCopy i g).smb = s.smb ∧ (s.mapCopy i g).freeCount = s.freeCount ∧
    (s.mapCopy i g).pending = s.pending := by
  and_intros <;> rfl

/-! ## State.freeHeld -/

@[simp] theorem freeHeld_frame (s : State) (i : Nat) :
    (s.freeHeld i).regs = s.regs ∧ (s.freeHeld i).arrays = s.arrays ∧ (s.freeHeld i).mem = s.mem ∧
    (s.freeHeld i).memory = s.memory ∧ (s.freeHeld i).image = s.image ∧ (s.freeHeld i).ports = s.ports ∧
    (s.freeHeld i).negs = s.negs ∧ (s.freeHeld i).cruise = s.cruise ∧ (s.freeHeld i).time = s.time ∧
    (s.freeHeld i).bank0 = s.bank0 ∧ (s.freeHeld i).bank1 = s.bank1 ∧ (s.freeHeld i).dieTables = s.dieTables ∧
    (s.freeHeld i).epoch = s.epoch ∧ (s.freeHeld i).ctxs = s.ctxs ∧ (s.freeHeld i).descCache = s.descCache ∧
    (s.freeHeld i).jobs = s.jobs ∧ (s.freeHeld i).landings = s.landings ∧ (s.freeHeld i).mcs = s.mcs ∧
    (s.freeHeld i).outs = s.outs ∧ (s.freeHeld i).ended = s.ended ∧ (s.freeHeld i).rxs = s.rxs ∧
    (s.freeHeld i).wt = s.wt ∧ (s.freeHeld i).host = s.host ∧ (s.freeHeld i).ringQueue = s.ringQueue ∧
    (s.freeHeld i).retained = s.retained ∧ (s.freeHeld i).signQueue = s.signQueue ∧ (s.freeHeld i).power = s.power ∧
    (s.freeHeld i).flash = s.flash ∧ (s.freeHeld i).boot = s.boot ∧ (s.freeHeld i).upd = s.upd ∧
    (s.freeHeld i).smb = s.smb ∧ (s.freeHeld i).freeCount = s.freeCount ∧ (s.freeHeld i).pending = s.pending := by
  unfold State.freeHeld; split <;> (and_intros <;> rfl)

/-! ## State.transmit -/

@[simp] theorem transmit_frame (s : State) (p : Nat) (g : Nat → PcsTx → PcsTx) :
    (s.transmit p g).regs = s.regs ∧ (s.transmit p g).arrays = s.arrays ∧ (s.transmit p g).mem = s.mem ∧
    (s.transmit p g).memory = s.memory ∧ (s.transmit p g).image = s.image ∧ (s.transmit p g).ports = s.ports ∧
    (s.transmit p g).negs = s.negs ∧ (s.transmit p g).cruise = s.cruise ∧ (s.transmit p g).time = s.time ∧
    (s.transmit p g).bank0 = s.bank0 ∧ (s.transmit p g).bank1 = s.bank1 ∧ (s.transmit p g).dieTables = s.dieTables ∧
    (s.transmit p g).epoch = s.epoch ∧ (s.transmit p g).ctxs = s.ctxs ∧ (s.transmit p g).descCache = s.descCache ∧
    (s.transmit p g).jobs = s.jobs ∧ (s.transmit p g).landings = s.landings ∧ (s.transmit p g).mcs = s.mcs ∧
    (s.transmit p g).outs = s.outs ∧ (s.transmit p g).ended = s.ended ∧ (s.transmit p g).rxs = s.rxs ∧
    (s.transmit p g).wt = s.wt ∧ (s.transmit p g).host = s.host ∧ (s.transmit p g).ringQueue = s.ringQueue ∧
    (s.transmit p g).retained = s.retained ∧ (s.transmit p g).signQueue = s.signQueue ∧
    (s.transmit p g).power = s.power ∧ (s.transmit p g).flash = s.flash ∧ (s.transmit p g).boot = s.boot ∧
    (s.transmit p g).upd = s.upd ∧ (s.transmit p g).smb = s.smb ∧ (s.transmit p g).freeCount = s.freeCount ∧
    (s.transmit p g).pending = s.pending := by
  unfold State.transmit; split <;> (and_intros <;> rfl)

/-! ## State.setShaperSt -/

@[simp] theorem setShaperSt_frame (s : State) (x : ShaperSt) :
    (s.setShaperSt x).regs = s.regs ∧ (s.setShaperSt x).arrays = s.arrays ∧ (s.setShaperSt x).mem = s.mem ∧
    (s.setShaperSt x).memory = s.memory ∧ (s.setShaperSt x).image = s.image ∧ (s.setShaperSt x).ports = s.ports ∧
    (s.setShaperSt x).negs = s.negs ∧ (s.setShaperSt x).cruise = s.cruise ∧ (s.setShaperSt x).time = s.time ∧
    (s.setShaperSt x).bank0 = s.bank0 ∧ (s.setShaperSt x).bank1 = s.bank1 ∧
    (s.setShaperSt x).dieTables = s.dieTables ∧ (s.setShaperSt x).epoch = s.epoch ∧ (s.setShaperSt x).ctxs = s.ctxs ∧
    (s.setShaperSt x).descCache = s.descCache ∧ (s.setShaperSt x).jobs = s.jobs ∧
    (s.setShaperSt x).landings = s.landings ∧ (s.setShaperSt x).mcs = s.mcs ∧ (s.setShaperSt x).outs = s.outs ∧
    (s.setShaperSt x).ended = s.ended ∧ (s.setShaperSt x).rxs = s.rxs ∧ (s.setShaperSt x).wt = s.wt ∧
    (s.setShaperSt x).host = s.host ∧ (s.setShaperSt x).ringQueue = s.ringQueue ∧
    (s.setShaperSt x).retained = s.retained ∧ (s.setShaperSt x).signQueue = s.signQueue ∧
    (s.setShaperSt x).power = s.power ∧ (s.setShaperSt x).flash = s.flash ∧ (s.setShaperSt x).boot = s.boot ∧
    (s.setShaperSt x).upd = s.upd ∧ (s.setShaperSt x).smb = s.smb ∧ (s.setShaperSt x).freeCount = s.freeCount ∧
    (s.setShaperSt x).pending = s.pending := by
  and_intros <;> rfl

/-! ## State.setGate -/

@[simp] theorem setGate_frame (s : State) (x : GateSt) :
    (s.setGate x).regs = s.regs ∧ (s.setGate x).arrays = s.arrays ∧ (s.setGate x).mem = s.mem ∧
    (s.setGate x).memory = s.memory ∧ (s.setGate x).image = s.image ∧ (s.setGate x).ports = s.ports ∧
    (s.setGate x).negs = s.negs ∧ (s.setGate x).cruise = s.cruise ∧ (s.setGate x).time = s.time ∧
    (s.setGate x).bank0 = s.bank0 ∧ (s.setGate x).bank1 = s.bank1 ∧ (s.setGate x).dieTables = s.dieTables ∧
    (s.setGate x).epoch = s.epoch ∧ (s.setGate x).ctxs = s.ctxs ∧ (s.setGate x).descCache = s.descCache ∧
    (s.setGate x).jobs = s.jobs ∧ (s.setGate x).landings = s.landings ∧ (s.setGate x).mcs = s.mcs ∧
    (s.setGate x).outs = s.outs ∧ (s.setGate x).ended = s.ended ∧ (s.setGate x).rxs = s.rxs ∧
    (s.setGate x).wt = s.wt ∧ (s.setGate x).host = s.host ∧ (s.setGate x).ringQueue = s.ringQueue ∧
    (s.setGate x).retained = s.retained ∧ (s.setGate x).signQueue = s.signQueue ∧ (s.setGate x).power = s.power ∧
    (s.setGate x).flash = s.flash ∧ (s.setGate x).boot = s.boot ∧ (s.setGate x).upd = s.upd ∧
    (s.setGate x).smb = s.smb ∧ (s.setGate x).freeCount = s.freeCount ∧ (s.setGate x).pending = s.pending := by
  and_intros <;> rfl

/-! ## State.setDrr -/

@[simp] theorem setDrr_frame (s : State) (x : Drr) :
    (s.setDrr x).regs = s.regs ∧ (s.setDrr x).arrays = s.arrays ∧ (s.setDrr x).mem = s.mem ∧
    (s.setDrr x).memory = s.memory ∧ (s.setDrr x).image = s.image ∧ (s.setDrr x).ports = s.ports ∧
    (s.setDrr x).negs = s.negs ∧ (s.setDrr x).cruise = s.cruise ∧ (s.setDrr x).time = s.time ∧
    (s.setDrr x).bank0 = s.bank0 ∧ (s.setDrr x).bank1 = s.bank1 ∧ (s.setDrr x).dieTables = s.dieTables ∧
    (s.setDrr x).epoch = s.epoch ∧ (s.setDrr x).ctxs = s.ctxs ∧ (s.setDrr x).descCache = s.descCache ∧
    (s.setDrr x).jobs = s.jobs ∧ (s.setDrr x).landings = s.landings ∧ (s.setDrr x).mcs = s.mcs ∧
    (s.setDrr x).outs = s.outs ∧ (s.setDrr x).ended = s.ended ∧ (s.setDrr x).rxs = s.rxs ∧ (s.setDrr x).wt = s.wt ∧
    (s.setDrr x).host = s.host ∧ (s.setDrr x).ringQueue = s.ringQueue ∧ (s.setDrr x).retained = s.retained ∧
    (s.setDrr x).signQueue = s.signQueue ∧ (s.setDrr x).power = s.power ∧ (s.setDrr x).flash = s.flash ∧
    (s.setDrr x).boot = s.boot ∧ (s.setDrr x).upd = s.upd ∧ (s.setDrr x).smb = s.smb ∧
    (s.setDrr x).freeCount = s.freeCount ∧ (s.setDrr x).pending = s.pending := by
  and_intros <;> rfl

/-! ## State.onWire -/

@[simp] theorem onWire_frame (s : State) (p : Nat) (f : Frame) :
    (s.onWire p f).regs = s.regs ∧ (s.onWire p f).arrays = s.arrays ∧ (s.onWire p f).mem = s.mem ∧
    (s.onWire p f).memory = s.memory ∧ (s.onWire p f).image = s.image ∧ (s.onWire p f).ports = s.ports ∧
    (s.onWire p f).negs = s.negs ∧ (s.onWire p f).cruise = s.cruise ∧ (s.onWire p f).time = s.time ∧
    (s.onWire p f).bank0 = s.bank0 ∧ (s.onWire p f).bank1 = s.bank1 ∧ (s.onWire p f).dieTables = s.dieTables ∧
    (s.onWire p f).epoch = s.epoch ∧ (s.onWire p f).ctxs = s.ctxs ∧ (s.onWire p f).descCache = s.descCache ∧
    (s.onWire p f).jobs = s.jobs ∧ (s.onWire p f).landings = s.landings ∧ (s.onWire p f).mcs = s.mcs ∧
    (s.onWire p f).outs = s.outs ∧ (s.onWire p f).ended = s.ended ∧ (s.onWire p f).rxs = s.rxs ∧
    (s.onWire p f).wt = s.wt ∧ (s.onWire p f).host = s.host ∧ (s.onWire p f).ringQueue = s.ringQueue ∧
    (s.onWire p f).retained = s.retained ∧ (s.onWire p f).signQueue = s.signQueue ∧ (s.onWire p f).power = s.power ∧
    (s.onWire p f).flash = s.flash ∧ (s.onWire p f).boot = s.boot ∧ (s.onWire p f).upd = s.upd ∧
    (s.onWire p f).smb = s.smb ∧ (s.onWire p f).freeCount = s.freeCount ∧ (s.onWire p f).pending = s.pending := by
  simp [State.onWire]

/-! ## State.startSweep -/

@[simp] theorem startSweep_frame (s : State) (d : Nat) :
    (s.startSweep d).regs = s.regs ∧ (s.startSweep d).arrays = s.arrays ∧ (s.startSweep d).mem = s.mem ∧
    (s.startSweep d).memory = s.memory ∧ (s.startSweep d).image = s.image ∧ (s.startSweep d).ports = s.ports ∧
    (s.startSweep d).negs = s.negs ∧ (s.startSweep d).cruise = s.cruise ∧ (s.startSweep d).time = s.time ∧
    (s.startSweep d).bank0 = s.bank0 ∧ (s.startSweep d).bank1 = s.bank1 ∧ (s.startSweep d).dieTables = s.dieTables ∧
    (s.startSweep d).epoch = s.epoch ∧ (s.startSweep d).ctxs = s.ctxs ∧ (s.startSweep d).descCache = s.descCache ∧
    (s.startSweep d).jobs = s.jobs ∧ (s.startSweep d).landings = s.landings ∧ (s.startSweep d).mcs = s.mcs ∧
    (s.startSweep d).outs = s.outs ∧ (s.startSweep d).ended = s.ended ∧ (s.startSweep d).rxs = s.rxs ∧
    (s.startSweep d).wt = s.wt ∧ (s.startSweep d).host = s.host ∧ (s.startSweep d).ringQueue = s.ringQueue ∧
    (s.startSweep d).retained = s.retained ∧ (s.startSweep d).signQueue = s.signQueue ∧
    (s.startSweep d).power = s.power ∧ (s.startSweep d).flash = s.flash ∧ (s.startSweep d).boot = s.boot ∧
    (s.startSweep d).upd = s.upd ∧ (s.startSweep d).smb = s.smb ∧ (s.startSweep d).freeCount = s.freeCount ∧
    (s.startSweep d).pending = s.pending := by
  and_intros <;> rfl

/-! ## State.refillShapers -/

@[simp] theorem refillShapers_frame (s : State) :
    (s.refillShapers).regs = s.regs ∧ (s.refillShapers).arrays = s.arrays ∧ (s.refillShapers).mem = s.mem ∧
    (s.refillShapers).memory = s.memory ∧ (s.refillShapers).image = s.image ∧ (s.refillShapers).ports = s.ports ∧
    (s.refillShapers).negs = s.negs ∧ (s.refillShapers).cruise = s.cruise ∧ (s.refillShapers).time = s.time ∧
    (s.refillShapers).bank0 = s.bank0 ∧ (s.refillShapers).bank1 = s.bank1 ∧
    (s.refillShapers).dieTables = s.dieTables ∧ (s.refillShapers).epoch = s.epoch ∧ (s.refillShapers).ctxs = s.ctxs ∧
    (s.refillShapers).descCache = s.descCache ∧ (s.refillShapers).jobs = s.jobs ∧
    (s.refillShapers).landings = s.landings ∧ (s.refillShapers).mcs = s.mcs ∧ (s.refillShapers).outs = s.outs ∧
    (s.refillShapers).ended = s.ended ∧ (s.refillShapers).rxs = s.rxs ∧ (s.refillShapers).wt = s.wt ∧
    (s.refillShapers).host = s.host ∧ (s.refillShapers).ringQueue = s.ringQueue ∧
    (s.refillShapers).retained = s.retained ∧ (s.refillShapers).signQueue = s.signQueue ∧
    (s.refillShapers).power = s.power ∧ (s.refillShapers).flash = s.flash ∧ (s.refillShapers).boot = s.boot ∧
    (s.refillShapers).upd = s.upd ∧ (s.refillShapers).smb = s.smb ∧ (s.refillShapers).freeCount = s.freeCount ∧
    (s.refillShapers).pending = s.pending := by
  and_intros <;> rfl

/-! ## State.setArr -/

@[simp] theorem setArr_frame (s : State) (a : Nat) (w : Word) :
    (s.setArr a w).regs = s.regs ∧ (s.setArr a w).mem = s.mem ∧ (s.setArr a w).memory = s.memory ∧
    (s.setArr a w).image = s.image ∧ (s.setArr a w).ports = s.ports ∧ (s.setArr a w).negs = s.negs ∧
    (s.setArr a w).cruise = s.cruise ∧ (s.setArr a w).time = s.time ∧ (s.setArr a w).bank0 = s.bank0 ∧
    (s.setArr a w).bank1 = s.bank1 ∧ (s.setArr a w).dieTables = s.dieTables ∧ (s.setArr a w).epoch = s.epoch ∧
    (s.setArr a w).core = s.core ∧ (s.setArr a w).ctxs = s.ctxs ∧ (s.setArr a w).descCache = s.descCache ∧
    (s.setArr a w).jobs = s.jobs ∧ (s.setArr a w).landings = s.landings ∧ (s.setArr a w).mcs = s.mcs ∧
    (s.setArr a w).outs = s.outs ∧ (s.setArr a w).ended = s.ended ∧ (s.setArr a w).rxs = s.rxs ∧
    (s.setArr a w).wt = s.wt ∧ (s.setArr a w).host = s.host ∧ (s.setArr a w).ringQueue = s.ringQueue ∧
    (s.setArr a w).retained = s.retained ∧ (s.setArr a w).signQueue = s.signQueue ∧ (s.setArr a w).power = s.power ∧
    (s.setArr a w).flash = s.flash ∧ (s.setArr a w).boot = s.boot ∧ (s.setArr a w).upd = s.upd ∧
    (s.setArr a w).smb = s.smb ∧ (s.setArr a w).freeCount = s.freeCount ∧ (s.setArr a w).pending = s.pending := by
  and_intros <;> rfl

/-! ## State.writeMem -/

@[simp] theorem writeMem_frame (s : State) (a : Nat) (bs : List Byte) :
    (s.writeMem a bs).regs = s.regs ∧ (s.writeMem a bs).arrays = s.arrays ∧ (s.writeMem a bs).image = s.image ∧
    (s.writeMem a bs).ports = s.ports ∧ (s.writeMem a bs).negs = s.negs ∧ (s.writeMem a bs).cruise = s.cruise ∧
    (s.writeMem a bs).time = s.time ∧ (s.writeMem a bs).bank0 = s.bank0 ∧ (s.writeMem a bs).bank1 = s.bank1 ∧
    (s.writeMem a bs).dieTables = s.dieTables ∧ (s.writeMem a bs).epoch = s.epoch ∧ (s.writeMem a bs).core = s.core ∧
    (s.writeMem a bs).ctxs = s.ctxs ∧ (s.writeMem a bs).descCache = s.descCache ∧ (s.writeMem a bs).jobs = s.jobs ∧
    (s.writeMem a bs).landings = s.landings ∧ (s.writeMem a bs).mcs = s.mcs ∧ (s.writeMem a bs).outs = s.outs ∧
    (s.writeMem a bs).ended = s.ended ∧ (s.writeMem a bs).rxs = s.rxs ∧ (s.writeMem a bs).wt = s.wt ∧
    (s.writeMem a bs).host = s.host ∧ (s.writeMem a bs).ringQueue = s.ringQueue ∧
    (s.writeMem a bs).retained = s.retained ∧ (s.writeMem a bs).signQueue = s.signQueue ∧
    (s.writeMem a bs).power = s.power ∧ (s.writeMem a bs).flash = s.flash ∧ (s.writeMem a bs).boot = s.boot ∧
    (s.writeMem a bs).upd = s.upd ∧ (s.writeMem a bs).smb = s.smb ∧ (s.writeMem a bs).freeCount = s.freeCount ∧
    (s.writeMem a bs).pending = s.pending := by
  and_intros <;> rfl

/-! ## State.setRx -/

@[simp] theorem setRx_frame (s : State) (p : Nat) (h : BaseHdr) (r : RxMsg) :
    (s.setRx p h r).regs = s.regs ∧ (s.setRx p h r).arrays = s.arrays ∧ (s.setRx p h r).mem = s.mem ∧
    (s.setRx p h r).memory = s.memory ∧ (s.setRx p h r).image = s.image ∧ (s.setRx p h r).ports = s.ports ∧
    (s.setRx p h r).negs = s.negs ∧ (s.setRx p h r).cruise = s.cruise ∧ (s.setRx p h r).time = s.time ∧
    (s.setRx p h r).bank0 = s.bank0 ∧ (s.setRx p h r).bank1 = s.bank1 ∧ (s.setRx p h r).dieTables = s.dieTables ∧
    (s.setRx p h r).epoch = s.epoch ∧ (s.setRx p h r).core = s.core ∧ (s.setRx p h r).ctxs = s.ctxs ∧
    (s.setRx p h r).descCache = s.descCache ∧ (s.setRx p h r).jobs = s.jobs ∧ (s.setRx p h r).landings = s.landings ∧
    (s.setRx p h r).mcs = s.mcs ∧ (s.setRx p h r).outs = s.outs ∧ (s.setRx p h r).ended = s.ended ∧
    (s.setRx p h r).wt = s.wt ∧ (s.setRx p h r).host = s.host ∧ (s.setRx p h r).ringQueue = s.ringQueue ∧
    (s.setRx p h r).retained = s.retained ∧ (s.setRx p h r).signQueue = s.signQueue ∧
    (s.setRx p h r).power = s.power ∧ (s.setRx p h r).flash = s.flash ∧ (s.setRx p h r).boot = s.boot ∧
    (s.setRx p h r).upd = s.upd ∧ (s.setRx p h r).smb = s.smb ∧ (s.setRx p h r).freeCount = s.freeCount ∧
    (s.setRx p h r).pending = s.pending := by
  and_intros <;> rfl

/-! ## State.setMc -/

@[simp] theorem setMc_frame (s : State) (r : McRecord) :
    (s.setMc r).regs = s.regs ∧ (s.setMc r).arrays = s.arrays ∧ (s.setMc r).mem = s.mem ∧
    (s.setMc r).memory = s.memory ∧ (s.setMc r).image = s.image ∧ (s.setMc r).ports = s.ports ∧
    (s.setMc r).negs = s.negs ∧ (s.setMc r).cruise = s.cruise ∧ (s.setMc r).time = s.time ∧
    (s.setMc r).bank0 = s.bank0 ∧ (s.setMc r).bank1 = s.bank1 ∧ (s.setMc r).dieTables = s.dieTables ∧
    (s.setMc r).epoch = s.epoch ∧ (s.setMc r).core = s.core ∧ (s.setMc r).ctxs = s.ctxs ∧
    (s.setMc r).descCache = s.descCache ∧ (s.setMc r).jobs = s.jobs ∧ (s.setMc r).landings = s.landings ∧
    (s.setMc r).outs = s.outs ∧ (s.setMc r).ended = s.ended ∧ (s.setMc r).rxs = s.rxs ∧ (s.setMc r).wt = s.wt ∧
    (s.setMc r).host = s.host ∧ (s.setMc r).ringQueue = s.ringQueue ∧ (s.setMc r).retained = s.retained ∧
    (s.setMc r).signQueue = s.signQueue ∧ (s.setMc r).power = s.power ∧ (s.setMc r).flash = s.flash ∧
    (s.setMc r).boot = s.boot ∧ (s.setMc r).upd = s.upd ∧ (s.setMc r).smb = s.smb ∧
    (s.setMc r).freeCount = s.freeCount ∧ (s.setMc r).pending = s.pending := by
  and_intros <;> rfl

/-! ## State.freeMc -/

@[simp] theorem freeMc_frame (s : State) (r : McRecord) :
    (s.freeMc r).regs = s.regs ∧ (s.freeMc r).arrays = s.arrays ∧ (s.freeMc r).mem = s.mem ∧
    (s.freeMc r).memory = s.memory ∧ (s.freeMc r).image = s.image ∧ (s.freeMc r).ports = s.ports ∧
    (s.freeMc r).negs = s.negs ∧ (s.freeMc r).cruise = s.cruise ∧ (s.freeMc r).time = s.time ∧
    (s.freeMc r).bank0 = s.bank0 ∧ (s.freeMc r).bank1 = s.bank1 ∧ (s.freeMc r).dieTables = s.dieTables ∧
    (s.freeMc r).epoch = s.epoch ∧ (s.freeMc r).core = s.core ∧ (s.freeMc r).ctxs = s.ctxs ∧
    (s.freeMc r).descCache = s.descCache ∧ (s.freeMc r).jobs = s.jobs ∧ (s.freeMc r).landings = s.landings ∧
    (s.freeMc r).outs = s.outs ∧ (s.freeMc r).ended = s.ended ∧ (s.freeMc r).rxs = s.rxs ∧ (s.freeMc r).wt = s.wt ∧
    (s.freeMc r).host = s.host ∧ (s.freeMc r).ringQueue = s.ringQueue ∧ (s.freeMc r).retained = s.retained ∧
    (s.freeMc r).signQueue = s.signQueue ∧ (s.freeMc r).power = s.power ∧ (s.freeMc r).flash = s.flash ∧
    (s.freeMc r).boot = s.boot ∧ (s.freeMc r).upd = s.upd ∧ (s.freeMc r).smb = s.smb ∧
    (s.freeMc r).freeCount = s.freeCount ∧ (s.freeMc r).pending = s.pending := by
  and_intros <;> rfl

/-! ## State.dropOut -/

@[simp] theorem dropOut_frame (s : State) (k : Nat) :
    (s.dropOut k).regs = s.regs ∧ (s.dropOut k).arrays = s.arrays ∧ (s.dropOut k).mem = s.mem ∧
    (s.dropOut k).memory = s.memory ∧ (s.dropOut k).image = s.image ∧ (s.dropOut k).ports = s.ports ∧
    (s.dropOut k).negs = s.negs ∧ (s.dropOut k).cruise = s.cruise ∧ (s.dropOut k).time = s.time ∧
    (s.dropOut k).bank0 = s.bank0 ∧ (s.dropOut k).bank1 = s.bank1 ∧ (s.dropOut k).dieTables = s.dieTables ∧
    (s.dropOut k).epoch = s.epoch ∧ (s.dropOut k).core = s.core ∧ (s.dropOut k).ctxs = s.ctxs ∧
    (s.dropOut k).descCache = s.descCache ∧ (s.dropOut k).jobs = s.jobs ∧ (s.dropOut k).landings = s.landings ∧
    (s.dropOut k).mcs = s.mcs ∧ (s.dropOut k).rxs = s.rxs ∧ (s.dropOut k).wt = s.wt ∧ (s.dropOut k).host = s.host ∧
    (s.dropOut k).ringQueue = s.ringQueue ∧ (s.dropOut k).retained = s.retained ∧
    (s.dropOut k).signQueue = s.signQueue ∧ (s.dropOut k).power = s.power ∧ (s.dropOut k).flash = s.flash ∧
    (s.dropOut k).boot = s.boot ∧ (s.dropOut k).upd = s.upd ∧ (s.dropOut k).smb = s.smb ∧
    (s.dropOut k).freeCount = s.freeCount ∧ (s.dropOut k).pending = s.pending := by
  and_intros <;> rfl

/-! ## State.dropOuts -/

@[simp] theorem dropOuts_frame (s : State) (q : OutMsg → Bool) :
    (s.dropOuts q).regs = s.regs ∧ (s.dropOuts q).arrays = s.arrays ∧ (s.dropOuts q).mem = s.mem ∧
    (s.dropOuts q).memory = s.memory ∧ (s.dropOuts q).image = s.image ∧ (s.dropOuts q).ports = s.ports ∧
    (s.dropOuts q).negs = s.negs ∧ (s.dropOuts q).cruise = s.cruise ∧ (s.dropOuts q).time = s.time ∧
    (s.dropOuts q).bank0 = s.bank0 ∧ (s.dropOuts q).bank1 = s.bank1 ∧ (s.dropOuts q).dieTables = s.dieTables ∧
    (s.dropOuts q).epoch = s.epoch ∧ (s.dropOuts q).core = s.core ∧ (s.dropOuts q).ctxs = s.ctxs ∧
    (s.dropOuts q).descCache = s.descCache ∧ (s.dropOuts q).jobs = s.jobs ∧ (s.dropOuts q).landings = s.landings ∧
    (s.dropOuts q).mcs = s.mcs ∧ (s.dropOuts q).rxs = s.rxs ∧ (s.dropOuts q).wt = s.wt ∧
    (s.dropOuts q).host = s.host ∧ (s.dropOuts q).ringQueue = s.ringQueue ∧ (s.dropOuts q).retained = s.retained ∧
    (s.dropOuts q).signQueue = s.signQueue ∧ (s.dropOuts q).power = s.power ∧ (s.dropOuts q).flash = s.flash ∧
    (s.dropOuts q).boot = s.boot ∧ (s.dropOuts q).upd = s.upd ∧ (s.dropOuts q).smb = s.smb ∧
    (s.dropOuts q).freeCount = s.freeCount ∧ (s.dropOuts q).pending = s.pending := by
  and_intros <;> rfl

/-! ## State.writeDesc -/

@[simp] theorem writeDesc_frame (s : State) (d : Nat) :
    (s.writeDesc d).regs = s.regs ∧ (s.writeDesc d).arrays = s.arrays ∧ (s.writeDesc d).image = s.image ∧
    (s.writeDesc d).ports = s.ports ∧ (s.writeDesc d).negs = s.negs ∧ (s.writeDesc d).cruise = s.cruise ∧
    (s.writeDesc d).time = s.time ∧ (s.writeDesc d).bank0 = s.bank0 ∧ (s.writeDesc d).bank1 = s.bank1 ∧
    (s.writeDesc d).dieTables = s.dieTables ∧ (s.writeDesc d).epoch = s.epoch ∧ (s.writeDesc d).core = s.core ∧
    (s.writeDesc d).ctxs = s.ctxs ∧ (s.writeDesc d).descCache = s.descCache ∧ (s.writeDesc d).jobs = s.jobs ∧
    (s.writeDesc d).landings = s.landings ∧ (s.writeDesc d).mcs = s.mcs ∧ (s.writeDesc d).outs = s.outs ∧
    (s.writeDesc d).ended = s.ended ∧ (s.writeDesc d).rxs = s.rxs ∧ (s.writeDesc d).wt = s.wt ∧
    (s.writeDesc d).host = s.host ∧ (s.writeDesc d).ringQueue = s.ringQueue ∧ (s.writeDesc d).retained = s.retained ∧
    (s.writeDesc d).signQueue = s.signQueue ∧ (s.writeDesc d).power = s.power ∧ (s.writeDesc d).flash = s.flash ∧
    (s.writeDesc d).boot = s.boot ∧ (s.writeDesc d).upd = s.upd ∧ (s.writeDesc d).smb = s.smb ∧
    (s.writeDesc d).freeCount = s.freeCount ∧ (s.writeDesc d).pending = s.pending := by
  and_intros <;> rfl

/-! ## State.touchDesc -/

@[simp] theorem touchDesc_frame (s : State) (e d : Nat) :
    (s.touchDesc e d).regs = s.regs ∧ (s.touchDesc e d).arrays = s.arrays ∧ (s.touchDesc e d).image = s.image ∧
    (s.touchDesc e d).ports = s.ports ∧ (s.touchDesc e d).negs = s.negs ∧ (s.touchDesc e d).cruise = s.cruise ∧
    (s.touchDesc e d).time = s.time ∧ (s.touchDesc e d).bank0 = s.bank0 ∧ (s.touchDesc e d).bank1 = s.bank1 ∧
    (s.touchDesc e d).dieTables = s.dieTables ∧ (s.touchDesc e d).epoch = s.epoch ∧ (s.touchDesc e d).core = s.core ∧
    (s.touchDesc e d).ctxs = s.ctxs ∧ (s.touchDesc e d).jobs = s.jobs ∧ (s.touchDesc e d).landings = s.landings ∧
    (s.touchDesc e d).mcs = s.mcs ∧ (s.touchDesc e d).outs = s.outs ∧ (s.touchDesc e d).ended = s.ended ∧
    (s.touchDesc e d).rxs = s.rxs ∧ (s.touchDesc e d).wt = s.wt ∧ (s.touchDesc e d).host = s.host ∧
    (s.touchDesc e d).ringQueue = s.ringQueue ∧ (s.touchDesc e d).retained = s.retained ∧
    (s.touchDesc e d).signQueue = s.signQueue ∧ (s.touchDesc e d).power = s.power ∧
    (s.touchDesc e d).flash = s.flash ∧ (s.touchDesc e d).boot = s.boot ∧ (s.touchDesc e d).upd = s.upd ∧
    (s.touchDesc e d).smb = s.smb ∧ (s.touchDesc e d).freeCount = s.freeCount ∧
    (s.touchDesc e d).pending = s.pending := by
  unfold State.touchDesc; dsimp only; (repeat' split) <;> (and_intros <;> rfl)

/-! ## State.setCtx -/

@[simp] theorem setCtx_frame (s : State) (d : Nat) (c : Ctx) :
    (s.setCtx d c).regs = s.regs ∧ (s.setCtx d c).arrays = s.arrays ∧ (s.setCtx d c).image = s.image ∧
    (s.setCtx d c).ports = s.ports ∧ (s.setCtx d c).negs = s.negs ∧ (s.setCtx d c).cruise = s.cruise ∧
    (s.setCtx d c).time = s.time ∧ (s.setCtx d c).bank0 = s.bank0 ∧ (s.setCtx d c).bank1 = s.bank1 ∧
    (s.setCtx d c).dieTables = s.dieTables ∧ (s.setCtx d c).epoch = s.epoch ∧ (s.setCtx d c).core = s.core ∧
    (s.setCtx d c).jobs = s.jobs ∧ (s.setCtx d c).landings = s.landings ∧ (s.setCtx d c).mcs = s.mcs ∧
    (s.setCtx d c).outs = s.outs ∧ (s.setCtx d c).ended = s.ended ∧ (s.setCtx d c).rxs = s.rxs ∧
    (s.setCtx d c).wt = s.wt ∧ (s.setCtx d c).host = s.host ∧ (s.setCtx d c).ringQueue = s.ringQueue ∧
    (s.setCtx d c).retained = s.retained ∧ (s.setCtx d c).signQueue = s.signQueue ∧ (s.setCtx d c).power = s.power ∧
    (s.setCtx d c).flash = s.flash ∧ (s.setCtx d c).boot = s.boot ∧ (s.setCtx d c).upd = s.upd ∧
    (s.setCtx d c).smb = s.smb ∧ (s.setCtx d c).freeCount = s.freeCount ∧ (s.setCtx d c).pending = s.pending := by
  simp [State.setCtx]

/-! ## State.idleCtx -/

@[simp] theorem idleCtx_frame (s : State) (d : Nat) :
    (s.idleCtx d).regs = s.regs ∧ (s.idleCtx d).arrays = s.arrays ∧ (s.idleCtx d).image = s.image ∧
    (s.idleCtx d).ports = s.ports ∧ (s.idleCtx d).negs = s.negs ∧ (s.idleCtx d).cruise = s.cruise ∧
    (s.idleCtx d).time = s.time ∧ (s.idleCtx d).bank0 = s.bank0 ∧ (s.idleCtx d).bank1 = s.bank1 ∧
    (s.idleCtx d).dieTables = s.dieTables ∧ (s.idleCtx d).epoch = s.epoch ∧ (s.idleCtx d).core = s.core ∧
    (s.idleCtx d).jobs = s.jobs ∧ (s.idleCtx d).landings = s.landings ∧ (s.idleCtx d).mcs = s.mcs ∧
    (s.idleCtx d).outs = s.outs ∧ (s.idleCtx d).ended = s.ended ∧ (s.idleCtx d).rxs = s.rxs ∧
    (s.idleCtx d).wt = s.wt ∧ (s.idleCtx d).host = s.host ∧ (s.idleCtx d).ringQueue = s.ringQueue ∧
    (s.idleCtx d).retained = s.retained ∧ (s.idleCtx d).signQueue = s.signQueue ∧ (s.idleCtx d).power = s.power ∧
    (s.idleCtx d).flash = s.flash ∧ (s.idleCtx d).boot = s.boot ∧ (s.idleCtx d).upd = s.upd ∧
    (s.idleCtx d).smb = s.smb ∧ (s.idleCtx d).freeCount = s.freeCount ∧ (s.idleCtx d).pending = s.pending := by
  unfold State.idleCtx; split <;> simp

/-! ## State.mapJob -/

@[simp] theorem mapJob_regs (s : State) (j : BitVec 12) (g : Job → Job) : (s.mapJob j g).regs = s.regs := rfl
@[simp] theorem mapJob_arrays (s : State) (j : BitVec 12) (g : Job → Job) : (s.mapJob j g).arrays = s.arrays := rfl
@[simp] theorem mapJob_mem (s : State) (j : BitVec 12) (g : Job → Job) : (s.mapJob j g).mem = s.mem := rfl
@[simp] theorem mapJob_memory (s : State) (j : BitVec 12) (g : Job → Job) : (s.mapJob j g).memory = s.memory := rfl
@[simp] theorem mapJob_image (s : State) (j : BitVec 12) (g : Job → Job) : (s.mapJob j g).image = s.image := rfl
@[simp] theorem mapJob_ports (s : State) (j : BitVec 12) (g : Job → Job) : (s.mapJob j g).ports = s.ports := rfl
@[simp] theorem mapJob_negs (s : State) (j : BitVec 12) (g : Job → Job) : (s.mapJob j g).negs = s.negs := rfl
@[simp] theorem mapJob_cruise (s : State) (j : BitVec 12) (g : Job → Job) : (s.mapJob j g).cruise = s.cruise := rfl
@[simp] theorem mapJob_time (s : State) (j : BitVec 12) (g : Job → Job) : (s.mapJob j g).time = s.time := rfl
@[simp] theorem mapJob_bank0 (s : State) (j : BitVec 12) (g : Job → Job) : (s.mapJob j g).bank0 = s.bank0 := rfl
@[simp] theorem mapJob_bank1 (s : State) (j : BitVec 12) (g : Job → Job) : (s.mapJob j g).bank1 = s.bank1 := rfl
@[simp] theorem mapJob_dieTables (s : State) (j : BitVec 12) (g : Job → Job) : (s.mapJob j g).dieTables = s.dieTables := rfl
@[simp] theorem mapJob_epoch (s : State) (j : BitVec 12) (g : Job → Job) : (s.mapJob j g).epoch = s.epoch := rfl
@[simp] theorem mapJob_core (s : State) (j : BitVec 12) (g : Job → Job) : (s.mapJob j g).core = s.core := rfl
@[simp] theorem mapJob_ctxs (s : State) (j : BitVec 12) (g : Job → Job) : (s.mapJob j g).ctxs = s.ctxs := rfl
@[simp] theorem mapJob_descCache (s : State) (j : BitVec 12) (g : Job → Job) : (s.mapJob j g).descCache = s.descCache := rfl
@[simp] theorem mapJob_landings (s : State) (j : BitVec 12) (g : Job → Job) : (s.mapJob j g).landings = s.landings := rfl
@[simp] theorem mapJob_mcs (s : State) (j : BitVec 12) (g : Job → Job) : (s.mapJob j g).mcs = s.mcs := rfl
@[simp] theorem mapJob_outs (s : State) (j : BitVec 12) (g : Job → Job) : (s.mapJob j g).outs = s.outs := rfl
@[simp] theorem mapJob_ended (s : State) (j : BitVec 12) (g : Job → Job) : (s.mapJob j g).ended = s.ended := rfl
@[simp] theorem mapJob_rxs (s : State) (j : BitVec 12) (g : Job → Job) : (s.mapJob j g).rxs = s.rxs := rfl
@[simp] theorem mapJob_wt (s : State) (j : BitVec 12) (g : Job → Job) : (s.mapJob j g).wt = s.wt := rfl
@[simp] theorem mapJob_host (s : State) (j : BitVec 12) (g : Job → Job) : (s.mapJob j g).host = s.host := rfl
@[simp] theorem mapJob_ringQueue (s : State) (j : BitVec 12) (g : Job → Job) : (s.mapJob j g).ringQueue = s.ringQueue := rfl
@[simp] theorem mapJob_retained (s : State) (j : BitVec 12) (g : Job → Job) : (s.mapJob j g).retained = s.retained := rfl
@[simp] theorem mapJob_signQueue (s : State) (j : BitVec 12) (g : Job → Job) : (s.mapJob j g).signQueue = s.signQueue := rfl
@[simp] theorem mapJob_power (s : State) (j : BitVec 12) (g : Job → Job) : (s.mapJob j g).power = s.power := rfl
@[simp] theorem mapJob_flash (s : State) (j : BitVec 12) (g : Job → Job) : (s.mapJob j g).flash = s.flash := rfl
@[simp] theorem mapJob_boot (s : State) (j : BitVec 12) (g : Job → Job) : (s.mapJob j g).boot = s.boot := rfl
@[simp] theorem mapJob_upd (s : State) (j : BitVec 12) (g : Job → Job) : (s.mapJob j g).upd = s.upd := rfl
@[simp] theorem mapJob_smb (s : State) (j : BitVec 12) (g : Job → Job) : (s.mapJob j g).smb = s.smb := rfl
@[simp] theorem mapJob_freeCount (s : State) (j : BitVec 12) (g : Job → Job) : (s.mapJob j g).freeCount = s.freeCount := rfl
@[simp] theorem mapJob_pending (s : State) (j : BitVec 12) (g : Job → Job) : (s.mapJob j g).pending = s.pending := rfl

/-! ## State.mapLanding -/

@[simp] theorem mapLanding_frame (s : State) (j : BitVec 12) (g : Landing → Landing) :
    (s.mapLanding j g).regs = s.regs ∧ (s.mapLanding j g).arrays = s.arrays ∧ (s.mapLanding j g).mem = s.mem ∧
    (s.mapLanding j g).memory = s.memory ∧ (s.mapLanding j g).image = s.image ∧ (s.mapLanding j g).ports = s.ports ∧
    (s.mapLanding j g).negs = s.negs ∧ (s.mapLanding j g).cruise = s.cruise ∧ (s.mapLanding j g).time = s.time ∧
    (s.mapLanding j g).bank0 = s.bank0 ∧ (s.mapLanding j g).bank1 = s.bank1 ∧
    (s.mapLanding j g).dieTables = s.dieTables ∧ (s.mapLanding j g).epoch = s.epoch ∧
    (s.mapLanding j g).core = s.core ∧ (s.mapLanding j g).ctxs = s.ctxs ∧ (s.mapLanding j g).descCache = s.descCache ∧
    (s.mapLanding j g).jobs = s.jobs ∧ (s.mapLanding j g).mcs = s.mcs ∧ (s.mapLanding j g).outs = s.outs ∧
    (s.mapLanding j g).ended = s.ended ∧ (s.mapLanding j g).rxs = s.rxs ∧ (s.mapLanding j g).wt = s.wt ∧
    (s.mapLanding j g).host = s.host ∧ (s.mapLanding j g).ringQueue = s.ringQueue ∧
    (s.mapLanding j g).retained = s.retained ∧ (s.mapLanding j g).signQueue = s.signQueue ∧
    (s.mapLanding j g).power = s.power ∧ (s.mapLanding j g).flash = s.flash ∧ (s.mapLanding j g).boot = s.boot ∧
    (s.mapLanding j g).upd = s.upd ∧ (s.mapLanding j g).smb = s.smb ∧ (s.mapLanding j g).freeCount = s.freeCount ∧
    (s.mapLanding j g).pending = s.pending := by
  and_intros <;> rfl

/-! ## State.mapEpoch -/

@[simp] theorem mapEpoch_frame (s : State) (g : EpochSt → EpochSt) :
    (s.mapEpoch g).regs = s.regs ∧ (s.mapEpoch g).arrays = s.arrays ∧ (s.mapEpoch g).mem = s.mem ∧
    (s.mapEpoch g).memory = s.memory ∧ (s.mapEpoch g).image = s.image ∧ (s.mapEpoch g).ports = s.ports ∧
    (s.mapEpoch g).negs = s.negs ∧ (s.mapEpoch g).cruise = s.cruise ∧ (s.mapEpoch g).time = s.time ∧
    (s.mapEpoch g).bank0 = s.bank0 ∧ (s.mapEpoch g).bank1 = s.bank1 ∧ (s.mapEpoch g).dieTables = s.dieTables ∧
    (s.mapEpoch g).core = s.core ∧ (s.mapEpoch g).ctxs = s.ctxs ∧ (s.mapEpoch g).descCache = s.descCache ∧
    (s.mapEpoch g).jobs = s.jobs ∧ (s.mapEpoch g).landings = s.landings ∧ (s.mapEpoch g).mcs = s.mcs ∧
    (s.mapEpoch g).outs = s.outs ∧ (s.mapEpoch g).ended = s.ended ∧ (s.mapEpoch g).rxs = s.rxs ∧
    (s.mapEpoch g).wt = s.wt ∧ (s.mapEpoch g).host = s.host ∧ (s.mapEpoch g).ringQueue = s.ringQueue ∧
    (s.mapEpoch g).retained = s.retained ∧ (s.mapEpoch g).signQueue = s.signQueue ∧ (s.mapEpoch g).power = s.power ∧
    (s.mapEpoch g).flash = s.flash ∧ (s.mapEpoch g).boot = s.boot ∧ (s.mapEpoch g).upd = s.upd ∧
    (s.mapEpoch g).smb = s.smb ∧ (s.mapEpoch g).freeCount = s.freeCount ∧ (s.mapEpoch g).pending = s.pending := by
  and_intros <;> rfl

/-! ## State.mapHost -/

@[simp] theorem mapHost_frame (s : State) (g : HostSt → HostSt) :
    (s.mapHost g).regs = s.regs ∧ (s.mapHost g).arrays = s.arrays ∧ (s.mapHost g).mem = s.mem ∧
    (s.mapHost g).memory = s.memory ∧ (s.mapHost g).image = s.image ∧ (s.mapHost g).ports = s.ports ∧
    (s.mapHost g).negs = s.negs ∧ (s.mapHost g).cruise = s.cruise ∧ (s.mapHost g).time = s.time ∧
    (s.mapHost g).bank0 = s.bank0 ∧ (s.mapHost g).bank1 = s.bank1 ∧ (s.mapHost g).dieTables = s.dieTables ∧
    (s.mapHost g).epoch = s.epoch ∧ (s.mapHost g).core = s.core ∧ (s.mapHost g).ctxs = s.ctxs ∧
    (s.mapHost g).descCache = s.descCache ∧ (s.mapHost g).jobs = s.jobs ∧ (s.mapHost g).landings = s.landings ∧
    (s.mapHost g).mcs = s.mcs ∧ (s.mapHost g).outs = s.outs ∧ (s.mapHost g).ended = s.ended ∧
    (s.mapHost g).rxs = s.rxs ∧ (s.mapHost g).wt = s.wt ∧ (s.mapHost g).ringQueue = s.ringQueue ∧
    (s.mapHost g).retained = s.retained ∧ (s.mapHost g).signQueue = s.signQueue ∧ (s.mapHost g).power = s.power ∧
    (s.mapHost g).flash = s.flash ∧ (s.mapHost g).boot = s.boot ∧ (s.mapHost g).upd = s.upd ∧
    (s.mapHost g).smb = s.smb ∧ (s.mapHost g).freeCount = s.freeCount ∧ (s.mapHost g).pending = s.pending := by
  and_intros <;> rfl

/-! ## State.mapPower -/

@[simp] theorem mapPower_frame (s : State) (g : PowerSt → PowerSt) :
    (s.mapPower g).regs = s.regs ∧ (s.mapPower g).arrays = s.arrays ∧ (s.mapPower g).mem = s.mem ∧
    (s.mapPower g).memory = s.memory ∧ (s.mapPower g).image = s.image ∧ (s.mapPower g).ports = s.ports ∧
    (s.mapPower g).negs = s.negs ∧ (s.mapPower g).cruise = s.cruise ∧ (s.mapPower g).time = s.time ∧
    (s.mapPower g).bank0 = s.bank0 ∧ (s.mapPower g).bank1 = s.bank1 ∧ (s.mapPower g).dieTables = s.dieTables ∧
    (s.mapPower g).epoch = s.epoch ∧ (s.mapPower g).core = s.core ∧ (s.mapPower g).ctxs = s.ctxs ∧
    (s.mapPower g).descCache = s.descCache ∧ (s.mapPower g).jobs = s.jobs ∧ (s.mapPower g).landings = s.landings ∧
    (s.mapPower g).mcs = s.mcs ∧ (s.mapPower g).outs = s.outs ∧ (s.mapPower g).ended = s.ended ∧
    (s.mapPower g).rxs = s.rxs ∧ (s.mapPower g).wt = s.wt ∧ (s.mapPower g).host = s.host ∧
    (s.mapPower g).ringQueue = s.ringQueue ∧ (s.mapPower g).retained = s.retained ∧
    (s.mapPower g).signQueue = s.signQueue ∧ (s.mapPower g).flash = s.flash ∧ (s.mapPower g).boot = s.boot ∧
    (s.mapPower g).upd = s.upd ∧ (s.mapPower g).smb = s.smb ∧ (s.mapPower g).freeCount = s.freeCount ∧
    (s.mapPower g).pending = s.pending := by
  and_intros <;> rfl

/-! ## State.mapBoot -/

@[simp] theorem mapBoot_frame (s : State) (g : BootSt → BootSt) :
    (s.mapBoot g).regs = s.regs ∧ (s.mapBoot g).arrays = s.arrays ∧ (s.mapBoot g).mem = s.mem ∧
    (s.mapBoot g).memory = s.memory ∧ (s.mapBoot g).image = s.image ∧ (s.mapBoot g).ports = s.ports ∧
    (s.mapBoot g).negs = s.negs ∧ (s.mapBoot g).cruise = s.cruise ∧ (s.mapBoot g).time = s.time ∧
    (s.mapBoot g).bank0 = s.bank0 ∧ (s.mapBoot g).bank1 = s.bank1 ∧ (s.mapBoot g).dieTables = s.dieTables ∧
    (s.mapBoot g).epoch = s.epoch ∧ (s.mapBoot g).core = s.core ∧ (s.mapBoot g).ctxs = s.ctxs ∧
    (s.mapBoot g).descCache = s.descCache ∧ (s.mapBoot g).jobs = s.jobs ∧ (s.mapBoot g).landings = s.landings ∧
    (s.mapBoot g).mcs = s.mcs ∧ (s.mapBoot g).outs = s.outs ∧ (s.mapBoot g).ended = s.ended ∧
    (s.mapBoot g).rxs = s.rxs ∧ (s.mapBoot g).wt = s.wt ∧ (s.mapBoot g).host = s.host ∧
    (s.mapBoot g).ringQueue = s.ringQueue ∧ (s.mapBoot g).retained = s.retained ∧
    (s.mapBoot g).signQueue = s.signQueue ∧ (s.mapBoot g).power = s.power ∧ (s.mapBoot g).flash = s.flash ∧
    (s.mapBoot g).upd = s.upd ∧ (s.mapBoot g).smb = s.smb ∧ (s.mapBoot g).freeCount = s.freeCount ∧
    (s.mapBoot g).pending = s.pending := by
  and_intros <;> rfl

/-! ## State.mapSmb -/

@[simp] theorem mapSmb_frame (s : State) (g : SmbSt → SmbSt) :
    (s.mapSmb g).regs = s.regs ∧ (s.mapSmb g).arrays = s.arrays ∧ (s.mapSmb g).mem = s.mem ∧
    (s.mapSmb g).memory = s.memory ∧ (s.mapSmb g).image = s.image ∧ (s.mapSmb g).ports = s.ports ∧
    (s.mapSmb g).negs = s.negs ∧ (s.mapSmb g).cruise = s.cruise ∧ (s.mapSmb g).time = s.time ∧
    (s.mapSmb g).bank0 = s.bank0 ∧ (s.mapSmb g).bank1 = s.bank1 ∧ (s.mapSmb g).dieTables = s.dieTables ∧
    (s.mapSmb g).epoch = s.epoch ∧ (s.mapSmb g).core = s.core ∧ (s.mapSmb g).ctxs = s.ctxs ∧
    (s.mapSmb g).descCache = s.descCache ∧ (s.mapSmb g).jobs = s.jobs ∧ (s.mapSmb g).landings = s.landings ∧
    (s.mapSmb g).mcs = s.mcs ∧ (s.mapSmb g).outs = s.outs ∧ (s.mapSmb g).ended = s.ended ∧ (s.mapSmb g).rxs = s.rxs ∧
    (s.mapSmb g).wt = s.wt ∧ (s.mapSmb g).host = s.host ∧ (s.mapSmb g).ringQueue = s.ringQueue ∧
    (s.mapSmb g).retained = s.retained ∧ (s.mapSmb g).signQueue = s.signQueue ∧ (s.mapSmb g).power = s.power ∧
    (s.mapSmb g).flash = s.flash ∧ (s.mapSmb g).boot = s.boot ∧ (s.mapSmb g).upd = s.upd ∧
    (s.mapSmb g).freeCount = s.freeCount ∧ (s.mapSmb g).pending = s.pending := by
  and_intros <;> rfl

/-! ## State.setNeg -/

@[simp] theorem setNeg_frame (s : State) (x : NegSt) :
    (s.setNeg x).regs = s.regs ∧ (s.setNeg x).arrays = s.arrays ∧ (s.setNeg x).mem = s.mem ∧
    (s.setNeg x).memory = s.memory ∧ (s.setNeg x).image = s.image ∧ (s.setNeg x).ports = s.ports ∧
    (s.setNeg x).cruise = s.cruise ∧ (s.setNeg x).time = s.time ∧ (s.setNeg x).bank0 = s.bank0 ∧
    (s.setNeg x).bank1 = s.bank1 ∧ (s.setNeg x).dieTables = s.dieTables ∧ (s.setNeg x).epoch = s.epoch ∧
    (s.setNeg x).core = s.core ∧ (s.setNeg x).ctxs = s.ctxs ∧ (s.setNeg x).descCache = s.descCache ∧
    (s.setNeg x).jobs = s.jobs ∧ (s.setNeg x).landings = s.landings ∧ (s.setNeg x).mcs = s.mcs ∧
    (s.setNeg x).outs = s.outs ∧ (s.setNeg x).ended = s.ended ∧ (s.setNeg x).rxs = s.rxs ∧ (s.setNeg x).wt = s.wt ∧
    (s.setNeg x).host = s.host ∧ (s.setNeg x).ringQueue = s.ringQueue ∧ (s.setNeg x).retained = s.retained ∧
    (s.setNeg x).signQueue = s.signQueue ∧ (s.setNeg x).power = s.power ∧ (s.setNeg x).flash = s.flash ∧
    (s.setNeg x).boot = s.boot ∧ (s.setNeg x).upd = s.upd ∧ (s.setNeg x).smb = s.smb ∧
    (s.setNeg x).freeCount = s.freeCount ∧ (s.setNeg x).pending = s.pending := by
  and_intros <;> rfl

/-! ## State.setCrz -/

@[simp] theorem setCrz_frame (s : State) (x : CruisePort) :
    (s.setCrz x).regs = s.regs ∧ (s.setCrz x).arrays = s.arrays ∧ (s.setCrz x).mem = s.mem ∧
    (s.setCrz x).memory = s.memory ∧ (s.setCrz x).image = s.image ∧ (s.setCrz x).ports = s.ports ∧
    (s.setCrz x).negs = s.negs ∧ (s.setCrz x).time = s.time ∧ (s.setCrz x).bank0 = s.bank0 ∧
    (s.setCrz x).bank1 = s.bank1 ∧ (s.setCrz x).dieTables = s.dieTables ∧ (s.setCrz x).epoch = s.epoch ∧
    (s.setCrz x).core = s.core ∧ (s.setCrz x).ctxs = s.ctxs ∧ (s.setCrz x).descCache = s.descCache ∧
    (s.setCrz x).jobs = s.jobs ∧ (s.setCrz x).landings = s.landings ∧ (s.setCrz x).mcs = s.mcs ∧
    (s.setCrz x).outs = s.outs ∧ (s.setCrz x).ended = s.ended ∧ (s.setCrz x).rxs = s.rxs ∧ (s.setCrz x).wt = s.wt ∧
    (s.setCrz x).host = s.host ∧ (s.setCrz x).ringQueue = s.ringQueue ∧ (s.setCrz x).retained = s.retained ∧
    (s.setCrz x).signQueue = s.signQueue ∧ (s.setCrz x).power = s.power ∧ (s.setCrz x).flash = s.flash ∧
    (s.setCrz x).boot = s.boot ∧ (s.setCrz x).upd = s.upd ∧ (s.setCrz x).smb = s.smb ∧
    (s.setCrz x).freeCount = s.freeCount ∧ (s.setCrz x).pending = s.pending := by
  and_intros <;> rfl

/-! ## State.latchTime -/

@[simp] theorem latchTime_frame (s : State) :
    (s.latchTime).regs = s.regs ∧ (s.latchTime).arrays = s.arrays ∧ (s.latchTime).mem = s.mem ∧
    (s.latchTime).memory = s.memory ∧ (s.latchTime).image = s.image ∧ (s.latchTime).ports = s.ports ∧
    (s.latchTime).negs = s.negs ∧ (s.latchTime).cruise = s.cruise ∧ (s.latchTime).bank0 = s.bank0 ∧
    (s.latchTime).bank1 = s.bank1 ∧ (s.latchTime).dieTables = s.dieTables ∧ (s.latchTime).epoch = s.epoch ∧
    (s.latchTime).core = s.core ∧ (s.latchTime).ctxs = s.ctxs ∧ (s.latchTime).descCache = s.descCache ∧
    (s.latchTime).jobs = s.jobs ∧ (s.latchTime).landings = s.landings ∧ (s.latchTime).mcs = s.mcs ∧
    (s.latchTime).outs = s.outs ∧ (s.latchTime).ended = s.ended ∧ (s.latchTime).rxs = s.rxs ∧
    (s.latchTime).wt = s.wt ∧ (s.latchTime).host = s.host ∧ (s.latchTime).ringQueue = s.ringQueue ∧
    (s.latchTime).retained = s.retained ∧ (s.latchTime).signQueue = s.signQueue ∧ (s.latchTime).power = s.power ∧
    (s.latchTime).flash = s.flash ∧ (s.latchTime).boot = s.boot ∧ (s.latchTime).upd = s.upd ∧
    (s.latchTime).smb = s.smb ∧ (s.latchTime).freeCount = s.freeCount ∧ (s.latchTime).pending = s.pending := by
  and_intros <;> rfl

end Sys2Proof.Machine
end

