-- ==== Sys2Proof/Laws/Memory.lean ====
section
/-! SUPPORT. Laws of the sparse stores that the block's memories are: reading back what was written, and the canonical form
that every operation over the memory of the stacks, the flash and the update buffer keeps. -/
namespace Sys2Proof.Machine

open Sys2Proof

/-! ## Sparse stores -/

section Sparse
variable {α : Type} [DecidableEq α]

omit [DecidableEq α] in
/-- The first key of a rising store is the lowest, also of what a filter keeps of it. -/
theorem srising_filter (q : Nat × α → Bool) : ∀ m : List (Nat × α), srising m = true →
    srising (m.filter q) = true ∧ ∀ j, (∀ p ∈ m, j < p.1) → ∀ p, (m.filter q).head? = some p → j < p.1 := by
  intro m
  induction m with
  | nil => intro _; exact ⟨rfl, fun j _ p h => by cases h⟩
  | cons a t ih =>
    intro h
    refine ⟨?_, fun j hj p hp => hj p (List.mem_filter.mp (List.mem_of_mem_head? hp)).1⟩
    obtain ⟨k, v⟩ := a
    have h' := (srising_cons k v t).mp h
    have low : ∀ p ∈ t, k < p.1 := by
      clear ih
      induction t generalizing k v with
      | nil => intro p hp; cases hp
      | cons b t iht =>
        intro p hp
        obtain ⟨l, w⟩ := b
        have kl : k < l := h'.1 (l, w) rfl
        rcases List.mem_cons.mp hp with e | e
        · exact e ▸ kl
        · exact Nat.lt_trans kl (iht l w h'.2 ((srising_cons l w t).mp h'.2) p e)
    by_cases b : q (k, v) = true
    · rw [List.filter_cons_of_pos b]
      exact (srising_cons k v _).mpr ⟨(ih h'.2).2 k low, (ih h'.2).1⟩
    · rw [List.filter_cons_of_neg b]; exact (ih h'.2).1

/-- Taking entries out keeps the canonical form. -/
theorem scanon_filter (d : Nat → α) (q : Nat × α → Bool) (m : List (Nat × α)) (h : scanon d m = true) :
    scanon d (m.filter q) = true := by
  obtain ⟨a, b⟩ := (scanon_iff d m).mp h
  exact (scanon_iff d _).mpr ⟨(srising_filter q m a).1, fun p hp => b p (List.mem_filter.mp hp).1⟩

omit [DecidableEq α] in
/-- A filter over the keys: a key it keeps reads as before, another is not listed. -/
theorem sget_filter (q : Nat → Bool) (k : Nat) (m : List (Nat × α)) :
    sget k (m.filter fun c => q c.1) = if q k = true then sget k m else none := by
  induction m with
  | nil => simp [sget]
  | cons a t ih =>
    obtain ⟨j, v⟩ := a
    by_cases c : j = k
    · subst c
      by_cases b : q j = true
      · simp [b, sget]
      · rw [List.filter_cons_of_neg (by simpa using b), ih]; simp [b]
    · by_cases b : q j = true
      · rw [List.filter_cons_of_pos (by simpa using b)]; simp only [sget, c, if_false]; exact ih
      · rw [List.filter_cons_of_neg (by simpa using b), ih]; simp only [sget, c, if_false]

end Sparse

/-! ## The memory of the stacks -/

theorem Memory.wf_nil : Memory.wf [] = true := rfl

/-- Reset memory lists nothing and is canonical. -/
theorem reset_mem_wf : Memory.wf State.reset.mem = true := rfl

/-- A write of memory keeps the canonical form. -/
theorem writeMem_wf (s : State) (ma : Nat) (bs : List Byte) (h : Memory.wf s.mem = true) :
    Memory.wf (s.writeMem ma bs).mem = true := scanon_ssetRun memDefault bs ma s.mem h

/-- Zeroing a run of memory keeps the canonical form. -/
theorem zeroMem_wf (s : State) (ma n : Nat) (h : Memory.wf s.mem = true) : Memory.wf (s.zeroMem ma n).mem = true :=
  scanon_filter _ _ s.mem h

/-- A snoop leaves memory alone. -/
@[simp] theorem snoop_mem (s : State) (line : Nat) (inv : Bool) : (s.snoop line inv).mem = s.mem := by
  unfold State.snoop State.post State.pumpLink
  split
  · rfl
  · dsimp only
    (repeat' split) <;> rfl

theorem snoops_mem {β : Type} (f : β → Nat) (inv : Bool) (ls : List β) (s : State) :
    (ls.foldl (fun s l => s.snoop (f l) inv) s).mem = s.mem := by
  induction ls generalizing s with
  | nil => rfl
  | cons l ls ih => exact (ih _).trans (snoop_mem s (f l) inv)

/-- Memory after a write of the window is memory after the write: the snoops do not touch it. -/
theorem windowWrite_mem (s : State) (ma : Nat) (bs : List Byte) :
    (s.windowWrite ma bs).mem = (s.writeMem ma bs).mem :=
  congrArg (ssetRun memDefault ma bs) (snoops_mem (fun i => windowLine ma + i) true _ s)

theorem windowWrite_wf (s : State) (ma : Nat) (bs : List Byte) (h : Memory.wf s.mem = true) :
    Memory.wf (s.windowWrite ma bs).mem = true := by
  rw [windowWrite_mem]; exact writeMem_wf s ma bs h

/-- Memory after zeroing a run of the window is memory after zeroing it. -/
theorem windowZero_mem (s : State) (ma n : Nat) : (s.windowZero ma n).mem = (s.zeroMem ma n).mem :=
  congrArg (List.filter fun c : Host.Cell => !(decide (ma ≤ c.1) && decide (c.1 < ma + n))) (snoops_mem (fun l => l) true _ s)

theorem windowZero_wf (s : State) (ma n : Nat) (h : Memory.wf s.mem = true) : Memory.wf (s.windowZero ma n).mem = true := by
  rw [windowZero_mem]; exact zeroMem_wf s ma n h

/-- A byte that a write does not reach reads as before. -/
theorem readMem_writeMem_outside (s : State) (ma : Nat) (bs : List Byte) (a : Nat) (h : a < ma ∨ ma + bs.length ≤ a) :
    (s.writeMem ma bs).readMem a 1 = s.readMem a 1 := by
  have e := sget_ssetRun memDefault a bs ma s.mem
  simp only [State.readMem, State.writeMem, sgetRun]
  rw [e, if_neg (by omega)]

/-- A zeroed byte reads as zero, any other as before. -/
theorem readMem_zeroMem (s : State) (ma n a : Nat) :
    (s.zeroMem ma n).readMem a 1 = if ma ≤ a ∧ a < ma + n then [0] else s.readMem a 1 := by
  simp only [State.readMem, State.zeroMem, sgetRun]
  rw [sget_filter (fun k => !(decide (ma ≤ k) && decide (k < ma + n)))]
  by_cases c : ma ≤ a ∧ a < ma + n
  · simp [c, memDefault]
  · simp only [c, if_false]
    rw [if_pos (by simp; omega)]

/-! ## The flash and the update buffer (R516, R547) -/

/-- Erasing keeps the canonical form of the flash. -/
theorem flashErase_canon (s : State) (off n : Nat) (h : scanon (fun _ => flashErased) s.flash.data = true) :
    scanon (fun _ => flashErased) (s.flashErase off n).flash.data = true := scanon_filter _ _ _ h

/-- Programming keeps the canonical form of the flash. -/
theorem flashProgram_canon (s : State) (off : Nat) (bs : List Byte) (h : scanon (fun _ => flashErased) s.flash.data = true) :
    scanon (fun _ => flashErased) (s.flashProgram off bs).flash.data = true := by
  unfold State.flashProgram
  by_cases c : ((s.flashAt off bs.length).all fun x => x == flashErased) = true
  · simp only [c, if_true]; exact scanon_ssetRun _ _ _ _ h
  · simp only [c]; exact scanon_ssetRun _ _ _ _ h

/-- A write of the update buffer keeps its canonical form. -/
theorem bufferWrite_canon (s : State) (off : Nat) (bs : List Byte) (h : scanon (fun _ => memDefault) s.upd.buf = true) :
    scanon (fun _ => memDefault) (s.bufferWrite off bs).upd.buf = true := scanon_ssetRun memDefault bs off s.upd.buf h

end Sys2Proof.Machine
end

