-- ==== Sys2Proof/Laws/Ops.lean ====
section
/-! SUPPORT. What each shared operation can do, said once: the parts of the state it may change, and, for a fault, a queued
frame and a message of the switch's own, what it leaves there. -/
namespace Sys2Proof.Machine

open Sys2Proof

/-! ## onlyParts -/

theorem onlyParts_refl (c : List Part) (s : State) : onlyParts c s s := fun p _ => by cases p <;> rfl

theorem Part.same_trans {s t u : State} (p : Part) (a : p.same s t) (b : p.same t u) : p.same s u := by
  cases p <;> exact Eq.trans b a

theorem onlyParts_trans {c : List Part} {s t u : State} (a : onlyParts c s t) (b : onlyParts c t u) : onlyParts c s u :=
  fun p hp => p.same_trans (a p hp) (b p hp)

theorem onlyParts_mono {c d : List Part} {s t : State} (a : onlyParts c s t) (h : ∀ p ∈ c, p ∈ d) : onlyParts d s t :=
  fun p hp => a p fun q => hp (h p q)

/-- A fold of operations that change certain parts alone changes those alone. -/
theorem onlyParts_foldl {c : List Part} {β : Type} (f : State → β → State) (h : ∀ s b, onlyParts c s (f s b)) :
    ∀ (l : List β) (s : State), onlyParts c s (l.foldl f s)
  | [], s => onlyParts_refl c s
  | b :: l, s => onlyParts_trans (h s b) (onlyParts_foldl f h l (f s b))

/-! ## Registers, interrupts and faults -/

theorem setReg_parts (s : State) (n : RegName) (i v : Nat) : onlyParts [.regs] s (s.setReg n i v) := fun p hp => by
  cases p <;> first | rfl | exact absurd (by decide) hp

theorem setFld_parts (s : State) (f : Fld) (i v : Nat) : onlyParts [.regs] s (s.setFld f i v) := setReg_parts s _ _ _

theorem bumpBy_parts (s : State) (f : Fld) (i k : Nat) : onlyParts [.regs] s (s.bumpBy f i k) := setFld_parts s _ _ _

theorem bump_parts (s : State) (f : Fld) (i : Nat) : onlyParts [.regs] s (s.bump f i) := bumpBy_parts s _ _ _

theorem setAll_parts (s : State) (f : Fld) (n v : Nat) : onlyParts [.regs] s (s.setAll f n v) :=
  onlyParts_foldl _ (fun s d => setFld_parts s f d v) _ s

theorem bumpDies_parts (s : State) (f : Fld) : onlyParts [.regs] s (s.bumpDies f) :=
  onlyParts_foldl _ (fun s d => bump_parts s f d) _ s

theorem mapHost_parts (s : State) (g : HostSt → HostSt) : onlyParts [.host] s (s.mapHost g) := fun p hp => by
  cases p <;> first | rfl | exact absurd (by decide) hp

theorem pumpLink_parts (s : State) : onlyParts [.host] s s.pumpLink := by
  unfold State.pumpLink
  split
  · exact mapHost_parts s fun h => h.pumpOut s.dclWidth
  · exact onlyParts_refl _ s

theorem post_parts (s : State) (m : DclMsg) : onlyParts [.host] s (s.post m) := by
  unfold State.post
  split
  · exact onlyParts_trans (mapHost_parts s fun h => { h with queue := h.queue ++ [m] }) (pumpLink_parts _)
  · exact onlyParts_refl _ s

theorem sendIntr_parts (s : State) (bit : Nat) : onlyParts [.host] s (s.sendIntr bit) := by
  unfold State.sendIntr
  split
  · intro p hp; cases p <;> first | rfl | exact absurd (by decide) hp
  · dsimp only
    split
    · exact post_parts s _
    · exact onlyParts_trans (post_parts s _) fun p hp => by cases p <;> first | rfl | exact absurd (by decide) hp

theorem raiseInt_parts (s : State) (bit : Nat) : onlyParts [.regs, .host] s (s.raiseInt bit) := by
  unfold State.raiseInt
  dsimp only
  have a (v : Nat) := onlyParts_mono (d := [.regs, .host]) (setFld_parts s F.HOST_INT_STATUS_STATUS 0 v) (by decide)
  split
  · exact onlyParts_refl _ s
  · split
    · exact onlyParts_trans (a _) (onlyParts_mono (sendIntr_parts _ bit) (by decide))
    · exact a _

theorem raiseMsg_parts (s : State) (m : FaultMsg) : onlyParts [.regs, .wt] s (s.raiseMsg m) := fun p hp => by
  cases p <;> first | rfl | exact absurd (by decide) hp

theorem raise_parts (s : State) (die block inst kind address detail : Nat) :
    onlyParts [.regs, .wt] s (s.raise die block inst kind address detail) := raiseMsg_parts s _

theorem raiseFrom_parts (s : State) (src : BitVec 19) (kind address detail : Nat) :
    onlyParts [.regs, .wt] s (s.raiseFrom src kind address detail) := raise_parts s _ _ _ _ _ _

theorem reservedWrite_parts (s : State) (addr data : Nat) : onlyParts [.regs, .wt] s (s.reservedWrite addr data) :=
  raise_parts s _ _ _ _ _ _

theorem raiseCond_parts (s : State) (m : FaultMsg) : onlyParts [.regs, .wt] s (s.raiseCond m) := fun p hp => by
  unfold State.raiseCond
  split <;> cases p <;> first | rfl | exact absurd (by decide) hp

theorem endCond_parts (s : State) (m : FaultMsg) : onlyParts [.wt] s (s.endCond m) := fun p hp => by
  cases p <;> first | rfl | exact absurd (by decide) hp

/-- A message handed to its source is held there, on its own or merged into the held one of its source, kind and class. -/
theorem mem_holdMsg (m : FaultMsg) : ∀ l : List FaultMsg, ∃ x ∈ holdMsg m l, x = m ∨ (x.source = m.source ∧ x.kind = m.kind)
  | [] => ⟨m, List.mem_singleton.mpr rfl, .inl rfl⟩
  | h :: t => by
    unfold holdMsg
    split
    · split
      · rename_i q
        refine ⟨h.again, List.mem_cons_self, .inr ?_⟩
        simp only [FaultMsg.same, Bool.and_eq_true, beq_iff_eq] at q
        exact q.1
      · exact ⟨m, by simp, .inl rfl⟩
    · obtain ⟨x, a, b⟩ := mem_holdMsg m t
      exact ⟨x, List.mem_cons_of_mem _ a, b⟩

/-- After a fault was raised, a message of its source and kind is held. -/
theorem raiseMsg_held (s : State) (m : FaultMsg) :
    ∃ x ∈ (s.raiseMsg m).wt.held, x = m ∨ (x.source = m.source ∧ x.kind = m.kind) := mem_holdMsg m s.wt.held

/-! ## Memory, the window and its snoops -/

theorem writeMem_parts (s : State) (ma : Nat) (bs : List Byte) : onlyParts [.mem, .memory] s (s.writeMem ma bs) :=
  fun p hp => by cases p <;> first | rfl | exact absurd (by decide) hp

theorem zeroMem_parts (s : State) (ma n : Nat) : onlyParts [.mem, .memory] s (s.zeroMem ma n) := fun p hp => by
  cases p <;> first | rfl | exact absurd (by decide) hp

theorem snoop_parts (s : State) (line : Nat) (inv : Bool) : onlyParts [.host] s (s.snoop line inv) := by
  unfold State.snoop
  split
  · exact onlyParts_refl _ s
  · exact onlyParts_trans (post_parts s _) fun p hp => by cases p <;> first | rfl | exact absurd (by decide) hp

theorem windowWrite_parts (s : State) (ma : Nat) (bs : List Byte) :
    onlyParts [.mem, .memory, .host] s (s.windowWrite ma bs) :=
  onlyParts_trans (onlyParts_foldl _ (fun s i => onlyParts_mono (snoop_parts s _ true) (by decide)) _ s)
    (onlyParts_mono (writeMem_parts _ ma bs) (by decide))

theorem windowZero_parts (s : State) (ma n : Nat) : onlyParts [.mem, .memory, .host] s (s.windowZero ma n) :=
  onlyParts_trans (onlyParts_foldl _ (fun s i => onlyParts_mono (snoop_parts s _ true) (by decide)) _ s)
    (onlyParts_mono (zeroMem_parts _ ma n) (by decide))

/-! ## The packet buffer -/

theorem mapCore_parts (s : State) (g : CoreSt → CoreSt) : onlyParts [.core] s (s.mapCore g) := fun p hp => by
  cases p <;> first | rfl | exact absurd (by decide) hp

theorem freeHeld_parts (s : State) (fid : Nat) : onlyParts [.core] s (s.freeHeld fid) := by
  unfold State.freeHeld
  split
  · exact onlyParts_refl _ s
  · exact mapCore_parts s _

theorem transmit_parts (s : State) (p : Nat) (g : Nat → PcsTx → PcsTx) : onlyParts [.core] s (s.transmit p g) := by
  unfold State.transmit
  split
  · exact onlyParts_refl _ s
  · exact mapCore_parts s _

theorem mapHeld_parts (s : State) (fid : Nat) (g : Held → Held) : onlyParts [.core] s (s.mapHeld fid g) := mapCore_parts s _

theorem mapCopy_parts (s : State) (cid : Nat) (g : Copy → Copy) : onlyParts [.core] s (s.mapCopy cid g) := mapCore_parts s _

theorem refreshPause_parts (s : State) (p : Nat) : onlyParts [.regs, .core] s (s.refreshPause p) := by
  unfold State.refreshPause
  dsimp only
  split
  · exact onlyParts_refl _ s
  · exact onlyParts_trans (onlyParts_mono (setFld_parts s _ _ _) (by decide))
      (onlyParts_mono (onlyParts_trans (mapCore_parts _ _) (transmit_parts _ _ _)) (by decide))

theorem refreshDie_parts (s : State) (d : Nat) : onlyParts [.regs, .core] s (s.refreshDie d) :=
  onlyParts_foldl _ refreshPause_parts _ s

theorem msgSent_parts (s : State) (m : Option Nat) : onlyParts [.outs] s (s.msgSent m) := fun p hp => by
  unfold State.msgSent; split <;> cases p <;> first | rfl | exact absurd (by decide) hp

/-- What a change of the packet buffer and its counters, and what it counts for messages, may touch. -/
abbrev coreParts : List Part := [.regs, .core, .outs]

theorem comeToHead_parts (die src : Nat) (dest : Dest) (vc : Nat) :
    ∀ (n : Nat) (s : State), onlyParts coreParts s (s.comeToHead die src dest vc n)
  | 0, s => onlyParts_refl _ s
  | n + 1, s => by
    unfold State.comeToHead
    split
    · exact onlyParts_refl _ s
    · split
      · refine onlyParts_trans ?_ (comeToHead_parts die src dest vc n _)
        exact onlyParts_trans (onlyParts_mono (mapCore_parts s fun k => { k with copies := _ }) (by decide))
          (onlyParts_trans (onlyParts_mono (bump_parts _ _ _) (by decide)) (onlyParts_mono (msgSent_parts _ _) (by decide)))
      · split
        · exact onlyParts_refl _ s
        · exact onlyParts_mono (mapCopy_parts s _ _) (by decide)

theorem markHead_parts (s : State) (die src : Nat) (dest : Dest) (vc : Nat) :
    onlyParts coreParts s (s.markHead die src dest vc) := comeToHead_parts die src dest vc _ s

theorem admitLocal_parts (s : State) (h : Held) (cs : List Copy) : onlyParts coreParts s (s.admitLocal h cs) :=
  onlyParts_trans (onlyParts_mono (mapCore_parts s _) (by decide))
    (onlyParts_foldl (fun s (c : Copy) => s.markHead c.die c.src c.dest c.vc) (fun s _ => markHead_parts s _ _ _ _) _ _)

theorem takeLocal_parts (s : State) (d : Nat) (f : Frame) (xs : List LocalCopy) :
    onlyParts coreParts s (s.takeLocal d f xs) := by
  unfold State.takeLocal
  split
  · exact onlyParts_refl _ s
  · dsimp only
    split
    · exact onlyParts_trans (onlyParts_mono (mapCore_parts s _) (by decide)) (admitLocal_parts _ _ _)
    · exact onlyParts_mono (onlyParts_trans (mapCore_parts s _) (mapCore_parts _ _)) (by decide)

theorem drainLocal_parts (s : State) (d : Nat) : onlyParts coreParts s (s.drainLocal d) := by
  refine onlyParts_trans (onlyParts_mono (mapCore_parts s _) (by decide)) (onlyParts_foldl _ (fun s x => ?_) _ _)
  split
  · exact onlyParts_mono (mapCore_parts s _) (by decide)
  · exact admitLocal_parts s _ _

theorem releaseCopy_parts (s : State) (cid : Nat) : onlyParts coreParts s (s.releaseCopy cid) := by
  unfold State.releaseCopy
  split
  · exact onlyParts_refl _ s
  · rename_i c _
    have a : onlyParts coreParts s
        ((s.mapCore fun k => { k with copies := k.copies.filter fun x => x.cid != cid }).markHead c.die c.src c.dest c.vc) :=
      onlyParts_trans (onlyParts_mono (mapCore_parts s _) (by decide)) (markHead_parts _ _ _ _ _)
    dsimp only
    generalize (s.mapCore fun k => { k with copies := k.copies.filter fun x => x.cid != cid }).markHead
      c.die c.src c.dest c.vc = t at a ⊢
    split
    · exact a
    · refine onlyParts_trans a (onlyParts_trans (onlyParts_mono (c := [.core]) ?_ (by decide))
        (onlyParts_trans (drainLocal_parts _ _) (onlyParts_mono (refreshDie_parts _ _) (by decide))))
      repeat' split
      all_goals first | exact onlyParts_refl _ _ | exact freeHeld_parts _ _ | exact mapHeld_parts _ _ _

theorem dropCopy_parts (s : State) (cid : Nat) : onlyParts coreParts s (s.dropCopy cid) := by
  unfold State.dropCopy
  split
  · exact onlyParts_refl _ s
  · exact onlyParts_trans (releaseCopy_parts s cid) (onlyParts_mono (msgSent_parts _ _) (by decide))

theorem dropWaiting_parts (s : State) (q : Copy → Bool) : onlyParts coreParts s (s.dropWaiting q) :=
  onlyParts_trans (onlyParts_mono (mapCore_parts s _) (by decide))
    (onlyParts_foldl (fun s (c : Copy) => s.msgSent c.msg) (fun s _ => onlyParts_mono (msgSent_parts s _) (by decide)) _ _)

theorem dropCopies_parts (s : State) (q : Copy → Bool) : onlyParts coreParts s (s.dropCopies q) :=
  onlyParts_trans (dropWaiting_parts s q) (onlyParts_foldl _ dropCopy_parts _ _)

theorem pushOut_parts (d need : Nat) : ∀ (n : Nat) (s : State), onlyParts coreParts s (s.pushOut d need n)
  | 0, s => onlyParts_refl _ s
  | n + 1, s => by
    unfold State.pushOut
    split
    · exact onlyParts_refl _ s
    · split
      · exact onlyParts_refl _ s
      · rename_i v _
        refine onlyParts_trans (dropCopies_parts s fun c => c.fid == v.fid) (onlyParts_trans ?_ (pushOut_parts d need n _))
        exact onlyParts_trans (onlyParts_mono (freeHeld_parts _ _) (by decide)) (onlyParts_mono (bump_parts _ _ _) (by decide))

/-- Admission changes the counters, what a push-out discards, and, at an overrun, the faults held. -/
theorem admitFrame_parts (s : State) (p : Nat) (f : Frame) (x : Bool) :
    onlyParts [.regs, .core, .outs, .wt] s (s.admitFrame p f x).2 := by
  have same : onlyParts [.regs, .core, .outs, .wt] s s := onlyParts_refl _ s
  have count (g : Fld) (i : Nat) : onlyParts [.regs, .core, .outs, .wt] s (s.bump g i) :=
    onlyParts_mono (bump_parts s g i) (by decide)
  have overrun (g : Fld) (i a b c k d e : Nat) :
      onlyParts [.regs, .core, .outs, .wt] s ((s.bump g i).raise a b c k d e) :=
    onlyParts_trans (count g i) (onlyParts_mono (raise_parts _ _ _ _ _ _ _) (by decide))
  have pushed (d n k : Nat) : onlyParts [.regs, .core, .outs, .wt] s (s.pushOut d n k) :=
    onlyParts_mono (pushOut_parts d n k s) (by decide)
  unfold State.admitFrame
  dsimp only
  repeat' split
  all_goals dsimp only
  all_goals with_reducible
    first | exact same | exact count _ _ | exact overrun _ _ _ _ _ _ _ _ | exact pushed _ _ _

theorem hold_parts (s : State) (die src : Nat) (f : Frame) (r : Region) (tail : Tail) (ct : Bool) (sh : Option Nat) :
    onlyParts [.core] s (s.hold die src f r tail ct sh).2 := mapCore_parts s _

theorem enqueue_parts (s : State) (fid : Nat) (dest : Dest) (out : Frame) (own rewritten : Bool) (msg : Option Nat)
    (fan : List (Nat × Frame × Option Nat)) : onlyParts coreParts s (s.enqueue fid dest out own rewritten msg fan) := by
  unfold State.enqueue
  split
  · exact onlyParts_refl _ s
  · exact onlyParts_trans (onlyParts_mono (onlyParts_trans (mapCore_parts s _) (mapHeld_parts _ _ _)) (by decide))
      (markHead_parts _ _ _ _ _)

/-! ## Frames and messages of the switch's own -/

theorem queueOwn_parts (s : State) (p : Nat) (f : Frame) (msg : Option Nat) : onlyParts coreParts s (s.queueOwn p f msg) :=
  takeLocal_parts s _ _ _

theorem place_parts (s : State) (k : Nat) (hop : Hop) (f : Frame) : onlyParts [.regs] s (s.place k hop f).2 := by
  unfold State.place
  split
  · exact onlyParts_refl _ s
  · dsimp only
    repeat' split
    all_goals first | exact onlyParts_refl _ s | exact bumpDies_parts s _

theorem emit_parts (s : State) (hop : Hop) (f : Frame) (msg : Option Nat) : onlyParts coreParts s (s.emit hop f msg) := by
  unfold State.emit
  have a := onlyParts_mono (d := coreParts) (place_parts s 0 hop f) (by decide)
  split
  · rename_i e; rw [e] at a
    exact onlyParts_trans a (queueOwn_parts _ _ _ _)
  · rename_i e; rw [e] at a
    exact onlyParts_trans a (onlyParts_mono (msgSent_parts _ _) (by decide))

/-- A fold that carries a state and more changes the state no further than each of its turns does. -/
theorem onlyParts_foldl₂ {c : List Part} {α β : Type} (f : α × State → β → α × State)
    (h : ∀ a b, onlyParts c a.2 (f a b).2) : ∀ (l : List β) (a : α × State), onlyParts c a.2 (l.foldl f a).2
  | [], a => onlyParts_refl c a.2
  | b :: l, a => onlyParts_trans (h a b) (onlyParts_foldl₂ f h l (f a b))

theorem emitCopies_parts (s : State) (xs : List (Hop × Frame × Option Nat)) : onlyParts coreParts s (s.emitCopies xs) := by
  unfold State.emitCopies
  dsimp only
  refine onlyParts_trans (onlyParts_foldl₂ (c := coreParts) _ (fun a x => ?_) xs ([], s)) (onlyParts_foldl _ (fun s d => ?_) _ _)
  · have b := onlyParts_mono (d := coreParts) (place_parts a.2 a.1.length x.1 x.2.1) (by decide)
    split
    · rename_i e; rw [e] at b; exact b
    · rename_i e; rw [e] at b; exact onlyParts_trans b (onlyParts_mono (msgSent_parts _ _) (by decide))
  · split
    · exact onlyParts_refl _ s
    · exact takeLocal_parts s _ _ _

theorem ack_parts (s : State) (p : Nat) (h : BaseHdr) : onlyParts [.regs, .core, .outs] s (s.ack p h) := emit_parts s _ _ _

theorem setRx_parts (s : State) (p : Nat) (h : BaseHdr) (r : RxMsg) : onlyParts [.rxs] s (s.setRx p h r) := fun q hq => by
  cases q <;> first | rfl | exact absurd (by decide) hq

theorem nack_parts (s : State) (p : Nat) (h : BaseHdr) (x : NackExt) :
    onlyParts [.regs, .core, .outs, .rxs] s (s.nack p h x) := by
  unfold State.nack
  dsimp only
  split
  · exact onlyParts_refl _ s
  · exact onlyParts_trans (onlyParts_mono (setRx_parts s _ _ _) (by decide)) (onlyParts_mono (emit_parts _ _ _ _) (by decide))

theorem receive_parts (s : State) (p : Nat) (f : Frame) : onlyParts [.rxs] s (s.receive p f).2 := by
  unfold State.receive
  dsimp only
  repeat' split
  all_goals exact setRx_parts s _ _ _

theorem draw1_parts (s : State) : onlyParts [.freeCount] s s.draw1.2 := fun p hp => by
  cases p <;> first | rfl | exact absurd (by decide) hp

theorem open_parts (s : State) (hop : Hop) (fs : List Frame) (job : Option (BitVec 12)) (rank : Option Nat) (why : Purpose) :
    onlyParts [.outs, .freeCount] s (s.open_ hop fs job rank why).2.2 := fun p hp => by
  cases p <;> first | rfl | exact absurd (by decide) hp

theorem send_parts (s : State) (hop : Hop) (fs : List Frame) (job : Option (BitVec 12)) (rank : Option Nat) (why : Purpose) :
    onlyParts [.regs, .core, .outs, .freeCount] s (s.send hop fs job rank why) := by
  unfold State.send
  split
  · exact onlyParts_refl _ s
  · exact onlyParts_trans (onlyParts_mono (open_parts s hop fs job rank why) (by decide))
      (onlyParts_foldl _ (fun s f => onlyParts_mono (emit_parts s hop f _) (by decide)) _ _)

/-! ## Rings in the stacks -/

theorem ringWrite_parts (s : State) (r : RingAt) (p : Nat) (rec : List Byte) :
    onlyParts [.mem, .memory, .host] s (s.ringWrite r p rec) :=
  onlyParts_foldl _ (fun s _ => windowWrite_parts s _ _) _ s

theorem ringDrop_parts (s : State) (r : RingAt) : onlyParts [.mem, .memory, .host, .regs, .core] s (s.ringDrop r) := by
  unfold State.ringDrop
  split
  · exact onlyParts_mono (windowWrite_parts s _ _) (by decide)
  · exact onlyParts_trans (onlyParts_mono (mapCore_parts s _) (by decide)) (onlyParts_mono (bump_parts _ _ _) (by decide))

theorem ringWrote_parts (s : State) (r : RingAt) : onlyParts [.mem, .memory, .host, .regs, .core] s (s.ringWrote r) := by
  unfold State.ringWrote
  split
  · split
    · exact onlyParts_mono (bump_parts s _ _) (by decide)
    · exact onlyParts_refl _ s
  · exact onlyParts_mono (mapCore_parts s _) (by decide)

theorem ringPutNow_parts (s : State) (r : RingAt) (rec : List Byte) (irq : Nat) :
    onlyParts [.mem, .memory, .host, .regs, .core] s (s.ringPutNow r rec irq) := by
  unfold State.ringPutNow
  split
  · exact ringDrop_parts s r
  · exact onlyParts_trans (onlyParts_trans
      (onlyParts_mono (onlyParts_trans (ringWrite_parts s r (s.ringProducer r.ref) _) (windowWrite_parts _ r.ref.base _))
        (by decide)) (ringWrote_parts _ r))
      (onlyParts_mono (raiseInt_parts _ irq) (by decide))

/-- A record of a ring changes memory, what the companion holds of it, the interrupt and drop registers, the telemetry
bookkeeping of the switch core, and the records that wait. -/
theorem ringPut_parts (s : State) (r : RingAt) (rec : List Byte) (irq : Nat) :
    onlyParts [.mem, .memory, .host, .regs, .core, .ringQueue] s (s.ringPut r rec irq) := by
  unfold State.ringPut
  dsimp only
  split
  · intro p hp; cases p <;> first | rfl | exact absurd (by decide) hp
  · split
    · exact onlyParts_trans (onlyParts_mono (snoop_parts s _ false) (by decide)) fun p hp => by
        cases p <;> first | rfl | exact absurd (by decide) hp
    · exact onlyParts_mono (ringPutNow_parts s r rec irq) (by decide)

end Sys2Proof.Machine
end

