-- ==== Sys2Proof/Laws/PerInstr.lean ====
section
/-! SUPPORT. What holds of every command as syntax, constructor by constructor: a well-formed command names only units that
exist. -/
namespace Sys2Proof.Laws.WfPlaces

open Sys2Proof

/-- Every unit that a well-formed command names exists. -/
def Statement (i : Instr) : Prop := i.wf = true → ∀ p ∈ i.places, p.ok = true

/-- The one proof behind every case. -/
theorem of_wf (i : Instr) : Statement i := fun h p hp => List.all_eq_true.mp h p hp

theorem frameHeaderLookup (port : Nat) (f : Frame) (bank : WordErr) : Statement (.frameHeaderLookup port f bank) := of_wf _
theorem frameTailVerdict (fid : Nat) (rx : TailRx) (read : CellRx) : Statement (.frameTailVerdict fid rx read) := of_wf _
theorem egressSelect (port : Nat) : Statement (.egressSelect port) := of_wf _
theorem egressFrameDone (cid : Nat) (read : CellRx) (count : WordErr) : Statement (.egressFrameDone cid read count) := of_wf _
theorem queueHeadDwellExpiry (cid : Nat) : Statement (.queueHeadDwellExpiry cid) := of_wf _
theorem extensionReturn (fid : Nat) (memBad : Bool) : Statement (.extensionReturn fid memBad) := of_wf _
theorem shaperRelease (die entry : Nat) : Statement (.shaperRelease die entry) := of_wf _
theorem refusalRecordExpiry (die entry : Nat) (src : BitVec 24) (msgId : BitVec 16) (attempt : BitVec 3) : Statement (.refusalRecordExpiry die entry src msgId attempt) := of_wf _
theorem arbiterRest (port : Nat) : Statement (.arbiterRest port) := of_wf _
theorem relayFrame (port : Nat) (f : Frame) (canTake : Bool) : Statement (.relayFrame port f canTake) := of_wf _
theorem contribFrame (port : Nat) (f : Frame) (flt : MillFault) : Statement (.contribFrame port f flt) := of_wf _
theorem partialFrame (port : Nat) (f : Frame) (flt : MillFault) : Statement (.partialFrame port f flt) := of_wf _
theorem resultReceived (port : Nat) (f : Frame) : Statement (.resultReceived port f) := of_wf _
theorem rescaleReceived (port : Nat) (f : Frame) : Statement (.rescaleReceived port f) := of_wf _
theorem supersedeReceived (port : Nat) (f : Frame) : Statement (.supersedeReceived port f) := of_wf _
theorem stepCommitReceived (port : Nat) (f : Frame) (flt : MillFault) : Statement (.stepCommitReceived port f flt) := of_wf _
theorem stepAbortReceived (port : Nat) (f : Frame) (flt : MillFault) : Statement (.stepAbortReceived port f flt) := of_wf _
theorem ackFrame (port : Nat) (f : Frame) : Statement (.ackFrame port f) := of_wf _
theorem nackFrame (port : Nat) (f : Frame) : Statement (.nackFrame port f) := of_wf _
theorem checkFailNack (port : Nat) (f : Frame) : Statement (.checkFailNack port f) := of_wf _
theorem resendTimerExpiry (key : Nat) : Statement (.resendTimerExpiry key) := of_wf _
theorem stragglerTimerExpiry (w : WaitObj) : Statement (.stragglerTimerExpiry w) := of_wf _
theorem fenceTimerExpiry (w : WaitObj) : Statement (.fenceTimerExpiry w) := of_wf _
theorem stepTimerExpiry (job : BitVec 12) (step : BitVec 32) : Statement (.stepTimerExpiry job step) := of_wf _
theorem stepReportSend (job : BitVec 12) (step : BitVec 32) : Statement (.stepReportSend job step) := of_wf _
theorem stepReport (port : Nat) (f : Frame) : Statement (.stepReport port f) := of_wf _
theorem reportWithdraw (port : Nat) (f : Frame) : Statement (.reportWithdraw port f) := of_wf _
theorem withdrawReply (port : Nat) (f : Frame) : Statement (.withdrawReply port f) := of_wf _
theorem tallyReport (port : Nat) (f : Frame) : Statement (.tallyReport port f) := of_wf _
theorem bellArrive (port : Nat) (f : Frame) (store : WordErr) : Statement (.bellArrive port f store) := of_wf _
theorem bellRelease (port : Nat) (f : Frame) : Statement (.bellRelease port f) := of_wf _
theorem mcRecordTimeout (die : Nat) (src : BitVec 24) (msgId : BitVec 16) : Statement (.mcRecordTimeout die src msgId) := of_wf _
theorem dispatchEnd (port : Nat) (f : Frame) : Statement (.dispatchEnd port f) := of_wf _
theorem dispatchGrant (port : Nat) (f : Frame) : Statement (.dispatchGrant port f) := of_wf _
theorem landingData (port : Nat) (f : Frame) : Statement (.landingData port f) := of_wf _
theorem landingOpen (port : Nat) (f : Frame) : Statement (.landingOpen port f) := of_wf _
theorem landingSeal (port : Nat) (f : Frame) : Statement (.landingSeal port f) := of_wf _
theorem sealHashDone (job : BitVec 12) (owner : Nat) (gen : BitVec 4) (slot : Nat) : Statement (.sealHashDone job owner gen slot) := of_wf _
theorem landingRead (port : Nat) (f : Frame) : Statement (.landingRead port f) := of_wf _
theorem landingDrop (port : Nat) (f : Frame) : Statement (.landingDrop port f) := of_wf _
theorem epochRequest (port : Nat) (f : Frame) : Statement (.epochRequest port f) := of_wf _
theorem epochPrepare (port : Nat) (f : Frame) : Statement (.epochPrepare port f) := of_wf _
theorem epochPrepared (port : Nat) (f : Frame) : Statement (.epochPrepared port f) := of_wf _
theorem epochCommit (port : Nat) (f : Frame) : Statement (.epochCommit port f) := of_wf _
theorem epochDrainCondition : Statement .epochDrainCondition := of_wf _
theorem epochDrained (port : Nat) (f : Frame) : Statement (.epochDrained port f) := of_wf _
theorem epochRetire (port : Nat) (f : Frame) : Statement (.epochRetire port f) := of_wf _
theorem epochQuery (port : Nat) (f : Frame) : Statement (.epochQuery port f) := of_wf _
theorem timeSyncPeriod : Statement .timeSyncPeriod := of_wf _
theorem timeSync (port : Nat) (f : Frame) (t2 : BitVec 80) : Statement (.timeSync port f t2) := of_wf _
theorem timeSyncReply (port : Nat) (f : Frame) (t4 : BitVec 80) : Statement (.timeSyncReply port f t4) := of_wf _
theorem timeHoldoverTimeout : Statement .timeHoldoverTimeout := of_wf _
theorem hello (port : Nat) (f : Frame) : Statement (.hello port f) := of_wf _
theorem helloAck (port : Nat) (f : Frame) : Statement (.helloAck port f) := of_wf _
theorem helloTimer (port : Nat) : Statement (.helloTimer port) := of_wf _
theorem cruiseId (port : Nat) (f : Frame) : Statement (.cruiseId port f) := of_wf _
theorem cruiseReply (port : Nat) (f : Frame) : Statement (.cruiseReply port f) := of_wf _
theorem cruiseRetryTimer (port : Nat) : Statement (.cruiseRetryTimer port) := of_wf _
theorem cruiseSweepTimer : Statement .cruiseSweepTimer := of_wf _
theorem sweepNow : Statement .sweepNow := of_wf _
theorem epoch0Built : Statement .epoch0Built := of_wf _
theorem pauseBlock (port : Nat) (mask : BitVec 8) : Statement (.pauseBlock port mask) := of_wf _
theorem pauseRepeatTimer (port : Nat) : Statement (.pauseRepeatTimer port) := of_wf _
theorem gateArm (die j : Nat) : Statement (.gateArm die j) := of_wf _
theorem gateListSwap (die j : Nat) : Statement (.gateListSwap die j) := of_wf _
theorem gateEntryBoundary (die j : Nat) : Statement (.gateEntryBoundary die j) := of_wf _
theorem shaperEntryWrite (die entry : Nat) (w0 w1 w2 : Word) : Statement (.shaperEntryWrite die entry w0 w1 w2) := of_wf _
theorem sampleSnapshot (die : Nat) : Statement (.sampleSnapshot die) := of_wf _
theorem compactionDone (mill : Nat) : Statement (.compactionDone mill) := of_wf _
theorem admissionReplyDeferred (job : BitVec 12) : Statement (.admissionReplyDeferred job) := of_wf _
theorem restoreCounts (die : Nat) : Statement (.restoreCounts die) := of_wf _
theorem refcountSweepDone (die : Nat) (count : WordErr) : Statement (.refcountSweepDone die count) := of_wf _
theorem errorMemoryAccess (job : BitVec 12) (bucket : Nat) : Statement (.errorMemoryAccess job bucket) := of_wf _
theorem lpddrAccess (a : MemAccess) : Statement (.lpddrAccess a) := of_wf _
theorem scrubLine (stack channel line : Nat) (err checkErr : List (Nat × Byte)) : Statement (.scrubLine stack channel line err checkErr) := of_wf _
theorem mr4Reading (stack : Nat) (temp : BitVec 8) (rate : Nat) : Statement (.mr4Reading stack temp rate) := of_wf _
theorem stackTrainingDone (stack : Nat) (ok : Bool) : Statement (.stackTrainingDone stack ok) := of_wf _
theorem fenceRequestRank (rank : BitVec 18) : Statement (.fenceRequestRank rank) := of_wf _
theorem saveStart (job : BitVec 12) : Statement (.saveStart job) := of_wf _
theorem saveImageDone (job : BitVec 12) : Statement (.saveImageDone job) := of_wf _
theorem faultMessageAccept (source : BitVec 19) : Statement (.faultMessageAccept source) := of_wf _
theorem reactionHandle : Statement .reactionHandle := of_wf _
theorem entryReacted : Statement .entryReacted := of_wf _
theorem retire (count : BitVec 11) : Statement (.retire count) := of_wf _
theorem forceGo (w : Word) : Statement (.forceGo w) := of_wf _
theorem reactionWrite (kind : BitVec 8) (value : Byte) : Statement (.reactionWrite kind value) := of_wf _
theorem faultBitClear (addr : Word) (mask : Word) : Statement (.faultBitClear addr mask) := of_wf _
theorem flightRecorderCopy : Statement .flightRecorderCopy := of_wf _
theorem watchdogService (value : BitVec 16) : Statement (.watchdogService value) := of_wf _
theorem watchdogExpiry : Statement .watchdogExpiry := of_wf _
theorem firmwareReload : Statement .firmwareReload := of_wf _
theorem pllEnWrite (island : Nat) (v : Bool) : Statement (.pllEnWrite island v) := of_wf _
theorem pllLockAcquired (island : Nat) : Statement (.pllLockAcquired island) := of_wf _
theorem selectWrite (island : Nat) (v : Bool) : Statement (.selectWrite island v) := of_wf _
theorem muxSwitchDone (island : Nat) : Statement (.muxSwitchDone island) := of_wf _
theorem muxTimeout (island : Nat) : Statement (.muxTimeout island) := of_wf _
theorem domainReset (w : Word) : Statement (.domainReset w) := of_wf _
theorem clockGateWrite (w : Word) : Statement (.clockGateWrite w) := of_wf _
theorem blockGated (block : Nat) : Statement (.blockGated block) := of_wf _
theorem refLost (count : Option (BitVec 20)) : Statement (.refLost count) := of_wf _
theorem refOk (count : BitVec 20) : Statement (.refOk count) := of_wf _
theorem bootOscStopped : Statement .bootOscStopped := of_wf _
theorem thermalReading (die : Nat) (temp : BitVec 8) : Statement (.thermalReading die temp) := of_wf _
theorem thermtrip : Statement .thermtrip := of_wf _
theorem signalDetected (port : Nat) : Statement (.signalDetected port) := of_wf _
theorem trainingDone (port : Nat) : Statement (.trainingDone port) := of_wf _
theorem adaptDone (port : Nat) (inverted : List Bool) (snr : List (BitVec 16)) : Statement (.adaptDone port inverted snr) := of_wf _
theorem alignDone (port : Nat) (logical : List Nat) : Statement (.alignDone port logical) := of_wf _
theorem bringupTimeout (port : Nat) : Statement (.bringupTimeout port) := of_wf _
theorem pcsLockLoss (port : Nat) : Statement (.pcsLockLoss port) := of_wf _
theorem forceDownWrite (port : Nat) (v : Bool) : Statement (.forceDownWrite port v) := of_wf _
theorem prbsEnableWrite (lane : Nat) (w : Word) : Statement (.prbsEnableWrite lane w) := of_wf _
theorem quietIdleExpiry (port : Nat) : Statement (.quietIdleExpiry port) := of_wf _
theorem transmitterWake (port : Nat) : Statement (.transmitterWake port) := of_wf _
theorem cmdRun : Statement .cmdRun := of_wf _
theorem cmdLaneQuiet : Statement .cmdLaneQuiet := of_wf _
theorem cmdDoze : Statement .cmdDoze := of_wf _
theorem cmdKeep : Statement .cmdKeep := of_wf _
theorem quiesceDone : Statement .quiesceDone := of_wf _
theorem quiesceAbort (why : AbortCause) : Statement (.quiesceAbort why) := of_wf _
theorem powerSaveDone : Statement .powerSaveDone := of_wf _
theorem powerStateReached : Statement .powerStateReached := of_wf _
theorem smbusAddressMatch : Statement .smbusAddressMatch := of_wf _
theorem wakeUnitRelease (u : PowerUnit) : Statement (.wakeUnitRelease u) := of_wf _
theorem startUnitRelease (u : PowerUnit) : Statement (.startUnitRelease u) := of_wf _
theorem sagNAsserted : Statement .sagNAsserted := of_wf _
theorem sagSaveComplete (us : Nat) : Statement (.sagSaveComplete us) := of_wf _
theorem sagRestart : Statement .sagRestart := of_wf _
theorem vkeepApplied (straps : BitVec 2) : Statement (.vkeepApplied straps) := of_wf _
theorem pwrgdRise : Statement .pwrgdRise := of_wf _
theorem pwrgdFall : Statement .pwrgdFall := of_wf _
theorem keepRst (straps : BitVec 2) : Statement (.keepRst straps) := of_wf _
theorem bootStart (puf : PufReading) : Statement (.bootStart puf) := of_wf _
theorem pufRetry (puf : PufReading) : Statement (.pufRetry puf) := of_wf _
theorem slotVerified : Statement .slotVerified := of_wf _
theorem svCommit : Statement .svCommit := of_wf _
theorem bootRetry : Statement .bootRetry := of_wf _
theorem setBootNext (w : Word) : Statement (.setBootNext w) := of_wf _
theorem attestGo : Statement .attestGo := of_wf _
theorem attestReportDone : Statement .attestReportDone := of_wf _
theorem ledgerSignStep (step : BitVec 32) : Statement (.ledgerSignStep step) := of_wf _
theorem ledgerSignatureDone : Statement .ledgerSignatureDone := of_wf _
theorem dclTrainingStep (r : DclTrain) : Statement (.dclTrainingStep r) := of_wf _
theorem dclTrainingTimeout : Statement .dclTrainingTimeout := of_wf _
theorem dclFlitBad (crcBad : Bool) : Statement (.dclFlitBad crcBad) := of_wf _
theorem dclNak (ackSeq : BitVec 10) : Statement (.dclNak ackSeq) := of_wf _
theorem dclNakRepeat : Statement .dclNakRepeat := of_wf _
theorem forceRetrain : Statement .forceRetrain := of_wf _
theorem dclLinkDown : Statement .dclLinkDown := of_wf _
theorem rdShared (tag : BitVec 12) (space : BitVec 2) (line : BitVec 40) : Statement (.rdShared tag space line) := of_wf _
theorem rdOwn (tag : BitVec 12) (space : BitVec 2) (line : BitVec 40) : Statement (.rdOwn tag space line) := of_wf _
theorem rdNc (tag : BitVec 12) (space : BitVec 2) (line : BitVec 40) : Statement (.rdNc tag space line) := of_wf _
theorem wrNc (tag : BitVec 12) (space : BitVec 2) (line : BitVec 40) (data : Vector Byte 64) : Statement (.wrNc tag space line data) := of_wf _
theorem writeback (tag : BitVec 12) (line : BitVec 40) (data : Vector Byte 64) : Statement (.writeback tag line data) := of_wf _
theorem evict (tag : BitVec 12) (line : BitVec 40) : Statement (.evict tag line) := of_wf _
theorem regRd (tag : BitVec 12) (addr : Word) : Statement (.regRd tag addr) := of_wf _
theorem regWr (tag : BitVec 12) (addr : Word) (value : Word) : Statement (.regWr tag addr value) := of_wf _
theorem snpAck (tag : BitVec 12) : Statement (.snpAck tag) := of_wf _
theorem snpData (tag : BitVec 12) (data : Vector Byte 64) : Statement (.snpData tag data) := of_wf _
theorem hostDoorbell : Statement .hostDoorbell := of_wf _
theorem load : Statement .load := of_wf _
theorem unload : Statement .unload := of_wf _
theorem unloadFree (job : BitVec 12) : Statement (.unloadFree job) := of_wf _
theorem save : Statement .save := of_wf _
theorem restore : Statement .restore := of_wf _
theorem landingWrite : Statement .landingWrite := of_wf _
theorem ledgerRead : Statement .ledgerRead := of_wf _
theorem holdoffExpiry : Statement .holdoffExpiry := of_wf _
theorem updErase (length : BitVec 17) : Statement (.updErase length) := of_wf _
theorem updProgram (length : BitVec 17) : Statement (.updProgram length) := of_wf _
theorem updRead (length : BitVec 17) : Statement (.updRead length) := of_wf _
theorem updOperationDone (ok : Bool) : Statement (.updOperationDone ok) := of_wf _
theorem setAddr (t : SmbTxn) (addr : Word) : Statement (.setAddr t addr) := of_wf _
theorem smbRead (t : SmbTxn) : Statement (.smbRead t) := of_wf _
theorem smbWrite (t : SmbTxn) (value : Word) : Statement (.smbWrite t value) := of_wf _
theorem smbStatusRead (t : SmbTxn) : Statement (.smbStatusRead t) := of_wf _
theorem smbFetchDone : Statement .smbFetchDone := of_wf _
theorem alertResponse : Statement .alertResponse := of_wf _
theorem ftNowLowRead : Statement .ftNowLowRead := of_wf _
theorem memErrAddrLowRead (stack : Nat) : Statement (.memErrAddrLowRead stack) := of_wf _
theorem registerWrite (m : Master) (addr : Word) (value : Word) : Statement (.registerWrite m addr value) := of_wf _
theorem bridgeFatal (die peer : Nat) : Statement (.bridgeFatal die peer) := of_wf _
theorem bridgeTrained (die peer : Nat) : Statement (.bridgeTrained die peer) := of_wf _
theorem pllLockLost (island : Nat) : Statement (.pllLockLost island) := of_wf _
theorem chkLock (chk : ChkRx) : Statement (.chkLock chk) := of_wf _
theorem dclFlitGood (payload : Option (BitVec 10)) (ackSeq : BitVec 10) (reqCredit rspCredit snpCredit : BitVec 10) : Statement (.dclFlitGood payload ackSeq reqCredit rspCredit snpCredit) := of_wf _
theorem coreEccUncorrectable (addr : Word) : Statement (.coreEccUncorrectable addr) := of_wf _
theorem registerRead (m : Master) (addr : Word) : Statement (.registerRead m addr) := of_wf _

end Sys2Proof.Laws.WfPlaces
end

