-- ==== Sys2Proof/Laws/Registers.lean ====
section
/-! SUPPORT. Laws of the register operations: what a register and a field read as after a write of it, of another field of
the same register, or of another register. -/
namespace Sys2Proof.Machine

open Sys2Proof

/-- A field lies within its 32-bit register. -/
def Fld.ok (f : Fld) : Bool := decide (f.lo ≤ f.hi) && decide (f.hi < 32)

theorem reg_lt (s : State) (n : RegName) (i : Nat) (h : regReset n i < 2 ^ 32) : s.reg n i < 2 ^ 32 := by
  unfold State.reg; split
  · exact BitVec.isLt _
  · exact h

theorem rowReset_lt (n : RegName) : (regRow n).reset < 2 ^ 32 := by
  cases n <;> exact of_decide_eq_true rfl

/-- The factory actions of R453 fill one byte of the register; the table gives the other reset values. -/
theorem regReset_lt (n : RegName) (i : Nat) : regReset n i < 2 ^ 32 := by
  by_cases h : n = .REACTION
  · subst h; show defaultActions i < 2 ^ 32
    unfold defaultActions
    repeat' split
    all_goals omega
  · have e : regReset n i = (regRow n).reset := by unfold regReset; split <;> simp_all
    rw [e]; exact rowReset_lt n

theorem State.reg_lt (s : State) (n : RegName) (i : Nat) : s.reg n i < 2 ^ 32 := Machine.reg_lt s n i (regReset_lt n i)

/-- A register reads as what was written to it. -/
theorem reg_setReg (s : State) (n : RegName) (i v : Nat) (h : v < 2 ^ 32) : (s.setReg n i v).reg n i = v := by
  have a := sget_sset_getD (BitVec.ofNat 32 (regReset n i)) (regAddr n i) (BitVec.ofNat 32 v) s.regs
  unfold State.reg State.setReg
  cases c : sget (regAddr n i) (sset (BitVec.ofNat 32 (regReset n i)) (regAddr n i) (BitVec.ofNat 32 v) s.regs) with
  | some w =>
    simp only [c, Option.getD_some] at a ⊢
    rw [a, BitVec.toNat_ofNat, Nat.mod_eq_of_lt h]
  | none =>
    simp only [c, Option.getD_none] at a ⊢
    have b := congrArg BitVec.toNat a
    rwa [BitVec.toNat_ofNat, BitVec.toNat_ofNat, Nat.mod_eq_of_lt h, Nat.mod_eq_of_lt (regReset_lt n i)] at b

/-- A register at another address keeps its word. -/
theorem reg_setReg_ne (s : State) (n m : RegName) (i j v : Nat) (h : regAddr n i ≠ regAddr m j) :
    (s.setReg n i v).reg m j = s.reg m j := by
  unfold State.reg State.setReg
  simp only [sget_sset_ne _ _ _ _ _ h]

theorem setField_lt (s : State) (f : Fld) (i v : Nat) (h : f.ok = true) :
    setBitsOf (s.reg f.reg i) f.hi f.lo v < 2 ^ 32 := by
  simp only [Fld.ok, Bool.and_eq_true, decide_eq_true_eq] at h
  exact setBitsOf_lt _ _ _ _ 32 h.1 h.2 (s.reg_lt f.reg i)

/-- A field reads as what was written to it, cut to its width. -/
theorem fld_setFld (s : State) (f : Fld) (i v : Nat) (h : f.ok = true) : (s.setFld f i v).fld f i = v % 2 ^ f.width := by
  unfold State.fld State.setFld
  rw [reg_setReg _ _ _ _ (setField_lt s f i v h)]
  simp only [Fld.ok, Bool.and_eq_true, decide_eq_true_eq] at h
  exact bitsOf_setBitsOf _ _ _ _ h.1

/-- Another field of the same register keeps its value. -/
theorem fld_setFld_other (s : State) (f g : Fld) (i v : Nat) (h : f.ok = true) (hg : g.ok = true) (hr : g.reg = f.reg)
    (d : f.hi < g.lo ∨ g.hi < f.lo) : (s.setFld f i v).fld g i = s.fld g i := by
  unfold State.fld State.setFld
  rw [hr, reg_setReg _ _ _ _ (setField_lt s f i v h)]
  simp only [Fld.ok, Bool.and_eq_true, decide_eq_true_eq] at h hg
  rcases d with d | d
  · exact bitsOf_setBitsOf_above _ _ _ _ _ _ h.1 d
  · exact bitsOf_setBitsOf_below _ _ _ _ _ _ h.1 hg.1 d

/-- A field of a register at another address keeps its value. -/
theorem fld_setFld_ne (s : State) (f g : Fld) (i j v : Nat) (h : regAddr f.reg i ≠ regAddr g.reg j) :
    (s.setFld f i v).fld g j = s.fld g j := by
  unfold State.fld State.setFld
  rw [reg_setReg_ne _ _ _ _ _ _ h]

theorem fld_lt (s : State) (f : Fld) (i : Nat) : s.fld f i < 2 ^ f.width := bitsOf_lt _ _ _

/-- A flag reads as it was set. -/
theorem flag_setFlag (s : State) (f : Fld) (i : Nat) (b : Bool) (h : f.ok = true) : (s.setFlag f i b).flag f i = b := by
  unfold State.flag State.setFlag
  rw [fld_setFld _ _ _ _ h]
  have w : 1 < 2 ^ f.width := by
    simp only [Fld.ok, Bool.and_eq_true, decide_eq_true_eq] at h
    exact Nat.one_lt_two_pow (by unfold Fld.width; omega)
  cases b
  · simp [b2n]
  · simp only [b2n, if_true, Nat.mod_eq_of_lt w]; decide

/-- A counter rises by k and stays at its largest value. -/
theorem fld_bumpBy (s : State) (f : Fld) (i k : Nat) (h : f.ok = true) :
    (s.bumpBy f i k).fld f i = satAdd f.width (s.fld f i) k := by
  unfold State.bumpBy
  rw [fld_setFld _ _ _ _ h]
  refine Nat.mod_eq_of_lt ?_
  have := Nat.two_pow_pos f.width
  unfold satAdd; omega

theorem fld_bump (s : State) (f : Fld) (i : Nat) (h : f.ok = true) :
    (s.bump f i).fld f i = satAdd f.width (s.fld f i) 1 := fld_bumpBy s f i 1 h

/-- A reset register reads as its reset value. -/
theorem reg_resetReg (s : State) (n : RegName) (i : Nat) : (s.resetReg n i).reg n i = regReset n i :=
  reg_setReg _ _ _ _ (regReset_lt n i)

end Sys2Proof.Machine
end

