-- ==== Sys2Proof/Tests/Slice0.lean ====
section
/-! SUPPORT. Tests: an ill-formed command for each check of WellFormed, and for every statement with hypotheses a state and
operands that meet them (`meets_…`, one theorem for each clause that the others shut out). -/
namespace Sys2Proof.Tests

open Sys2Proof Sys2Proof.Machine

-- One theorem at a time: each holds a good deal of memory while it is checked.
set_option Elab.async false

/-! ## Small states and frames -/

/-- A cabling plan: an endpoint at port 0, a leaf below at port 1, a higher switch at port 2, nothing at port 3. -/
def cables : List CablePort :=
  [{ noCable with role := .endpoint, peerFlat := 0x10, coord := 0x80 },
   { noCable with role := .switch, peerFlat := 0x20, peerTier := 0 },
   { noCable with role := .switch, peerFlat := 0x30, peerTier := 2, uplink := true }, noCable]

/-- After reset, with four ports that are up on version 1, all matched by the boot sweep; child 1 lies behind port 1. -/
def sUp : State :=
  let s0 : State := { State.reset with
    ports := [⟨0, 0, 2, 1, 1, 1⟩, ⟨1, 2, 2, 1, 1, 1⟩, ⟨2, 4, 2, 1, 1, 1⟩, ⟨3, 6, 2, 1, 1, 0⟩]
    image := { Image.none with ownFlat := 0x40, tier := 1, childShift := 7, childBits := 7, timeRoot := 0x50, cable := cables }
    bank0 := { Bank.empty with down := [⟨1, true, 5⟩], groups := [(5, [1]), (255, [2])] } }
  [0, 2, 4, 6].foldl (fun s l => (((s.setFld F.PORT_LINK_LINK_STATE l 5).setFld F.TFP_PORT_STATUS_NEG_STATE l 2).setFld
    F.TFP_PORT_STATUS_SELECTED_VER l 1).setFld F.PORT_CRUISE_RESULT l 1) s0

/-- A frame as a neighbour on version 1 sends it. -/
def sent (h : BaseHdr) (x : Ext) (bs : List Byte) : Frame := sealFrame 1 0 ⟨h, x, bs, zeroTrailer⟩

/-- Such a frame's tail is good. -/
theorem good (h : BaseHdr) (x : Ext) (bs : List Byte) : tailGood (sent h x bs) = true := by
  simp [tailGood, sent, sealFrame, crcOf, coveredBytes, zeroTrailer]

/-- A function's second answer, given its first. -/
theorem gives {α β : Type} (x : α × β) {a : α} (h : x.1 = a) : ∃ b, x = (a, b) := ⟨x.2, by cases x; cases h; rfl⟩

/-- A WRITE of one byte on VC1 from the endpoint at port 0 to one behind port 1. -/
def fWrite : Frame :=
  sent { zeroHdr with ftype := 1, vc := 1, dest := 0x85, src := 0x80, payloadLen := 1, msgLen := 1 } .none [7]

/-- Its tail is good. -/
theorem good_fWrite : tailGood fWrite = true := good _ _ _

/-- A frame held in cells of port 0, with one copy for port 1 that waits at the head of its queue. -/
def hWrite : Held := ⟨0, 0, 0, fWrite, .guaranteed, 1, 1, 1, some (.port 1, 1), .pending, false, none, 0⟩

/-- Its copy. -/
def cWrite : Copy := ⟨1, 0, 0, 0, .port 1, 1, fWrite, false, none, true, some 0, false, false, none, [], 0, 0⟩

/-- The switch forwards, with a frame held and its copy. -/
def sHeld (h : Held) (c : Copy) : State :=
  { sUp with core := { sUp.core with held := [h], copies := [c], nextId := 2, forwarding := true } }

/-! ## The switch core -/

set_option maxRecDepth 100000 in
theorem meets_HeaderLookup_headerDiscard :
    let s := sUp.setFld F.TFP_PORT_STATUS_SELECTED_VER 0 2
    s.pcsLock 0 = true ∧ fWrite.h.ftype ≠ 7#4 ∧ hdrOk (s.versionFor 0 fWrite) fWrite = false := by decide +kernel

/-- A WRITE may not travel on VC0. -/
theorem meets_HeaderLookup_ruleDiscard :
    let f := sent { zeroHdr with ftype := 1, payloadLen := 1, msgLen := 1 } .none [7]
    sUp.pcsLock 0 = true ∧ f.h.ftype ≠ 7#4 ∧ hdrOk (sUp.versionFor 0 f) f = true ∧ ruleOk (sUp.versionFor 0 f) f = false := by
  decide +kernel

/-- The die's current bank, as the port's die reads it. -/
def bankUp : Bank := sUp.dieBank (dieOf 0) fWrite.h.epoch

theorem meets_HeaderLookup_admits : ∃ s1 : State,
    (sUp.idsFresh = true ∧ sUp.pcsLock 0 = true ∧ fWrite.h.ftype ≠ 7#4 ∧ hdrOk (sUp.versionFor 0 fWrite) fWrite = true
      ∧ ruleOk (sUp.versionFor 0 fWrite) fWrite = true ∧ sUp.quarantined 0 = false ∧ sUp.bankLive fWrite.h.epoch = true
      ∧ sUp.police 0 fWrite = none ∧ isSetTagged fWrite.h = false ∧ toFabric fWrite.h = false
      ∧ sUp.mcAbsorbs 0 fWrite.h = false ∧ sUp.route bankUp fWrite.h (sUp.cable 0).uplink = .group [1]
      ∧ sUp.spray [1] fWrite.h = some 1 ∧ (1 : Nat) ≠ 0)
      ∧ sUp.admitFrame 0 fWrite (sUp.voqExt 0 fWrite.h.vc.toNat (.port 1)) = (some .guaranteed, s1) := by
  obtain ⟨s1, h⟩ := gives (sUp.admitFrame 0 fWrite (sUp.voqExt 0 fWrite.h.vc.toNat (.port 1))) (a := some .guaranteed)
    (by decide +kernel)
  exact ⟨s1, by decide +kernel, h⟩

theorem meets_EgressStartsAndSends_select : ∃ x : Drr,
    let s := sHeld { hWrite with tail := .good } cWrite
    (s.busyOut 1 = false ∧ s.egressDiscard 1 cWrite = none ∧ ∀ y ∈ s.core.copies, s.isLate y = false)
      ∧ s.drrPick 1 512 (s.drr 1) = (some cWrite, x) := by
  obtain ⟨x, h⟩ := gives (let s := sHeld { hWrite with tail := .good } cWrite; s.drrPick 1 512 (s.drr 1)) (a := some cWrite)
    (by decide +kernel)
  exact ⟨x, by decide +kernel, h⟩

theorem meets_EgressStartsAndSends_done :
    let h := { hWrite with tail := .good }
    let c := { cWrite with started := true }
    (sHeld h c).copy? 1 = some c ∧ c.dest = .port 1 ∧ c.started = true ∧ (sHeld h c).held? c.fid = some h
      ∧ h.tail = .good ∧ c.markBad = none ∧ (sHeld h c).idsFresh = true ∧ (sHeld h c).flag F.REFCOUNT_STATUS_REFCOUNT_FALLBACK h.die = false
      ∧ h.refcount ≤ 1 := by decide +kernel

/-- VC1 and VC7 discard; VC2 and VC5 keep. -/
theorem meets_QueueHeadsAndPauses_dwell : ∀ vc ∈ [1, 7, 2, 5],
    let c := { cWrite with vc := vc }
    (sHeld hWrite c).copy? 1 = some c ∧ c.started = false ∧ (sHeld hWrite c).dwells c = true ∧ c.die < 4
      ∧ (sHeld hWrite c).idsFresh = true := by
  decide +kernel

/-- A frame in the extension, and one that came before it in its queue. -/
def hExt : Held := { hWrite with tail := .good, region := .extension }

/-- The two, each with its copy, frame 4 ahead of frame 0. -/
def sExt : State :=
  let s := sHeld hExt cWrite
  { s with core := { s.core with held := [hExt, { hExt with fid := 4 }], copies := [{ cWrite with cid := 5, fid := 4 }, cWrite] } }

theorem meets_QueueHeadsAndPauses_extension :
    ((sHeld hExt cWrite).held? 0 = some hExt ∧ hExt.region = .extension ∧ hExt.tail = .good
      ∧ (sHeld hExt cWrite).extTurn 0 = true
      ∧ (sHeld hExt cWrite).cellsHeld hExt.die (fun x => x.region == .guaranteed && x.src == hExt.src && x.vc == hExt.vc)
          + hExt.cells ≤ (sHeld hExt cWrite).image.policies.guarCells)
      ∧ sExt.held? 0 = some hExt ∧ sExt.extTurn 0 = false := by decide +kernel

theorem meets_QueueHeadsAndPauses_pause : sUp.pcsLock 3 = true
    ∧ (sUp.port? 3).isSome = true
    ∧ ∃ x ∈ ({ sUp with core := { sUp.core with pauses := [⟨3, 1, 2⟩] } } : State).core.pauses, x.port = 3 := by decide +kernel

/-- A tail whose blocks were cut short, and one as it should be. -/
def rxOf (cut : Bool) : TailRx := ⟨cut, 0, []⟩

theorem meets_TailsRelaysCounts_tail :
    ((sHeld hWrite cWrite).held? 0 = some hWrite ∧ hWrite.tail = .pending ∧ hWrite.die < 4
      ∧ (sHeld hWrite cWrite).portsOk = true ∧ (sHeld hWrite cWrite).idsFresh = true)
      ∧ (tailGood hWrite.frame && !rxBad (rxOf false) && !wordDead []) = true
      ∧ (tailGood hWrite.frame && !rxBad (rxOf true) && !wordDead []) = false := by
  have h : tailGood hWrite.frame = true := good_fWrite
  refine ⟨by decide +kernel, ?_, ?_⟩
  · rw [h]; decide +kernel
  · rw [h]; decide +kernel

/-- An ACK through this switch as a relay leaf: DEST 0x33 stands in the FLAT list behind port 1. -/
def fRelay (relay : BitVec 64) : Frame :=
  sent { zeroHdr with ftype := 6, vc := 2, amode := true, dest := 0x33, src := 0x44, remoteAddr := relay } .none []

/-- This switch knows 0x33. -/
def sFlat : State := { sUp with bank0 := { sUp.bank0 with flat := [⟨true, false, 5, 0x33⟩] } }

/-- A top switch that does not know 0x33. -/
def sTop : State := { sUp with image := { sUp.image with cable := [{ noCable with role := .endpoint }] } }

theorem meets_TailsRelaysCounts_relay :
    (relayable (fRelay 0x40).h = true ∧ relayOf (fRelay 0x40).h = sFlat.image.ownFlat ∧ relayOf (fRelay 0x40).h ≠ 0
        ∧ sFlat.route sFlat.curBank (sFlat.stamp 0 (relayed (fRelay 0x40) 0 true)).h false = .group [1]
        ∧ sFlat.spray [1] (sFlat.stamp 0 (relayed (fRelay 0x40) 0 true)).h = some 1 ∧ sFlat.idsFresh = true)
      ∧ relayable (fRelay 0x1000000).h = true ∧ relayOf (fRelay 0x1000000).h = 0 ∧ relayedOf (fRelay 0x1000000).h = true
      ∧ sTop.route (sTop.dieBank (dieOf 0) (fRelay 0x1000000).h.epoch) (fRelay 0x1000000).h (sTop.cable 0).uplink = .relay := by
  decide +kernel

theorem meets_TailsRelaysCounts_relayTail (r : BitVec 64) : tailGood (fRelay r) = true := good _ _ _

/-- A word of the count memory with two wrong symbols, beyond what its check symbols can mend. -/
def spoilt : WordErr := [(0, 1), (1, 2)]

theorem meets_TailsRelaysCounts_counts :
    ({ sUp with core := { sUp.core with sweeping := [3] } } : State).core.sweeping.contains 3 = true
      ∧ sUp.core.backlog = [] ∧ wordDead [] = false ∧ wordDead spoilt = true := by decide +kernel

/-! ## Scheduling -/

/-- RATE 200,000 is the greatest in range. -/
theorem meets_ShaperEntries_write : (BitVec.getLsbD (0x01000000 : Word) 24 = true)
    ∧ ((200000 : Word) ≠ 0 ∧ (1 : Word).setWidth 16 ≠ 0#16 ∧ (200000 : Word).toNat ≤ 200000)
    ∧ ((1 : Word).setWidth 16 = 0#16 ∨ 200000 < (200001 : Word).toNat) := by decide +kernel

/-- Entry 7 of die 0 holds a frame that waits, and a record of one it refused. -/
def sShaped : State :=
  let s := sHeld { hWrite with shaper := some 7 } { cWrite with released := false }
  { s with core := { s.core with shapers := [⟨0, 7, 0, 0, [(5, 6, 1)], false⟩, ⟨0, 8, 0, 0, [], true⟩] } }

theorem meets_ShaperEntries_release :
    (sShaped.shaperSt 0 8).spent = true ∧ 0 ≤ (sShaped.shaperSt 0 7).tokens ∧ (sShaped.shaperSt 0 7).spent = false
      ∧ (sShaped.core.copies.filter fun y => y.die == 0 && !y.released && sShaped.isHead y
        && match sShaped.held? y.fid with | some g => g.shaper == some 7 | none => false)
          = [{ cWrite with released := false }]
      ∧ sShaped.held? cWrite.fid = some { hWrite with shaper := some 7 }
      ∧ (sShaped.shaperSt 0 7).refusals.contains (5, 6, 1) = true := by decide +kernel

/-- A list of one entry of 1 ms that opens every VC, and one of no length. -/
def sGate (len : Word) : State :=
  (sUp.setArr (gateAddr 0 3 0 0) len).setArr (gateAddr 0 3 0 0 + 4) 0x800000FF

theorem meets_GateLists_arm :
    let c : PortCfg := ⟨3, 6, 2, 1, 1, 0⟩
    ((sGate 1000000).gate 0 3 = ⟨0, 3, none, none, 0xFF⟩ ∧ (sGate 1000000).port? (64 * 0 + 3) = some c
        ∧ (sGate 1000000).gateList 0 3 0 256 0 = some [(1000000, 0xFF)] ∧ gateOk [(1000000, 0xFF)] c.gbps = true)
      ∧ (sGate 0).gateList 0 3 0 256 0 = some [(0, 0xFF)] ∧ gateOk [(0, 0xFF)] c.gbps = false
      ∧ sUp.gateList 0 3 0 256 0 = none := by decide +kernel

theorem meets_GateLists_swap :
    let s : State := { sUp with core := { sUp.core with gates := [⟨0, 3, none, some (1, [(5, 1)], 0), 0xFF⟩,
      ⟨0, 2, some (0, [(5, 1)], 0), none, 0xFF⟩] } }
    (s.gate 0 3).pending = some (1, [(5, 1)], 0) ∧ (s.gate 0 2).active.isSome = true := by decide +kernel

/-! ## A job -/

/-- One bucket of four BF16 elements in one chunk. -/
def buk : PlanBucket :=
  { id := 0, group := 0, first := 0, k := 1, elems := 4, fmt := .bf16, out := .bf16, ftzIn := false, ftzOut := false,
    stoch := false, fast := false, compress := false, resFp32 := false, scatter := false, tally := false, scaleMode := 0,
    scaleShift := 0, anchorWindow := 4, anchorMargin := 0, initialAnchor := 0, scaleMant := 0, checkSeed := 0,
    roundSeed := 0, errRate := 0, stride := 0, tallyExp := 0, openCap := 0, tallyBatch := 1, bases := [0, 0, 0], tag := [] }

/-- A plan of job 9, generation 3: three members below the leaf 0x20 (index 0), whose parent is this switch (index 1), below
the step root 0x30 (index 2); switch `rel` releases the one group. -/
def plan (rel : Nat) : Plan :=
  { job := 9, gen := 3, firstStep := 0, chunks := 1, stepRoot := 2, depth := 4, reshard := false, ledgerDepth := 4,
    entryDepth := 4, shape := 2, axes := [], members := [⟨0x80, 0x80⟩, ⟨0x81, 0x81⟩, ⟨0x82, 0x82⟩], spares := [],
    switches := [⟨0, 0, b2n (rel = 0), 0x20, 1⟩, ⟨1, 1, b2n (rel = 1), 0x40, 0⟩, ⟨2, 2, b2n (rel = 2), 0x30, 0⟩],
    policy := ⟨100, 1000, 10000, false⟩, groups := [⟨0, 0, rel, 1, [0, 1, 2]⟩], buckets := [buk], mcsets := [], dsets := [],
    reserves := [], digest := zeros 64 }

/-- The rings of the job. -/
def jrings : JobRings := ⟨⟨0x1000, 16, 32⟩, ⟨0x1080, 16, 32⟩, ⟨0x1100, 16, 32⟩⟩

/-- The plan as switch `self` has loaded it. -/
def lay (self rel : Nat) : Layout :=
  { plan := plan rel, self := self, descBase := 8, buckets := [(0, 5)], quotas := [], bells := [0, 1], errBuckets := [],
    jrings := jrings, needs := ⟨0, 0, 0, 0, 0, 0, 0, 0, 0, 0⟩ }

/-- The job, nothing under way. -/
def job9 (self rel : Nat) : Job :=
  { id := 9, cur := lay self rel, next := none, prev := none, floor := 0, opened := true, steps := [], rings := [], totals := [], errs := [],
    bells := [], grants := [], insts := [], winBases := [], fenceReqs := [], fenceOwed := [], claims := [], claimReqs := [], records := [],
    entryArrays := [], jrings := jrings, stranded := false, reparenting := false, save := none, regions := [],
    restoring := false, silenced := false, unloading := none, admitted := true, startStep := 0, aborted := [] }

/-- The switch with the job and a context of its chunk at step 1. -/
def sJob (j : Job) (cs : List (Nat × Ctx)) : State := { sUp with jobs := [j], ctxs := cs }

/-- An open context with granules, awaiting the given slots. -/
def ctx9 (self rel : Nat) (ws : List SlotId) : Ctx :=
  { Ctx.open (lay self rel) buk 3 5 1 0 10 (ws.map fun w => Slot.fresh w true) 0 0 0 with gclass := 1, granules := [0] }

/-- The members' slots at the leaf. -/
def members3 : List SlotId := [.member 0, .member 1, .member 2]

/-- The reduction extension of step 1, chunk 0, anchor 10. -/
def red1 : RedExt := { zeroRed with step := 1, format := 7, anchor := 10, chunkElems := 4, maxExp := 0 }

/-- The header of a reduction frame of the job. -/
def hRed (t : BitVec 4) (vc : BitVec 3) (n : Nat) : BaseHdr :=
  { zeroHdr with ftype := t, vc := vc, dest := 0x3FFFFF, src := 0x3FFFFF, jobId := 9, layoutGen := 3, msgId := 77,
                 payloadLen := BitVec.ofNat 13 n, msgLen := BitVec.ofNat 32 n }

/-! ## Reduction -/

/-- Rank 1's whole contribution. -/
def fContrib : Frame := sent { hRed 2 4 8 with src := 0x81 } (.red { red1 with memberRank := 1 }) (zeros 8)

theorem meets_ContributionsFold_contrib :
    let s := sJob (job9 0 0) [(9, ctx9 0 0 members3)]
    let u := s.takeMill 0 fContrib
    let c := ctx9 0 0 members3
    let w : SlotId := .member 1
    s.millBehind 0 fContrib = false ∧ u.classify 0 fContrib false = .pass (lay 0 0) buk ⟨0, 0, 0, 1, [0, 1, 2]⟩ 9 w ∧ u.ctx? 9 = some c ∧ c.state = .openS
      ∧ c.held = false ∧ c.gclass ≠ 0 ∧ c.mill = 3 ∧ u.refused 0 fContrib.h = false ∧ (∃ y ∈ c.slots, y.who = w)
      ∧ (c.slot w).complete = false ∧ (c.slot w).ext = none ∧ (c.slot w).mask = 0#16
      ∧ (redOf fContrib).sumCheck.toNat < checkP ∧ (contribTile buk (redOf fContrib) fContrib.payload).breach = false
      ∧ c.done + 1 < c.expect ∧ (∀ x ∈ u.ctxs, x.2.commitWait = false)
      ∧ u.job? c.job = some (job9 0 0) ∧ ((job9 0 0).step c.step).heldFails = []
      ∧ (∀ q ∈ (lay 0 0).plan.groups, (lay 0 0).releases q = true →
        q.minSurvivors ≤ (u.curBank.survivors (lay 0 0).plan.job q).length)
      ∧ (redOf fContrib).frameCnt = 0#4 ∧ (redOf fContrib).frameIdx = 0#4 := by decide +kernel

theorem good_fContrib : tailGood fContrib = true := good _ _ _

/-- The same of the first of two frames. -/
theorem meets_ContributionsFold_contribPart :
    let f := sent { hRed 2 4 8 with src := 0x81, msgLen := 16 } (.red { red1 with memberRank := 1, frameCnt := 1 }) (zeros 8)
    let s := sJob (job9 0 0) [(9, ctx9 0 0 members3)]
    s.millBehind 0 f = false ∧ (s.takeMill 0 f).classify 0 f false = .pass (lay 0 0) buk ⟨0, 0, 0, 1, [0, 1, 2]⟩ 9 (.member 1)
      ∧ (s.takeMill 0 f).refused 0 f.h = false ∧ (contribTile buk (redOf f) f.payload).breach = false
      ∧ (redOf f).frameCnt ≠ 0#4 := by decide +kernel

/-- A partial of the leaf below, all zeros, under a right and a wrong SUM_CHECK. -/
def fPartial (chk : BitVec 64) : Frame :=
  sent (hRed 3 4 8) (.red { red1 with memberRank := 2, sumCheck := chk }) (zeros 8)

theorem meets_ContributionsFold_partial : ∀ n ∈ [0, 1],
    let f := fPartial (BitVec.ofNat 64 n)
    let c := { ctx9 1 1 [.child 0] with expect := 2 }
    let s := sJob (job9 1 1) [(9, c)]
    let u := s.takeMill 1 f
    let w : SlotId := .child 0
    s.millBehind 1 f = false ∧ isRequest (redOf f) = false ∧ u.classify 1 f true = .pass (lay 1 1) buk ⟨0, 0, 1, 1, [0, 1, 2]⟩ 9 w ∧ u.ctx? 9 = some c
      ∧ c.state = .openS ∧ c.held = false ∧ c.gclass ≠ 0 ∧ c.mill = 3 ∧ u.refused 1 f.h = false
      ∧ (∃ y ∈ c.slots, y.who = w) ∧ (c.slot w).complete = false ∧ (c.slot w).ext = none ∧ (c.slot w).msgId = none
      ∧ (redOf f).frameCnt = 0#4 ∧ (redOf f).sumCheck.toNat < checkP
      ∧ partialTile buk (buk.compress && u.isThin 1) (redOf f) f.payload = some ⟨0, [], [], 0, 0, false⟩
      ∧ c.done + 1 < c.expect ∧ (∀ x ∈ u.ctxs, x.2.commitWait = false)
      ∧ u.job? c.job = some (job9 1 1) ∧ ((job9 1 1).step c.step).heldFails = []
      ∧ (buk.check c.step c.chunk (joinParts c.elems [⟨(redOf f).frameIdx.toNat, 0, [], []⟩]).1 = (redOf f).sumCheck.toNat
        ↔ n = 0) := by decide +kernel

theorem good_fPartial (chk : BitVec 64) : tailGood (fPartial chk) = true := good _ _ _

/-- A PARTIAL before it is sealed. -/
def fRaw : Frame := ⟨hRed 3 4 8, .red red1, zeros 8, zeroTrailer⟩

/-- A request of one granule that waits for mill 127, for a frame of a job that has gone. -/
def waits9 : PoolWait := ⟨127, fRaw, 0, 9, 9, 1, 1, 1⟩

theorem meets_CompactionRescaleSupersede_compaction :
    let s : State := { sUp with core := { sUp.core with compacting := [waits9] } }
    waits9.mill = 127 ∧ s.core.compacting = [waits9] ∧ s.job? fRaw.h.jobId = none
      ∧ (∀ x ∈ s.ctxs, x.2.commitWait = false) ∧ srising s.ctxs = true ∧ ((s.unitRuns 127).map (·.1)).Nodup
      ∧ runTotal (s.unitRuns 127) + waits9.grans * waits9.units ≤ poolUnits ∧ ((s.lineRuns 127).map (·.1)).Nodup
      ∧ runTotal (s.lineRuns 127) + waits9.lines ≤ poolLines := by decide +kernel

/-- A control frame of the job from the parent. -/
def fCtl (x : RedExt) : Frame := sent (hRed 4 5 0) (.red x) []

/-- A RESULT of one frame. -/
def fResult : Frame := sent (hRed 4 5 8) (.red { red1 with code := 1 }) (zeros 8)

/-- A context that has forwarded its partial. -/
def ctxF : Ctx := { ctx9 0 1 members3 with state := .forwarded }

theorem meets_ResultIsReplicated :
    let s := sJob (job9 0 1) [(9, ctxF)]
    let u := s.takeFrom .firmware 2 fResult
    s.queuedBehind .firmware 2 fResult = false ∧ s.silenced (some (lay 0 1).plan.job) = false
      ∧ fResult.h.ftype = 4#4 ∧ (redOf fResult).code = codeResult ∧ s.job? fResult.h.jobId = some (job9 0 1)
      ∧ (job9 0 1).layout fResult.h.layoutGen = some (lay 0 1) ∧ (job9 0 1).inWindow (redOf fResult).step = true
      ∧ 9 = (lay 0 1).desc (redOf fResult).step (redOf fResult).chunkId.toNat ∧ s.ctx? 9 = some ctxF
      ∧ ctxF.job = fResult.h.jobId ∧ ctxF.step = (redOf fResult).step ∧ ctxF.chunk = (redOf fResult).chunkId
      ∧ ctxF.generation = (redOf fResult).generation.toNat ∧ ctxF.state = .forwarded
      ∧ ctxF.resultParts.length = (redOf fResult).frameCnt.toNat
      ∧ (∀ q ∈ ctxF.resultParts, q.1 ≠ (redOf fResult).frameIdx.toNat)
      ∧ (lay 0 1).bucketOf ctxF = some (buk, ⟨0, 0, 1, 1, [0, 1, 2]⟩)
      ∧ u.receivers (lay 0 1) buk ⟨0, 0, 1, 1, [0, 1, 2]⟩ ctxF.chunk.toNat ≠ [] := by decide +kernel

theorem good_fResult : tailGood fResult = true := good _ _ _

theorem meets_CompactionRescaleSupersede_reopen : ∀ code ∈ [codeRescale, codeSupersede],
    let f := fCtl { red1 with code := code, generation := if code = codeSupersede then 1 else 0 }
    let s := sJob (job9 0 1) [(9, ctxF)]
    (∃ u, (s.takeFrom .firmware 2 f).receive 2 f = (.complete, u)) ∧ s.queuedBehind .firmware 2 f = false ∧ f.h.ftype = 4#4
      ∧ s.ctlCtx f = some (9, ctxF, job9 0 1, lay 0 1) ∧ s.layoutOf ctxF = some (job9 0 1, lay 0 1)
      ∧ (lay 0 1).bucketOf ctxF = some (buk, ⟨0, 0, 1, 1, [0, 1, 2]⟩) ∧ (∀ x ∈ s.ctxs, x.2.commitWait = false)
      ∧ (redOf f).code = code ∧ ctxF.state = .forwarded ∧ (job9 0 1).errs = []
      ∧ (code = codeSupersede → ctxF.generation < (redOf f).generation.toNat)
      ∧ (code = codeRescale → (redOf f).generation.toNat = ctxF.generation) := by
  intro code h
  refine ⟨gives _ ?_, ?_⟩ <;> revert code <;> decide +kernel

/-- Step 1 is one of the layout in force: no layout is loaded. -/
theorem ownStep9 (j : Job) (hw : j.inWindow 1 = true) (hn : j.next = none) (hs : j.steps.length ≤ 1) : j.ownStep 1 := by
  refine ⟨hw, fun n h => by simp [hn] at h, Nat.lt_of_le_of_lt (List.length_filter_le _ _) ?_⟩
  exact Nat.lt_of_le_of_lt hs (by decide)

/-- The job with the timer of step 1 running. -/
def jTimed : Job := { job9 0 1 with steps := [{ StepSt.fresh 1 with timerOn := true }] }

theorem meets_StepsEnd : ∀ code ∈ [codeCommit, codeAbort],
    let f := fCtl { red1 with code := code }
    let s := sJob jTimed [(9, ctxF)]
    (∃ u, (s.takeFrom .firmware 2 f).receive 2 f = (.complete, u)) ∧ jTimed.ownStep 1
      ∧ s.queuedBehind .firmware 2 f = false ∧ f.h.ftype = 4#4 ∧ (redOf f).code = code
      ∧ s.job? 9 = some jTimed ∧ f.h.jobId = 9 ∧ (redOf f).step = 1 ∧ jTimed.stepEnded 1 = false ∧ jTimed.next = none
      ∧ (jTimed.step 1).timerOn = true ∧ (∀ x ∈ s.ctxs, x.2.commitWait = false) ∧ srising s.ctxs = true := by
  intro code h
  refine ⟨gives _ ?_, ownStep9 jTimed (by decide +kernel) rfl (by decide), ?_⟩ <;> revert code <;> decide +kernel

theorem good_fCtl (x : RedExt) : tailGood (fCtl x) = true := good _ _ _

/-- A message of the switch's own to the parent, whose frames have all left. -/
def out9 (why : Purpose) : OutMsg := 
  { key := 4, job := some 9, rank := none, hop := .toSwitch 0x30, frames := [fRaw], attempt := 0, purpose := why, unsent := 0,
    failed := false, holdUntil := 0 }

/-- An ACK or NACK of it. -/
def fAnswer (t : BitVec 4) (x : Ext) : Frame := sent (hRed t 2 0) x []

theorem good_fAnswer (t : BitVec 4) (x : Ext) : tailGood (fAnswer t x) = true := good _ _ _

theorem meets_AcksAndNacks_ack : ∀ why ∈ [Purpose.plain, .partialUp 9 0, .result 9 0 (.member 0)],
    let f := fAnswer 6 .none
    let c := { ctxF with state := if why = .partialUp 9 0 then .forwarded else .released, awaiting := [.member 0, .member 1] }
    let s : State := { sJob (job9 0 1) [(9, c)] with outs := [out9 why], freeCount := 5 }
    let u := s.takeFrom .firmware 2 f
    s.queuedBehind .firmware 2 f = false ∧ f.h.ftype = 6#4 ∧ u.mcAbsorbs 2 f.h = false ∧ u.outFor 2 f.h = some (out9 why) ∧ (∀ x ∈ u.ctxs, x.2.commitWait = false)
      ∧ u.ctx? 9 = some c ∧ c.generation = 0 ∧ (SlotId.member 1) ∈ c.awaiting ∧ (SlotId.member 1) ≠ .member 0 := by
  decide +kernel

theorem meets_AcksAndNacks_nack : ∀ code ∈ [nackBusy, nackStaleLayout, nackFenced, nackScaleExceeded, nackNoContext,
      nackGenSuperseded, nackCheckFail],
    let f := fAnswer 5 (.nack { zeroNack with code := code })
    let s : State := { sJob (job9 0 1) [(9, ctxF)] with outs := [out9 .plain], freeCount := 5 }
    let u := s.takeFrom .firmware 2 f
    s.queuedBehind .firmware 2 f = false ∧ s.silenced (out9 .plain).job = false
      ∧ u.outs.length + u.ended.length < 2 ^ 16 - 1 ∧ f.h.ftype = 5#4 ∧ u.mcAbsorbs 2 f.h = false ∧ u.outFor 2 f.h = some (out9 .plain) ∧ (nackOf f).code = code
      ∧ (out9 .plain).key < s.freeCount ∧ (out9 .plain).checkedBelow = false := by decide +kernel

/-- Member 1's CHECK_FAIL for the chunk, and the RESULT to it that drew it. -/
def fCheckFail : Frame := sent { hRed 5 2 0 with src := 0x81 } (.nack { zeroNack with code := nackCheckFail, step := 1 }) []

/-- That RESULT, sent to the member at port 0. -/
def outResult : OutMsg := { out9 (.result 9 0 (.member 1)) with
  hop := .routed, frames := [⟨{ hRed 4 5 0 with dest := 0x81 }, .red { red1 with code := codeResult }, [], zeroTrailer⟩] }

theorem meets_ChecksResendsWaits_checkFail :
    let f := fCheckFail
    let c := { ctx9 0 0 members3 with state := .released, mill := 127 }
    let s : State := { sJob (job9 0 0) [(9, c)] with outs := [outResult], freeCount := 5 }
    let u := s.takeFrom .firmware 0 f
    s.queuedBehind .firmware 0 f = false ∧ f.h.ftype = 5#4 ∧ (nackOf f).code = nackCheckFail
      ∧ (∃ o, u.outFor 0 f.h = some o ∧ o.checkedBelow = true) ∧ s.job? f.h.jobId = some (job9 0 0)
      ∧ (job9 0 0).layout f.h.layoutGen = some (lay 0 0) ∧ 9 = (lay 0 0).desc (nackOf f).step (nackOf f).chunkId.toNat
      ∧ s.ctx? 9 = some c ∧ c.job = f.h.jobId ∧ c.step = (nackOf f).step ∧ c.chunk = (nackOf f).chunkId
      ∧ c.generation = (nackOf f).generation.toNat ∧ c.state ≠ .aborted ∧ (job9 0 0).stepEnded c.step = false
      ∧ s.slotOn (lay 0 0) 0 f.h.src = some (.member 1) ∧ (lay 0 0).bucketOf c = some (buk, ⟨0, 0, 0, 1, [0, 1, 2]⟩)
      ∧ (s.slotsIn s.curBank (lay 0 0) ⟨0, 0, 0, 1, [0, 1, 2]⟩).contains (.member 1) = true
      ∧ (lay 0 0).releases ⟨0, 0, 0, 1, [0, 1, 2]⟩ = true ∧ s.layoutOf c = some (job9 0 0, lay 0 0) ∧ c.checkFails = 0
      ∧ c.generation + 1 < 256 ∧ ((job9 0 0).step c.step).reported = false ∧ c.mill < 128
      ∧ (∀ x ∈ s.ctxs, x.2.commitWait = false) := by
  intro f c s u
  have h : u.outFor 0 f.h = some outResult ∧ outResult.checkedBelow = true := by decide +kernel
  exact ⟨by decide +kernel, by decide +kernel, by decide +kernel, ⟨outResult, h⟩, by decide +kernel⟩

/-- ATTEMPT 6 is the last that may rise; a hint of a NACK BUSY may still bar it. -/
theorem meets_ChecksResendsWaits_resend :
    (let o := { out9 .plain with attempt := 6 }
     let s : State := { sUp with outs := [o] }
     s.outs.find? (fun x => x.key == 4) = some o ∧ o.unsent = 0 ∧ o.failed = false ∧ o.holdUntil ≤ s.ns ∧ o.rank = none
       ∧ o.attempt + 1 < 8)
      ∧ (let o := { out9 .plain with holdUntil := sUp.ns + 1 }
         let s : State := { sUp with outs := [o] }
         s.outs.find? (fun x => x.key == 4) = some o ∧ o.unsent = 0 ∧ o.failed = false ∧ s.ns < o.holdUntil)
      ∧ (let o := { out9 .plain with rank := some 2 }
         let s : State := { sUp with outs := [o], bank0 := { sUp.bank0 with fences := [(9, 2)] } }
         s.outs.find? (fun x => x.key == 4) = some o ∧ o.unsent = 0 ∧ o.failed = false ∧ o.holdUntil ≤ s.ns ∧ o.job = some 9
          ∧ s.curBank.fenced 9 2 = true) := by decide +kernel

/-- The job, whose members are waited for, and never fenced, where `w` is true. -/
def jWait (w : Bool) : Job :=
  { job9 0 0 with cur := { lay 0 0 with plan := { plan 0 with policy := ⟨100, 1000, 10000, w⟩ } } }

/-- Rank 2 is awaited since the given fabric time. -/
def sWait (w : Bool) (start : Nat) : State :=
  let c := { ctx9 0 0 members3 with waitStart := start, slots := [{ Slot.fresh (.member 0) true with complete := true },
    { Slot.fresh (.member 1) true with complete := true }, Slot.fresh (.member 2) true] }
  sJob (jWait w) [(9, c)]

/-- The wait of `sWait`. -/
def wait9 (start : Nat) : Wait := ⟨9, 1, 0, [2], 0, start, false⟩

theorem meets_ChecksResendsWaits_waits :
    (∀ w ∈ [true, false], ∀ start ∈ [0, 1], ((sWait w start).ctx? 9).isSome = true
        ∧ (sWait w start).ctxWait 9 = some (wait9 start) ∧ (sWait w start).job? 9 = some (jWait w)
        ∧ (jWait w).cur.plan.policy.wait = w ∧ 2 ∉ (jWait w).fenceReqs
        ∧ (sWait w start).newest.1.fenced 9 2 = false ∧ (sWait w start).isTimeRoot = false ∧ (sWait w start).epoch.coord = .idle)
      ∧ (sWait false 0).waitOver (wait9 0) (jWait false).cur.plan.policy.stragglerUs = false
      ∧ (sWait false 0).waitOver (wait9 0) (jWait false).cur.plan.policy.fenceUs = false
      ∧ (sWait false 1).waitOver (wait9 1) (jWait false).cur.plan.policy.stragglerUs = true
      ∧ (sWait false 1).waitOver (wait9 1) (jWait false).cur.plan.policy.fenceUs = true := by
  decide +kernel

/-! ## The step root, tallies, bells, dispatch -/

/-- A MGMT message of one frame. -/
def fMgmt (amode : Bool) (src : BitVec 24) (bs : List Byte) : Frame :=
  sent { zeroHdr with ftype := 8, amode := amode, dest := fabricAddr amode, src := src, msgId := 78,
                      payloadLen := BitVec.ofNat 13 bs.length, msgLen := BitVec.ofNat 32 bs.length } .none bs

theorem good_fMgmt (a : Bool) (src : BitVec 24) (bs : List Byte) : tailGood (fMgmt a src bs) = true := good _ _ _

theorem meets_StepReports_send :
    let c := { ctx9 0 0 members3 with state := .final, step := 0 }
    let s := sJob (job9 0 0) [(8, c)]
    s.job? 9 = some (job9 0 0) ∧ s.mayReport (job9 0 0) 0 = true ∧ (job9 0 0).cur.isRoot = false
      ∧ s.silenced (some 9) = false := by decide +kernel

/-- The job at its step root, with two releasing switches, and a payload of a kind for step 0, RELEASER_INDEX 1. -/
def jRoot : Job :=
  let l := lay 2 0
  { job9 2 0 with cur := { l with plan := { l.plan with switches := [⟨0, 0, 1, 0x20, 1⟩, ⟨1, 1, 1, 0x40, 0⟩, ⟨2, 2, 0, 0x30, 0⟩] } } }

/-- The step messages of the root. -/
def fStep (kind : Nat) : Frame := fMgmt true 0x40 (leBytes 2 kind ++ leBytes 2 0x93 ++ zeros 4 ++ leBytes 2 1 ++ zeros 78)

theorem meets_StepReports_root : ∀ kind ∈ [0x41, 0x42],
    let f := fStep kind
    let s := sJob jRoot []
    (∃ u, (s.takeFrom .firmware 2 f).receive 2 f = (.complete, u)) ∧ s.queuedBehind .firmware 2 f = false
      ∧ (∀ x ∈ s.ctxs, x.2.commitWait = false) ∧ s.silenced (some (stepMsg f.payload).job) = false
      ∧ f.h.ftype = 8#4 ∧ mgmtKind f = kind
      ∧ s.job? (stepMsg f.payload).job = some jRoot ∧ jRoot.cur.isRoot = true ∧ jRoot.cur.plan.gen = (stepMsg f.payload).gen
      ∧ (stepMsg f.payload).step = jRoot.floor ∧ jRoot.stepEnded jRoot.floor = false ∧ jRoot.inWindow jRoot.floor = true
      ∧ (stepMsg f.payload).idx < jRoot.cur.plan.releasers.length ∧ leAt f.payload 11 1 ≠ 1
      ∧ 0 < jRoot.cur.plan.releasers.length ∧ 0 ≠ (stepMsg f.payload).idx
      ∧ ∀ r ∈ (jRoot.step jRoot.floor).reports, r.releaser ≠ 0 := by
  intro k h
  refine ⟨gives _ ?_, ?_⟩ <;> revert k <;> decide +kernel

/-- Answer 0 is WITHDRAWN, 1 COMMITTED. -/
theorem meets_WithdrawalsTalliesBells_withdraw : ∀ ans ∈ [0, 1],
    let f := fMgmt true 0x30 (leBytes 2 0x43 ++ leBytes 2 0x93 ++ leBytes 4 1 ++ zeros 2 ++ leBytes 1 ans ++ zeros 5)
    let j := { job9 0 0 with steps := [{ StepSt.fresh 1 with withdrawn := true }] }
    let c := { ctx9 0 0 members3 with state := .released, withdrawing := true }
    let s := sJob j [(9, c)]
    (∃ u, (s.takeFrom .firmware 2 f).receive 2 f = (.complete, u)) ∧ s.queuedBehind .firmware 2 f = false
      ∧ f.h.ftype = 8#4 ∧ mgmtKind f = 0x43
      ∧ s.job? (stepMsg f.payload).job = some j ∧ (j.step (stepMsg f.payload).step).withdrawn = true
      ∧ (s.stepCtxs (stepMsg f.payload).job (stepMsg f.payload).step).filter (·.2.withdrawing) = [(9, c)]
      ∧ s.ctx? 9 = some c ∧ s.layoutOf c = some (j, lay 0 0) ∧ (lay 0 0).bucketOf c = some (buk, ⟨0, 0, 0, 1, [0, 1, 2]⟩)
      ∧ c.mill < 128 ∧ leAt f.payload 10 1 = ans := by
  intro k h
  refine ⟨gives _ ?_, ?_⟩ <;> revert k <;> decide +kernel

theorem meets_WithdrawalsTalliesBells_tally :
    let b := { buk with tally := true }
    let l := { lay 1 1 with plan := { plan 1 with buckets := [b] } }
    let j := { job9 1 1 with cur := l }
    let f := fMgmt true 0x20 (leBytes 2 0x45 ++ leBytes 2 0x93 ++ leBytes 4 1 ++ zeros 40)
    let s := sJob j []
    (∃ u, (s.takeFrom .firmware 1 f).receive 1 f = (.complete, u)) ∧ s.queuedBehind .firmware 1 f = false
      ∧ f.h.ftype = 8#4 ∧ mgmtKind f = 0x45
      ∧ 9 = BitVec.ofNat 12 (leAt f.payload 2 2 / 16) ∧ 1 = BitVec.ofNat 32 (leAt f.payload 4 4) ∧ s.job? 9 = some j
      ∧ j.layout (BitVec.ofNat 4 (leAt f.payload 2 2)) = some l ∧ l.plan.job = 9
      ∧ l.plan.buckets.find? (fun b => b.id == leAt f.payload 8 2) = some b
      ∧ l.plan.swByFlat f.h.src = some ⟨0, 0, 0, 0x20, 1⟩ ∧ l.plan.group? b.group = some ⟨0, 0, 1, 1, [0, 1, 2]⟩
      ∧ l.releases ⟨0, 0, 1, 1, [0, 1, 2]⟩ = true ∧ (l.plan.tallyOwers ⟨0, 0, 1, 1, [0, 1, 2]⟩).contains 0 = true
      ∧ b.tally = true ∧ ((j.step 1).tallyOf b.id).reports.contains 0 = false
      ∧ ((j.step 1).tallyOf b.id).reports.contains l.self = false ∧ 0 ≠ l.self := by
  refine ⟨gives _ ?_, ?_⟩ <;> decide +kernel

/-- A barrier bell, at which rank 0 has arrived. -/
def bell9 : Bell :=
  { bell := 1, kind := .barrier, group := 0, home := true, reduced := false, late := false, phase := 0, lead := 0, at_ := 0,
    count := 0, threshold := 0, opened := 0, begun := true, passed := 0, slots := members3, arrived := [.member 0],
    stragglerSent := false }

theorem meets_WithdrawalsTalliesBells_arrive :
    let f := fMgmt false 0x81 (leBytes 2 0x61 ++ leBytes 2 0x93 ++ leBytes 2 1 ++ zeros 2 ++ leBytes 1 1 ++ zeros 39)
    let j := { job9 0 0 with bells := [bell9] }
    let s := sJob j []
    let u := s.takeFrom .firmware 0 f
    s.queuedBehind .firmware 0 f = false ∧ (u.rxOf 0 (bellFrame f).h).done = false
      ∧ u.classifyBell (bellFrame f).h (bellMsg f.payload) = .record (lay 0 0) ⟨0, 0, 0, 1, [0, 1, 2]⟩ (.member 1)
      ∧ s.job? (bellMsg f.payload).job = some j ∧ j.bell? (bellMsg f.payload).bell = some bell9 ∧ bell9.kind = .barrier
      ∧ bell9.arrived.length + 1 < bell9.slots.length := by decide +kernel

theorem meets_WithdrawalsTalliesBells_release :
    let f := fMgmt true 0x30 (leBytes 2 0x62 ++ leBytes 2 0x93 ++ leBytes 2 1 ++ zeros 10)
    let j := { job9 0 0 with bells := [bell9] }
    let s := sJob j []
    (∃ u, (s.takeFrom .firmware 2 f).receive 2 f = (.complete, u)) ∧ s.queuedBehind .firmware 2 f = false
      ∧ s.job? (BitVec.ofNat 12 (leAt f.payload 2 2 / 16)) = some j ∧ j.bell? (leAt f.payload 4 2) = some bell9
      ∧ j.cur.plan.group? bell9.group = some ⟨0, 0, 0, 1, [0, 1, 2]⟩
      ∧ bell9.phase = BitVec.ofNat 16 (leAt f.payload 6 2) := by
  refine ⟨gives _ ?_, ?_⟩ <;> decide +kernel

theorem meets_MulticastAndDispatch_timeout :
    let r : McRecord := ⟨3, 9, 1, 0x80, 77, 0, hRed 1 6 8, 0, [.member 1], false, 0⟩
    let s : State := { sUp with mcs := [r] }
    (3 < 4) ∧ s.mcs.find? (fun r => r.die == 3 && r.src == 0x80 && r.msgId == 77) = some r := by decide +kernel

/-- A dispatch set of ranks 0 and 1 to rank 2, two experts. -/
def disp9 : PlanDispatch := ⟨2, true, 4, 2, 8, 4096, [0, 1], [⟨2, 0, 0, 0⟩]⟩

/-- The job at the leaf with it, its instance 0 collecting. -/
def jDisp : Job :=
  { job9 0 0 with cur := { lay 0 0 with plan := { plan 0 with dsets := [disp9] } }, insts := [DispInst.fresh 2 0 0 0] }

theorem meets_MulticastAndDispatch_grant :
    let f0 := fMgmt false 0x82 (leBytes 2 0x44 ++ leBytes 2 2 ++ zeros 20)
    let f := { f0 with h := { f0.h with dest := 0x81, jobId := 9 } }
    let s := sJob jDisp []
    f.h.ftype = 8#4 ∧ mgmtKind f = 0x44 ∧ s.job? f.h.jobId = some jDisp
      ∧ jDisp.cur.plan.dset? (leAt f.payload 2 2 % 4096) = some disp9 ∧ disp9.sourceAt jDisp.cur.plan f.h.dest = some 1
      ∧ disp9.sources[1]? = some 1 ∧ jDisp.cur.plan.leafSw 1 = some ⟨0, 0, 1, 0x20, 1⟩ ∧ (0 : Nat) = jDisp.cur.self := by
  decide +kernel

/-- END of source 0, round 1, for destination 0 of set 2. -/
def fEnd : Frame :=
  sent { hRed 1 6 16 with src := 0x80, remoteAddr := 0x0020000000003000 } .none (leBytes 8 1 ++ zeros 8)

theorem good_fEnd : tailGood fEnd = true := good _ _ _

theorem meets_MulticastAndDispatch_end :
    let t := setTag fEnd.h.remoteAddr
    let s := sJob jDisp []
    (∃ u, (s.takeFrom .firmware 0 fEnd).receive 0 fEnd = (.complete, u)) ∧ s.queuedBehind .firmware 0 fEnd = false
      ∧ (s.bank fEnd.h.epoch).sourceOk jDisp.id disp9 0 = true ∧ isSetTagged fEnd.h = true
      ∧ s.job? fEnd.h.jobId = some jDisp ∧ jDisp.cur.plan.job = fEnd.h.jobId ∧ jDisp.setRefusal fEnd.h.layoutGen = none
      ∧ t.part = 3 ∧ jDisp.cur.plan.dset? t.set = some disp9 ∧ disp9.dests[t.dest]? = some ⟨2, 0, 0, 0⟩
      ∧ disp9.sourceAt jDisp.cur.plan fEnd.h.src = some 0 ∧ jDisp.cur.plan.leafSw 2 = some ⟨0, 0, 1, 0x20, 1⟩
      ∧ (0 : Nat) = jDisp.cur.self ∧ s.curBank.fenced jDisp.id 2 = false ∧ s.sourceAlive jDisp.id disp9 0 = true
      ∧ (t.inst - jDisp.winBase disp9.id t.dest).toNat < min 128 disp9.window ∧ leAt fEnd.payload 0 1 = 1
      ∧ jDisp.inst? disp9.id t.inst t.dest = some (DispInst.fresh 2 0 0 0)
      ∧ (DispInst.fresh 2 0 0 0).phase = .collecting ∧ (DispInst.fresh 2 0 0 0).endOf 0 1 = none
      ∧ 1 ∈ s.aliveSources fEnd.h.jobId disp9 ∧ (1 : Nat) ≠ 0 ∧ (DispInst.fresh 2 0 0 0).endOf 1 1 = none := by
  refine ⟨gives _ ?_, ?_⟩ <;> decide +kernel

/-! ## Landing -/

/-- A shard of rank 1, 8 bytes long, in slot 0. -/
def shard9 (st : ShardState) : Shard := { Shard.fresh 1 3 0 0 8 1 0 with state := st, dataPos := zeros 64 }

/-- The landing of the job with it; a hash of it runs where it is SEALING or has been spoilt since. -/
def land9 (st : ShardState) (bytes : Nat) : Landing :=
  { job := 9, base := 2 ^ 36, bytes := bytes, rate := 100, kept := false, shards := [shard9 st],
    seals := if st = .sealing ∨ st = .corrupt then [⟨1, 3, 0, 0, 1, 8, zeros 64, zeros 64, 0, false⟩] else [], reads := [] }

/-- The job with its landing; step 1 has committed. -/
def sLand (st : ShardState) (bytes : Nat) : State :=
  { sJob { job9 0 0 with steps := [{ StepSt.fresh 1 with ended := some .committed }] } [] with landings := [land9 st bytes] }

/-- A landing request of rank 1. -/
def fLand (op off : Nat) (bs : List Byte) : Frame :=
  sent { hRed 1 7 bs.length with src := 0x81, remoteAddr := BitVec.ofNat 64 (op * 2 ^ 60 + off) } .none bs

theorem good_fLand (op off : Nat) (bs : List Byte) : tailGood (fLand op off bs) = true := good _ _ _

/-- OPEN of 8 bytes with room for 64 and with none, DATA at the last offset that fits, DROP. -/
theorem meets_LandingShards_requests : ∀ x ∈ [(1, 0, 64), (1, 0, 0), (0, 7, 64), (4, 0, 64)],
    let f := fLand x.1 x.2.1 (if x.1 = 1 then leBytes 8 1 ++ leBytes 8 8 ++ zeros 8 else [5])
    let s := sLand .openS x.2.2
    let u := s.takeFrom .firmware 0 f
    let g : LandTag := ⟨x.1, 0, x.2.1⟩
    let j := { job9 0 0 with steps := [{ StepSt.fresh 1 with ended := some .committed }] }
    (∃ v, u.receive 0 f = (.complete, v)) ∧ s.queuedBehind .firmware 0 f = false ∧ isLanding s.image.ownFlat f.h = true ∧ (u.rxOf 0 f.h).done = false
      ∧ u.landReq f = .take j (land9 .openS x.2.2) 1 g ∧ s.landing? j.id = some (land9 .openS x.2.2) ∧ g.op = x.1
      ∧ (x.1 = 1 → (land9 .openS x.2.2).place 1 j.cur.plan.gen g.slot (leAt f.payload 8 8)
          = if x.2.2 = 0 then none else some 0)
      ∧ (land9 .openS x.2.2).shard? 1 j.cur.plan.gen g.slot = some (shard9 .openS) ∧ (land9 .openS x.2.2).seals = [] := by
  intro x h
  refine ⟨gives _ ?_, ?_⟩ <;> revert x <;> decide +kernel

/-- SEAL for the committed step, READ by its owner. -/
theorem meets_LandingShards_sealAndRead : ∀ x ∈ [(2, ShardState.openS), (3, ShardState.sealed)],
    let f := fLand x.1 0 (if x.1 = 2 then leBytes 8 1 ++ zeros 136 else leBytes 4 1 ++ leBytes 4 3 ++ leBytes 8 1 ++ zeros 80)
    let s := sLand x.2 64
    let u := s.takeFrom .firmware 0 f
    let g : LandTag := ⟨x.1, 0, 0⟩
    let j := { job9 0 0 with steps := [{ StepSt.fresh 1 with ended := some .committed }] }
    (∃ v, u.receive 0 f = (.complete, v)) ∧ s.queuedBehind .firmware 0 f = false ∧ isLanding s.image.ownFlat f.h = true ∧ (u.rxOf 0 f.h).done = false
      ∧ u.landReq f = .take j (land9 x.2 64) 1 g ∧ s.landing? j.id = some (land9 x.2 64) ∧ g.op = x.1
      ∧ (land9 x.2 64).shard? 1 j.cur.plan.gen g.slot = some (shard9 x.2) ∧ (shard9 x.2).state = x.2
      ∧ (x.1 = 2 → j.committed (BitVec.ofNat 32 (leAt f.payload 0 4)) = true)
      ∧ (x.1 = 3 → (land9 x.2 64).shard? (leAt f.payload 0 4 % 2 ^ 18) (BitVec.ofNat 4 (leAt f.payload 4 4)) g.slot
            = some (shard9 x.2)
          ∧ (shard9 x.2).step = BitVec.ofNat 32 (leAt f.payload 8 4) ∧ (shard9 x.2).dataPos = sliceB f.payload 32 64) := by
  intro x h
  refine ⟨gives _ ?_, ?_⟩ <;> revert x <;> decide +kernel

/-- DROP of a shard that is being hashed. -/
theorem meets_LandingShards_dropHashed :
    let f := fLand 4 0 [5]
    let s := sLand .sealing 64
    let u := s.takeFrom .firmware 0 f
    let j := { job9 0 0 with steps := [{ StepSt.fresh 1 with ended := some .committed }] }
    (∃ v, u.receive 0 f = (.complete, v)) ∧ s.queuedBehind .firmware 0 f = false
      ∧ u.landReq f = .take j (land9 .sealing 64) 1 ⟨4, 0, 0⟩ ∧ s.landing? j.id = some (land9 .sealing 64)
      ∧ (land9 .sealing 64).shard? 1 j.cur.plan.gen 0 = some (shard9 .sealing)
      ∧ ∃ o ∈ (land9 .sealing 64).seals, o.owner = 1 ∧ o.gen = j.cur.plan.gen ∧ o.slot = 0 ∧ o.draw = (shard9 .sealing).draw := by
  refine ⟨gives _ ?_, ?_⟩ <;> decide +kernel

/-- The end of a hash, of a shard that still stands, of one that memory has spoilt, and of one that was dropped. -/
theorem meets_LandingShards_hashDone : (∀ st ∈ [ShardState.sealing, .corrupt],
    (sLand st 64).landing? 9 = some (land9 st 64) ∧ ((land9 st 64).seal? 1 3 0).any (fun o => !o.dropped) = true
      ∧ (land9 st 64).shard? 1 3 0 = some (shard9 st) ∧ (shard9 st).draw = 0 ∧ (shard9 st).state = st)
    ∧ let x : Landing := { land9 .sealing 64 with seals := (land9 .sealing 64).seals.map fun o => { o with dropped := true } }
      ((x.seal? 1 3 0).any fun o => o.dropped) = true := by decide +kernel

/-! ## Epoch changes and fabric time -/

/-- This switch as the time root, and another. -/
def sRoot : State := { sUp with image := { sUp.image with timeRoot := 0x40 } }

/-- A neighbouring switch that no epoch has cut is one of the other switches, whatever switches lie farther away. -/
theorem others (s : State) (c : CablePort) (hc : c ∈ s.image.cable) (hs : (c.role == .switch) = true)
    (hf : c.peerFlat ≠ s.image.ownFlat ∧ c.peerFlat ∉ s.curBank.cutSwitches) : s.otherSwitches ≠ [] := by
  have h : c.peerFlat ∈ s.otherSwitches := by
    simp only [State.otherSwitches, List.mem_filter, List.mem_dedup, List.mem_append, List.mem_map, State.knownTiers,
      List.cons_append, List.mem_cons]
    refine ⟨.inl ⟨(c.peerFlat, c.peerTier), .inr (.inl (.inl ⟨c, ⟨hc, hs⟩, rfl⟩)), rfl⟩, ?_⟩
    simp [hf.1, hf.2]
  intro e
  simp [e] at h

/-- So the leaf below is one, in every state of epochs. -/
theorem others_sRoot (e : EpochSt) (h : 0x20 ∉ ({ sRoot with epoch := e } : State).curBank.cutSwitches) :
    ({ sRoot with epoch := e } : State).otherSwitches ≠ [] :=
  have hc : ({ noCable with role := .switch, peerFlat := 0x20, peerTier := 0 } : CablePort) ∈ cables := by decide
  have hf : (0x20 : BitVec 24) ≠ 0x40 := by decide
  others _ _ hc rfl ⟨hf, h⟩

/-- An epoch message from the switch 0x20: EPOCH_NUM 1 and one item, the fence of rank 2 of job 9. -/
def fEpoch (kind : Nat) : Frame :=
  fMgmt true 0x20 (leBytes 2 kind ++ zeros 2 ++ leBytes 4 1 ++ itemBytes [itemFence 9 2])

theorem meets_EpochRequestsAndAnswers_request : ∀ c ∈ [CoordPhase.idle, .preparing],
    let s : State := { sRoot with epoch := { sRoot.epoch with coord := c, owing := [0x30] } }
    let f := fEpoch 0x70
    (∃ u, (s.takeFrom .firmware 1 f).receive 1 f = (.complete, u)) ∧ s.otherSwitches ≠ [] ∧ s.queuedBehind .firmware 1 f = false ∧ s.fwWaits = false ∧ f.h.ftype = 8#4
      ∧ leAt ((s.takeFrom .firmware 1 f).mgmtBody 1 f) 0 2 = 0x70 ∧ f.h.amode = true
      ∧ s.isTimeRoot = true ∧ s.epoch.coord = c ∧ s.epoch.phase = .idle ∧ s.retiring = false ∧ s.epoch.asked = []
      ∧ ((itemsOf ((s.takeFrom .firmware 1 f).mgmtBody 1 f)).dedup.filter fun i => !s.curBank.applied i) ≠ [] ∧ s.epoch.owing ≠ [] := by
  intro x h
  refine ⟨gives _ ?_, others_sRoot _ ?_, ?_⟩ <;> revert x <;> decide +kernel

theorem meets_EpochRequestsAndAnswers_prepare :
    let f := fEpoch 0x71
    (∃ u, (sUp.takeFrom .firmware 1 f).receive 1 f = (.complete, u)) ∧ f.h.ftype = 8#4 ∧ f.h.amode = true
      ∧ sUp.queuedBehind .firmware 1 f = false ∧ (sUp.takeFrom .firmware 1 f).mgmtBody 1 f = f.payload
      ∧ leAt f.payload 0 2 = 0x71 ∧ BitVec.ofNat 32 (leAt f.payload 4 4) = sUp.epoch.num + 1 ∧ sUp.epoch.phase = .idle := by
  refine ⟨gives _ ?_, ?_⟩ <;> decide +kernel

/-- EPOCH_PREPARED while another switch owes it, and as the last; EPOCH_DRAINED while another owes it. -/
theorem meets_EpochRequestsAndAnswers_answers : ∀ x ∈ [(0x72, CoordPhase.preparing, [0x20, 0x30]),
      (0x72, .preparing, [0x20]), (0x74, .committing, [0x20, 0x30])],
    let e : EpochSt := { sRoot.epoch with coord := x.2.1, coordNum := 1, owing := x.2.2.map (BitVec.ofNat 24) }
    let s : State := { sRoot with epoch := { e with phase := .prepared } }
    let f := fEpoch x.1
    (∃ u, (s.takeFrom .firmware 1 f).receive 1 f = (.complete, u)) ∧ s.otherSwitches ≠ [] ∧ f.h.ftype = 8#4 ∧ f.h.amode = true
      ∧ s.queuedBehind .firmware 1 f = false ∧ s.fwWaits = false ∧ (s.takeFrom .firmware 1 f).mgmtBody 1 f = f.payload
      ∧ leAt f.payload 0 2 = x.1 ∧ s.epoch.coord = x.2.1 ∧ BitVec.ofNat 32 (leAt f.payload 4 4) = s.epoch.coordNum
      ∧ (x.2.2 = [0x20] → s.epoch.owing = [f.h.src]) ∧ (x.2.2 ≠ [0x20] → 0x30 ∈ s.epoch.owing ∧ 0x30 ≠ f.h.src)
      ∧ s.epoch.phase = .prepared ∧ s.epoch.num + 1 = s.epoch.coordNum := by
  intro x h
  refine ⟨gives _ ?_, others_sRoot _ ?_, ?_⟩ <;> revert x <;> decide +kernel

theorem meets_EpochCommitDrainRetire : ∀ x ∈ [(0x73, EpochPhase.prepared, 0), (0x75, .switched, 1), (0x77, .prepared, 0)],
    let s : State := { sUp with epoch := { sUp.epoch with phase := x.2.1, num := BitVec.ofNat 32 x.2.2 } }
    let f := fEpoch x.1
    (∃ u, (s.takeFrom .firmware 1 f).receive 1 f = (.complete, u)) ∧ f.h.ftype = 8#4 ∧ f.h.amode = true
      ∧ s.queuedBehind .firmware 1 f = false ∧ (s.takeFrom .firmware 1 f).mgmtBody 1 f = f.payload
      ∧ leAt f.payload 0 2 = x.1 ∧ s.epoch.phase = x.2.1 ∧ s.epoch.coord ≠ .querying
      ∧ (x.1 = 0x73 → BitVec.ofNat 32 (leAt f.payload 4 4) = s.epoch.num + 1)
      ∧ (x.1 = 0x75 → BitVec.ofNat 32 (leAt f.payload 4 4) = s.epoch.num) := by
  intro x h
  refine ⟨gives _ ?_, ?_⟩ <;> revert x <;> decide +kernel

theorem meets_EpochCommitDrainRetire_drained :
    let s : State := { sUp with epoch := { sUp.epoch with phase := .switched, coordinator := 0x50 } }
    s.fwWaits = false ∧ s.drained = true ∧ s.epoch.drainedSent = false ∧ s.epoch.coord = .idle ∧ s.isTimeRoot = false
      ∧ s.epoch.coordinator ≠ s.image.ownFlat := by decide +kernel

/-- A TIME_SYNC and a TIME_SYNC_REPLY. -/
def fTime (kind t1 : Nat) : Frame :=
  fMgmt true 0x30 (leBytes 2 kind ++ leBytes 2 7 ++ leBytes 2 1 ++ zeros 10 ++ leBytes 8 t1 ++ zeros 40)

theorem good_fTime (kind t1 : Nat) : tailGood (fTime kind t1) = true := good _ _ _

theorem meets_FabricTime_sync :
    let f := fTime 0x50 0
    (∃ u, (sUp.takeFrom .firmware 2 f).receive 2 f = (.complete, u)) ∧ sUp.queuedBehind .firmware 2 f = false
      ∧ sUp.idsFresh = true ∧ f.h.ftype = 8#4 ∧ mgmtKind f = 0x50 ∧ sUp.pcsLock 2 = true ∧ sUp.portsOk = true := by
  refine ⟨gives _ ?_, ?_⟩ <;> decide +kernel

theorem meets_FabricTime_holdover :
    ({ sUp with time := { sUp.time with state := .locked } } : State).time.state = .locked := by decide +kernel

/-- In a state of fabric time, with an exchange open on port 2. -/
def sTime (st : TimeState) (parent : Option Nat) : State :=
  { sUp with time := { sUp.time with state := st, parent := parent, syncs := [⟨2, 7⟩], neighbours := [] } }

/-- θ doubled is the 2,048 ns given; below 2 ns an exchange is good. -/
theorem meets_FabricTime_reply : ∀ t1 ∈ [0, 2048],
    let f := fTime 0x51 t1
    let s := sTime .acquiring (some 2)
    (∃ u, (s.takeFrom .firmware 2 f).receive 2 f = (.complete, u)) ∧ s.queuedBehind .firmware 2 f = false ∧ s.portsOk = true
      ∧ f.h.ftype = 8#4 ∧ mgmtKind f = 0x51 ∧ s.time.syncs.contains ⟨2, BitVec.ofNat 16 (leAt f.payload 2 2)⟩ = true
      ∧ s.time.state = .acquiring ∧ s.time.parent = some 2 ∧ (BitVec.ofNat 8 (leAt f.payload 4 1)).getLsbD 0 = true := by
  intro x h
  refine ⟨gives _ ?_, ?_⟩ <;> revert x <;> decide +kernel

set_option maxRecDepth 100000 in
/-- A frame that waits behind another for the firmware, one that is no TIME_SYNC, one taken before. -/
theorem meets_TimeExchangesComplete_forms :
    let f := fTime 0x50 0
    let ahead := { cWrite with dest := .firmware, cid := 1, src := 2, out := fTime 0x50 1 }
    let mine := { cWrite with dest := .firmware, cid := 2, fid := 1, src := 2, out := f }
    let s : State := { sUp with core := { sUp.core with copies := [ahead, mine], nextId := 3 } }
    let done : RxMsg := ⟨0x30, 2, 0, 78, 0, 1, true, false, false, 0, []⟩
    let r : State := { sUp with rxs := [done] }
    s.queuedBehind .firmware 2 f = true ∧ mgmtKind f ≠ 0x51
      ∧ r.queuedBehind .firmware 2 f = false ∧ ((r.takeFrom .firmware 2 f).receive 2 f).1 = .again
      ∧ ((r.takeFrom .firmware 2 (fTime 0x51 0)).receive 2 (fTime 0x51 0)).1 = .again := by decide +kernel

/-- The time root, and a switch with no parent yet, with an open exchange and with none. -/
theorem meets_TimeExchangesComplete_reply : ∀ st ∈ [TimeState.root, .unlocked, .holdover],
    let f := fTime 0x51 0
    let s := sTime st none
    (∃ u, (s.takeFrom .firmware 2 f).receive 2 f = (.complete, u)) ∧ s.queuedBehind .firmware 2 f = false
      ∧ f.h.ftype = 8#4 ∧ mgmtKind f = 0x51 ∧ s.time.syncs.contains ⟨2, BitVec.ofNat 16 (leAt f.payload 2 2)⟩ = true
      ∧ sUp.time.syncs.contains ⟨2, BitVec.ofNat 16 (leAt f.payload 2 2)⟩ = false
      ∧ s.time.state = st ∧ s.time.neighbours = [] ∧ 2 ∈ s.syncPorts ∧ leAt f.payload 5 1 < 254
      ∧ (BitVec.ofNat 8 (leAt f.payload 4 1)).getLsbD 0 = true
      ∧ 2 ≤ theta2 0 2 0 0 0 ∧ theta2 0 0 0 0 0 ≤ 0 := by
  intro x h
  refine ⟨gives _ ?_, ?_⟩ <;> revert x <;> decide +kernel

/-! ## Links and cruise -/

/-- A LINK frame from the neighbour. -/
def fLink (op lo hi sel : Nat) : Frame :=
  sent { zeroHdr with ftype := 7, amode := true, dest := 0xFFFFFF, src := 0x10 }
    (.link ⟨BitVec.ofNat 8 op, BitVec.ofNat 4 lo, BitVec.ofNat 4 hi, BitVec.ofNat 4 sel, 0, 0, 0, 0, 0⟩) []

theorem good_fLink (op lo hi sel : Nat) : tailGood (fLink op lo hi sel) = true := good _ _ _

/-- Versions 1 to 1, 2 to 9, and none in common; NEG_STATE 2 with the version in force, 1 with HELLO_ACK received, and 1. -/
theorem meets_Negotiation_hello : ∀ v ∈ [(1, 1), (2, 9), (3, 9)], ∀ st ∈ [1, 2],
    let s := (sUp.setFld F.TFP_PORT_STATUS_NEG_STATE 0 st).setNeg ⟨0, true, true⟩
    let f := fLink 1 v.1 v.2 0
    s.idsFresh = true ∧ s.portsOk = true ∧ s.pcsLock 0 = true ∧ (linkOf f).map (fun x => (x.op, x.minVer.toNat, x.maxVer.toNat)) = some (1, v)
      ∧ (s.crz 0).phase ≠ .waiting ∧ chooseVer v.1 v.2 = (if v.1 = 3 then 0 else v.1)
      ∧ s.fld F.TFP_PORT_STATUS_NEG_STATE (s.blk 0) = st ∧ s.fld F.TFP_PORT_STATUS_SELECTED_VER (s.blk 0) = 1
      ∧ (s.neg 0).ackGot = true := by decide +kernel

/-- The version computed is 2: an ACK of 1 differs, one of 2 does not. -/
theorem meets_Negotiation_ack : ∀ v ∈ [1, 2], ∀ sent ∈ [true, false],
    let s := ((((sUp.setFld F.TFP_PORT_STATUS_NEG_STATE 0 1).setFld F.TFP_PORT_STATUS_PEER_MIN_VER 0 1).setFld
      F.TFP_PORT_STATUS_PEER_MAX_VER 0 2)).setNeg ⟨0, sent, false⟩
    let f := fLink 2 0 0 v
    s.idsFresh = true ∧ s.portsOk = true ∧ s.pcsLock 0 = true ∧ (s.crz 0).phase ≠ .waiting
      ∧ (linkOf f).map (fun x => (x.op, x.selectedVer.toNat)) = some (2, v) ∧ s.chosen 0 = 2
      ∧ s.fld F.TFP_PORT_STATUS_NEG_STATE (s.blk 0) = 1 ∧ (s.neg 0).ackSent = sent := by decide +kernel

theorem meets_Negotiation_timer : ∀ x ∈ [true, false],
    let s := sUp.setNeg ⟨0, true, x⟩
    s.idsFresh = true ∧ s.portsOk = true ∧ s.pcsLock 0 = true ∧ (s.crz 0).phase ≠ .waiting ∧ (s.neg 0).ackSent = true ∧ (s.neg 0).ackGot = x := by
  decide +kernel

/-- No port waits for a judgement where no entry says so. -/
theorem no_answers (s : State) (h : (s.cruise.all fun x => x.phase != .answered) = true) :
    ∀ q, (s.crz q).phase ≠ .answered := by
  intro q
  unfold State.crz
  cases hx : s.cruise.find? fun x => x.port == q with
  | none => simp
  | some x =>
    have := List.all_eq_true.mp h x (List.mem_of_find?_eq_some hx)
    simpa using this

/-- A cruise message: from port 5 of the neighbour 0x10, an endpoint. -/
def fCruise (kind : Nat) : Frame :=
  fMgmt true 0x10 (leBytes 2 kind ++ leBytes 2 7 ++ leBytes 4 0x10 ++ leBytes 2 0 ++ leBytes 2 0 ++ zeros 28)

theorem cruise_fCruise (kind : Nat) (h : mgmtKind (fCruise kind) = kind) : isCruise (fCruise kind) kind = true := by
  have g : tailGood (fCruise kind) = true := good _ _ _
  simp [isCruise, g, h, show (fCruise kind).h.ftype = 8#4 from rfl, show (fCruise kind).h.amode = true from rfl,
    show (fCruise kind).h.dest = 0xFFFFFF from rfl]

/-- In the boot sweep, port 0 has sent CRUISE_ID of sweep 7. -/
def sAsked (tries : Nat) : State := { sUp with cruise := [⟨0, .asked, 7, tries, none, none⟩] }

theorem meets_CruiseAnswersAndJudges_id :
    let f := fCruise 0x20
    let u := sUp.takeFrom .firmware 0 f
    isCruise f 0x20 = true ∧ sUp.idsFresh = true ∧ sUp.portsOk = true ∧ sUp.queuedBehind .firmware 0 f = false
      ∧ u.pcsLock 0 = true ∧ u.negOver 0 = true
      ∧ ((sUp.setFld F.TFP_PORT_STATUS_NEG_STATE 0 1).takeFrom .firmware 0 f).negOver 0 = false :=
  ⟨cruise_fCruise _ (by decide +kernel), by decide +kernel⟩

theorem meets_CruiseAnswersAndJudges_reply :
    let s := sAsked 1
    let f := fCruise 0x21
    isCruise f 0x21 = true ∧ s.noChange ∧ (∀ q, (s.crz q).phase ≠ .answered) ∧ s.idsFresh = true ∧ s.portsOk = true
      ∧ s.queuedBehind .firmware 0 f = false ∧ (s.port? 0).isSome = true ∧ s.flag F.CRUISE_STATUS_FIRST_DONE 0 = false
      ∧ (s.crz 0).phase = .asked ∧ leAt f.payload 2 2 = (s.crz 0).sweep.toNat
      ∧ s.swapCandidates 0 (cruiseReplyOf f.payload) = [] :=
  ⟨cruise_fCruise _ (by decide +kernel), ⟨rfl, rfl, rfl⟩, no_answers _ (by decide +kernel), by decide +kernel⟩

/-- Tries 2 and 3: the last CRUISE_ID, and none any more. -/
theorem meets_CruiseRetriesAndSweeps_retry : ∀ n ∈ [2, 3],
    (sAsked n).noChange ∧ (∀ q, ((sAsked n).crz q).phase ≠ .answered)
      ∧ (sAsked n).idsFresh = true ∧ (sAsked n).portsOk = true ∧ ((sAsked n).port? 0).isSome = true
      ∧ (sAsked n).flag F.CRUISE_STATUS_FIRST_DONE 0 = false ∧ ((sAsked n).crz 0).phase = .asked
      ∧ ((sAsked n).crz 0).tries = n ∧ (sAsked n).fwWaits = false ∧ (sAsked n).pcsLock 0 = true
      ∧ (sAsked n).negOver 0 = true ∧ ((sAsked n).crz 1).phase = .idle := by
  intro n h
  refine ⟨⟨rfl, rfl, rfl⟩, no_answers _ rfl, ?_⟩
  revert n
  decide +kernel

/-- While the port that the timer names still waits for its negotiation. -/
theorem meets_CruiseRetriesAndSweeps_waiting :
    let s : State := { sUp with cruise := [⟨0, .waiting, 7, 0, none, none⟩] }
    s.noChange ∧ (∀ q, (s.crz q).phase ≠ .answered) ∧ (s.crz 0).phase = .waiting ∧ s.fwWaits = false :=
  ⟨⟨rfl, rfl, rfl⟩, no_answers _ rfl, by decide +kernel⟩

theorem meets_CruiseRetriesAndSweeps_sweep :
    sUp.noChange ∧ (sUp.setFld F.CRUISE_STATUS_SWEEP_ACTIVE 0 1).flag F.CRUISE_STATUS_SWEEP_ACTIVE 0 = true
      ∧ sUp.flag F.CRUISE_STATUS_SWEEP_ACTIVE 0 = false ∧ sUp.fwWaits = false ∧ sUp.idsFresh = true ∧ sUp.portsOk = true
      ∧ sUp.ports ≠ [] ∧ sUp.flag F.CRUISE_STATUS_FIRST_DONE 0 = false
      ∧ (∀ x ∈ sUp.ports, sUp.pcsLock x.num = true ∧ (sUp.fld F.TFP_PORT_STATUS_NEG_STATE (sUp.blk x.num) = 2
        ∨ sUp.fld F.TFP_PORT_STATUS_NEG_STATE (sUp.blk x.num) = 3))
      ∧ ({ sUp with boot := { sUp.boot with started := some 0 }, power := { sUp.power with fw := false } } : State).fwWaits
          = true :=
  ⟨⟨rfl, rfl, rfl⟩, by decide +kernel⟩

/-! ## Samples, saves, fences, memory -/

/-- Sampling on die 3; its ring holds n × 65,536 entries. -/
def sSample (n : Byte) : State :=
  { State.reset.setFlag F.SAMPLE_CONTROL_SAMPLE_EN 3 true with mem := if n = 0 then [] else [((telemetryRing 3).ref.base + 2, n)] }

theorem meets_SamplesAreTaken : ∀ n ∈ [0, 64],
    let s := sSample (BitVec.ofNat 8 n)
    let blk := s.sampleBlock 3 ⟨3, 0, false⟩
    let r := telemetryRing 3
    s.flag F.SAMPLE_CONTROL_SAMPLE_EN 3 = true ∧ s.power.dozing.contains 3 = false
      ∧ (s.core.samples.find? fun x => x.die == 3).getD ⟨3, 0, false⟩ = ⟨3, 0, false⟩ ∧ s.ringWaits r = false
      ∧ s.ringFull r.ref blk = (n == 64) ∧ s.owned (windowLine (r.ref.base + 64)) = false := by decide +kernel

theorem meets_SampleDrops_waits :
    let s0 := sSample 64
    let r := telemetryRing 3
    let s : State := { s0 with host := { s0.host with filter := [(windowLine (r.ref.base + 64), true)] } }
    let q : State := { s0 with ringQueue := [(r, zeros 64, 5)] }
    s.flag F.SAMPLE_CONTROL_SAMPLE_EN 3 = true ∧ s.power.dozing.contains 3 = false
      ∧ s.ringFull r.ref (s.sampleBlock 3 ⟨3, 0, false⟩) = true ∧ s.owned (windowLine (r.ref.base + 64)) = true
      ∧ q.ringFull r.ref (q.sampleBlock 3 ⟨3, 0, false⟩) = true ∧ q.ringWaits r = true := by
  decide +kernel

/-- A save of step 1 that waits, and one that runs; where step 1 aborted, and where it did not; a landing with room for it. -/
theorem meets_SavesStartAndEnd : ∀ run ∈ [true, false], ∀ ab ∈ [true, false],
    let v : SaveReq := ⟨false, 1, zeros 64, 2, run⟩
    let j := { job9 0 0 with save := some v, floor := 2, aborted := if ab then [1] else [] }
    let room : Landing := { job := 9, base := 2 ^ 36, bytes := 2 ^ 30, rate := 1, kept := false, shards := [], seals := [], reads := [] }
    let s : State := { sJob j [] with landings := [room] }
    let image := saveImage j (s.curBank.fences.any fun f => f.1 == 9) v.p v.dataPos
    s.job? 9 = some j ∧ j.save = some v ∧ v.running = run ∧ j.floor = v.p + 1 ∧ s.fwWaits = false
      ∧ (∀ x ∈ s.ctxs, x.2.commitWait = false) ∧ j.aborted.contains v.p = ab ∧ j.bells = []
      ∧ ((s.landing? 9).bind fun x => x.openOwn j.cur.plan.gen v.slot image.length v.p s.freeCount).isSome = true := by
  decide +kernel

theorem meets_FencesByWriteAndErrorMemory : ∀ asked ∈ [true, false],
    let j := { job9 0 0 with fenceReqs := if asked then [2] else [] }
    let s := (sJob j []).setFld F.FENCE_REQUEST_JOB_JOB 0 9
    s.noChange ∧ (9 : BitVec 12) = BitVec.ofNat 12 (s.fld F.FENCE_REQUEST_JOB_JOB 0) ∧ s.job? 9 = some j
      ∧ (2 : BitVec 18).toNat < j.cur.plan.members.length ∧ s.isTimeRoot = false
      ∧ s.ringWaits j.jrings.eventsAt = false ∧ j.fenceReqs.contains 2 = asked ∧ s.newest.1.fenced 9 2 = false
      ∧ State.reset.job? (BitVec.ofNat 12 (State.reset.fld F.FENCE_REQUEST_JOB_JOB 0)) = none := by
  intro x h
  refine ⟨⟨rfl, rfl, rfl⟩, ?_⟩
  revert x
  decide +kernel

/-- Memory of a stack that is ready; the line at MA 0 of partition 3. -/
def sMem (stack : Nat) : State :=
  ({ State.reset with image := { Image.none with ringsGib := 1 } } : State).setFld F.MEM_STATUS_STATE stack 3

/-- One symbol error is corrected, five are not. -/
def errs (n : Nat) : List (Nat × Byte) := (List.range n).map fun i => (7 * i, 0x55)

theorem meets_MemoryAccesses :
    let line := ringsBase / 64
    let p := memPlace (line * 64)
    let s := sMem p.stack
    (line * 64 < memBytes ∧ s.stackReady p.stack = true ∧ s.memory.tagBad.contains (p.stack, p.channel, p.group) = false
        ∧ tagErrors p [] = 0 ∧ s.partOf (line * 64) = 3 ∧ s.partOf 0 = 0 ∧ s.memory.poisoned.contains line = false)
      ∧ rsDecode 4 (s.codeword line p.pos [] []) = .clean
      ∧ (∃ bs, rsDecode 4 (s.codeword line p.pos (errs 1) []) = .corrected bs)
      ∧ rsDecode 4 (s.codeword line p.pos (errs 5) []) = .uncorrectable := by
  refine ⟨?_, ?_, ⟨zeros 68, ?_⟩, ?_⟩ <;> decide +kernel

/-- The last line of a channel's last group, on the last stack. -/
theorem meets_MemoryPatrolAndTraining :
    let line := 3145728 * 16 - 2
    let p : Machine.Place := ⟨19, 31, line / 16, line % 16⟩
    let s := sMem 19
    (s.stackReady 19 = true ∧ p.pos ≠ 15 ∧ s.memory.tagBad.contains (19, 31, p.group) = false ∧ tagErrors p [] = 0)
      ∧ rsDecode 4 (s.codeword p.usable p.pos [] []) = .clean
      ∧ rsDecode 4 (s.codeword p.usable p.pos (errs 5) []) = .uncorrectable
      ∧ (sMem 19).fld F.MEM_STATUS_STATE 0 = 0 ∧ ((sMem 19).setFld F.MEM_STATUS_STATE 0 1).fld F.MEM_STATUS_STATE 0 = 1
      ∧ (((sMem 19).setFld F.MEM_STATUS_STATE 0 1).setFld F.MEM_STATUS_STATE 0 3).windowReady = false := by
  refine ⟨?_, ?_, ?_, ?_⟩ <;> decide +kernel

/-- The same in partition 3, and a stack on a die that runs. -/
theorem meets_MemoryPatrolAndTraining_partition :
    let p := memPlace ringsBase
    p.stack < 20 ∧ p.channel < 32 ∧ p.group * 16 + p.pos < 3145728 * 16 ∧ p.usable * 64 = ringsBase
      ∧ (sMem p.stack).partOf (p.usable * 64) = 3
      ∧ rsDecode 4 ((sMem p.stack).codeword p.usable p.pos (errs 5) []) = .uncorrectable
      ∧ PowerSt.fresh.dozing = [] ∧ ({ PowerSt.fresh with dies := [3] } : PowerSt).dies.contains (19 / 5) = true := by
  decide +kernel

/-! ## The watchtower and the firmware -/

/-- The switch with every die and lane group running. -/
def sOn : State :=
  { sUp with power := { PowerSt.fresh with pins := ⟨true, true, true, true⟩, core := true, fw := true, dies := [0, 1, 2, 3],
                                           groups := [0, 1, 2, 3, 4, 5, 6, 7] } }

/-- A message of the bus of the control die, of a class. -/
def msg9 (cls : BitVec 2) : FaultMsg := ⟨4, 9, 0, 4, cls, false, 0, 0, 0⟩

/-- An entry of the queue. -/
def entry9 (cls : BitVec 2) (st : EntryState) : WtEntry := ⟨msg9 cls, 0, 1, 0, 0, 0, st, false, false, none, false⟩

/-- The watchtower with a message held and a queue. -/
def sWt (m : FaultMsg) (q : List WtEntry) : State := { sOn with wt := { sOn.wt with held := [m], queue := q } }

/-- Merging, entering, and the queue full at 1,008 entries. -/
theorem meets_FaultsAreAccepted : ∀ q ∈ [[entry9 1 .pending], [], List.replicate 1008 (entry9 2 .pending)],
    let s := sWt (msg9 1) q
    s.wtRuns = true ∧ (s.wt.held.find? fun m => m.source == (msg9 1).source) = some (msg9 1) ∧ (msg9 1).cls ≠ 3
      ∧ (s.wt.queue.any fun e => e.msg.same (msg9 1)) = (q == [entry9 1 .pending])
      ∧ (q.length = 1 ∨ q.length = 0 ∨ q.length = 1008) := by
  set_option maxRecDepth 100000 in decide +kernel

/-- A fatal-to-device message while every port is down. -/
theorem meets_FaultsAreAccepted_fatal :
    let s0 := sWt (msg9 3) []
    let s := [0, 2, 4, 6].foldl (fun s l => s.setFld F.PORT_LINK_LINK_STATE l 1) s0
    s.wtRuns = true ∧ (s.wt.held.find? fun m => m.source == (msg9 3).source) = some (msg9 3) ∧ (msg9 3).cls = 3
      ∧ (msg9 3).forced = false ∧ (s.wt.queue.any fun e => e.msg.same (msg9 3)) = false ∧ s.wt.queue.length < 1024
      ∧ (∀ c ∈ s.ports, s.pcsLock c.num = false) ∧ s.portsOk = true ∧ s.power.change = none := by decide +kernel

/-- ACTIONS 0 to 15. -/
theorem meets_ReactionsRun_handle : ∀ v ∈ [0, 15],
    let s := (sWt (msg9 1) [entry9 1 .pending]).setFld F.REACTION_ACTIONS 4 v
    s.wtRuns = true ∧ s.portsOk = true ∧ (s.wt.queue.any fun e => e.state == .handling) = false
      ∧ (s.wt.queue.find? fun e => e.state == .pending) = some (entry9 1 .pending) ∧ v = s.actionsOf (entry9 1 .pending)
      ∧ bitOf v 4 = false ∧ s.job? (BitVec.ofNat 12 ((entry9 1 .pending).msg.address.toNat / 2 ^ 32)) = none
      ∧ (s.port? (bitsOf (entry9 1 .pending).msg.address.toNat 7 0)).isSome = true := by decide +kernel

theorem meets_ReactionsRun_retire :
    let s := sWt (msg9 1) [entry9 1 .reacted]
    s.wtRuns = true ∧ (∀ e ∈ s.wt.queue, e.loggedRepeat = none ∨ e.loggedRepeat = some e.rep) := by decide +kernel

/-- A plain register, KIND_PENDING with no cause, and KIND_PENDING with a cause that persists. -/
theorem meets_FaultBitsAndForces_clear :
    let s : State := { (sOn.setReg .KIND_PENDING 0 0x10) with wt := { sOn.wt with causes := [msg9 1] } }
    regAt (regAddr .SHAPER_STATUS 3) = some (.SHAPER_STATUS, 3)
      ∧ RegName.SHAPER_STATUS ∉ [RegName.WT_STATUS, .HOST_INT_STATUS, .BRIDGE_STATUS, .CLOCK_STATUS, .REPEAT_STATUS, .KIND_PENDING]
      ∧ regAt (regAddr .KIND_PENDING 0) = some (.KIND_PENDING, 0)
      ∧ (∀ m ∈ sOn.wt.causes ++ sOn.wt.forcedHold, m.kind.toNat / 32 ≠ 0)
      ∧ msg9 1 ∈ s.wt.causes ∧ (msg9 1).kind.toNat / 32 = 0
      ∧ bitOf (s.reg .KIND_PENDING 0) ((msg9 1).kind.toNat % 32) = true := by
  and_intros <;> decide +kernel

/-- A source that exists and one that does not; a kind and a reserved one. -/
theorem meets_FaultBitsAndForces_force :
    sourceExists 0x42400 = true ∧ (kindRow 4).isSome = true ∧ sourceExists 0x7FFFF = false ∧ (kindRow 7).isNone = true
      ∧ (sOn.setFld F.FORCE_SOURCE_SOURCE 0 0x42400).fld F.FORCE_SOURCE_SOURCE 0 = 0x42400
      ∧ (∀ m ∈ sOn.wt.held, m.source ≠ (forcedMsg 0x42400 4 1).source)
      ∧ actionsOk 4 3 = true ∧ actionsOk 4 0x1F = false := by
  and_intros <;> decide +kernel

/-- A slot whose flash is erased does not verify; what a signature verifies to is opaque, so no state that verifies can be
shown. -/
theorem meets_WatchdogAndFirmware :
    let s : State := { sOn with power := { sOn.power with fw := false }, boot := { sOn.boot with started := some 1 } }
    sOn.wtRuns = true ∧ s.boot.started = some 1 ∧ s.power.fw = false ∧ s.railsGood = true
      ∧ s.reloadOk (s.slotImage 1) = false := by decide +kernel

theorem meets_WatchdogAndFirmware_copy :
    let e := entry9 1 .pending
    let s : State := { sOn with boot := { sOn.boot with started := some 1 }, wt := { sOn.wt with ring := [e, e], waiting := 1 } }
    s.power.fw = true ∧ s.booted = true ∧ s.wt.waiting ≠ 0 ∧ s.upd.ops = []
      ∧ [e] = (s.wt.ring.drop (s.wt.ring.length - s.wt.waiting)).take 128 ∧ [e].getLast? = some e := by decide +kernel

/-! ## Clocks, bridges, lanes -/

/-- Island 56 with its PLL locked, and after SELECT. -/
def sPll : State := (sOn.setFlag F.ISLAND_CLOCK_PLL_EN 56 true).setFlag F.ISLAND_CLOCK_PLL_LOCK 56 true

theorem meets_ClocksSwitch :
    sOn.clockRuns = true ∧ (sPll.setFlag F.ISLAND_CLOCK_SELECT 56 true).flag F.ISLAND_CLOCK_SELECT 56 = true
      ∧ sOn.flag F.ISLAND_CLOCK_SELECT 56 = false ∧ sOn.flag F.ISLAND_CLOCK_PLL_LOCK 56 = false
      ∧ sPll.flag F.ISLAND_CLOCK_PLL_LOCK 56 = true ∧ sPll.flag F.ISLAND_CLOCK_PLL_EN 56 = true
      ∧ (sPll.setFlag F.CLOCK_STATUS_REF_OK 0 true).flag F.CLOCK_STATUS_REF_OK 0 = true
      ∧ (let s := (sOn.setFlag F.ISLAND_CLOCK_PLL_EN 24 true).setFld F.MEM_STATUS_STATE 19 4
         s.flag F.ISLAND_CLOCK_PLL_EN 24 = true ∧ s.power.dozing.contains ((24 - 5) / 5) = false
          ∧ s.fld F.MEM_STATUS_STATE (24 - 5) = 4)
      ∧ sOn.flag F.ISLAND_CLOCK_MUX_TIMEOUT 0 = false ∧ sOn.flag F.ISLAND_CLOCK_SWITCH_DONE 0 = false := by
  and_intros <;> decide +kernel

/-- No port of the map: every port is dark. -/
def sDark (s : State) : State := { s with ports := [] }

/-- Counts at the edges of the window are good; one below is not. -/
theorem meets_ClocksFail :
    let s := sDark (sPll.setFlag F.CLOCK_STATUS_REF_OK 0 true)
    s.clockRuns = true ∧ (∀ c ∈ s.ports, s.pcsLock c.num = false) ∧ s.flag F.CLOCK_STATUS_REF_OK 0 = true
      ∧ s.flag F.ISLAND_CLOCK_PLL_LOCK 56 = true ∧ s.flag F.ISLAND_CLOCK_PLL_EN 56 = true
      ∧ (∀ m ∈ s.wt.causes, m.kind ≠ 8 ∧ m.kind ≠ 9) ∧ countOk 151825 = true ∧ countOk 153351 = true ∧ countOk 151824 = false
      ∧ s.power.dies.contains 3 = true := by decide +kernel

/-- Block 3 idle, and busy with the PUF; its clock asked to stop. -/
theorem meets_ClocksFail_gates :
    let s : State := { sOn with boot := { sOn.boot with pufWait := true } }
    sOn.blockIdle 3 = true ∧ s.blockIdle 3 = false ∧ s.flag (gateFld 3) 0 = true
      ∧ (s.setFlag (gatePend 3) 0 true).flag (gatePend 3) 0 = true := by decide +kernel

/-- A dead bridge from die 3 to die 0. -/
def sCut : State := { sOn with power := { sOn.power with deadBridges := [bridgeKey 3 0] } }

theorem meets_BridgesAndDomainResets :
    (∀ m ∈ sOn.wt.causes, m.kind ≠ 0x11) ∧ sOn.power.dies.contains 3 = true ∧ sOn.power.dies.contains 0 = true
      ∧ sOn.power.deadBridges.contains (bridgeKey 3 0) = false ∧ sCut.power.deadBridges.contains (bridgeKey 3 0) = true := by
  decide +kernel

/-- Islands 24, of die 3, and 56, of lane group 7; the key is 0x5D. -/
theorem meets_BridgesAndDomainResets_islands :
    bitsOf (0x5D000018 : Word).toNat 31 24 = 0x5D ∧ bitsOf (0x5D000018 : Word).toNat 5 0 = 24 ∧ (3 : Nat) = islandDie 24
      ∧ bitsOf (0x5D000038 : Word).toNat 5 0 = 56 ∧ (sDark sOn).power.groups.contains ((56 - 25) / 4) = true
      ∧ bitsOf (0x5C000018 : Word).toNat 31 24 ≠ 0x5D ∧ (sDark sOn).jobs = [] ∧ (sDark sOn).power.sag = none
      ∧ (∀ c ∈ (sDark sOn).ports, (sDark sOn).pcsLock c.num = false)
      ∧ ((sDark sOn).power.dies.filter (· != 3)).head? = some 0 := by
  decide +kernel

/-- Port 1 in each state of bring-up, and with PRBS enabled. -/
theorem meets_PortsUpAndDown_states : ∀ st ∈ [0, 1, 2, 3, 4, 5, 6],
    let c : PortCfg := ⟨1, 2, 2, 1, 1, 1⟩
    let s := sOn.setFld F.PORT_LINK_LINK_STATE 2 st
    s.portsOk = true ∧ s.port? 1 = some c ∧ c.lane0 + c.width ≤ 1024 ∧ s.link 1 = st ∧ s.prbsOn c = false
      ∧ (s.setFlag F.LANE_PRBS_GEN_EN 3 true).prbsOn c = true ∧ s.pcsLock 1 = (st == 5 || st == 6)
      ∧ s.toSend 1 = false ∧ (s.setFld F.PWR_STATUS_STATE 0 1).laneQuiet = true ∧ 3 ∈ c.lanes
      ∧ (s.setFlag F.LANE_PRBS_CHK_EN 3 true).flag F.LANE_PRBS_CHK_EN 3 = true ∧ s.portOfLane 3 = some c := by
  decide +kernel

theorem meets_PortsUpAndDown_beforeEpoch0 : sOn.beforeEpoch0 ∧ sOn.idsFresh = true ∧ sOn.core.backlog = [] :=
  ⟨⟨⟨rfl, rfl, rfl⟩, by decide +kernel, no_answers _ rfl, rfl⟩, by decide +kernel, rfl⟩

/-! ## Power, sags, supplies -/

/-- The switch at rest: nothing votes against an entry. -/
def sRest : State := sDark { sOn with ctxs := [], jobs := [] }

/-- An entry to `k` in a phase. -/
def sEnter (k phase : Nat) : State :=
  let s := (sRest.setFlag F.PWR_STATUS_PWR_BUSY 0 true).setFld F.PWR_STATUS_PHASE 0 phase
  { s with power := { s.power with change := some (.enter k) } }

/-- Each command: while busy, to a target that is not allowed, refused by a context, and accepted. -/
theorem meets_PowerCommands : ∀ k ∈ [0, 1, 2, 3],
    (sEnter 2 1).pwrBusy = true
      ∧ (let s := sRest.setFld F.PWR_STATUS_STATE 0 (if k = 0 then 0 else if k = 3 then 3 else k)
         s.pwrBusy = false ∧ targetOk s.pwr k = false)
      ∧ sRest.pwrBusy = false ∧ sRest.portsOk = true ∧ sRest.votes k = [] ∧ (k ≠ 0 → targetOk sRest.pwr k = true)
      ∧ (∀ p ∈ [1, 2], targetOk (sRest.setFld F.PWR_STATUS_STATE 0 p).pwr 0 = true)
      ∧ (sUp.setFld F.PWR_STATUS_STATE 0 1).portsOk = true
      ∧ (∀ c ∈ sRest.ports, sRest.pcsLock c.num = false) := by decide +kernel

/-- A running context refuses DOZE and KEEP; the gate list of port 0 refuses LANE_QUIET. -/
theorem meets_PowerCommands_refused : ∀ k ∈ [1, 2, 3],
    let s0 : State := { sOn with ctxs := (sJob (job9 0 1) [(5, ctx9 0 1 members3)]).ctxs }
    let s1 := s0.setFlag F.GATE_CONTROL_GATE_EN 0 true
    let s2 : State := { s1 with core := { s1.core with gates := [⟨0, 0, some (0, [(5, 1)], 0), none, 0xFF⟩] } }
    let s : State := if k = 1 then s2 else s0
    s.pwrBusy = false ∧ targetOk s.pwr k = true ∧ (firstVote (s.votes k)).isSome = true := by decide +kernel

theorem meets_PowerPhases : ∀ k ∈ [1, 2, 3],
    (sEnter k 1).quiescing = some k ∧ (sEnter k 1).votes k = [] ∧ (sEnter k 1).portsOk = true
      ∧ (sEnter k 2).power.change = some (.enter k) ∧ (sEnter k 2).pwrPhase = 2
      ∧ (sEnter k 3).power.change = some (.enter k) ∧ (sEnter k 3).pwrPhase = 3 ∧ (sEnter k 3).power.matched = false := by
  decide +kernel

/-- A condition that has come to hold in QUIESCE. -/
theorem meets_PowerPhases_condition :
    let s : State := { sEnter 2 1 with ctxs := (sJob (job9 0 1) [(5, ctx9 0 1 members3)]).ctxs }
    s.quiescing = some 2 ∧ (firstVote (s.votes 2)).isSome = true := by decide +kernel

/-- A save area whose CRC-64 fails. -/
def badSave : List Byte := ascii "SHPS" ++ zeros 12 ++ [1] ++ zeros 47

/-- A wake with one unit left to release, from a save area. -/
def sWake (c : Option PwrChange) (us : List PowerUnit) (area : List Byte) : State :=
  { sRest with power := { sRest.power with change := c, release := us, saveArea := area } }

theorem meets_WakesAndReleases : ∀ p ∈ [0, 1, 2, 3],
    (sRest.setFld F.PWR_STATUS_STATE 0 p).power.change = none ∧ (sRest.setFld F.PWR_STATUS_STATE 0 p).pwr = p
      ∧ (sEnter 2 2).power.change = some (.enter 2) ∧ (sEnter 2 2).pwrPhase ≠ 1 := by decide +kernel

set_option maxRecDepth 100000 in
theorem meets_WakesAndReleases_units : ∀ u ∈ [PowerUnit.die 3, .stackGroup 4, .laneGroup 0, .laneGroup 7],
    ∀ rest ∈ [[], [PowerUnit.laneGroup 6]],
    (sWake (some .leaveDoze) (u :: rest) badSave).power.release = u :: rest
      ∧ (sWake (some .leaveDoze) (u :: rest) badSave).power.change = some .leaveDoze
      ∧ (sWake (some .leaveDoze) (u :: rest) badSave).power.saved = none
      ∧ (sWake none (u :: rest) []).power.fw = true ∧ (sWake none (u :: rest) []).power.change = none
      ∧ 3 < 4 ∧ 4 < 5 ∧ 7 < 8 ∧ 4 ∈ stackGroup 4
      ∧ ((sWake (some .leaveDoze) (u :: rest) badSave).setFld F.MEM_STATUS_STATE 4 4).fld F.MEM_STATUS_STATE 4 = 4 := by
  decide +kernel

/-- A sag save that runs. -/
def sSag : State :=
  { sOn with power := { sOn.power with sag := some ⟨[(2, [])], none⟩, sagArea := sagHeader 1 0 0 0 } }

theorem meets_SagSaves :
    sSag.power.sag = some ⟨[(2, [])], none⟩ ∧ sSag.power.sagArea.length = 64
      ∧ sOn.power.sag = none ∧ sOn.power.core = true ∧ sOn.power.pins.pwrgd = true
      ∧ State.reset.power.sag = none ∧ State.reset.power.core = false := by decide +kernel

/-- The restart, with the rails good and not. -/
theorem meets_SagSaves_restart : ∀ good ∈ [true, false],
    let s : State := { sOn with power := { sOn.power with core := false, sagHold := true, afterSag := true,
                                                          pins := ⟨true, good, false, true⟩ } }
    s.power.sag = none ∧ s.power.sagHold = true ∧ s.power.core = false ∧ s.power.afterSag = true ∧ s.restoring = false
      ∧ s.power.pins.corePwrEn = true ∧ s.power.pins.pwrgd = good ∧ s.power.pins.thermtripN = true := by decide +kernel

theorem meets_SuppliesAndResets :
    sOn.power.sag = none ∧ sSag.power.sag = some ⟨[(2, [])], none⟩ ∧ State.reset.power.core = false
      ∧ State.reset.restoring = false ∧ State.reset.power.pins.corePwrEn = true ∧ State.reset.power.pins.sagN = true
      ∧ State.reset.power.pins.thermtripN = true ∧ State.reset.power.sagHold = false
      ∧ sOn.power.pins.pwrgd = true ∧ sOn.power.pins.sagN = true ∧ sOn.power.pins.corePwrEn = true := by decide +kernel

/-! ## Boot and signatures -/

/-- The control die started, its boot ROM reached. -/
def sRom : State := { sOn with power := { sOn.power with fw := false, rom := true, dies := [], groups := [] } }

/-- Erased flash holds no factory record, wherever the boot ROM looks for one. -/
theorem erased_no_factory (s : State) (h : s.flash.data = []) : s.factoryChecked = none := by
  have h4 (k n : Nat) : sgetRun flashErased k (n + 4) [] = [0xFF, 0xFF, 0xFF, 0xFF] ++ sgetRun flashErased (k + 4) n [] := rfl
  have : sliceB (s.flashAt Config.factoryOffset 2724) 0 4 ≠ ascii "SHFR" := by
    rw [State.flashAt, h, h4 _ 2720, sliceB, List.drop_zero, List.take_append_of_le_length (by decide)]
    decide
  simp [State.factoryChecked, State.factoryRecord, this]

/-- No flash; an erased one. A factory record and a reading that its keys verify are opaque (log entries 3 and 15): the cases
after them can be shown in no state. -/
theorem meets_BootAndItsControl_start :
    let s : State := { sRom with flash := { sRom.flash with sfdp := false } }
    s.power.core = true ∧ s.power.rom = true ∧ s.flash.usable = false ∧ sRom.power.core = true ∧ sRom.power.rom = true
      ∧ sRom.flash.usable = true ∧ sRom.factoryChecked = none := by
  exact ⟨by decide +kernel, rfl, rfl, by decide +kernel, rfl, rfl, erased_no_factory _ rfl⟩

/-- The factory record of the PUF key that a response gives where the record holds no helper data. -/
def recordOf (response : List Byte) : List Byte :=
  zeros 64 ++ sha3 (identityKey ((List.range 32).map (Config.pufKeyByte response [])))

/-- SHA3-512 gives 64 bytes. -/
theorem sha3_length (m : List Byte) : (sha3 m).length = 64 := by
  have h (n : Nat) : ∀ v, (leBytes n v).length = n := by
    induction n with
    | zero => intro v; rfl
    | succ n ih => intro v; simp [leBytes, ih]
  simp [sha3, List.length_flatten, h, Function.comp_def]

/-- A reading whose key is the one that the record names derives its identity, whatever the PUF answers. -/
theorem recordOf_identity (response : List Byte) : identityOk (recordOf response) (.ok response) = true := by
  have h64 : (zeros 64 : List Byte).length = 64 := by simp [zeros]
  have hlen : (recordOf response).length = 128 := by simp [recordOf, h64, sha3_length]
  have hn : leAt (recordOf response) 2720 4 = 0 := by
    rw [leAt, sliceB, List.drop_of_length_le (by omega)]
    decide
  have hk : pufKey response (recordOf response) = (List.range 32).map (Config.pufKeyByte response []) := by
    rw [pufKey, hn]
    simp [sliceB]
  have hd : sliceB (recordOf response) 64 64 = sha3 (identityKey (pufKey response (recordOf response))) := by
    rw [hk, recordOf, sliceB, List.drop_left' h64, List.take_of_length_le (by simp [sha3_length])]
    simp [sha3_length]
  rw [identityOk, hd, beq_self_eq_true]

/-- A reading that derives the identity of the record. -/
theorem meets_RetriesAndRestoresComplete_puf : ∀ n ∈ [0, 3, 4],
    let s0 := sRom.setFld F.BOOT_STATUS_PUF_READINGS 0 n
    let s : State := { s0 with boot := { s0.boot with pufWait := true, factory := recordOf [] } }
    s.power.core = true ∧ s.boot.pufWait = true ∧ identityOk s.boot.factory (.ok []) = true
      ∧ s.fld F.BOOT_STATUS_PUF_READINGS 0 = n ∧ State.reset.power.core = false ∧ sRom.boot.pufWait = false := by
  intro n h
  refine ⟨rfl, rfl, recordOf_identity [], ?_, rfl, rfl⟩
  revert n
  decide +kernel

/-- A reading that is bad, after each number of readings. -/
theorem meets_BootAndItsControl_puf : ∀ n ∈ [0, 2, 3],
    let s0 := sRom.setFld F.BOOT_STATUS_PUF_READINGS 0 n
    let s : State := { s0 with boot := { s0.boot with pufWait := true } }
    s.power.core = true ∧ s.boot.pufWait = true ∧ s.fld F.BOOT_STATUS_PUF_READINGS 0 = n
      ∧ identityOk s.boot.factory .bad = false := by decide +kernel

/-- An erased slot is read, as the first or the second; its code is 1. A slot that holds rests on opaque signatures. -/
theorem meets_BootAndItsControl_slot : ∀ slot ∈ [1, 2], ∀ second ∈ [true, false],
    let s0 := sRom.setFld F.BOOT_STATUS_STAGE 0 1
    let s : State := { s0 with boot := { s0.boot with slot := slot, second := second } }
    s.power.core = true ∧ s.stage = 1 ∧ s.slotCode (s.slotImage s.boot.slot) = 1 ∧ s.boot.second = second
      ∧ s.boot.slot = slot := by decide +kernel

/-- A boot store whose copies are both blank is blank, whatever CRC-64 they carry. -/
theorem blank_store (b : BootSt) (ha : b.copyA.fields = BootStore.blank) (hb : b.copyB.fields = BootStore.blank) :
    b.store = BootStore.blank := by
  rw [BootSt.store, ha, hb]
  split <;> simp

/-- After a boot sweep, and each stage of the control register. -/
theorem meets_BootAndItsControl_control :
    (sOn.setFld F.BOOT_STATUS_STAGE 0 2).power.fw = true ∧ (sOn.setFld F.BOOT_STATUS_STAGE 0 2).stage = 2
      ∧ (sOn.setFld F.BOOT_STATUS_STAGE 0 2).flag F.CRUISE_STATUS_SWEEP_ACTIVE 0 = false
      ∧ (∀ n ∈ [2, 3, 4], (sOn.setFld F.BOOT_STATUS_STAGE 0 n).stage = n) ∧ sOn.power.core = true
      ∧ sOn.boot.store.bootNext = 0 := by
  refine ⟨rfl, ?_, ?_, ?_, rfl, by rw [blank_store sOn.boot rfl rfl]; rfl⟩ <;> decide +kernel

/-- The words of the control register. -/
theorem meets_BootAndItsControl_words :
    bitsOf (0xB7000003 : Word).toNat 31 24 = 0xB7 ∧ bitOf (0xB7000003 : Word).toNat 23 = false
      ∧ bitOf (0xB7000003 : Word).toNat 22 = false ∧ bitsOf (0xB7000003 : Word).toNat 1 0 = 3
      ∧ bitsOf (0xB7000002 : Word).toNat 1 0 = 2 ∧ bitsOf (0x00000002 : Word).toNat 31 24 ≠ 0xB7 := by
  refine ⟨?_, ?_, ?_, ?_, ?_, ?_⟩ <;> decide +kernel

/-- The switch retains a record of step 1 of job 9, and is asked to sign one. -/
def sSign (rs : List StepRecord) (q : List (Option (BitVec 12 × BitVec 32))) : State :=
  { sOn.setFld F.LEDGER_CONTROL_SIGN_JOB 0 9 with retained := rs, signQueue := q }

/-- A record of that step. -/
def rec9 : StepRecord := ⟨9, 1, zeros 4, [], zeros 64, 0, none⟩

theorem meets_SignaturesAndAttestation :
    let s := sSign [rec9] [some (9, 1), none]
    let t := sSign [] [some (9, 1)]
    let u := sSign [] [none]
    s.power.core = true ∧ (9 : BitVec 12) = BitVec.ofNat 12 (s.fld F.LEDGER_CONTROL_SIGN_JOB 0) ∧ s.record? 9 1 = some rec9
      ∧ s.record? 9 2 = none ∧ s.signQueue = some (9, 1) :: [none] ∧ s.power.fw = true ∧ t.record? 9 1 = none
      ∧ t.signQueue = [some (9, 1)] ∧ u.signQueue = [none] ∧ u.power.fw = true ∧ u.attestBusy = true ∧ t.attestBusy = false
      ∧ t.hasIdentity = false
      ∧ ({ t with boot := { t.boot with factory := [0] } } : State).hasIdentity = true := by
  and_intros <;> decide +kernel

/-! ## The companion link and the window -/

/-- The link is ACTIVE, the window is usable, a job is loaded. -/
def sWin : State :=
  let s0 := (List.range 20).foldl (fun (s : State) k => s.setFld F.MEM_STATUS_STATE k 3) (sOn.setFld F.DCL_STATUS_LINK_STATE 0 4)
  { s0 with boot := { s0.boot with started := some 1 }, jobs := [job9 0 0], image := { s0.image with ringsGib := 4 } }

theorem meets_CompanionLink_training : ∀ st ∈ [0, 1, 2, 3, 4, 5],
    let s := sOn.setFld F.DCL_STATUS_LINK_STATE 0 st
    s.power.core = true ∧ s.ringQueue = [] ∧ s.host.phase = .idle ∧ s.linkState = st ∧ s.minWidth = 1
      ∧ widthCode 4 = 1 ∧ widthCode 3 = 0
      ∧ (∀ n ∈ [2, 3], ({ s with host := { s.host with failedRetrains := List.replicate n 0 } } : State).recentFails.length = n) := by
  decide +kernel

theorem meets_CompanionLink_flits : ∀ n ∈ [0, 7, 8],
    let s : State := { sWin with host := { sWin.host with naks := n } }
    s.linkActive = true ∧ s.host.inOrder (some 0) = true ∧ s.host.inOrder (some 1) = false ∧ s.host.inOrder none = true
      ∧ s.host.queue = [] ∧ s.host.naks = n := by decide +kernel

/-- A writable line, one that is not, and one beyond the window; a window that is not usable; a busy update buffer. -/
theorem meets_WindowAccesses :
    sWin.linkActive = true ∧ (∀ l ∈ [0x400, 0x401, 0x4000000], sWin.snooping l = false) ∧ sWin.host.phase ≠ .entry
      ∧ sWin.windowStatus 0x400 = 0 ∧ sWin.writable 0x400 = true ∧ sWin.windowStatus 0x401 = 0 ∧ sWin.writable 0x401 = false
      ∧ sWin.windowStatus 0x3FFFFFF = 0 ∧ sWin.windowStatus 0x4000000 = 1
      ∧ (sWin.setFld F.MEM_STATUS_STATE 19 2).windowStatus 0 = 3
      ∧ sWin.host.filter.length < filterLines ∧ sWin.tracked 0x400 = false ∧ sWin.bufferStatus 1023 = 0 ∧ sWin.bufferStatus 1024 = 1
      ∧ ({ sWin with upd := { sWin.upd with ops := [.erase 0 4096] } } : State).bufferStatus 0 = 3 := by
  decide +kernel

/-- A snoop of a line that is recorded as modified, shared, or not at all. -/
theorem meets_WindowAccesses_snoops : ∀ fl ∈ [[], [(0x800, false)], [(0x800, true)]], ∀ inv ∈ [true, false],
    let x : Snoop := ⟨5, 0x800, inv, false⟩
    let s : State := { sWin with host := { sWin.host with snoops := [x], filter := fl } }
    s.linkActive = true ∧ s.snoop? 5 = some x ∧ s.host.waiting = [] ∧ s.ringQueue = []
      ∧ x.line ≠ windowLine commandRing.base ∧ s.host.phase = .idle ∧ s.owned x.line = (fl == [(0x800, true)]) := by
  decide +kernel

theorem meets_WindowAccesses_holdoff : ∀ d ∈ [[], [3]],
    let s : State := { sWin with host := { sWin.host with intrHold := [3, 4], intrDeferred := d } }
    s.host.intrHold = 3 :: [4] ∧ s.host.intrDeferred.contains 3 = (d == [3]) ∧ [4].contains 3 = false := by decide +kernel

/-! ## The command ring -/

/-- The entry of a command about job 9. -/
def cmd9 (op buf n flags : Nat) : List Byte :=
  leBytes 2 op ++ leBytes 2 0x93 ++ zeros 4 ++ leBytes 8 buf ++ leBytes 8 n ++ leBytes 4 1 ++ leBytes 1 0 ++ leBytes 1 flags
    ++ leBytes 1 3 ++ zeros 9 ++ leBytes 8 64 ++ zeros 80

/-- The command ring holds a command, at the rollover of its counts. -/
def sRing (op : Nat) : State :=
  (sWin.writeMem (commandRing.base + 64) (leBytes 4 8191)).writeMem (ringsBase + 0x20000 + 4095 * 128) (cmd9 op 0 0 0)

/-- A command of the ring, a restore of a live job while nothing is saved among them, and an empty ring. -/
theorem meets_CommandRingAndPlans_doorbell : ∀ op ∈ [6, 4],
    let s := sRing op
    let entry := s.readMem (ringsBase + 0x20000 + (8191 % 4096) * 128) 128
    s.power.core = true ∧ s.windowReady = true ∧ s.host.phase = .idle ∧ s.host.filter = [] ∧ s.host.snoops = []
      ∧ s.ringConsumer commandRing = 8191 ∧ s.ringProducer commandRing = 0 ∧ s.ringFull replyRing.ref (zeros 32) = false
      ∧ leAt entry 0 2 = op ∧ s.saveBusy = false ∧ s.job? (BitVec.ofNat 12 (leAt entry 2 2 / 16)) = some (job9 0 0)
      ∧ sWin.ringConsumer commandRing = sWin.ringProducer commandRing := by
  decide +kernel

/-- A command has been taken. -/
def sCmd (op buf n flags : Nat) : State :=
  { sWin with host := { sWin.host with phase := .taken, cmd := cmd9 op buf n flags } }

/-- The command ring is at rest beside it. -/
theorem quiet_sCmd : ∀ op ∈ [1, 2, 3, 4, 5, 6], (sCmd op 0x200000 32 0).ringQuiet := by
  unfold State.ringQuiet
  decide +kernel

/-- A buffer outside staging; a plan of no bytes while no plan key is known. A plan that passes rests on an opaque signature. -/
theorem meets_CommandRingAndPlans_load :
    let s := sCmd 1 0x200000 64 0
    (sCmd 1 0x1FFFFF 64 0).holds 1 = true ∧ (sCmd 1 0x1FFFFF 64 0).replyOwed = false ∧ (sCmd 1 0x1FFFFF 64 0).bufferOk = false
      ∧ s.holds 1 = true ∧ s.bufferOk = true ∧ s.workStops = false ∧ 4 ≤ s.image.ringsGib
      ∧ s.judgePlan (s.readMem s.bufferMa s.cmdBytes) = .refused 0 ⟨1, 0, 0, 0⟩ := by
  decide +kernel

/-- A load that owes its reply, with room for the quotas and without. -/
theorem meets_CommandRingAndPlans_deferred : ∀ q ∈ [0, 1],
    let j := { job9 0 0 with admitted := false }
    let l := { j.cur with quotas := [(5, q * 2 ^ 30, 0)] }
    let s : State := { sCmd 1 0x200000 64 0 with jobs := [{ j with cur := l }] }
    s.job? 9 = some { j with cur := l } ∧ j.admitted = false ∧ s.quotasCovered = (q == 0) := by decide +kernel

/-- The landing of the job, kept after it went or not, with the switch's own shard in slot 0 where `y` gives one. -/
def landOwn (kept : Bool) (y : Option Shard) : Landing :=
  { job := 9, base := 2 ^ 36, bytes := 4096, rate := 100, kept := kept, shards := y.toList, seals := [], reads := [] }

/-- The job with its rings high in the window, clear of the command ring. -/
def jFar : Job := { job9 0 0 with jrings := ⟨⟨2 ^ 36, 16, 32⟩, ⟨2 ^ 36 + 128, 16, 64⟩, ⟨2 ^ 36 + 256, 16, 32⟩⟩ }

/-- What it holds in memory is apart from those rings. -/
theorem apart_jFar (s : State) (k : Bool) (y : Option Shard) (h : s.landings = [landOwn k y]) (r : Bool) :
    s.apart { jFar with restoring := r } := by
  refine ⟨(by decide : ringsBase + 2 ^ 31 ≤ jFar.jrings.events.base),
    (by decide : ringsBase + 2 ^ 31 ≤ jFar.jrings.eventsAt.data), fun x hx => ?_, fun x hx => ?_⟩
  · exact absurd hx List.not_mem_nil
  · rw [h] at hx
    obtain rfl := List.mem_singleton.mp hx
    exact (by decide : ringsBase + 2 ^ 31 ≤ 2 ^ 36)

/-- Each opcode on a live job and on one that is not; a save that runs; a buffer that is not one. -/
theorem meets_HostCommands : ∀ op ∈ [2, 3, 4, 5],
    let s := sCmd op 0x200000 32 0
    s.ringQuiet ∧ s.holds op = true ∧ s.job? s.cmdJob = some (job9 0 0)
      ∧ s.saveBusy = false ∧ s.bufferOk = true ∧ (sCmd op 0 32 0).bufferOk = false ∧ s.keepsLanding s.cmdJob = false
      ∧ ({ s with jobs := [] } : State).job? s.cmdJob = none
      ∧ (s.setFlag F.SAVE_STATUS_SAVE_BUSY 0 true).saveBusy = true ∧ (job9 0 0).restoring = false := by
  intro op h
  refine ⟨quiet_sCmd op (by revert op; decide), ?_⟩
  revert op
  decide +kernel

/-- An UNLOAD of a job that has gone, whose landing was kept. -/
theorem meets_HostCommands_kept :
    let s : State := { sCmd 2 0x200000 32 0 with jobs := [], landings := [landOwn true none] }
    s.ringQuiet ∧ s.holds 2 = true ∧ s.job? s.cmdJob = none ∧ s.cmdKeep = false ∧ s.keepsLanding s.cmdJob = true :=
  ⟨by unfold State.ringQuiet; decide +kernel, by decide +kernel⟩

/-- An unload whose contexts and records are gone. -/
theorem meets_HostCommands_freed :
    let j := { job9 0 0 with unloading := some 1 }
    let s : State := { sWin with jobs := [j], host := { sWin.host with phase := .unloading } }
    s.job? 9 = some j ∧ j.unloading = some 1 ∧ s.power.fw = true ∧ s.host.phase = .unloading
      ∧ (s.ctxs.any fun x => x.2.job == 9) = false ∧ s.recordsWait j = false := by decide +kernel

/-- A restore without an image: its code is 1. -/
theorem meets_HostCommands_restore : ∀ r ∈ [true, false],
    let j := { jFar with restoring := r }
    let s : State := { sCmd 4 0x200000 32 0 with jobs := [j], landings := [landOwn false none] }
    s.apart j ∧ s.ringQuiet ∧ s.holds 4 = true ∧ s.job? s.cmdJob = some j ∧ s.saveBusy = false
      ∧ s.restoreCode j ((s.landing? 9).bind fun x => x.own? s.cmdSlot) s.cmdGen s.cmdStepNum s.cmdDataPos = 1 := by
  intro r h
  refine ⟨apart_jFar _ false none rfl r, ?_, ?_⟩ <;> revert r <;> (try unfold State.ringQuiet) <;> decide +kernel

/-- A part of an image. -/
theorem meets_HostCommands_part :
    let s : State := { sCmd 5 0x200000 32 0 with jobs := [jFar], landings := [landOwn false none] }
    (∃ t, s.imagePart jFar s.cmdSlot s.cmdImageOff s.cmdImageBytes (s.readMem s.bufferMa s.cmdBytes) = (0, t))
      ∧ s.apart jFar ∧ s.ringQuiet ∧ s.holds 5 = true ∧ s.job? s.cmdJob = some jFar ∧ s.bufferOk = true := by
  refine ⟨gives _ ?_, apart_jFar _ false none rfl false, ?_, ?_⟩ <;> (try unfold State.ringQuiet) <;> decide +kernel

/-- The job as loaded again from step 2, of one integer bucket, whose image holds little. -/
def jBack : Job :=
  { jFar with floor := 2, opened := false,
              cur := { lay 0 0 with plan := { plan 0 with firstStep := 2, buckets := [{ buk with fmt := .int8 }] } } }

/-! The image, laid out as R376 and R378 say, with its digests unevaluated. -/

/-- Its two sections: the keys of the job's bucket, and the steps. -/
def section1 : List Byte := jBack.cur.keys

/-- P and the pipeline depth; no bells. -/
def section2 : List Byte := leBytes 4 1 ++ leBytes 4 4 ++ zeros 8

/-- The entry of a section before its digest. -/
def rowOf (t off n : Nat) : List Byte := leBytes 2 t ++ zeros 6 ++ leBytes 8 off ++ leBytes 8 n ++ zeros 8

/-- The section table. -/
def tableBack : List Byte := rowOf 1 448 32 ++ sha3 section1 ++ (rowOf 2 512 16 ++ sha3 section2)

/-- The header up to SAVE_DIGEST: P is 1, two sections. -/
def headBack : List Byte :=
  [0x53, 0x48, 0x53, 0x56] ++ leBytes 2 1 ++ leBytes 2 0x93 ++ leBytes 4 1 ++ zeros 6 ++ leBytes 2 2 ++ zeros 4 ++ leBytes 8 528
    ++ zeros 128

/-- The image. -/
def imageBack : List Byte :=
  headBack ++ (sha3 (headBack ++ tableBack) ++ (zeros 32 ++ (tableBack ++ (section1 ++ (zeros 32 ++ section2)))))

/-- The shard that holds the image, under its digest. -/
def shardBack : Shard :=
  { Shard.fresh switchOwner 3 0 0 imageBack.length 1 0 with
    state := .sealed, digest := sha3 imageBack, data := imageBack.zipIdx.map fun x => (x.2, x.1) }

/-- Bytes listed one by one are read back. -/
theorem sget_zipIdx (bs : List Byte) : ∀ n i, n ≤ i → sget i ((bs.zipIdx n).map fun x => (x.2, x.1)) = bs[i - n]? := by
  induction bs with
  | nil => intro n i _; rfl
  | cons b t ih =>
    intro n i h
    rw [List.zipIdx_cons, List.map_cons, sget]
    by_cases e : n = i
    · simp [e]
    · rw [if_neg e, ih (n + 1) i (by omega), List.getElem?_cons, if_neg (by omega)]
      rfl

/-- So such a shard holds the bytes listed. -/
theorem content_zipIdx (y : Shard) (bs : List Byte) (hn : y.bytes = bs.length)
    (hd : y.data = bs.zipIdx.map fun x => (x.2, x.1)) : y.content = bs := by
  refine List.ext_getElem (by simp [Shard.content, hn]) fun i h1 h2 => ?_
  simp [Shard.content, hd, sget_zipIdx bs 0 i (Nat.zero_le i), h2]

/-- The shard holds the image. -/
theorem content_shardBack : shardBack.content = imageBack := content_zipIdx _ _ rfl rfl

/-- What stands between two parts of a list is a slice of it. -/
theorem slice_mid (a b c : List Byte) (off n : Nat) (ha : a.length = off) (hb : b.length = n) :
    sliceB (a ++ (b ++ c)) off n = b := by
  subst ha hb
  simp [sliceB]

/-- The lengths of the parts. -/
theorem lengths_imageBack : headBack.length = 160 ∧ section1.length = 32 ∧ section2.length = 16 ∧ (zeros 32).length = 32
    ∧ ∀ t off n, (rowOf t off n).length = 32 := by
  have h (n : Nat) : ∀ v, (leBytes n v).length = n := by
    induction n with
    | zero => intro v; rfl
    | succ n ih => intro v; simp [leBytes, ih]
  refine ⟨by decide +kernel, by decide +kernel, by decide +kernel, by decide, fun t off n => ?_⟩
  simp [rowOf, h, zeros]

theorem length_tableBack : tableBack.length = 192 := by
  simp [tableBack, sha3_length, lengths_imageBack.2.2.2.2]

/-- A number within the first part of a list. -/
theorem leAt_head (a b : List Byte) (off n : Nat) (h : off + n ≤ a.length) : leAt (a ++ b) off n = leAt a off n := by
  rw [leAt, leAt, sliceB, sliceB, List.drop_append_of_le_length (by omega), List.take_append_of_le_length (by simp; omega)]

/-- What the header says. -/
theorem head_imageBack : leAt imageBack 18 2 = 2 ∧ leAt imageBack 8 4 = 1 ∧ leAt imageBack 4 2 = 1 := by
  have h := lengths_imageBack.1
  rw [imageBack, leAt_head _ _ _ _ (by rw [h]; decide), leAt_head _ _ _ _ (by rw [h]; decide),
    leAt_head _ _ _ _ (by rw [h]; decide)]
  decide +kernel

/-- The sections as the table gives them. -/
theorem sections_imageBack : imageSections imageBack = [(1, section1, sha3 section1), (2, section2, sha3 section2)] := by
  obtain ⟨hh, h1, h2, hz, hr⟩ := lengths_imageBack
  have ht := length_tableBack
  have e1 : sliceB imageBack 256 96 = rowOf 1 448 32 ++ sha3 section1 := by
    have : imageBack = (headBack ++ sha3 (headBack ++ tableBack) ++ zeros 32)
        ++ ((rowOf 1 448 32 ++ sha3 section1) ++ (rowOf 2 512 16 ++ sha3 section2 ++ (section1 ++ (zeros 32 ++ section2)))) := by
      simp only [imageBack, tableBack, List.append_assoc]
    rw [this]
    exact slice_mid _ _ _ _ _ (by simp [hh, hz, sha3_length]) (by simp [hr, sha3_length])
  have e2 : sliceB imageBack 352 96 = rowOf 2 512 16 ++ sha3 section2 := by
    have : imageBack = (headBack ++ sha3 (headBack ++ tableBack) ++ zeros 32 ++ rowOf 1 448 32 ++ sha3 section1)
        ++ ((rowOf 2 512 16 ++ sha3 section2) ++ (section1 ++ (zeros 32 ++ section2))) := by
      simp only [imageBack, tableBack, List.append_assoc]
    rw [this]
    exact slice_mid _ _ _ _ _ (by simp [hh, hz, hr, sha3_length]) (by simp [hr, sha3_length])
  have s1 : sliceB imageBack 448 32 = section1 := by
    have : imageBack = (headBack ++ sha3 (headBack ++ tableBack) ++ zeros 32 ++ tableBack)
        ++ (section1 ++ (zeros 32 ++ section2)) := by
      simp only [imageBack, List.append_assoc]
    rw [this]
    exact slice_mid _ _ _ _ _ (by simp [hh, hz, ht, sha3_length]) h1
  have s2 : sliceB imageBack 512 16 = section2 := by
    have : imageBack = (headBack ++ sha3 (headBack ++ tableBack) ++ zeros 32 ++ tableBack ++ section1 ++ zeros 32)
        ++ (section2 ++ []) := by
      simp only [imageBack, List.append_assoc, List.append_nil]
    rw [this]
    exact slice_mid _ _ _ _ _ (by simp [hh, hz, ht, h1, sha3_length]) h2
  have d (t off n : Nat) (x : List Byte) : sliceB (rowOf t off n ++ sha3 x) 32 64 = sha3 x := by
    have := slice_mid (rowOf t off n) (sha3 x) [] 32 64 (hr t off n) (sha3_length x)
    rwa [List.append_nil] at this
  have f : ∀ x : List Byte, leAt (rowOf 1 448 32 ++ x) 0 2 = 1 ∧ leAt (rowOf 1 448 32 ++ x) 8 8 = 448
      ∧ leAt (rowOf 1 448 32 ++ x) 16 8 = 32 := fun x => by
    rw [leAt_head _ _ _ _ (by rw [hr]; decide), leAt_head _ _ _ _ (by rw [hr]; decide), leAt_head _ _ _ _ (by rw [hr]; decide)]
    decide +kernel
  have g : ∀ x : List Byte, leAt (rowOf 2 512 16 ++ x) 0 2 = 2 ∧ leAt (rowOf 2 512 16 ++ x) 8 8 = 512
      ∧ leAt (rowOf 2 512 16 ++ x) 16 8 = 16 := fun x => by
    rw [leAt_head _ _ _ _ (by rw [hr]; decide), leAt_head _ _ _ _ (by rw [hr]; decide), leAt_head _ _ _ _ (by rw [hr]; decide)]
    decide +kernel
  have hn := head_imageBack.1
  simp [imageSections, hn, List.range_succ, e1, e2, f, g, s1, s2, d]

/-- Its digests hold. -/
theorem digests_imageBack : imageDigests imageBack = true := by
  obtain ⟨hh, h1, h2, hz, hr⟩ := lengths_imageBack
  have ht := length_tableBack
  have p0 : sliceB imageBack 0 160 = headBack := by
    have := slice_mid [] headBack (sha3 (headBack ++ tableBack) ++ (zeros 32 ++ (tableBack ++ (section1 ++ (zeros 32 ++ section2)))))
      0 160 rfl hh
    rwa [List.nil_append, ← imageBack] at this
  have p1 : sliceB imageBack 160 64 = sha3 (headBack ++ tableBack) := by
    rw [imageBack]
    exact slice_mid headBack _ _ 160 64 hh (sha3_length _)
  have p2 : sliceB imageBack 256 192 = tableBack := by
    have : imageBack = (headBack ++ sha3 (headBack ++ tableBack) ++ zeros 32)
        ++ (tableBack ++ (section1 ++ (zeros 32 ++ section2))) := by
      simp only [imageBack, List.append_assoc]
    rw [this]
    exact slice_mid _ _ _ _ _ (by simp [hh, hz, sha3_length]) ht
  have own (x : List Byte) : sliceB (sha3 x) 0 64 = sha3 x := by
    have := slice_mid [] (sha3 x) [] 0 64 rfl (sha3_length x)
    rwa [List.append_nil, List.nil_append] at this
  have hn := head_imageBack.1
  simp [imageDigests, hn, p0, p1, p2, own, sections_imageBack]

/-- The rest of the checks, on the image. -/
theorem fields_imageBack : imageMagic imageBack = true ∧ leAt imageBack 8 4 = 1 ∧ sliceB imageBack 96 64 = zeros 64
    ∧ leAt (imageSection imageBack 2) 4 4 = jBack.depth ∧ imageSection imageBack 1 = jBack.cur.keys := by
  have h := lengths_imageBack.1
  have hm : sliceB imageBack 0 4 = [0x53, 0x48, 0x53, 0x56] := rfl
  have hp : sliceB imageBack 96 64 = zeros 64 := by
    have : imageBack = headBack.take 96 ++ (zeros 64 ++ (sha3 (headBack ++ tableBack) ++ (zeros 32 ++ (tableBack
        ++ (section1 ++ (zeros 32 ++ section2)))))) := by
      rw [← List.append_assoc (headBack.take 96), show headBack.take 96 ++ zeros 64 = headBack by decide +kernel, imageBack]
    rw [this]
    exact slice_mid _ _ _ _ _ (by simp [h]) (by decide)
  refine ⟨?_, head_imageBack.2.1, hp, ?_, ?_⟩
  · simp [imageMagic, hm, head_imageBack.2.2]
  · have : imageSection imageBack 2 = section2 := by simp [imageSection, sections_imageBack]
    rw [this]
    decide +kernel
  · simp [imageSection, sections_imageBack, section1]

/-- The switch with the job and the image, and a RESTORE that names it. -/
def sBack : State := { sCmd 4 0x200000 32 0 with jobs := [jBack], landings := [landOwn false (some shardBack)] }

/-- What the command names, and that nothing of the job is under way. -/
theorem fields_sBack : sBack.cmdGen = 3 ∧ sBack.cmdStepNum = 1 ∧ sBack.cmdDataPos = zeros 64 ∧ sBack.ctxs.isEmpty = true := by
  decide +kernel

/-- A restore from it finds nothing wrong. -/
theorem meets_RetriesAndRestoresComplete_restore :
    sBack.restoreCode jBack (some shardBack) sBack.cmdGen sBack.cmdStepNum sBack.cmdDataPos = 0
      ∧ ((sBack.landing? 9).bind fun x => x.own? sBack.cmdSlot) = some shardBack ∧ sBack.apart jBack ∧ sBack.ringQuiet
      ∧ sBack.holds 4 = true ∧ sBack.job? sBack.cmdJob = some jBack ∧ sBack.saveBusy = false := by
  refine ⟨?_, rfl, ⟨(apart_jFar sBack false _ rfl false).1, (apart_jFar sBack false _ rfl false).2⟩, ?_, ?_, ?_, ?_⟩
  · obtain ⟨h1, h2, h3, h4, h5⟩ := fields_imageBack
    obtain ⟨g1, g2, g3, g4⟩ := fields_sBack
    have e : shardBack.state = .sealed ∧ shardBack.gen = 3 ∧ shardBack.digest = sha3 imageBack := ⟨rfl, rfl, rfl⟩
    have k : jBack.cur.plan.firstStep = 2 ∧ jBack.opened = false ∧ jBack.floor = 2 := ⟨rfl, rfl, rfl⟩
    simp [State.restoreCode, content_shardBack, digests_imageBack, h1, h2, h3, h4, h5, g1, g2, g3, List.isEmpty_iff.mp g4, e, k]
  · unfold State.ringQuiet
    decide +kernel
  · decide +kernel
  · rfl
  · decide +kernel

/-- Ledger entries that are held, and a record that is not. -/
theorem meets_HostCommands_ledger :
    let s0 := sCmd 6 0x200000 4096 2
    let s : State := { s0 with jobs := [{ job9 0 0 with entryArrays := [⟨1, []⟩] }] }
    s.holds 6 = true ∧ s.ledgerData = some [] ∧ s.bufferOk = true ∧ ([] : List Byte).length ≤ s.cmdBytes
      ∧ (sCmd 6 0x200000 4096 0).ledgerData = none := by decide +kernel

/-! ## Updates, the SMBus, registers -/

/-- Each operation in bounds (slot A and its last sector), and one of no length. -/
theorem meets_UpdateOperations : ∀ op ∈ [1, 2, 3], ∀ off ∈ [0x100000, 0xCFF000],
    let s := sOn.setFld F.UPD_OFFSET_FLASH_OFFSET 0 off
    s.power.core = true ∧ (s.updAsked op 4096).isSome = true ∧ s.updAsked op 0 = none ∧ (s.updAsked 3 65536).isSome = true
      ∧ s.updAsked op 65537 = none := by decide +kernel

theorem meets_UpdateOperations_done : ∀ o ∈ [SpiOp.erase 0x100000 4096, .program 0x100000 8, .read 0 8],
    let s : State := { sOn with upd := { sOn.upd with ops := [o] } }
    s.power.core = true ∧ s.upd.ops = o :: [] ∧ (s.flashAt 0x100000 8).all (· == flashErased) = true := by decide +kernel

/-- With and without PEC_REQ; an address of the keep, of a fabric die, of none. -/
theorem meets_SmbusTransactions :
    sOn.power.change = none ∧ sOn.pwr < 2 ∧ sOn.pecGood ⟨false, false⟩ = true
      ∧ (sOn.setFlag F.SMB_CONFIG_PEC_REQ 0 true).pecGood ⟨true, false⟩ = false
      ∧ (sOn.setFlag F.SMB_CONFIG_PEC_REQ 0 true).pecGood ⟨true, true⟩ = true
      ∧ inKeep 0x00FFFFFF = false ∧ inKeep 0x01010000 = false ∧ inKeep (regAddr .SMB_CONFIG 0) = true
      ∧ sOn.accessAt (regAddr .SMB_CONFIG 0) = .normal (.reg .SMB_CONFIG 0) ∧ sOn.accessAt 2 = .err .unaligned
      ∧ sOn.accessAt 0x00FFFFFC = .err .unmapped ∧ sOn.smb.fetching = false
      ∧ (let s : State := { sOn with smb := ⟨0x00FFFFFC, 0, true⟩ }
         s.smb.fetching = true ∧ s.accessAt s.smb.addr.toNat = .err .unmapped ∧ inKeep (s.smb.addr + 4).toNat = true)
      ∧ (let s : State := { sOn with smb := ⟨0, 0, true⟩ }
         s.smb.fetching = true ∧ s.accessAt s.smb.addr.toNat = .normal (.reg .DEVICE_ID 0)
           ∧ inKeep (s.smb.addr + 4).toNat = false) := by
  decide +kernel

/-- Every master reaches the map; the three errors, a gated block, and a register of RW fields alone. -/
theorem meets_RegisterAccesses :
    let s := sWin.setFlag F.CLOCK_GATE_CD_INSTR_EN 0 true
    let off : State := { s with power := { s.power with dies := [], dozing := [3] } }
    let doze : State := { s with power := { s.power with dozing := [3] } }
    (∀ m ∈ [Master.dcl, .core, .smbus, .jtag], s.reaches m = true ∧ off.reaches m = true)
      ∧ s.accessAt 1 = .err .unaligned ∧ s.accessAt 0x00FFFFFC = .err .unmapped
      ∧ off.accessAt (regAddr .SCRUB_CONTROL 19) = .err .notReady ∧ doze.accessAt (regAddr .SCRUB_CONTROL 19) = .gated
      ∧ s.accessAt (regAddr .SCRUB_CONTROL 19) = .normal (.reg .SCRUB_CONTROL 19) ∧ s.blockUsed .SCRUB_CONTROL 19 = true := by
  decide +kernel

/-- Registers of RW fields alone, one of them the same on every die; a TAP that no instrument network answers. -/
theorem meets_RegisterAccesses_plain :
    (∀ n ∈ [RegName.SCRUB_CONTROL, .ROUTE_CONTROL], (regRow n).mask .w1c = 0 ∧ (regRow n).mask .wo = 0
        ∧ (regRow n).mask .rws = 0 ∧ n ∉ [.FORCE, .FORCE_SOURCE, .REACTION, .ISLAND_CLOCK, .CLOCK_GATE_CD, .LANE_PRBS,
          .PORT_LINK_CONTROL, .HOST_INT_ENABLE, .TIME_CONTROL])
      ∧ sWin.accessAt (regAddr .ROUTE_CONTROL 1) = .normal (.reg .ROUTE_CONTROL 1) ∧ sWin.blockUsed .ROUTE_CONTROL 1 = true
      ∧ onEveryDie .ROUTE_CONTROL = true ∧ sWin.tapPowered = true ∧ sWin.power.core = true
      ∧ (sWin.setFlag F.CLOCK_GATE_CD_INSTR_EN 0 false).reaches .jtag = false := by
  decide +kernel

/-- The errors with the control die off, where the SMBus still reaches the map. -/
theorem meets_BusErrorsAreRecorded :
    State.reset.reaches .smbus = true ∧ State.reset.power.core = false ∧ State.reset.accessAt 1 = .err .unaligned
      ∧ State.reset.accessAt 0x00FFFFFC = .err .unmapped ∧ State.reset.accessAt 0 = .err .notReady := by decide +kernel

/-! ## Every state -/

theorem meets_StepKeepsInvariant : sWin.ok = true ∧ State.reset.ok = true := by decide +kernel

theorem meets_MemoryReadsWhatWasWritten : Memory.wf sWin.mem = true := by decide +kernel

/-! ## Ill-formed commands: one for each check of WellFormed -/

theorem test_wf_port : (Instr.egressSelect 256).wf = false ∧ (Instr.egressSelect 255).wf = true := by decide
theorem test_wf_die : (Instr.restoreCounts 4).wf = false ∧ (Instr.restoreCounts 3).wf = true := by decide
theorem test_wf_lane : (Instr.prbsEnableWrite 1024 0).wf = false ∧ (Instr.prbsEnableWrite 1023 0).wf = true := by decide
theorem test_wf_island : (Instr.pllLockLost 57).wf = false ∧ (Instr.pllLockLost 56).wf = true := by decide
theorem test_wf_stack : (Instr.stackTrainingDone 20 true).wf = false ∧ (Instr.stackTrainingDone 19 true).wf = true := by decide
theorem test_wf_mill : (Instr.compactionDone 128).wf = false ∧ (Instr.compactionDone 127).wf = true := by decide
theorem test_wf_localPort : (Instr.gateArm 3 64).wf = false ∧ (Instr.gateArm 3 63).wf = true := by decide
theorem test_wf_shaper : (Instr.shaperRelease 3 4096).wf = false ∧ (Instr.shaperRelease 3 4095).wf = true := by decide
theorem test_wf_block : (Instr.blockGated 5).wf = false ∧ (Instr.blockGated 4).wf = true := by decide
theorem test_wf_slot : (Instr.sealHashDone 9 0 3 4).wf = false ∧ (Instr.sealHashDone 9 0 3 3).wf = true := by decide
theorem test_wf_rank : (Instr.sealHashDone 9 262144 3 0).wf = false ∧ (Instr.sealHashDone 9 262143 3 0).wf = true := by decide
theorem test_wf_channel : (Instr.scrubLine 0 32 0 [] []).wf = false ∧ (Instr.scrubLine 0 31 0 [] []).wf = true := by decide
theorem test_wf_stackGroup :
    (Instr.wakeUnitRelease (.stackGroup 5)).wf = false ∧ (Instr.wakeUnitRelease (.stackGroup 4)).wf = true := by decide
theorem test_wf_laneGroup :
    (Instr.wakeUnitRelease (.laneGroup 8)).wf = false ∧ (Instr.wakeUnitRelease (.laneGroup 7)).wf = true := by decide

/-- A line beyond memory, and an address within a line. -/
theorem test_wf_memory : ∀ ma ∈ [1932735283200, 32],
    (Place.memory ma).ok = false ∧ (Place.memory 1932735283136).ok = true := by decide

/-- A third wrong symbol, a symbol beyond the word, one named twice. -/
theorem test_wf_word : ∀ e ∈ [[(0, 1), (1, 1), (2, 1)], [(35, 1)], [(4, 1), (4, 2)]],
    (Instr.refcountSweepDone 0 e).wf = false ∧ (Instr.refcountSweepDone 0 [(34, 1), (0, 0xFF)]).wf = true := by decide

/-- A lane and a symbol beyond the last ones. -/
theorem test_wf_laneWord : ∀ x ∈ [(⟨8, []⟩ : LaneWord), ⟨0, [(544, 1)]⟩],
    (Instr.frameTailVerdict 0 ⟨false, 0, [x]⟩ ⟨[], []⟩).wf = false
      ∧ (Instr.frameTailVerdict 0 ⟨false, 0, [⟨7, [(543, 1)]⟩]⟩ ⟨[], []⟩).wf = true := by decide

/-- A payload longer than PAYLOAD_LEN. -/
theorem test_wf_frame :
    (Instr.ackFrame 0 ⟨zeroHdr, .none, [7], zeroTrailer⟩).wf = false
      ∧ (Instr.ackFrame 0 ⟨zeroHdr, .none, [], zeroTrailer⟩).wf = true := by decide

/-! ## The manual's worked examples and published check values -/

/-- The contribution header of the example after R55 of 02_fabric_frames.md: job 679, rank 5 at coordinate 0x008885. -/
def hEx : BaseHdr :=
  { zeroHdr with version := 2, ftype := 2, vc := 4, epoch := true, payloadLen := 4096, dest := 0x3FFFFF, src := 0x8885,
                 jobId := 0x2A7, layoutGen := 3, seq := 0x1F3A0, msgId := 0x411, msgLen := 8192 }

theorem test_header_bytes : (baseBytes hEx).take 30 =
    [0x22, 0x90, 0x10, 0x00, 0x3F, 0xFF, 0xFF, 0x00, 0x88, 0x85, 0x2A, 0x73, 0x00, 0x01, 0xF3, 0xA0, 0, 0, 0, 0, 0, 0, 0, 0,
     0x04, 0x11, 0x00, 0x00, 0x20, 0x00] := by decide +kernel

theorem test_extension_bytes :
    redBytes { zeroRed with step := 1200, chunkId := 0x12345, frameIdx := 1, frameCnt := 1, memberRank := 5, format := 7,
                            anchor := 3, maxExp := 2, chunkElems := 4096, elemOffset := 2048,
                            sumCheck := 0x0ABCDEF012345678 } =
    [0x00, 0x00, 0x04, 0xB0, 0x04, 0x8D, 0x14, 0x44, 0x00, 0x01, 0x4E, 0x00, 0x00, 0x03, 0x00, 0x02, 0x80, 0x04, 0x00, 0x00,
     0, 0, 0, 0, 0x0A, 0xBC, 0xDE, 0xF0, 0x12, 0x34, 0x56, 0x78] := by decide +kernel

theorem test_coordinate : coord 2 17 5 = 0x8885 ∧ podOf 0x8885 = 2 ∧ leafOf 0x8885 = 17 ∧ portOf 0x8885 = 5 := by decide

/-- The published check values of CRC-16/CCITT-FALSE and CRC-64/WE, whose parameters R34 and R51 state. -/
theorem test_crc : hdrCheck (ascii "123456789") = 0x29B1 ∧ crc64 (ascii "123456789") = 0x62EC59E3F1A4F00A := by decide +kernel

/-- The published SHA3-512 digest of no bytes. -/
theorem test_sha3 : (sha3 []).take 8 = [0xA6, 0x9F, 0x73, 0xCC, 0xA2, 0x3A, 0x9A, 0xC5] := by decide +kernel

/-- The first example of 03_reduction_arithmetic.md: four BF16 elements, their sum, and the average. -/
theorem test_bf16_average :
    let vs := [0x3FC0, 0xC030, 0x3EA0, 0x9780].map fun n => elemWindow 3 77 (decodeScalar .bf16 n)
    vs = [3 * 2 ^ 73, -11 * 2 ^ 72, 5 * 2 ^ 70, -1] ∧ vs.sum = -15 * 2 ^ 70 - 1
      ∧ piecesOf 1 vs.sum = [0xFFFFFC3FFFFFFFFFFFFFFFFF#96]
      ∧ scaleOf 1 4 0 0 = (2 ^ 63, 65) ∧ scaleValue vs.sum (2 ^ 63) 65 = -15 * 2 ^ 68 - 1
      ∧ encodeScalar .bf16 false false 0 3 77 (-15 * 2 ^ 68 - 1) = (0xBE70, false) := by decide +kernel

/-- The second: an MXFP8 block, its subnormal element, its MAX_EXP. -/
theorem test_mx_block :
    let es := (decodeBlock .mx8e4m3 ([0x7C, 0x44, 0xB9, 0x01] ++ zeros 29)).take 3
    es.map (elemWindow (-1) 77) = [3 * 2 ^ 75, -9 * 2 ^ 72, 2 ^ 66] ∧ maxExpOf es = -2
      ∧ es.map (fun e => (flushIn true e).2) = [false, false, true] := by decide +kernel

/-- The third: the pieces after the fold of rank 1, and the sum's encoding. -/
theorem test_fp32_pieces :
    let vs := [0x24800000, 0x24800000, 0xC9800000, 0x00000001].map fun n => elemWindow 24 173 (decodeScalar .fp32 n)
    addPieces (piecesOf 2 (2 ^ 95)) (piecesOf 2 (2 ^ 95)) false = [0, 1] ∧ vs.sum = -2 ^ 169 + 2 ^ 96 + 1
      ∧ piecesOf 2 vs.sum = [1, 0xFFFFFE000000000000000001#96]
      ∧ encodeScalar .fp32 false false 0 24 173 vs.sum = (0xC9800000, false) := by decide +kernel

/-- The fourth: FP64 in three pieces. -/
theorem test_fp64_pieces :
    let vs := [0x4098000000000000, 0xB9B0000000000000, 0x3050000000000000].map fun n => elemWindow 11 269 (decodeScalar .fp64 n)
    vs = [3 * 2 ^ 267, -2 ^ 158, 2 ^ 8]
      ∧ piecesOf 3 vs.sum = [0x100, 0xFFFFFFFFC000000000000000#96, 0x000017FFFFFFFFFFFFFFFFFF#96]
      ∧ encodeScalar .fp64 false false 0 11 269 vs.sum = (0x4098000000000000, false) := by decide +kernel

/-- Owners of a reduce-scatter of 10 chunks over 4 members (after R195). -/
theorem test_owners : (List.range 10).map (ownerOf 10 4) = [0, 0, 0, 1, 1, 1, 2, 2, 3, 3] := by decide

/-- The refuser word of the example of 20_power_states.md. -/
theorem test_refuser : (Vote.word ⟨srcCode 2 0x11 77, 2⟩ 2) = 0x2802444D := by decide

/-- Addresses and answers of the example of 23_register_map.md. -/
theorem test_addresses :
    regAddr .GATE_CONTROL 137 = 0x18002090 ∧ regAddr .MILL_OCCUPANCY 77 = 0x190D0810 ∧ regAddr .PORT_LINK 160 = 0x20504018
      ∧ sOn.accessAt 0x18002090 = .normal (.reg .GATE_CONTROL 137)
      ∧ (sOn.setReg .MILL_ENABLE 2 0xFFFFDFFF).accessAt 0x190D0810 = .gated
      ∧ sOn.accessAt 0x190D0812 = .err .unaligned ∧ sOn.accessAt 0x18000F04 = .err .unmapped := by
  refine ⟨?_, ?_, ?_, ?_, ?_, ?_, ?_⟩ <;> decide +kernel

/-- The gate list of the example after R332 is accepted at 800 Gb/s. -/
theorem test_gate_list : gateOk [(2000, 0x30), (500, 0xCF)] 800 = true := by decide +kernel

/-- After reset every store is in its canonical form. -/
theorem test_reset_stores : State.reset.storesOk = true := by decide

/-- RS(35,32) corrects one symbol and detects two (R26 of 01_architecture.md). -/
theorem test_word_code : (∃ bs, wordRead [(34, 0x80)] = .corrected bs) ∧ wordRead [(0, 1), (34, 1)] = .uncorrectable :=
  ⟨⟨zeros 35, by decide +kernel⟩, by decide +kernel⟩

/-- Flit byte k travels on lane k mod W (R524 of 22_companion_link.md). -/
theorem test_lane_bytes : laneBytes 4 1 [0, 1, 2, 3, 4, 5, 6, 7] = [1, 5] ∧ laneBytes 8 5 [0, 1, 2, 3, 4, 5, 6, 7] = [5] := by
  decide
end Sys2Proof.Tests
end

/-! PROOFS. Clearing fault bits, forcing a fault and writing a reaction (spec/18_watchtower.md R453, R455, R456): what a W1C
clear leaves of a register, what a raised fault leaves at its source and in KIND_PENDING, what a write of FORCE does. -/
namespace Sys2Proof.Machine

open Sys2Proof

/-! ## Bits and words of registers -/

/-- Taking away bits that a number has clears them and no others: nothing is borrowed. -/
theorem testBit_sub_and (b : Nat) : ∀ m x : Nat, (x - (m &&& x)).testBit b = (x.testBit b && !m.testBit b) := by
  induction b with
  | zero =>
    intro m x
    have low : (m &&& x) % 2 = 1 ↔ m % 2 = 1 ∧ x % 2 = 1 := Nat.and_mod_two_eq_one
    have le : m &&& x ≤ x := Nat.and_le_right
    rw [Bool.eq_iff_iff]
    simp only [Bool.and_eq_true, Bool.not_eq_true', ← Nat.mod_two_eq_one_iff_testBit_zero,
      ← Nat.mod_two_eq_zero_iff_testBit_zero]
    omega
  | succ b ih =>
    intro m x
    have half : (x - (m &&& x)) / 2 = x / 2 - (m / 2 &&& x / 2) := by
      have up : (m &&& x) / 2 = m / 2 &&& x / 2 := Nat.and_div_two
      have low : (m &&& x) % 2 = 1 ↔ m % 2 = 1 ∧ x % 2 = 1 := Nat.and_mod_two_eq_one
      have le : m &&& x ≤ x := Nat.and_le_right
      omega
    simp only [Nat.testBit_succ, half, ih]

/-- A field of 32 bits is the whole word. -/
theorem bitsOf_word (r : Nat) (h : r < 2 ^ 32) : bitsOf r 31 0 = r := by
  unfold bitsOf
  omega

theorem setBitsOf_word (r v : Nat) (hr : r < 2 ^ 32) (hv : v < 2 ^ 32) : setBitsOf r 31 0 v = v := by
  rw [setBitsOf, bitsOf_word r hr]
  omega

/-- A write of a register changes no other word. -/
theorem setReg_onlyRegs (s : State) (n : RegName) (i v : Nat) : onlyRegs [(n, i)] s (s.setReg n i v) := fun _ h =>
  sget_sset_ne _ _ _ _ _ (h (n, i) (List.mem_singleton.mpr rfl))

theorem mapWt_parts (s : State) (g : WtSt → WtSt) : onlyParts [.wt] s (s.mapWt g) := fun p hp => by
  cases p
  case wt => exact absurd (by decide) hp
  all_goals rfl

/-! ## Messages at their sources (R442, R446) -/

/-- Die, block and unit lie side by side in a source code: none spills over. -/
theorem source_toNat (m : FaultMsg) : m.source.toNat = m.die.toNat * 2 ^ 16 + m.block.toNat * 2 ^ 10 + m.inst.toNat := by
  have hd := m.die.isLt
  have hb := m.block.isLt
  have hi := m.inst.isLt
  unfold FaultMsg.source
  rw [BitVec.toNat_ofNat]
  omega

theorem die_block_of_source {a b : FaultMsg} (h : a.source = b.source) :
    a.die.toNat = b.die.toNat ∧ a.block.toNat = b.block.toNat := by
  have e := congrArg BitVec.toNat h
  rw [source_toNat, source_toNat] at e
  have := a.block.isLt
  have := a.inst.isLt
  have := b.block.isLt
  have := b.inst.isLt
  omega

/-- What a source holds stays held, perhaps with one more repeat, when another message is handed over. -/
theorem holdMsg_keeps (m x : FaultMsg) : ∀ l : List FaultMsg, x ∈ l →
    ∃ y ∈ holdMsg m l, y.source = x.source ∧ y.kind = x.kind
  | h :: t, hx => by
    unfold holdMsg
    rcases List.mem_cons.mp hx with rfl | ht
    · split
      · split
        · exact ⟨x.again, List.mem_cons_self, rfl, rfl⟩
        · exact ⟨x, by simp, rfl, rfl⟩
      · exact ⟨x, List.mem_cons_self, rfl, rfl⟩
    · split
      · exact ⟨x, by split <;> simp [ht], rfl, rfl⟩
      · obtain ⟨y, hy, e⟩ := holdMsg_keeps m x t ht
        exact ⟨y, List.mem_cons_of_mem _ hy, e⟩

/-- A message whose source holds none goes behind those of other sources. -/
theorem holdMsg_of_free (m : FaultMsg) : ∀ l : List FaultMsg, (∀ x ∈ l, x.source ≠ m.source) →
    holdMsg m l = l ++ [m]
  | [], _ => rfl
  | h :: t, free => by
    have other : (h.source == m.source) = false := beq_eq_false_iff_ne.mpr (free h List.mem_cons_self)
    rw [holdMsg, other, holdMsg_of_free m t fun x hx => free x (List.mem_cons_of_mem _ hx)]
    rfl

/-! ## KIND_PENDING -/

theorem regAddr_kindPending (h : Nat) : regAddr .KIND_PENDING h = 0x200080 + h * 4 := by
  simp [regAddr, regRow, row_KIND_PENDING, Nat.mod_one]

theorem regAddr_reaction (k : Nat) : regAddr .REACTION k = 0x200400 + k * 4 := by
  simp [regAddr, regRow, row_REACTION, Nat.mod_one]

/-- Every bit of KIND_PENDING is a W1C bit. -/
theorem w1cMask_kindPending_bit (b : Nat) (h : b < 32) : bitOf (w1cMask .KIND_PENDING) b = true := by
  have e : w1cMask .KIND_PENDING = 2 ^ 32 - 1 := by decide
  rw [e, bitOf, Nat.testBit_two_pow_sub_one, decide_eq_true h]

/-- The bit of a kind seen rises in its word, and no other bit of the word changes. -/
theorem kindSeen_reg (s : State) (k : Nat) :
    (s.kindSeen k).reg .KIND_PENDING (k / 32) = s.reg .KIND_PENDING (k / 32) ||| 2 ^ (k % 32) := by
  have fits : s.reg .KIND_PENDING (k / 32) ||| 2 ^ (k % 32) < 2 ^ 32 :=
    Nat.or_lt_two_pow (s.reg_lt _ _) (Nat.pow_lt_pow_right (by omega) (Nat.mod_lt _ (by omega)))
  simp only [State.kindSeen, State.setFld, State.fld, F.KIND_PENDING_PENDING]
  rw [bitsOf_word _ (s.reg_lt _ _), setBitsOf_word _ _ (s.reg_lt _ _) fits, reg_setReg _ _ _ _ fits]

/-- A bit of KIND_PENDING that is 1 stays 1 when a message is raised. -/
theorem raiseMsg_keeps_pending (s : State) (m : FaultMsg) (i b : Nat) (h : bitOf (s.reg .KIND_PENDING i) b = true) :
    bitOf ((s.raiseMsg m).reg .KIND_PENDING i) b = true := by
  show bitOf ((s.kindSeen m.kind.toNat).reg .KIND_PENDING i) b = true
  by_cases e : m.kind.toNat / 32 = i
  · subst e
    rw [kindSeen_reg]
    unfold bitOf at h ⊢
    rw [Nat.testBit_or, h, Bool.true_or]
  · have apart : regAddr .KIND_PENDING (m.kind.toNat / 32) ≠ regAddr .KIND_PENDING i := by
      rw [regAddr_kindPending, regAddr_kindPending]
      omega
    exact (congrArg (bitOf · b) (reg_setReg_ne s _ _ _ _ _ apart)).trans h

/-- Raising a message changes no field outside its kind's word of KIND_PENDING. -/
theorem raiseMsg_fld (s : State) (m : FaultMsg) (f : Fld) (i : Nat)
    (h : regAddr .KIND_PENDING (m.kind.toNat / 32) ≠ regAddr f.reg i) : (s.raiseMsg m).fld f i = s.fld f i :=
  fld_setFld_ne s F.KIND_PENDING_PENDING f _ i _ h

/-- A kind has been raised by a source: a message of it is held there, and its bit in KIND_PENDING is 1. -/
structure State.Raised (s : State) (src : BitVec 19) (kind : BitVec 8) : Prop where
  held : ∃ x ∈ s.wt.held, x.source = src ∧ x.kind = kind
  pending : bitOf (s.reg .KIND_PENDING (kind.toNat / 32)) (kind.toNat % 32) = true

theorem raiseMsg_raised (s : State) (m : FaultMsg) : (s.raiseMsg m).Raised m.source m.kind where
  held := by
    obtain ⟨x, hx, rfl | e⟩ := raiseMsg_held s m
    · exact ⟨x, hx, rfl, rfl⟩
    · exact ⟨x, hx, e⟩
  pending := by
    show bitOf ((s.kindSeen m.kind.toNat).reg .KIND_PENDING (m.kind.toNat / 32)) (m.kind.toNat % 32) = true
    rw [kindSeen_reg]
    unfold bitOf
    rw [Nat.testBit_or, Nat.testBit_two_pow_self, Bool.or_true]

/-- What has been raised stays raised when another message is. -/
theorem State.Raised.raiseMsg {s : State} {src : BitVec 19} {kind : BitVec 8} (h : s.Raised src kind) (m : FaultMsg) :
    (s.raiseMsg m).Raised src kind where
  held := by
    obtain ⟨x, hx, rfl, rfl⟩ := h.held
    exact holdMsg_keeps m x s.wt.held hx
  pending := raiseMsg_keeps_pending s m _ _ h.pending

theorem State.Raised.reports {t : State} {m : FaultMsg} (h : t.Raised m.source m.kind) :
    t.reports m.die.toNat m.block.toNat m.kind.toNat := by
  obtain ⟨x, hx, src, kind⟩ := h.held
  obtain ⟨die, block⟩ := die_block_of_source src
  exact ⟨x, hx, die, block, congrArg _ kind⟩

/-! ## Causes that persist (R455) -/

/-- Every message of a list is raised by the end of a run that raises them in turn, each with no repeats yet. -/
theorem foldl_raiseMsg_raised (m : FaultMsg) : ∀ (l : List FaultMsg) (s : State), m ∈ l ∨ s.Raised m.source m.kind →
    (l.foldl (fun s m => s.raiseMsg { m with localRepeats := 0 }) s).Raised m.source m.kind
  | [], _, h => h.resolve_left List.not_mem_nil
  | x :: l, s, h => by
    refine foldl_raiseMsg_raised m l _ ?_
    rcases h with h | h
    · rcases List.mem_cons.mp h with rfl | h
      · exact .inr (raiseMsg_raised s { m with localRepeats := 0 })
      · exact .inl h
    · exact .inr (h.raiseMsg _)

/-- A source whose condition's cause persists raises it again. -/
theorem reRaise_raised (s : State) (q : FaultMsg → Bool) (m : FaultMsg) (h : m ∈ s.wt.causes) (hq : q m = true) :
    (s.reRaise q).Raised m.source m.kind :=
  foldl_raiseMsg_raised m _ s (.inl (List.mem_filter.mpr ⟨List.mem_append_left _ h, hq⟩))

theorem reRaise_of_none (s : State) (q : FaultMsg → Bool) (h : ∀ m ∈ s.wt.causes ++ s.wt.forcedHold, q m = false) :
    s.reRaise q = s := by
  unfold State.reRaise
  rw [List.filter_eq_nil_iff.mpr fun m hm => by simp [h m hm]]
  rfl

theorem reRaise_parts (s : State) (q : FaultMsg → Bool) : onlyParts [.regs, .wt] s (s.reRaise q) :=
  onlyParts_foldl _ (fun s _ => raiseMsg_parts s _) _ s

/-! ## A W1C clear (R455) -/

/-- The register without the W1C bits written as 1, before any of them sets again. -/
def State.dropW1c (s : State) (n : RegName) (i v : Nat) : State :=
  s.setReg n i (s.reg n i - (v &&& w1cMask n &&& s.reg n i))

/-- Exactly the W1C bits written as 1 clear. -/
theorem dropW1c_bit (s : State) (n : RegName) (i v b : Nat) :
    bitOf ((s.dropW1c n i v).reg n i) b = (bitOf (s.reg n i) b && !(bitOf v b && bitOf (w1cMask n) b)) := by
  have fits : s.reg n i - (v &&& w1cMask n &&& s.reg n i) < 2 ^ 32 := Nat.lt_of_le_of_lt (Nat.sub_le _ _) (s.reg_lt n i)
  unfold State.dropW1c bitOf
  rw [reg_setReg _ _ _ _ fits, testBit_sub_and, Nat.testBit_and]

/-- The registers some of whose W1C bits may have a cause that persists. -/
def causeRegs : List RegName :=
  [.WT_STATUS, .HOST_INT_STATUS, .BRIDGE_STATUS, .CLOCK_STATUS, .REPEAT_STATUS, .KIND_PENDING]

/-- Where no bit has a cause that persists, nothing sets again. -/
theorem clearW1c_plain (s : State) (n : RegName) (i v : Nat) (h : n ∉ causeRegs) : s.clearW1c n i v = s.dropW1c n i v := by
  unfold State.clearW1c
  dsimp only
  split
  case h_7 => rfl
  all_goals exact absurd (by decide) h

theorem clearW1c_kindPending (s : State) (i v : Nat) : s.clearW1c .KIND_PENDING i v =
    (s.dropW1c .KIND_PENDING i v).kindsAgain i (v &&& w1cMask .KIND_PENDING &&& s.reg .KIND_PENDING i) := rfl

theorem clearW1c_kindPending_of_none (s : State) (i v : Nat)
    (h : ∀ m ∈ s.wt.causes ++ s.wt.forcedHold, m.kind.toNat / 32 ≠ i) :
    s.clearW1c .KIND_PENDING i v = s.dropW1c .KIND_PENDING i v := by
  rw [clearW1c_kindPending]
  exact reRaise_of_none _ _ fun m hm => by simp [h m hm]

theorem clearW1c_kindPending_parts (s : State) (i v : Nat) : onlyParts [.regs, .wt] s (s.clearW1c .KIND_PENDING i v) :=
  onlyParts_trans (onlyParts_mono (setReg_parts s _ _ _) (by decide)) (reRaise_parts _ _)

/-- A kind whose cause persists, and whose bit was cleared, is raised again. -/
theorem clearW1c_kindPending_raised (s : State) (v : Nat) (m : FaultMsg) (hm : m ∈ s.wt.causes)
    (pending : bitOf (s.reg .KIND_PENDING (m.kind.toNat / 32)) (m.kind.toNat % 32) = true)
    (written : bitOf v (m.kind.toNat % 32) = true) :
    (s.clearW1c .KIND_PENDING (m.kind.toNat / 32) v).Raised m.source m.kind := by
  refine reRaise_raised _ _ m hm ?_
  have w1c := w1cMask_kindPending_bit (m.kind.toNat % 32) (Nat.mod_lt _ (by omega))
  unfold bitOf at *
  simp [Nat.testBit_and, pending, written, w1c]

theorem exec_faultBitClear (s : State) (addr mask : Word) (n : RegName) (i : Nat) (h : regAt addr.toNat = some (n, i)) :
    exec (.faultBitClear addr mask) s = .next (s.clearW1c n i mask.toNat) := by
  show execFaultBitClear addr mask s = _
  unfold execFaultBitClear
  rw [h]

/-! ## Reserved writes (R10) -/

theorem reservedWrite_reports (s : State) (addr data : Nat) : (s.reservedWrite addr data).reports 4 0x09 0x04 :=
  (raiseMsg_raised s (faultMsg dieCD blkBus 0 0x04 addr data)).reports

theorem reservedWrite_fld (s : State) (addr data : Nat) (f : Fld) (i : Nat)
    (h : regAddr .KIND_PENDING 0 ≠ regAddr f.reg i) : (s.reservedWrite addr data).fld f i = s.fld f i :=
  raiseMsg_fld s (faultMsg dieCD blkBus 0 0x04 addr data) f i <| by
    show regAddr .KIND_PENDING ((0x04 : BitVec 8).toNat / 32) ≠ regAddr f.reg i
    exact h

/-! ## A write of FORCE (R456) -/

/-- The RW bits that a write of FORCE stores: a reserved KIND stays as it was. -/
def State.forceWord (s : State) (v : Nat) : Nat :=
  let word := v &&& (regRow .FORCE).mask .rw
  if (kindRow (bitsOf v 7 0)).isSome then word else setBitsOf word 7 0 (s.fld F.FORCE_KIND 0)

/-- The state once FORCE is stored and, without HOLD, the forced causes have ended. -/
def State.forceStored (s : State) (v : Nat) : State :=
  let s := s.setReg .FORCE 0 (s.forceWord v)
  if bitOf v 30 then s else s.mapWt fun w => { w with forcedHold := [] }

theorem forceStored_fld (s : State) (v : Nat) (f : Fld) (i : Nat) :
    (s.forceStored v).fld f i = (s.setReg .FORCE 0 (s.forceWord v)).fld f i := by
  unfold State.forceStored
  dsimp only
  split <;> rfl

theorem forceStored_wt (s : State) (v : Nat) :
    (s.forceStored v).wt = { s.wt with forcedHold := if bitOf v 30 then s.wt.forcedHold else [] } := by
  unfold State.forceStored
  dsimp only
  split <;> rfl

theorem forceStored_parts (s : State) (v : Nat) : onlyParts [.regs, .wt] s (s.forceStored v) := by
  have stored : onlyParts [.regs, .wt] s (s.setReg .FORCE 0 (s.forceWord v)) :=
    onlyParts_mono (setReg_parts s _ _ _) (by decide)
  unfold State.forceStored
  dsimp only
  split
  · exact stored
  · exact onlyParts_trans stored (onlyParts_mono (mapWt_parts _ _) (by decide))

theorem forceStored_source (s : State) (v : Nat) :
    (s.forceStored v).fld F.FORCE_SOURCE_SOURCE 0 = s.fld F.FORCE_SOURCE_SOURCE 0 := by
  have apart : regAddr .FORCE 0 ≠ regAddr .FORCE_SOURCE 0 := by decide
  rw [forceStored_fld]
  exact congrArg (bitsOf · _ _) (reg_setReg_ne s _ _ _ _ _ apart)

theorem forceWord_lt (s : State) (v : Nat) : s.forceWord v < 2 ^ 32 := by
  have stored : v &&& (regRow .FORCE).mask .rw < 2 ^ 32 := Nat.and_lt_two_pow v (by decide)
  unfold State.forceWord
  dsimp only
  split
  · exact stored
  · exact setBitsOf_lt _ _ _ _ 32 (by omega) (by omega) stored

/-- All eight bits of KIND are RW bits of FORCE. -/
theorem bitsOf_force_kind (v : Nat) : bitsOf (v &&& (regRow .FORCE).mask .rw) 7 0 = bitsOf v 7 0 := by
  have ones : (regRow .FORCE).mask .rw % 2 ^ 8 = 2 ^ 8 - 1 := by decide
  simp only [bitsOf, Nat.pow_zero, Nat.div_one, Nat.and_mod_two_pow]
  rw [ones, Nat.and_two_pow_sub_one_eq_mod, Nat.mod_mod]

/-- KIND of FORCE takes the kind written, and keeps its value where that is reserved. -/
theorem forceStored_kind (s : State) (v : Nat) : (s.forceStored v).fld F.FORCE_KIND 0
    = if (kindRow (bitsOf v 7 0)).isSome then bitsOf v 7 0 else s.fld F.FORCE_KIND 0 := by
  have stored : (s.setReg .FORCE 0 (s.forceWord v)).fld F.FORCE_KIND 0 = bitsOf (s.forceWord v) 7 0 :=
    congrArg (bitsOf · 7 0) (reg_setReg s .FORCE 0 _ (forceWord_lt s v))
  rw [forceStored_fld, stored]
  unfold State.forceWord
  dsimp only
  split
  · exact bitsOf_force_kind v
  · rw [bitsOf_setBitsOf _ _ _ _ (by omega)]
    exact Nat.mod_eq_of_lt (fld_lt s F.FORCE_KIND 0)

/-- A forced message is raised, and its cause is held present where HOLD asks for it. -/
def State.inject (s : State) (m : FaultMsg) (hold : Bool) : State :=
  if hold then (s.raiseMsg m).mapWt fun w => { w with forcedHold := w.forcedHold ++ [m] } else s.raiseMsg m

theorem inject_wt (s : State) (m : FaultMsg) (hold : Bool) : (s.inject m hold).wt =
    { s.wt with held := holdMsg m s.wt.held, forcedHold := s.wt.forcedHold ++ if hold then [m] else [] } := by
  cases hold
  · simp [State.inject, State.raiseMsg, State.kindSeen]
  · rfl

theorem inject_parts (s : State) (m : FaultMsg) (hold : Bool) : onlyParts [.regs, .wt] s (s.inject m hold) := by
  cases hold
  · exact raiseMsg_parts s m
  · exact onlyParts_trans (raiseMsg_parts s m) (onlyParts_mono (mapWt_parts _ _) (by decide))

/-- A write of FORCE with GO stores the register, then raises the message named, or is a reserved write where its source or
its kind does not exist. -/
theorem writeForce_go (s : State) (v : Nat) (go : bitOf v 31 = true) : s.writeForce v =
    if sourceExists (s.fld F.FORCE_SOURCE_SOURCE 0) = true ∧ (kindRow (bitsOf v 7 0)).isSome = true then
      (s.forceStored v).inject (forcedMsg (s.fld F.FORCE_SOURCE_SOURCE 0) (bitsOf v 7 0) (bitsOf v 9 8))
        (bitOf v 30 && isCondition (bitsOf v 7 0))
    else (s.forceStored v).reservedWrite (regAddr .FORCE 0) v := by
  have unfolded : s.writeForce v =
      if !(kindRow (bitsOf v 7 0)).isSome then (s.forceStored v).reservedWrite (regAddr .FORCE 0) v
      else if !bitOf v 31 then s.forceStored v
      else if !sourceExists ((s.forceStored v).fld F.FORCE_SOURCE_SOURCE 0) then
        (s.forceStored v).reservedWrite (regAddr .FORCE 0) v
      else (s.forceStored v).inject (forcedMsg ((s.forceStored v).fld F.FORCE_SOURCE_SOURCE 0) (bitsOf v 7 0) (bitsOf v 9 8))
        (bitOf v 30 && isCondition (bitsOf v 7 0)) := rfl
  rw [unfolded, forceStored_source, go]
  cases (kindRow (bitsOf v 7 0)).isSome <;> cases sourceExists (s.fld F.FORCE_SOURCE_SOURCE 0) <;> rfl

/-! ## FORCE_GO: a write of FORCE with GO set -/

/-- Setting a bit above a field leaves the field alone. -/
theorem bitsOf_or_two_pow (n k hi lo : Nat) (h : hi < k) : bitsOf (n ||| 2 ^ k) hi lo = bitsOf n hi lo := by
  refine Nat.eq_of_testBit_eq fun b => ?_
  simp only [bitsOf, Nat.testBit_mod_two_pow, Nat.testBit_div_two_pow, Nat.testBit_or, Nat.testBit_two_pow]
  by_cases c : b < hi + 1 - lo
  · have above : k ≠ b + lo := by omega
    rw [decide_eq_false above, Bool.or_false]
  · simp [c]

theorem bitOf_or_two_pow_self (n k : Nat) : bitOf (n ||| 2 ^ k) k = true := by
  rw [bitOf, Nat.testBit_or, Nat.testBit_two_pow_self, Bool.or_true]

theorem bitOf_or_two_pow_ne (n k b : Nat) (h : k ≠ b) : bitOf (n ||| 2 ^ k) b = bitOf n b := by
  rw [bitOf, Nat.testBit_or, Nat.testBit_two_pow_of_ne h, Bool.or_false, bitOf]

/-- FORCE_GO names the source in FORCE_SOURCE and the kind, class and HOLD that it writes. -/
theorem exec_forceGo (s : State) (w : Word) : exec (.forceGo w) s = .next
    (if sourceExists (s.fld F.FORCE_SOURCE_SOURCE 0) = true ∧ (kindRow (bitsOf w.toNat 7 0)).isSome = true then
      (s.forceStored (w.toNat ||| 2 ^ 31)).inject
        (forcedMsg (s.fld F.FORCE_SOURCE_SOURCE 0) (bitsOf w.toNat 7 0) (bitsOf w.toNat 9 8))
        (bitOf w.toNat 30 && isCondition (bitsOf w.toNat 7 0))
    else (s.forceStored (w.toNat ||| 2 ^ 31)).reservedWrite (regAddr .FORCE 0) (w.toNat ||| 2 ^ 31)) := by
  have go : bitOf (w.toNat ||| 2 ^ 31) 31 = true := bitOf_or_two_pow_self _ 31
  have hold : bitOf (w.toNat ||| 2 ^ 31) 30 = bitOf w.toNat 30 := bitOf_or_two_pow_ne _ 31 30 (by decide)
  show Host.Outcome.next (s.writeForce (w.toNat ||| 2 ^ 31)) = _
  rw [writeForce_go s _ go, hold, bitsOf_or_two_pow _ 31 7 0 (by decide),
    bitsOf_or_two_pow _ 31 9 8 (by decide)]

/-- A write whose source or kind does not exist is reserved (R10). -/
theorem forceGo_reserved (s : State) (w : Word)
    (h : sourceExists (s.fld F.FORCE_SOURCE_SOURCE 0) = false ∨ (kindRow (bitsOf w.toNat 7 0)).isNone = true) :
    Completes (.forceGo w) s fun t => t.reports 4 0x09 0x04 ∧ onlyParts [.regs, .wt] s t
      ∧ t.fld F.FORCE_KIND 0
        = if (kindRow (bitsOf w.toNat 7 0)).isNone = true then s.fld F.FORCE_KIND 0 else bitsOf w.toNat 7 0 := by
  have refused : ¬(sourceExists (s.fld F.FORCE_SOURCE_SOURCE 0) = true ∧ (kindRow (bitsOf w.toNat 7 0)).isSome = true) := by
    rintro ⟨src, kind⟩
    rcases h with h | h
    · simp [h] at src
    · simp [Option.isNone_iff_eq_none.mp h] at kind
  refine ⟨_, (exec_forceGo s w).trans (congrArg _ (if_neg refused)), reservedWrite_reports _ _ _,
    onlyParts_trans (forceStored_parts s _) (reservedWrite_parts _ _ _), ?_⟩
  rw [reservedWrite_fld _ _ _ _ _ (by decide), forceStored_kind, bitsOf_or_two_pow _ 31 7 0 (by decide)]
  cases kindRow (bitsOf w.toNat 7 0) <;> rfl

/-- A write whose source and kind exist raises the message named, marked FORCED, at a source that holds none; HOLD keeps the
cause of a condition present, and ends earlier ones where it is 0. -/
theorem forceGo_injects (s : State) (w : Word) (src : sourceExists (s.fld F.FORCE_SOURCE_SOURCE 0) = true)
    (kind : (kindRow (bitsOf w.toNat 7 0)).isSome = true) (m : FaultMsg)
    (hm : m = forcedMsg (s.fld F.FORCE_SOURCE_SOURCE 0) (bitsOf w.toNat 7 0) (bitsOf w.toNat 9 8))
    (free : ∀ x ∈ s.wt.held, x.source ≠ m.source) :
    Completes (.forceGo w) s fun t => t.wt.held = s.wt.held ++ [m]
      ∧ t.wt.forcedHold = (if bitOf w.toNat 30 then s.wt.forcedHold else [])
        ++ (if bitOf w.toNat 30 && isCondition (bitsOf w.toNat 7 0) then [m] else [])
      ∧ t.wt.queue = s.wt.queue ∧ onlyParts [.regs, .wt] s t := by
  refine ⟨_, (exec_forceGo s w).trans (congrArg _ (if_pos ⟨src, kind⟩)), ?_⟩
  have hold : bitOf (w.toNat ||| 2 ^ 31) 30 = bitOf w.toNat 30 := bitOf_or_two_pow_ne _ 31 30 (by decide)
  dsimp only
  rw [← hm, inject_wt, forceStored_wt, hold]
  exact ⟨holdMsg_of_free m _ free, rfl, rfl, onlyParts_trans (forceStored_parts s _) (inject_parts _ _ _)⟩

/-! ## The reaction table (R453) -/

theorem reactionWrite_allowed (s : State) (kind value : BitVec 8) (h : actionsOk kind.toNat (value.toNat % 32) = true) :
    Completes (.reactionWrite kind value) s fun t =>
      t.fld F.REACTION_ACTIONS kind.toNat = value.toNat % 32 ∧ onlyRegs [(.REACTION, kind.toNat)] s t
        ∧ onlyParts [.regs] s t := by
  refine ⟨s.setFld F.REACTION_ACTIONS kind.toNat (value.toNat % 32), congrArg Host.Outcome.next (if_pos h), ?_,
    setReg_onlyRegs _ _ _ _, setFld_parts _ _ _ _⟩
  rw [fld_setFld _ _ _ _ (by decide)]
  exact Nat.mod_mod _ _

theorem reactionWrite_reserved (s : State) (kind value : BitVec 8) (h : actionsOk kind.toNat (value.toNat % 32) = false) :
    Completes (.reactionWrite kind value) s fun t =>
      t.fld F.REACTION_ACTIONS kind.toNat = s.fld F.REACTION_ACTIONS kind.toNat ∧ t.reports 4 0x09 0x04 := by
  refine ⟨s.reservedWrite (regAddr .REACTION kind.toNat) value.toNat,
    congrArg Host.Outcome.next (if_neg (Bool.eq_false_iff.mp h)), ?_, reservedWrite_reports _ _ _⟩
  refine reservedWrite_fld _ _ _ _ _ ?_
  show regAddr .KIND_PENDING 0 ≠ regAddr .REACTION kind.toNat
  rw [regAddr_kindPending, regAddr_reaction]
  omega

/-! ## The obligation -/

/-- A clear of a register none of whose bits has a cause that persists. -/
theorem faultBitClear_plain (s : State) (addr mask : Word) (n : RegName) (i : Nat) (hat : regAt addr.toNat = some (n, i))
    (h : n ∉ causeRegs ∨ (n = .KIND_PENDING ∧ ∀ m ∈ s.wt.causes ++ s.wt.forcedHold, m.kind.toNat / 32 ≠ i)) :
    Completes (.faultBitClear addr mask) s fun t =>
      (∀ b, bitOf (t.reg n i) b = (bitOf (s.reg n i) b && !(bitOf mask.toNat b && bitOf (w1cMask n) b)))
        ∧ onlyRegs [(n, i)] s t ∧ onlyParts [.regs] s t := by
  have cleared : s.clearW1c n i mask.toNat = s.dropW1c n i mask.toNat := by
    rcases h with h | ⟨rfl, h⟩
    · exact clearW1c_plain s n i _ h
    · exact clearW1c_kindPending_of_none s i _ h
  refine ⟨_, exec_faultBitClear s addr mask n i hat, ?_⟩
  rw [cleared]
  exact ⟨dropW1c_bit s n i _, setReg_onlyRegs _ _ _ _, setReg_parts _ _ _ _⟩

/-- A clear of the bit of a kind whose cause persists. -/
theorem faultBitClear_persists (s : State) (addr mask : Word) (m : FaultMsg) (hm : m ∈ s.wt.causes)
    (hat : regAt addr.toNat = some (.KIND_PENDING, m.kind.toNat / 32))
    (pending : bitOf (s.reg .KIND_PENDING (m.kind.toNat / 32)) (m.kind.toNat % 32) = true)
    (written : bitOf mask.toNat (m.kind.toNat % 32) = true) :
    Completes (.faultBitClear addr mask) s fun t =>
      bitOf (t.reg .KIND_PENDING (m.kind.toNat / 32)) (m.kind.toNat % 32) = true
        ∧ t.reports m.die.toNat m.block.toNat m.kind.toNat ∧ onlyParts [.regs, .wt] s t := by
  have raised := clearW1c_kindPending_raised s mask.toNat m hm pending written
  exact ⟨_, exec_faultBitClear s addr mask _ _ hat, raised.pending, raised.reports, clearW1c_kindPending_parts s _ _⟩

/-- Settles O37: a W1C clear by what it leaves of the register and what is raised again, a write of FORCE by whether its source
and kind exist, a write of REACTION by whether its value is allowed. -/
theorem faultBitsAndForces : Obligations.FaultBitsAndForces := by
  unfold Obligations.FaultBitsAndForces
  refine ⟨fun s addr mask n i hat => ⟨faultBitClear_plain s addr mask n i hat, ?_⟩, ?_, fun s kind value =>
    ⟨reactionWrite_allowed s kind value, reactionWrite_reserved s kind value⟩⟩
  · rintro m hm rfl rfl
    exact faultBitClear_persists s addr mask m hm hat
  · rintro s w _ _ rfl rfl
    exact ⟨forceGo_reserved s w, fun src kind => forceGo_injects s w src kind _ rfl⟩

end Sys2Proof.Machine

/-! PROOFS. Bridges and the reset of a domain (spec/01_architecture.md R18, R19; 19_clocks.md R469; 23_register_map.md R554):
where registers change, what ports without PCS lock leave of a lost chiplet, what a die's reset takes away stage by stage. -/
namespace Sys2Proof.Machine

open Sys2Proof

/-! ## Where registers change -/

/-- Register words change at addresses that satisfy Q, and at no others. -/
def regsAt (Q : Nat → Prop) (s t : State) : Prop := ∀ k, ¬ Q k → sget k t.regs = sget k s.regs

theorem regsAt_of_eq {Q : Nat → Prop} {s t : State} (h : t.regs = s.regs) : regsAt Q s t := fun _ _ => by rw [h]

theorem regsAt_refl (Q : Nat → Prop) (s : State) : regsAt Q s s := regsAt_of_eq rfl

theorem regsAt_trans {Q : Nat → Prop} {s t u : State} (a : regsAt Q s t) (b : regsAt Q t u) : regsAt Q s u :=
  fun k h => (b k h).trans (a k h)

theorem regsAt_mono {Q R : Nat → Prop} {s t : State} (a : regsAt Q s t) (h : ∀ k, Q k → R k) : regsAt R s t :=
  fun k hk => a k fun q => hk (h k q)

theorem regsAt_foldl {Q : Nat → Prop} {β : Type} (f : State → β → State) : ∀ (l : List β) (s : State),
    (∀ s, ∀ b ∈ l, regsAt Q s (f s b)) → regsAt Q s (l.foldl f s)
  | [], s, _ => regsAt_refl Q s
  | b :: l, s, h => regsAt_trans (h s b List.mem_cons_self)
      (regsAt_foldl f l (f s b) fun s x hx => h s x (List.mem_cons_of_mem _ hx))

theorem regsAt_of_parts {Q : Nat → Prop} {c : List Part} {s t : State} (a : onlyParts c s t) (h : Part.regs ∉ c) :
    regsAt Q s t := regsAt_of_eq (a .regs h)

theorem regsAt_setReg {Q : Nat → Prop} (s : State) (n : RegName) (i v : Nat) (h : Q (regAddr n i)) :
    regsAt Q s (s.setReg n i v) := fun _ hk => sget_sset_ne _ _ _ _ _ fun e => hk (e ▸ h)

theorem regsAt_setFld {Q : Nat → Prop} (s : State) (f : Fld) (i v : Nat) (h : Q (regAddr f.reg i)) :
    regsAt Q s (s.setFld f i v) := regsAt_setReg s f.reg i _ h

/-- A register at an address that does not change keeps its word. -/
theorem regsAt.reg {Q : Nat → Prop} {s t : State} (a : regsAt Q s t) (n : RegName) (i : Nat) (h : ¬ Q (regAddr n i)) :
    t.reg n i = s.reg n i := by
  unfold State.reg
  rw [a _ h]

theorem regsAt.fld {Q : Nat → Prop} {s t : State} (a : regsAt Q s t) (f : Fld) (i : Nat) (h : ¬ Q (regAddr f.reg i)) :
    t.fld f i = s.fld f i := congrArg (bitsOf · f.hi f.lo) (a.reg f.reg i h)

theorem regsAt.onlyRegs {l : List (RegName × Nat)} {s t : State} (a : regsAt (fun k => ∃ r ∈ l, regAddr r.1 r.2 = k) s t) :
    onlyRegs l s t := fun k h => a k fun ⟨r, hr, e⟩ => h r hr e

/-- Nothing but the listed parts changes, and registers at addresses that satisfy Q only. -/
structure Touches (c : List Part) (Q : Nat → Prop) (s t : State) : Prop where
  parts : onlyParts c s t
  regs : regsAt Q s t

section
variable {c d : List Part} {Q R : Nat → Prop} {s t u : State}

theorem Touches.refl (c : List Part) (Q : Nat → Prop) (s : State) : Touches c Q s s := ⟨onlyParts_refl c s, regsAt_refl Q s⟩

theorem Touches.trans (a : Touches c Q s t) (b : Touches c Q t u) : Touches c Q s u :=
  ⟨onlyParts_trans a.parts b.parts, regsAt_trans a.regs b.regs⟩

theorem Touches.mono (a : Touches c Q s t) (hc : ∀ p ∈ c, p ∈ d) (hq : ∀ k, Q k → R k) : Touches d R s t :=
  ⟨onlyParts_mono a.parts hc, regsAt_mono a.regs hq⟩

theorem Touches.of_parts (a : onlyParts c s t) (h : Part.regs ∉ c) : Touches c Q s t := ⟨a, regsAt_of_parts a h⟩

theorem Touches.foldl {β : Type} (f : State → β → State) : ∀ (l : List β) (s : State),
    (∀ s, ∀ b ∈ l, Touches c Q s (f s b)) → Touches c Q s (l.foldl f s)
  | [], s, _ => .refl c Q s
  | b :: l, s, h => (h s b List.mem_cons_self).trans
      (Touches.foldl f l (f s b) fun s x hx => h s x (List.mem_cons_of_mem _ hx))

theorem setReg_touches (s : State) (n : RegName) (i v : Nat) (h : Q (regAddr n i)) : Touches [.regs] Q s (s.setReg n i v) :=
  ⟨setReg_parts s n i v, regsAt_setReg s n i v h⟩

theorem setFld_touches (s : State) (f : Fld) (i v : Nat) (h : Q (regAddr f.reg i)) : Touches [.regs] Q s (s.setFld f i v) :=
  setReg_touches s f.reg i _ h

end

/-! ## Addresses -/

theorem base_le_regAddr (n : RegName) (i : Nat) : (regRow n).base ≤ regAddr n i :=
  Nat.le_trans (Nat.le_add_right _ _) (Nat.le_add_right _ _)

/-- A register of which each fabric die holds one, 64 MiB apart. -/
def onePerDie (n : RegName) : Bool :=
  (regRow n).grp == 1 && (regRow n).s1 == 0x4000000 && decide (0x10000000 ≤ (regRow n).base)
    && decide ((regRow n).base < 0x14000000)

theorem regAddr_onePerDie {n : RegName} (h : onePerDie n = true) (d : Nat) :
    regAddr n d = (regRow n).base + d * 0x4000000 ∧ 0x10000000 ≤ (regRow n).base ∧ (regRow n).base < 0x14000000 := by
  simp only [onePerDie, Bool.and_eq_true, beq_iff_eq, decide_eq_true_eq] at h
  obtain ⟨⟨⟨grp, s1⟩, low⟩, high⟩ := h
  exact ⟨by simp [regAddr, grp, s1, Nat.mod_one], low, high⟩

theorem regAddr_bridgeStatus (d : Nat) : regAddr .BRIDGE_STATUS d = 0x10000100 + d * 0x4000000 :=
  (regAddr_onePerDie (by decide) d).1

theorem regAddr_bridgeStatus_ne {d e : Nat} (h : d ≠ e) : regAddr .BRIDGE_STATUS d ≠ regAddr .BRIDGE_STATUS e := by
  rw [regAddr_bridgeStatus, regAddr_bridgeStatus]
  omega

theorem regAddr_islandClock (i : Nat) : regAddr .ISLAND_CLOCK i = 0xB00100 + i * 0x10 := by
  simp [regAddr, regRow, row_ISLAND_CLOCK, Nat.mod_one]

theorem regAddr_wtStatus : regAddr .WT_STATUS 0 = 0x200000 := rfl

theorem regAddr_routeControl (d : Nat) : regAddr .ROUTE_CONTROL d = 0x10000604 + d * 0x4000000 :=
  (regAddr_onePerDie (by decide) d).1

theorem regAddr_refcountStatus (d : Nat) : regAddr .REFCOUNT_STATUS d = 0x1000070C + d * 0x4000000 :=
  (regAddr_onePerDie (by decide) d).1

theorem regAddr_portBuffer (p : Nat) : regAddr .PORT_BUFFER p = 0x10000800 + p / 64 * 0x4000000 + p % 64 * 0x10 := by
  simp [regAddr, regRow, row_PORT_BUFFER]

theorem regAddr_portLink (l : Nat) : regAddr .PORT_LINK l = 0x20004018 + l / 32 * 0x100000 + l % 32 * 0x40 := by
  simp [regAddr, regRow, row_PORT_LINK]

theorem regAddr_laneStatus (l : Nat) : regAddr .LANE_STATUS l = 0x20001004 + l / 32 * 0x100000 + l % 32 * 0x80 := by
  simp [regAddr, regRow, row_LANE_STATUS]

/-- The registers of fabric die d. -/
def inDie (d k : Nat) : Prop := 0x10000000 + d * 0x04000000 ≤ k ∧ k < 0x10000000 + (d + 1) * 0x04000000

theorem inDie_regAddr {n : RegName} (h : onePerDie n = true) (d e : Nat) : inDie e (regAddr n d) ↔ d = e := by
  obtain ⟨addr, low, high⟩ := regAddr_onePerDie h d
  rw [inDie, addr]
  omega

/-- The registers of the control die and the keep lie below those of the fabric dies. -/
def inControl (k : Nat) : Prop := k < 0x10000000

/-- The registers of the chiplets and the stacks lie above those of the fabric dies. -/
def aboveDies (k : Nat) : Prop := 0x20000000 ≤ k

theorem inControl_islandClock {i : Nat} (h : i < 57) : inControl (regAddr .ISLAND_CLOCK i) := by
  rw [inControl, regAddr_islandClock]
  omega

theorem aboveDies_of_base {n : RegName} (h : 0x20000000 ≤ (regRow n).base) (i : Nat) : aboveDies (regAddr n i) :=
  Nat.le_trans h (base_le_regAddr n i)

/-! ## Bits of fields -/

theorem bitOf_fld_setFld (s : State) (f : Fld) (i v b : Nat) (h : f.ok = true) :
    bitOf ((s.setFld f i v).fld f i) b = (decide (b < f.width) && bitOf v b) := by
  rw [fld_setFld s f i v h, bitOf, Nat.testBit_mod_two_pow, bitOf]

theorem bitOf_and_clear (v p n : Nat) (h : p < n) : bitOf (v &&& (2 ^ n - 1 - 2 ^ p)) p = false := by
  have fits : 2 ^ p < 2 ^ n := Nat.pow_lt_pow_right (by omega) h
  rw [bitOf, Nat.testBit_and, Nat.sub_sub, Nat.add_comm 1, Nat.testBit_two_pow_sub_succ fits, Nat.testBit_two_pow_self]
  simp

theorem bridgeUp_touches (s : State) (d p : Nat) (up : Bool) :
    Touches [.regs] (· = regAddr .BRIDGE_STATUS d) s (s.bridgeUp d p up) := setFld_touches s _ d _ rfl

theorem bridgeUp_bit (s : State) (d p : Nat) (up : Bool) (h : p < 4) :
    bitOf ((s.bridgeUp d p up).fld F.BRIDGE_STATUS_BRIDGE_UP d) p = up := by
  have inside : decide (p < F.BRIDGE_STATUS_BRIDGE_UP.width) = true := decide_eq_true h
  rw [State.bridgeUp, bitOf_fld_setFld _ _ _ _ _ (by decide), inside, Bool.true_and]
  cases up
  · exact bitOf_and_clear _ p 4 h
  · exact bitOf_or_two_pow_self _ p

theorem chipletUp_touches (s : State) (d g : Nat) (up : Bool) :
    Touches [.regs] (· = regAddr .BRIDGE_STATUS d) s (s.chipletUp d g up) := setFld_touches s _ d _ rfl

theorem chipletUp_bit (s : State) (d g : Nat) (up : Bool) (h : g < 8) :
    bitOf ((s.chipletUp d g up).fld F.BRIDGE_STATUS_CHIPLET_UP d) g = up := by
  have inside : decide (g < F.BRIDGE_STATUS_CHIPLET_UP.width) = true := decide_eq_true h
  rw [State.chipletUp, bitOf_fld_setFld _ _ _ _ _ (by decide), inside, Bool.true_and]
  cases up
  · exact bitOf_and_clear _ g 8 h
  · exact bitOf_or_two_pow_self _ g

/-! ## A bridge fails (R18, R444) -/

theorem raiseMsg_touches (s : State) (m : FaultMsg) :
    Touches [.regs, .wt] (· = regAddr .KIND_PENDING (m.kind.toNat / 32)) s (s.raiseMsg m) :=
  ⟨raiseMsg_parts s m, regsAt_setFld s F.KIND_PENDING_PENDING _ _ rfl⟩

theorem raiseCond_touches (s : State) (m : FaultMsg) :
    Touches [.regs, .wt] (· = regAddr .KIND_PENDING (m.kind.toNat / 32)) s (s.raiseCond m) := by
  refine ⟨raiseCond_parts s m, ?_⟩
  unfold State.raiseCond
  split
  · exact regsAt_refl _ s
  · exact (raiseMsg_touches s m).regs

/-- A condition no cause of whose kind is there is reported. -/
theorem raiseCond_reports (s : State) (m : FaultMsg) (h : ∀ x ∈ s.wt.causes, x.kind ≠ m.kind) :
    (s.raiseCond m).reports m.die.toNat m.block.toNat m.kind.toNat := by
  have fresh : s.wt.causes.any (·.same m) = false :=
    List.any_eq_false.mpr fun x hx => by simp [FaultMsg.same, h x hx]
  unfold State.raiseCond
  rw [fresh]
  exact (raiseMsg_raised s m).reports

theorem bridgeFail_parts (s : State) (d inst : Nat) : onlyParts [.regs, .wt, .core] s (s.bridgeFail d inst) :=
  onlyParts_trans (onlyParts_mono (mapCore_parts s fun k => { k with forwarding := false }) (by decide))
    (onlyParts_mono (raiseCond_parts _ _) (by decide))

theorem bridgeFail_fld (s : State) (d inst : Nat) (f : Fld) (i : Nat) (h : f.reg = .BRIDGE_STATUS) :
    (s.bridgeFail d inst).fld f i = s.fld f i := by
  refine (raiseCond_touches _ (bridgeMsg d inst)).regs.fld f i ?_
  rw [h, regAddr_bridgeStatus, regAddr_kindPending]
  show ¬ _ = 0x200080 + 0x11 / 32 * 4
  omega

theorem bridgeFail_forwarding (s : State) (d inst : Nat) : (s.bridgeFail d inst).core.forwarding = false :=
  congrArg CoreSt.forwarding (raiseCond_parts _ (bridgeMsg d inst) .core (by decide))

theorem bridgeFail_reports (s : State) (d inst : Nat) (hd : d < 4) (h : ∀ m ∈ s.wt.causes, m.kind ≠ 0x11) :
    (s.bridgeFail d inst).reports d 0x16 0x11 := by
  have die : (bridgeMsg d inst).die.toNat = d := Nat.mod_eq_of_lt (by omega)
  have raised := raiseCond_reports { s with core := { s.core with forwarding := false } } (bridgeMsg d inst) h
  rwa [die] at raised

/-- The bits of BRIDGE_STATUS once the bridge between two fabric dies is down. -/
def State.cutBridge (s : State) (d p : Nat) : State :=
  ((s.bridgeUp d p false).bridgeUp p d false).setFld F.BRIDGE_STATUS_BRIDGE_FAULT d
    (s.fld F.BRIDGE_STATUS_BRIDGE_FAULT d ||| 2 ^ p)

/-- A bridge that is noted as failed. -/
def State.noteDead (s : State) (d p : Nat) : State :=
  s.mapPower fun w => { w with deadBridges := w.deadBridges.filter (· != bridgeKey d p) ++ [bridgeKey d p] }

theorem noteDead_fld (s : State) (d p : Nat) (f : Fld) (i : Nat) : (s.noteDead d p).fld f i = s.fld f i := rfl

theorem bridgeLost_stages (s : State) (d p : Nat) : s.bridgeLost d p = ((s.cutBridge d p).noteDead d p).bridgeFail d p := rfl

theorem mapPower_parts (s : State) (g : PowerSt → PowerSt) : onlyParts [.power] s (s.mapPower g) := fun p hp => by
  cases p
  case power => exact absurd (by decide) hp
  all_goals rfl

theorem cutBridge_parts (s : State) (d p : Nat) : onlyParts [.regs] s (s.cutBridge d p) :=
  onlyParts_trans (onlyParts_trans (bridgeUp_touches _ _ _ _).parts (bridgeUp_touches _ _ _ _).parts) (setFld_parts _ _ _ _)

theorem cutBridge_bits (s : State) (d p : Nat) (hd : d < 4) (hp : p < 4) (ne : p ≠ d) :
    bitOf ((s.cutBridge d p).fld F.BRIDGE_STATUS_BRIDGE_UP d) p = false
      ∧ bitOf ((s.cutBridge d p).fld F.BRIDGE_STATUS_BRIDGE_UP p) d = false
      ∧ bitOf ((s.cutBridge d p).fld F.BRIDGE_STATUS_BRIDGE_FAULT d) p = true := by
  unfold State.cutBridge
  refine ⟨?_, ?_, ?_⟩
  · rw [fld_setFld_other _ F.BRIDGE_STATUS_BRIDGE_FAULT F.BRIDGE_STATUS_BRIDGE_UP d _ (by decide) (by decide) rfl (by decide),
      (bridgeUp_touches _ p d false).regs.fld _ _ (regAddr_bridgeStatus_ne ne.symm), bridgeUp_bit s d p false hp]
  · rw [fld_setFld_ne _ F.BRIDGE_STATUS_BRIDGE_FAULT F.BRIDGE_STATUS_BRIDGE_UP d p _ (regAddr_bridgeStatus_ne ne.symm),
      bridgeUp_bit _ p d false hd]
  · rw [bitOf_fld_setFld _ _ _ _ _ (by decide), bitOf_or_two_pow_self, Bool.and_true]
    exact decide_eq_true hp

/-- The bridge between two fabric dies fails. -/
theorem bridgeFatal_dies (s : State) (d p : Nat) (hd : d < 4) (hp : p < 4) (ne : p ≠ d) (on : s.power.dies.contains d = true)
    (fresh : ∀ m ∈ s.wt.causes, m.kind ≠ 0x11) : Completes (.bridgeFatal d p) s fun t =>
      bitOf (t.fld F.BRIDGE_STATUS_BRIDGE_UP d) p = false ∧ bitOf (t.fld F.BRIDGE_STATUS_BRIDGE_UP p) d = false
        ∧ bitOf (t.fld F.BRIDGE_STATUS_BRIDGE_FAULT d) p = true ∧ t.core.forwarding = false
        ∧ t.power.deadBridges.contains (bridgeKey d p) = true ∧ t.reports d 0x16 0x11
        ∧ onlyParts [.regs, .wt, .core, .power] s t := by
  have completes : exec (.bridgeFatal d p) s = .next (((s.cutBridge d p).noteDead d p).bridgeFail d p) := by
    show execBridgeFatal d p s = _
    rw [execBridgeFatal, on, if_neg (by decide), if_pos ⟨hp, ne⟩, bridgeLost_stages]
  obtain ⟨here, there, fault⟩ := cutBridge_bits s d p hd hp ne
  have power : (((s.cutBridge d p).noteDead d p).bridgeFail d p).power = ((s.cutBridge d p).noteDead d p).power :=
    bridgeFail_parts _ d p .power (by decide)
  refine ⟨_, completes, ?_, ?_, ?_, bridgeFail_forwarding _ _ _, ?_, bridgeFail_reports _ d p hd fresh, ?_⟩
  · rw [bridgeFail_fld _ _ _ _ _ rfl, noteDead_fld]
    exact here
  · rw [bridgeFail_fld _ _ _ _ _ rfl, noteDead_fld]
    exact there
  · rw [bridgeFail_fld _ _ _ _ _ rfl, noteDead_fld]
    exact fault
  · rw [power]
    simp [State.noteDead, State.mapPower]
  · exact onlyParts_trans (onlyParts_mono (cutBridge_parts s d p) (by decide))
      (onlyParts_trans (onlyParts_mono (mapPower_parts _ _) (by decide)) (onlyParts_mono (bridgeFail_parts _ _ _) (by decide)))

/-- The bridge to a chiplet fails. -/
theorem bridgeFatal_chiplet (s : State) (d g : Nat) (hd : d < 4) (hg : g < 8) (on : s.power.dies.contains d = true)
    (fresh : ∀ m ∈ s.wt.causes, m.kind ≠ 0x11) : Completes (.bridgeFatal d (8 + g)) s fun t =>
      bitOf (t.fld F.BRIDGE_STATUS_CHIPLET_UP d) g = false ∧ t.core.forwarding = false ∧ t.reports d 0x16 0x11
        ∧ t.power = s.power := by
  have completes : exec (.bridgeFatal d (8 + g)) s = .next ((s.chipletUp d g false).bridgeFail d (8 + g)) := by
    show execBridgeFatal d (8 + g) s = _
    rw [execBridgeFatal, on, if_neg (by decide), if_neg (by omega), if_pos (by omega), Nat.add_sub_cancel_left]
  refine ⟨_, completes, ?_, bridgeFail_forwarding _ _ _, bridgeFail_reports _ d _ hd fresh,
    bridgeFail_parts _ _ _ .power (by decide)⟩
  rw [bridgeFail_fld _ _ _ _ _ rfl, chipletUp_bit s d g false hg]

/-! ## A bridge trains (R19, R444) -/

theorem tryForward_parts (s : State) : onlyParts [.core] s s.tryForward := by
  unfold State.tryForward
  split
  · exact mapCore_parts s _
  · exact onlyParts_refl _ s

theorem tryForward_touches (Q : Nat → Prop) (s : State) : Touches [.core] Q s s.tryForward :=
  .of_parts (tryForward_parts s) (by decide)

/-- Forwarding goes on where it ran, and starts where it may. -/
theorem tryForward_forwarding (s : State) : s.tryForward.core.forwarding = true ↔
    s.core.forwarding = true ∨ s.tryForward.mayForward = true := by
  unfold State.tryForward
  by_cases h : s.mayForward = true
  · have may : (s.mapCore fun k => { k with forwarding := true }).mayForward = true := h
    rw [if_pos h, may]
    exact iff_of_true rfl (.inr rfl)
  · rw [if_neg h]
    simp [h]

theorem endCond_causes (s : State) (m : FaultMsg) :
    (s.endCond m).wt.causes = s.wt.causes.filter fun c => !c.same m := rfl

/-- The bits of BRIDGE_STATUS once the bridge between two fabric dies is up. -/
def State.joinBridge (s : State) (d p : Nat) : State := (s.bridgeUp d p true).bridgeUp p d true

theorem joinBridge_touches (s : State) (d p : Nat) : Touches [.regs]
    (fun k => ∃ r ∈ [(RegName.BRIDGE_STATUS, d), (.BRIDGE_STATUS, p)], regAddr r.1 r.2 = k) s (s.joinBridge d p) :=
  ((bridgeUp_touches s d p true).mono (by decide) fun _ e => ⟨(.BRIDGE_STATUS, d), by simp, e.symm⟩).trans
    ((bridgeUp_touches _ p d true).mono (by decide) fun _ e => ⟨(.BRIDGE_STATUS, p), by simp, e.symm⟩)

theorem joinBridge_bits (s : State) (d p : Nat) (hd : d < 4) (hp : p < 4) (ne : p ≠ d) :
    bitOf ((s.joinBridge d p).fld F.BRIDGE_STATUS_BRIDGE_UP d) p = true
      ∧ bitOf ((s.joinBridge d p).fld F.BRIDGE_STATUS_BRIDGE_UP p) d = true := by
  refine ⟨?_, bridgeUp_bit _ p d true hd⟩
  rw [State.joinBridge, (bridgeUp_touches _ p d true).regs.fld _ _ (regAddr_bridgeStatus_ne ne.symm)]
  exact bridgeUp_bit s d p true hp

/-- A bridge that has failed does not train again. -/
theorem bridgeTrained_dead (s : State) (d p : Nat) (hp : p < 4) (ne : p ≠ d) (on : s.power.dies.contains d = true)
    (dead : s.power.deadBridges.contains (bridgeKey d p) = true) : Completes (.bridgeTrained d p) s fun t => t = s := by
  refine ⟨s, ?_, rfl⟩
  show execBridgeTrained d p s = _
  rw [execBridgeTrained, on, if_neg (by decide), if_pos ⟨hp, ne⟩, dead, Bool.true_or, if_pos rfl]

/-- The bridge between two powered dies comes up. -/
theorem bridgeTrained_dies (s : State) (d p : Nat) (hd : d < 4) (hp : p < 4) (ne : p ≠ d) (on : s.power.dies.contains d = true)
    (alive : s.power.deadBridges.contains (bridgeKey d p) = false) (peer : s.power.dies.contains p = true) :
    Completes (.bridgeTrained d p) s fun t =>
      bitOf (t.fld F.BRIDGE_STATUS_BRIDGE_UP d) p = true ∧ bitOf (t.fld F.BRIDGE_STATUS_BRIDGE_UP p) d = true
        ∧ (∀ m ∈ t.wt.causes, m.same (bridgeMsg d p) = false) ∧ (t.core.forwarding = true ↔
          s.core.forwarding = true ∨ t.mayForward = true)
        ∧ onlyRegs [(.BRIDGE_STATUS, d), (.BRIDGE_STATUS, p)] s t ∧ onlyParts [.regs, .wt, .core] s t := by
  let u := ((s.joinBridge d p).endCond (bridgeMsg d p)).endCond (bridgeMsg p d)
  have completes : exec (.bridgeTrained d p) s = .next u.tryForward := by
    show execBridgeTrained d p s = _
    rw [execBridgeTrained, on, if_neg (by decide), if_pos ⟨hp, ne⟩, alive, peer]
    rfl
  have ended : Touches [.wt] (fun _ => False) (s.joinBridge d p) u :=
    .of_parts (onlyParts_trans (endCond_parts _ _) (endCond_parts _ _)) (by decide)
  have after : Touches [.wt, .core] (fun _ => False) (s.joinBridge d p) u.tryForward :=
    (ended.mono (by decide) fun _ => id).trans ((tryForward_touches _ u).mono (by decide) fun _ => id)
  obtain ⟨here, there⟩ := joinBridge_bits s d p hd hp ne
  refine ⟨_, completes, ?_, ?_, ?_, tryForward_forwarding u, ?_, ?_⟩
  · rw [after.regs.fld _ _ id]
    exact here
  · rw [after.regs.fld _ _ id]
    exact there
  · have wt : u.tryForward.wt = u.wt := tryForward_parts u .wt (by decide)
    rw [wt, endCond_causes, endCond_causes]
    intro m hm
    simpa using (List.mem_filter.mp (List.mem_filter.mp hm).1).2
  · exact (regsAt_trans (joinBridge_touches s d p).regs (regsAt_mono after.regs fun _ => False.elim)).onlyRegs
  · exact onlyParts_trans (onlyParts_mono (joinBridge_touches s d p).parts (by decide)) (onlyParts_mono after.parts (by decide))

/-- The bridge to a chiplet comes up. -/
theorem bridgeTrained_chiplet (s : State) (d g : Nat) (hg : g < 8) (on : s.power.dies.contains d = true) :
    Completes (.bridgeTrained d (8 + g)) s fun t => bitOf (t.fld F.BRIDGE_STATUS_CHIPLET_UP d) g = true
      ∧ onlyRegs [(.BRIDGE_STATUS, d)] s t := by
  let u := (s.chipletUp d g true).endCond (bridgeMsg d (8 + g))
  have completes : exec (.bridgeTrained d (8 + g)) s = .next u.tryForward := by
    show execBridgeTrained d (8 + g) s = _
    rw [execBridgeTrained, on, if_neg (by decide), if_neg (by omega), if_pos (by omega), Nat.add_sub_cancel_left]
  have after : regsAt (fun _ => False) (s.chipletUp d g true) u.tryForward :=
    regsAt_trans (regsAt_of_parts (endCond_parts _ _) (by decide)) (tryForward_touches _ u).regs
  refine ⟨_, completes, ?_, ?_⟩
  · rw [after.fld _ _ id, chipletUp_bit s d g true hg]
  · refine (regsAt_trans (regsAt_mono (chipletUp_touches s d g true).regs fun _ e => ?_)
      (regsAt_mono after fun _ => False.elim)).onlyRegs
    exact ⟨_, List.mem_singleton.mpr rfl, e.symm⟩

/-! ## Chiplets whose ports have no PCS lock (R411, R554) -/

theorem linkDown_of_dark (s : State) (c : PortCfg) (st : Nat) (h : s.pcsLock c.num = false) :
    s.linkDown c st = (s.setFld F.PORT_LINK_LINK_STATE c.lane0 st).rxRestart c := by
  simp [State.linkDown, h]

theorem rxRestart_touches (s : State) (c : PortCfg) :
    Touches [.regs] (fun k => ∃ l, k = regAddr .LANE_STATUS l) s (s.rxRestart c) :=
  Touches.foldl _ _ s fun s l _ =>
    (((setFld_touches s F.LANE_STATUS_SIGNAL l _ ⟨l, rfl⟩).trans (setFld_touches _ F.LANE_STATUS_CDR_LOCK l _ ⟨l, rfl⟩)).trans
      (setFld_touches _ F.LANE_STATUS_CW_LOCK l _ ⟨l, rfl⟩)).trans (setFld_touches _ F.LANE_STATUS_MARKER_LOCK l _ ⟨l, rfl⟩)

theorem linkDown_touches (s : State) (c : PortCfg) (st : Nat) (h : s.pcsLock c.num = false) :
    Touches [.regs] aboveDies s (s.linkDown c st) := by
  rw [linkDown_of_dark s c st h]
  refine (setFld_touches s _ _ _ (aboveDies_of_base (by decide) _)).trans ((rxRestart_touches _ c).mono (fun _ => id) ?_)
  rintro _ ⟨l, rfl⟩
  exact aboveDies_of_base (by decide) l

/-- A port without PCS lock gains none where its LINK_STATE stays as it was or falls to 0. -/
theorem pcsLock_stays_false (s t : State) (p : Nat) (ports : t.ports = s.ports) (dark : s.pcsLock p = false)
    (link : t.fld F.PORT_LINK_LINK_STATE (s.blk p) = s.fld F.PORT_LINK_LINK_STATE (s.blk p)
      ∨ t.fld F.PORT_LINK_LINK_STATE (s.blk p) = 0) : t.pcsLock p = false := by
  have port : t.port? p = s.port? p := congrArg (List.find? fun c : PortCfg => c.num == p) ports
  have blk : t.blk p = s.blk p := by rw [State.blk, port, State.blk]
  rw [State.pcsLock] at dark ⊢
  rw [port, blk]
  rcases link with same | down
  · rw [same]
    exact dark
  · rw [down]
    exact Bool.and_false _

/-- A port that goes down leaves every port dark that was dark. -/
theorem linkDown_dark (s : State) (c : PortCfg) (q : Nat) (hc : s.pcsLock c.num = false) (hq : s.pcsLock q = false) :
    (s.linkDown c 0).pcsLock q = false := by
  refine pcsLock_stays_false s _ q ((linkDown_touches s c 0 hc).parts .ports (by decide)) hq ?_
  have kept := (rxRestart_touches (s.setFld F.PORT_LINK_LINK_STATE c.lane0 0) c).regs.fld F.PORT_LINK_LINK_STATE (s.blk q)
    (by
      rintro ⟨l, e⟩
      have addr : regAddr .PORT_LINK (s.blk q) = regAddr .LANE_STATUS l := e
      rw [regAddr_portLink, regAddr_laneStatus] at addr
      omega)
  rw [linkDown_of_dark s c 0 hc, kept]
  by_cases own : c.lane0 = s.blk q
  · right
    rw [← own, fld_setFld _ _ _ _ (by decide), Nat.zero_mod]
  · left
    refine fld_setFld_ne _ _ _ _ _ _ fun e => own ?_
    have addr : regAddr .PORT_LINK c.lane0 = regAddr .PORT_LINK (s.blk q) := e
    rw [regAddr_portLink, regAddr_portLink] at addr
    omega

/-- Ports without PCS lock that are lost change registers of chiplets and nothing else. -/
theorem portsLost_touches (cs : List Nat) : ∀ (l : List PortCfg) (s : State), (∀ c ∈ l, s.pcsLock c.num = false) →
    Touches [.regs] aboveDies s (l.foldl (fun s c => if cs.contains (c.lane0 / 32) then s.linkDown c 0 else s) s)
  | [], s, _ => .refl _ _ s
  | c :: l, s, dark => by
    have here := dark c List.mem_cons_self
    have rest (x : PortCfg) (hx : x ∈ l) := dark x (List.mem_cons_of_mem _ hx)
    rw [List.foldl_cons]
    split
    · exact (linkDown_touches s c 0 here).trans
        (portsLost_touches cs l _ fun x hx => linkDown_dark s c x.num here (rest x hx))
    · exact portsLost_touches cs l s rest

theorem laneFromMap_touches (s : State) (l : Nat) (x : LaneCfg) : Touches [.regs] aboveDies s (s.laneFromMap l x) :=
  have lane := aboveDies_of_base (n := .LANE_CONFIG) (by decide) l
  ((setFld_touches s F.LANE_CONFIG_MODE l _ lane).trans (setFld_touches _ F.LANE_CONFIG_TX_INVERT l _ lane)).trans
    (setFld_touches _ F.LANE_CONFIG_TX_ORDER l _ lane)

theorem portFromMap_touches (s : State) (c : PortCfg) : Touches [.regs] aboveDies s (s.portFromMap c) :=
  have link := aboveDies_of_base (n := .PORT_LINK) (by decide) c.lane0
  ((setFld_touches s F.PORT_LINK_WIDTH c.lane0 _ link).trans (setFld_touches _ F.PORT_LINK_MEDIUM c.lane0 _ link)).trans
    (setReg_touches _ .LINK_ASYM c.lane0 _ (aboveDies_of_base (by decide) _))

theorem lanesFromMap_touches (s : State) (cs : List Nat) : Touches [.regs] aboveDies s (s.lanesFromMap cs) := by
  refine .trans (.foldl _ _ s fun s x _ => ?_) (.foldl _ _ _ fun s c _ => ?_)
  · split
    · exact laneFromMap_touches s _ _
    · exact .refl _ _ s
  · split
    · exact portFromMap_touches s c
    · exact .refl _ _ s

/-! ## Ranges of registers that are cleared (R550, R553) -/

theorem sget_clearRange (s : State) (lo hi k : Nat) : sget k (s.clearRange lo hi).regs =
    if !(decide (lo ≤ k) && decide (k < hi)) || powerOnRegs.contains k then sget k s.regs else none :=
  sget_filter (fun k => !(decide (lo ≤ k) && decide (k < hi)) || powerOnRegs.contains k) k s.regs

theorem clearRange_touches (s : State) (lo hi : Nat) :
    Touches [.regs, .arrays] (fun k => lo ≤ k ∧ k < hi) s (s.clearRange lo hi) where
  parts := fun p hp => by
    cases p
    case regs => exact absurd (by decide) hp
    case arrays => exact absurd (by decide) hp
    all_goals rfl
  regs := fun k outside => by
    have kept : (!(decide (lo ≤ k) && decide (k < hi)) || powerOnRegs.contains k) = true := by
      rw [← Bool.decide_and, decide_eq_false outside]
      rfl
    rw [sget_clearRange, kept, if_pos rfl]

/-- A register of the range that is not of the power-on domain reads as its reset value. -/
theorem reg_clearRange (s : State) (lo hi : Nat) (n : RegName) (i : Nat) (low : lo ≤ regAddr n i) (high : regAddr n i < hi)
    (plain : powerOnRegs.contains (regAddr n i) = false) : (s.clearRange lo hi).reg n i = regReset n i := by
  have gone : sget (regAddr n i) (s.clearRange lo hi).regs = none := by
    rw [sget_clearRange, plain, decide_eq_true low, decide_eq_true high]
    rfl
  rw [State.reg, gone]

theorem chipletsReset_touches (s : State) (cs : List Nat) (dark : s.portsDark) :
    Touches [.regs, .arrays] aboveDies s (s.chipletsReset cs) := by
  have cleared (s : State) (c : Nat) : Touches [.regs, .arrays] aboveDies s (s.clearChiplet c) :=
    (clearRange_touches s _ _).mono (fun _ => id) fun k h => by
      rw [aboveDies]
      omega
  exact ((portsLost_touches cs s.ports s dark).mono (by decide) fun _ => id).trans
    ((Touches.foldl _ cs _ fun s c _ => cleared s c).trans ((lanesFromMap_touches _ cs).mono (by decide) fun _ => id))

/-! ## Islands forced to input 0 (R469) -/

theorem islandsReset_touches (s : State) (is : List Nat) :
    Touches [.regs] (fun k => ∃ i ∈ is, k = regAddr .ISLAND_CLOCK i) s (s.islandsReset is) :=
  Touches.foldl _ is s fun s i hi => setReg_touches s .ISLAND_CLOCK i 0 ⟨i, hi, rfl⟩

/-- An island of the list, or one whose register is 0 as it is, has the value 0. -/
theorem islandsReset_reg (i : Nat) : ∀ (is : List Nat) (s : State), i ∈ is ∨ s.reg .ISLAND_CLOCK i = 0 →
    (s.islandsReset is).reg .ISLAND_CLOCK i = 0
  | [], _, h => h.resolve_left List.not_mem_nil
  | j :: is, s, h => by
    refine islandsReset_reg i is (s.setReg .ISLAND_CLOCK j 0) ?_
    by_cases e : j = i
    · subst e
      exact .inr (reg_setReg s _ _ _ (by decide))
    · refine h.imp (fun h => (List.mem_cons.mp h).resolve_left (Ne.symm e)) fun h => ?_
      rw [reg_setReg_ne, h]
      rw [regAddr_islandClock, regAddr_islandClock]
      omega

/-! ## The reset of a chiplet (R469) -/

theorem portEnable_touches (s : State) (c : PortCfg) : Touches [.regs] aboveDies s (s.portEnable c) := by
  unfold State.portEnable
  split
  · exact setFld_touches s _ _ _ (aboveDies_of_base (by decide) _)
  · exact .refl _ _ s

/-- The ports of a chiplet come up again where they may. -/
def State.portsEnabled (s : State) (ps : List PortCfg) (c : Nat) : State :=
  ps.foldl (fun s p => if p.lane0 / 32 = c then s.portEnable p else s) s

theorem portsEnabled_touches (s : State) (ps : List PortCfg) (c : Nat) :
    Touches [.regs] aboveDies s (s.portsEnabled ps c) :=
  Touches.foldl _ ps s fun s p _ => by
    split
    · exact portEnable_touches s p
    · exact .refl _ _ s

theorem chipletReset_stages (s : State) (c : Nat) : s.chipletReset c =
    ((s.chipletsReset [c]).islandsReset [25 + c]).portsEnabled ((s.chipletsReset [c]).islandsReset [25 + c]).ports c := rfl

theorem chipletReset_parts (s : State) (c : Nat) (dark : s.portsDark) : onlyParts [.regs, .arrays] s (s.chipletReset c) := by
  rw [chipletReset_stages]
  exact onlyParts_trans (chipletsReset_touches s [c] dark).parts (onlyParts_mono
    (onlyParts_trans (islandsReset_touches _ _).parts (portsEnabled_touches _ _ _).parts) (by decide))

theorem chipletReset_island (s : State) (c : Nat) (h : c < 32) : (s.chipletReset c).reg .ISLAND_CLOCK (25 + c) = 0 := by
  rw [chipletReset_stages, (portsEnabled_touches _ _ c).regs.reg]
  · exact islandsReset_reg _ _ _ (.inl List.mem_cons_self)
  · rw [aboveDies, regAddr_islandClock]
    omega

/-! ## The packet buffer of a die that is reset (R554) -/

/-- The registers in which copies that leave a packet buffer show. -/
def bufferRegs (k : Nat) : Prop := (∃ d, k = regAddr .REFCOUNT_STATUS d) ∨ ∃ p, k = regAddr .PORT_BUFFER p

theorem refreshPause_regs (s : State) (p : Nat) : regsAt bufferRegs s (s.refreshPause p) := by
  unfold State.refreshPause
  dsimp only
  split
  · exact regsAt_refl _ s
  · exact regsAt_trans (regsAt_setFld s _ _ _ (.inr ⟨p, rfl⟩))
      (regsAt_of_parts (onlyParts_trans (mapCore_parts _ _) (transmit_parts _ _ _)) (by decide))

theorem comeToHead_regs (die src : Nat) (dest : Dest) (vc : Nat) : ∀ (n : Nat) (s : State),
    regsAt bufferRegs s (s.comeToHead die src dest vc n)
  | 0, s => regsAt_refl _ s
  | n + 1, s => by
    unfold State.comeToHead
    split
    · exact regsAt_refl _ s
    · split
      · refine regsAt_trans ?_ (comeToHead_regs die src dest vc n _)
        exact regsAt_trans (regsAt_of_parts (mapCore_parts s fun k => { k with copies := _ }) (by decide))
          (regsAt_trans (regsAt_setFld _ _ _ _ (.inl ⟨die, rfl⟩)) (regsAt_of_parts (msgSent_parts _ _) (by decide)))
      · split
        · exact regsAt_refl _ s
        · exact regsAt_of_parts (mapCopy_parts s _ _) (by decide)

theorem admitLocal_regs (s : State) (h : Held) (cs : List Copy) : regsAt bufferRegs s (s.admitLocal h cs) :=
  regsAt_trans (regsAt_of_parts (mapCore_parts s _) (by decide))
    (regsAt_foldl (fun s (c : Copy) => s.markHead c.die c.src c.dest c.vc) _ _ fun s _ _ => comeToHead_regs _ _ _ _ _ s)

theorem drainLocal_regs (s : State) (d : Nat) : regsAt bufferRegs s (s.drainLocal d) := by
  refine regsAt_trans (regsAt_of_parts (mapCore_parts s _) (by decide)) (regsAt_foldl _ _ _ fun s x _ => ?_)
  split
  · exact regsAt_of_parts (mapCore_parts s _) (by decide)
  · exact admitLocal_regs s _ _

theorem releaseCopy_regs (s : State) (cid : Nat) : regsAt bufferRegs s (s.releaseCopy cid) := by
  unfold State.releaseCopy
  split
  · exact regsAt_refl _ s
  · rename_i c _
    have marked : regsAt bufferRegs s
        ((s.mapCore fun k => { k with copies := k.copies.filter fun x => x.cid != cid }).markHead c.die c.src c.dest c.vc) :=
      regsAt_trans (regsAt_of_parts (mapCore_parts s _) (by decide)) (comeToHead_regs _ _ _ _ _ _)
    dsimp only
    generalize (s.mapCore fun k => { k with copies := k.copies.filter fun x => x.cid != cid }).markHead
      c.die c.src c.dest c.vc = t at marked ⊢
    split
    · exact marked
    · refine regsAt_trans marked (regsAt_trans (regsAt_of_parts (c := [.core]) ?_ (by decide))
        (regsAt_trans (drainLocal_regs _ _) (regsAt_foldl _ _ _ fun s p _ => refreshPause_regs s p)))
      repeat' split
      · exact freeHeld_parts _ _
      · exact onlyParts_refl _ _
      · exact freeHeld_parts _ _
      · exact mapHeld_parts _ _ _

theorem dropCopy_regs (s : State) (cid : Nat) : regsAt bufferRegs s (s.dropCopy cid) := by
  unfold State.dropCopy
  split
  · exact regsAt_refl _ s
  · exact regsAt_trans (releaseCopy_regs s cid) (regsAt_of_parts (msgSent_parts _ _) (by decide))

theorem dropCopies_touches (s : State) (q : Copy → Bool) : Touches coreParts bufferRegs s (s.dropCopies q) where
  parts := dropCopies_parts s q
  regs := regsAt_trans
    (regsAt_trans (regsAt_of_parts (mapCore_parts s _) (by decide))
      (regsAt_foldl (fun s (c : Copy) => s.msgSent c.msg) _ _ fun s _ _ => regsAt_of_parts (msgSent_parts s _) (by decide)))
    (regsAt_foldl _ _ _ fun s cid _ => dropCopy_regs s cid)

/-- What the SRAM of a die held is gone, and forwarding stops. -/
def State.dieDropped (s : State) (d : Nat) : State := (s.dropDieCore d).mapCore fun k => { k with forwarding := false }

/-- The parts of the state that the loss of a die's SRAM changes. -/
def sramParts : List Part := [.regs, .core, .outs, .ctxs, .descCache, .dieTables, .mcs, .jobs]

theorem dieDropped_touches (s : State) (d : Nat) : Touches sramParts bufferRegs s (s.dieDropped d) := by
  unfold State.dieDropped State.dropDieCore
  dsimp only
  generalize dropped : s.dropCopies _ = u
  have copies : Touches sramParts bufferRegs s u := dropped ▸ (dropCopies_touches s _).mono (by decide) fun _ => id
  refine copies.trans ⟨fun p hp => ?_, regsAt_of_eq rfl⟩
  cases p
  case core => exact absurd (by decide) hp
  case ctxs => exact absurd (by decide) hp
  case descCache => exact absurd (by decide) hp
  case dieTables => exact absurd (by decide) hp
  case mcs => exact absurd (by decide) hp
  case jobs => exact absurd (by decide) hp
  all_goals rfl

/-- Nothing that the SRAM of die d held is left, and the switch does not forward. -/
structure State.DieGone (t : State) (d : Nat) : Prop where
  forwarding : t.core.forwarding = false
  ctxs : ∀ x ∈ t.ctxs, x.2.mill / 32 ≠ d
  held : ∀ h ∈ t.core.held, h.die ≠ d
  dieTables : ∀ x ∈ t.dieTables, x.die ≠ d
  descCache : ∀ x ∈ t.descCache, x.1 ≠ d
  pcs : ∀ x ∈ t.core.pcs, dieOf x.port ≠ d
  backlog : ∀ x ∈ t.core.backlog, x.1.die ≠ d

/-- What a filter by inequality leaves differs. -/
theorem ne_of_mem_filter {α : Type} {f : α → Nat} {d : Nat} {l : List α} {x : α} (h : x ∈ l.filter fun x => f x != d) :
    f x ≠ d := bne_iff_ne.mp (List.mem_filter.mp h).2

theorem dieDropped_gone (s : State) (d : Nat) : (s.dieDropped d).DieGone d where
  forwarding := rfl
  ctxs := fun _ h => ne_of_mem_filter (f := fun x : Nat × Ctx => x.2.mill / 32) h
  held := fun _ h => ne_of_mem_filter h
  dieTables := fun _ h => ne_of_mem_filter h
  descCache := fun _ h => ne_of_mem_filter h
  pcs := fun _ h => ne_of_mem_filter (f := fun x : PcsTx => dieOf x.port) h
  backlog := fun _ h => ne_of_mem_filter (f := fun x : Held × List Copy => x.1.die) h

/-- It stays gone where those parts do not change. -/
theorem State.DieGone.of_parts {s t : State} {d : Nat} {c : List Part} (g : s.DieGone d) (a : onlyParts c s t)
    (h : ∀ p ∈ c, p ∉ [Part.core, .ctxs, .dieTables, .descCache]) : t.DieGone d := by
  have same (p : Part) (hp : p ∈ [Part.core, .ctxs, .dieTables, .descCache]) : p.same s t := a p fun hc => h p hc hp
  have core : t.core = s.core := same .core (by decide)
  have ctxs : t.ctxs = s.ctxs := same .ctxs (by decide)
  have tables : t.dieTables = s.dieTables := same .dieTables (by decide)
  have cache : t.descCache = s.descCache := same .descCache (by decide)
  obtain ⟨g1, g2, g3, g4, g5, g6, g7⟩ := g
  constructor <;> simpa only [core, ctxs, tables, cache]

/-! ## The registers of a die that is reset (R553, R554) -/

/-- The islands of a fabric die: its own, and those of its stacks' controllers. -/
def dieIslands (d : Nat) : List Nat := (1 + d) :: (stacksOf d).map (5 + ·)

theorem mem_dieIslands {i : Nat} (low : 1 ≤ i) (high : i < 25) : i ∈ dieIslands (islandDie i) := by
  revert i
  decide

theorem dieIslands_lt {d i : Nat} (hd : d < 4) (h : i ∈ dieIslands d) : i < 25 := by
  have all : ∀ d < 4, ∀ i ∈ dieIslands d, i < 25 := by decide
  exact all d hd i h

/-- The registers of a die and its stacks start over; the stacks' contents are kept. -/
def State.dieCleared (s : State) (d : Nat) : State :=
  (((s.stacksHold d).clearDie d).dropAddrHigh d).islandsReset (dieIslands d)

theorem stacksHold_touches (s : State) (d : Nat) : Touches [.regs, .arrays] aboveDies s (s.stacksHold d) :=
  Touches.foldl _ (stacksOf d) s fun s k _ => by
    have cleared : Touches [.regs, .arrays] aboveDies s (s.clearStack k) :=
      (clearRange_touches s _ _).mono (fun _ => id) fun a h => by
        rw [aboveDies]
        omega
    exact cleared.trans ((setFld_touches _ F.MEM_STATUS_STATE k _ (aboveDies_of_base (by decide) k)).mono (by decide) fun _ => id)

theorem clearDie_touches (s : State) (d : Nat) : Touches [.regs, .arrays] (inDie d) s (s.clearDie d) :=
  clearRange_touches s _ _

theorem dropAddrHigh_parts (s : State) (d : Nat) : onlyParts [.memory] s (s.dropAddrHigh d) := fun p hp => by
  cases p
  case memory => exact absurd (by decide) hp
  all_goals rfl

theorem dieCleared_touches (s : State) (d : Nat) (hd : d < 4) :
    Touches [.regs, .arrays, .memory] (fun k => aboveDies k ∨ inDie d k ∨ inControl k) s (s.dieCleared d) := by
  refine ((stacksHold_touches s d).mono (by decide) fun _ => .inl).trans
    (((clearDie_touches _ d).mono (by decide) fun _ h => .inr (.inl h)).trans
      (((Touches.of_parts (dropAddrHigh_parts _ d) (by decide)).mono (by decide) fun _ => id).trans
        ((islandsReset_touches _ _).mono (by decide) ?_)))
  rintro _ ⟨i, hi, rfl⟩
  exact .inr (.inr (inControl_islandClock (by have := dieIslands_lt hd hi; omega)))

theorem dieCleared_island (s : State) {d i : Nat} (h : i ∈ dieIslands d) : (s.dieCleared d).reg .ISLAND_CLOCK i = 0 :=
  islandsReset_reg i _ _ (.inl h)

theorem dieCleared_bridgeStatus (s : State) {d : Nat} (hd : d < 4) :
    (s.dieCleared d).reg .BRIDGE_STATUS d = regReset .BRIDGE_STATUS d := by
  have plain : ∀ d < 4, powerOnRegs.contains (regAddr .BRIDGE_STATUS d) = false := by decide
  obtain ⟨low, high⟩ := (inDie_regAddr (n := .BRIDGE_STATUS) (by decide) d d).mpr rfl
  have apart : ¬ ∃ i ∈ dieIslands d, regAddr .BRIDGE_STATUS d = regAddr .ISLAND_CLOCK i := by
    rintro ⟨i, hi, e⟩
    have := dieIslands_lt hd hi
    rw [regAddr_bridgeStatus, regAddr_islandClock] at e
    omega
  rw [State.dieCleared, (islandsReset_touches _ _).regs.reg _ _ apart,
    (regsAt_of_parts (Q := fun _ => False) (dropAddrHigh_parts _ d) (by decide)).reg _ _ id]
  exact reg_clearRange _ _ _ _ _ low high (plain d hd)

/-- The other dies see their bridges to die d down. -/
def State.bridgesDown (s : State) (d : Nat) (ps : List Nat) : State :=
  ps.foldl (fun s p => if p = d then s else s.setFld F.BRIDGE_STATUS_BRIDGE_UP p
    (s.fld F.BRIDGE_STATUS_BRIDGE_UP p &&& (15 - 2 ^ d))) s

theorem bridgesDown_touches (s : State) (d : Nat) (ps : List Nat) :
    Touches [.regs] (fun k => ∃ p, p ≠ d ∧ k = regAddr .BRIDGE_STATUS p) s (s.bridgesDown d ps) :=
  Touches.foldl _ ps s fun s p _ => by
    split
    · exact .refl _ _ s
    · rename_i ne
      exact setFld_touches s _ p _ ⟨p, ne, rfl⟩

theorem bridgesDown_bit (d e : Nat) (hd : d < 4) (ne : e ≠ d) : ∀ (ps : List Nat) (s : State),
    e ∈ ps ∨ bitOf (s.fld F.BRIDGE_STATUS_BRIDGE_UP e) d = false →
      bitOf ((s.bridgesDown d ps).fld F.BRIDGE_STATUS_BRIDGE_UP e) d = false
  | [], _, h => h.resolve_left List.not_mem_nil
  | p :: ps, s, h => by
    refine bridgesDown_bit d e hd ne ps _ ?_
    dsimp only
    by_cases own : p = e
    · subst own
      right
      rw [if_neg ne, bitOf_fld_setFld _ _ _ _ _ (by decide)]
      exact (congrArg _ (bitOf_and_clear _ d 4 hd)).trans (Bool.and_false _)
    · refine h.imp (fun h => (List.mem_cons.mp h).resolve_left (Ne.symm own)) fun h => ?_
      split
      · exact h
      · rw [fld_setFld_ne _ F.BRIDGE_STATUS_BRIDGE_UP F.BRIDGE_STATUS_BRIDGE_UP p e _ (regAddr_bridgeStatus_ne own)]
        exact h

/-- The lane groups of a die wait for their release, and its bridges may train again. -/
def State.groupsWait (s : State) (d : Nat) : State :=
  let gs := [2 * d, 2 * d + 1]
  s.mapPower fun w => { w with
    groups := w.groups.filter fun g => !gs.contains g
    deadBridges := w.deadBridges.filter fun b => b.1 != d && b.2 != d
    release := w.release.filter (fun u => !(gs.map PowerUnit.laneGroup).contains u) ++ gs.map PowerUnit.laneGroup }

theorem groupsWait_parts (s : State) (d : Nat) : onlyParts [.power] s (s.groupsWait d) := mapPower_parts s _

theorem groupsWait_dies (s : State) (d : Nat) : (s.groupsWait d).power.dies = s.power.dies := rfl

theorem groupsWait_groups (s : State) (d : Nat) : ∀ g ∈ (s.groupsWait d).power.groups, g ≠ 2 * d ∧ g ≠ 2 * d + 1 := by
  intro g h
  have kept : (!([2 * d, 2 * d + 1].contains g)) = true := (List.mem_filter.mp h).2
  simpa using kept

/-! ## What a reset die is given again (R554; log entry 27) -/

/-- The registers of die d but BRIDGE_STATUS. -/
def refilled (d k : Nat) : Prop := inDie d k ∧ k ≠ regAddr .BRIDGE_STATUS d

theorem refilled_regAddr {n : RegName} (h : onePerDie n = true) (base : (regRow n).base ≠ 0x10000100) (d : Nat) :
    refilled d (regAddr n d) := by
  refine ⟨(inDie_regAddr h d d).mpr rfl, ?_⟩
  rw [(regAddr_onePerDie h d).1, regAddr_bridgeStatus]
  omega

theorem refilled_portBuffer (p : Nat) : refilled (dieOf p) (regAddr .PORT_BUFFER p) := by
  rw [refilled, inDie, regAddr_portBuffer, regAddr_bridgeStatus, dieOf]
  omega

theorem dieFromImage_touches (s : State) (d : Nat) : Touches [.regs] (refilled d) s (s.dieFromImage d) := by
  have weights (s : State) (v w : Nat) :
      Touches [.regs] (refilled d) s ((s.setReg .VC_WEIGHTS_LOW d v).setReg .VC_WEIGHTS_HIGH d w) :=
    (setReg_touches s _ d v (refilled_regAddr (by decide) (by decide) d)).trans
      (setReg_touches _ _ d w (refilled_regAddr (by decide) (by decide) d))
  have position (s : State) (f : Fld) (v : Nat) (h : f.reg = .SWITCH_POSITION ∨ f.reg = .ROUTE_CONTROL) :
      Touches [.regs] (refilled d) s (s.setFld f d v) := by
    refine setFld_touches s f d v ?_
    rcases h with e | e <;> rw [e] <;> exact refilled_regAddr (by decide) (by decide) d
  refine .trans (((((((weights s _ _).trans (position _ _ _ (.inl rfl))).trans (position _ _ _ (.inl rfl))).trans
    (position _ _ _ (.inl rfl))).trans (position _ _ _ (.inl rfl))).trans (position _ _ _ (.inr rfl))).trans
      (position _ _ _ (.inr rfl))) (.foldl _ _ _ fun s c hc => ?_)
  have die : dieOf c.num = d := beq_iff_eq.mp (List.mem_filter.mp hc).2
  exact setFld_touches s _ _ _ (die ▸ refilled_portBuffer c.num)

theorem routeRegsFrom_touches (s : State) (d : Nat) : Touches [.regs] (refilled d) s (s.routeRegsFrom d) := by
  unfold State.routeRegsFrom
  split
  · exact .refl _ _ s
  · refine .foldl _ _ s fun s n hn => setReg_touches s n d _ ?_
    have routing : ∀ n ∈ [RegName.ROUTE_CONTROL, .ROUTE_DISCARDS, .EPOCH_DISCARDS],
        onePerDie n = true ∧ (regRow n).base ≠ 0x10000100 := by decide
    obtain ⟨one, base⟩ := routing n hn
    exact refilled_regAddr one base d

/-- ROUTE_CONTROL is that of the die it is taken from. -/
theorem routeRegsFrom_routeControl (s : State) (d e : Nat) (h : (s.power.dies.filter (· != d)).head? = some e) :
    (s.routeRegsFrom d).reg .ROUTE_CONTROL d = s.reg .ROUTE_CONTROL e := by
  have apart (n : RegName) (one : onePerDie n = true) (base : (regRow n).base ≠ (regRow .ROUTE_CONTROL).base) :
      regAddr n d ≠ regAddr .ROUTE_CONTROL d := by
    rw [(regAddr_onePerDie one d).1, (regAddr_onePerDie (n := .ROUTE_CONTROL) (by decide) d).1]
    omega
  rw [State.routeRegsFrom, h]
  simp only [List.foldl_cons, List.foldl_nil]
  rw [reg_setReg_ne _ _ _ _ _ _ (apart .EPOCH_DISCARDS (by decide) (by decide)),
    reg_setReg_ne _ _ _ _ _ _ (apart .ROUTE_DISCARDS (by decide) (by decide)), reg_setReg _ _ _ _ (s.reg_lt _ _)]

theorem haltDie_touches (s : State) (d : Nat) : Touches [.regs, .power] (· = regAddr .WT_STATUS 0) s (s.haltDie d) := by
  have noted (r : List Nat) : Touches [.regs, .power] (· = regAddr .WT_STATUS 0) s
      (s.mapPower fun w => { w with haltReset := r }) :=
    (Touches.of_parts (mapPower_parts s _) (by decide)).mono (by decide) fun _ => id
  unfold State.haltDie
  split
  · exact .refl _ _ s
  · dsimp only
    split
    · exact (noted _).trans ((setFld_touches (Q := (· = regAddr .WT_STATUS 0)) _ F.WT_STATUS_HALTED 0 _ rfl).mono (by decide)
        fun _ => id)
    · exact noted _

theorem haltDie_groups (s : State) (d : Nat) : (s.haltDie d).power.groups = s.power.groups := by
  unfold State.haltDie
  split
  · rfl
  · dsimp only
    split
    · rw [setFlag_power]
    · rfl

/-- What a reset die is given again; HALTED once every die has been reset. -/
def State.dieFilled (s : State) (d : Nat) : State := ((s.dieFromImage d).routeRegsFrom d).haltDie d

theorem dieFilled_touches (s : State) (d : Nat) :
    Touches [.regs, .power] (fun k => refilled d k ∨ k = regAddr .WT_STATUS 0) s (s.dieFilled d) :=
  (((dieFromImage_touches s d).trans (routeRegsFrom_touches _ d)).mono (by decide) fun _ => .inl).trans
    ((haltDie_touches _ d).mono (fun _ => id) fun _ => .inr)

theorem dieFilled_groups (s : State) (d : Nat) : (s.dieFilled d).power.groups = s.power.groups := by
  have power : ((s.dieFromImage d).routeRegsFrom d).power = s.power :=
    onlyParts_trans (dieFromImage_touches s d).parts (routeRegsFrom_touches _ d).parts .power (by decide)
  rw [State.dieFilled, haltDie_groups, power]

theorem dieFilled_routeControl (s : State) {d e : Nat} (hd : d < 4) (h : (s.power.dies.filter (· != d)).head? = some e) :
    (s.dieFilled d).reg .ROUTE_CONTROL d = s.reg .ROUTE_CONTROL e := by
  have power : (s.dieFromImage d).power = s.power := (dieFromImage_touches s d).parts .power (by decide)
  have ne : e ≠ d := ne_of_mem_filter (f := id) (List.mem_of_mem_head? h)
  have other : ¬ refilled d (regAddr .ROUTE_CONTROL e) := fun r => ne ((inDie_regAddr (by decide) e d).mp r.1)
  have apart : regAddr .ROUTE_CONTROL d ≠ regAddr .WT_STATUS 0 := by
    rw [regAddr_routeControl, regAddr_wtStatus]
    omega
  rw [State.dieFilled, (haltDie_touches _ d).regs.reg _ _ apart, routeRegsFrom_routeControl _ d e (by rw [power, h]),
    (dieFromImage_touches s d).regs.reg _ _ other]

/-- A die whose chiplets, SRAM and registers have been reset. -/
def State.dieEmptied (s : State) (d : Nat) : State := ((s.chipletsReset (chipletsOf d)).dieDropped d).dieCleared d

/-- The reset of a die while no job is loaded that it would strand. -/
theorem dieReset_stages (s : State) (d : Nat) (dark : s.portsDark) (jobs : s.jobs = []) : s.dieReset d =
    (((s.dieEmptied d).bridgesDown d (List.range 4)).groupsWait d).dieFilled d := by
  have none : (s.chipletsReset (chipletsOf d)).jobs = [] := ((chipletsReset_touches s _ dark).parts .jobs (by decide)).trans jobs
  unfold State.dieReset
  simp only [none]
  rfl

section
variable {s : State} {d : Nat}

theorem dieEmptied_touches (hd : d < 4) (dark : s.portsDark) : Touches (.arrays :: .memory :: sramParts)
    (fun k => aboveDies k ∨ bufferRegs k ∨ inDie d k ∨ inControl k) s (s.dieEmptied d) :=
  ((chipletsReset_touches s _ dark).mono (by decide) fun _ => .inl).trans
    (((dieDropped_touches _ d).mono (by decide) fun _ h => .inr (.inl h)).trans
      ((dieCleared_touches _ d hd).mono (by decide) fun _ h => h.imp_right .inr))

/-- What follows leaves the die's own BRIDGE_STATUS and the islands alone. -/
theorem dieReset_after (dark : s.portsDark) (jobs : s.jobs = []) : Touches [.regs, .power]
    (fun k => (∃ p, p ≠ d ∧ k = regAddr .BRIDGE_STATUS p) ∨ refilled d k ∨ k = regAddr .WT_STATUS 0)
    (s.dieEmptied d) (s.dieReset d) := by
  rw [dieReset_stages s d dark jobs]
  exact ((bridgesDown_touches _ d _).mono (by decide) fun _ => .inl).trans
    (((Touches.of_parts (groupsWait_parts _ d) (by decide)).mono (by decide) fun _ => id).trans
      ((dieFilled_touches _ d).mono (fun _ => id) fun _ => .inr))

theorem dieReset_gone (hd : d < 4) (dark : s.portsDark) (jobs : s.jobs = []) : (s.dieReset d).DieGone d :=
  ((dieDropped_gone _ d).of_parts (dieCleared_touches _ d hd).parts (by decide)).of_parts
    (dieReset_after dark jobs).parts (by decide)

theorem dieReset_mem (hd : d < 4) (dark : s.portsDark) (jobs : s.jobs = []) : (s.dieReset d).mem = s.mem :=
  ((dieReset_after dark jobs).parts .mem (by decide)).trans ((dieEmptied_touches hd dark).parts .mem (by decide))

theorem dieReset_bridgeStatus (hd : d < 4) (dark : s.portsDark) (jobs : s.jobs = []) :
    (s.dieReset d).reg .BRIDGE_STATUS d = regReset .BRIDGE_STATUS d := by
  rw [(dieReset_after dark jobs).regs.reg, State.dieEmptied, dieCleared_bridgeStatus _ hd]
  rintro (⟨p, ne, e⟩ | r | e)
  · exact regAddr_bridgeStatus_ne ne e.symm
  · exact r.2 rfl
  · rw [regAddr_bridgeStatus, regAddr_wtStatus] at e
    omega

theorem dieReset_island (dark : s.portsDark) (jobs : s.jobs = []) {i : Nat} (hi : i < 25) (own : i ∈ dieIslands d) :
    (s.dieReset d).reg .ISLAND_CLOCK i = 0 := by
  rw [(dieReset_after dark jobs).regs.reg, State.dieEmptied, dieCleared_island _ own]
  rw [regAddr_islandClock, regAddr_wtStatus]
  rintro (⟨p, _, e⟩ | ⟨r, _⟩ | e)
  · rw [regAddr_bridgeStatus] at e
    omega
  · rw [inDie] at r
    omega
  · omega

theorem dieReset_bridges (hd : d < 4) (dark : s.portsDark) (jobs : s.jobs = []) {e : Nat} (he : e < 4) (ne : e ≠ d) :
    bitOf ((s.dieReset d).fld F.BRIDGE_STATUS_BRIDGE_UP e) d = false := by
  have down := bridgesDown_bit d e hd ne (List.range 4) (s.dieEmptied d) (.inl (List.mem_range.mpr he))
  rw [dieReset_stages s d dark jobs, (dieFilled_touches _ d).regs.fld, (regsAt_of_parts (Q := fun _ => False)
    (groupsWait_parts _ d) (by decide)).fld _ _ id]
  · exact down
  · show ¬ (refilled d (regAddr .BRIDGE_STATUS e) ∨ _)
    rintro (r | w)
    · exact ne ((inDie_regAddr (by decide) e d).mp r.1)
    · have addr : regAddr .BRIDGE_STATUS e = regAddr .WT_STATUS 0 := w
      rw [regAddr_bridgeStatus, regAddr_wtStatus] at addr
      omega

theorem dieReset_groups (dark : s.portsDark) (jobs : s.jobs = []) :
    ∀ g ∈ (s.dieReset d).power.groups, g ≠ 2 * d ∧ g ≠ 2 * d + 1 := by
  rw [dieReset_stages s d dark jobs, dieFilled_groups]
  exact groupsWait_groups _ d

/-- ROUTE_CONTROL of another die is none of the registers that the reset of die d takes back. -/
theorem dieEmptied_routeControl (hd : d < 4) (dark : s.portsDark) {e : Nat} (he : e < 4) (ne : e ≠ d) :
    (s.dieEmptied d).reg .ROUTE_CONTROL e = s.reg .ROUTE_CONTROL e := by
  refine (dieEmptied_touches hd dark).regs.reg _ _ ?_
  rintro (above | (⟨x, q⟩ | ⟨p, q⟩) | own | control)
  · rw [aboveDies, regAddr_routeControl] at above
    omega
  · rw [regAddr_refcountStatus, regAddr_routeControl] at q
    omega
  · rw [regAddr_portBuffer, regAddr_routeControl] at q
    omega
  · exact ne ((inDie_regAddr (by decide) e d).mp own)
  · rw [inControl, regAddr_routeControl] at control
    omega

theorem dieReset_routeControl (hd : d < 4) (dark : s.portsDark) (jobs : s.jobs = []) {e : Nat} (he : e < 4)
    (source : (s.power.dies.filter (· != d)).head? = some e) :
    (s.dieReset d).reg .ROUTE_CONTROL d = s.reg .ROUTE_CONTROL e := by
  have ne : e ≠ d := ne_of_mem_filter (f := id) (List.mem_of_mem_head? source)
  have power : (s.dieEmptied d).power = s.power := (dieEmptied_touches hd dark).parts .power (by decide)
  have down := bridgesDown_touches (s.dieEmptied d) d (List.range 4)
  have dies : (((s.dieEmptied d).bridgesDown d (List.range 4)).groupsWait d).power.dies = s.power.dies :=
    (groupsWait_dies _ d).trans (congrArg PowerSt.dies ((down.parts .power (by decide)).trans power))
  have apart : ¬ ∃ p, p ≠ d ∧ regAddr .ROUTE_CONTROL e = regAddr .BRIDGE_STATUS p := by
    rintro ⟨p, _, q⟩
    rw [regAddr_routeControl, regAddr_bridgeStatus] at q
    omega
  rw [dieReset_stages s d dark jobs, dieFilled_routeControl _ hd (by rw [dies, source]),
    (regsAt_of_parts (Q := fun _ => False) (groupsWait_parts _ d) (by decide)).reg _ _ id,
    down.regs.reg _ _ apart, dieEmptied_routeControl hd dark he ne]

end

/-! ## DOMAIN_RESET (R469) -/

theorem exec_domainReset (s : State) (w : Word) : exec (.domainReset w) s = .next (s.domainReset w.toNat) := rfl

/-- Without the key, during a sag, and for an island that no domain is reset by, nothing happens. -/
theorem domainReset_nothing (s : State) (v : Nat) (h : bitsOf v 31 24 ≠ 0x5D ∨ bitsOf v 5 0 = 0 ∨ 57 ≤ bitsOf v 5 0
    ∨ s.power.sag.isSome = true) : s.domainReset v = s := by
  unfold State.domainReset
  dsimp only
  split
  · rfl
  · rename_i proceeds
    rw [Bool.or_eq_true, bne_iff_ne, not_or] at proceeds
    have outside := (h.resolve_left proceeds.1).imp_right fun h => h.resolve_right proceeds.2
    rw [if_neg (by omega), if_neg (by rw [islands]; omega)]

/-- The reset of an island of a powered die. -/
theorem domainReset_die (s : State) (v : Nat) (key : bitsOf v 31 24 = 0x5D) (sag : s.power.sag = none)
    (low : 1 ≤ bitsOf v 5 0) (high : bitsOf v 5 0 < 25) (on : s.power.dies.contains (islandDie (bitsOf v 5 0)) = true) :
    s.domainReset v = s.dieReset (islandDie (bitsOf v 5 0)) := by
  unfold State.domainReset
  dsimp only
  rw [key, sag, if_neg (by decide), if_pos ⟨low, high⟩, if_pos on]

/-- The reset of an island of a chiplet whose lane group is powered. -/
theorem domainReset_chiplet (s : State) (v : Nat) (key : bitsOf v 31 24 = 0x5D) (sag : s.power.sag = none)
    (low : 25 ≤ bitsOf v 5 0) (high : bitsOf v 5 0 < 57) (on : s.power.groups.contains ((bitsOf v 5 0 - 25) / 4) = true) :
    s.domainReset v = s.chipletReset (bitsOf v 5 0 - 25) := by
  unfold State.domainReset
  dsimp only
  rw [key, sag, if_neg (by decide), if_neg (by omega), if_pos ⟨low, high⟩, if_pos on]

theorem islandDie_lt {i : Nat} (low : 1 ≤ i) (high : i < 25) : islandDie i < 4 := by
  revert i
  decide

/-- Settles O41: a bridge that fails or trains by the bits that it writes and what it leaves alone, the reset of a die stage by
stage, that of a chiplet by its ports, which have no PCS lock. -/
theorem bridgesAndDomainResets : Obligations.BridgesAndDomainResets := by
  unfold Obligations.BridgesAndDomainResets
  refine ⟨fun s d p hd hp ne on => ⟨bridgeFatal_dies s d p hd hp ne on, bridgeTrained_dead s d p hp ne on,
    bridgeTrained_dies s d p hd hp ne on⟩,
    fun s d g hd hg on => ⟨bridgeFatal_chiplet s d g hd hg on, bridgeTrained_chiplet s d g hg on⟩, ?_⟩
  rintro s w i rfl
  refine ⟨fun h => ⟨s, ?_, rfl⟩, ?_, fun key sag low high on dark => ⟨s.chipletReset (bitsOf w.toNat 5 0 - 25), ?_, ?_, ?_⟩⟩
  · rw [exec_domainReset, domainReset_nothing s _ h]
  · rintro d key sag low high rfl on jobs dark
    have hd := islandDie_lt low high
    obtain ⟨forwarding, ctxs, held, tables, cache, pcs, backlog⟩ := dieReset_gone hd dark jobs
    refine ⟨_, (exec_domainReset s w).trans (congrArg _ (domainReset_die s _ key sag low high on)), forwarding, ctxs, held,
      dieReset_bridgeStatus hd dark jobs, dieReset_island dark jobs high (mem_dieIslands low high),
      fun e he ne => dieReset_bridges hd dark jobs he ne, dieReset_groups dark jobs, dieReset_mem hd dark jobs, tables, cache, pcs,
      backlog, fun e he source => dieReset_routeControl hd dark jobs he source⟩
  · rw [exec_domainReset, domainReset_chiplet s _ key sag low high on]
  · have island := chipletReset_island s (bitsOf w.toNat 5 0 - 25) (by omega)
    rwa [Nat.add_sub_cancel' low] at island
  · exact chipletReset_parts s _ dark

end Sys2Proof.Machine

/-! PROOFS. Frame headers in bytes (spec/02_fabric_frames.md R30, R31, R37): a number laid out in bytes and read back, fields
packed into a number and taken out again. -/
namespace Sys2Proof.Machine

open Sys2Proof

/-! ## Numbers in bytes (R6, R7) -/

@[simp] theorem length_leBytes (n : Nat) : ∀ v : Nat, (leBytes n v).length = n := by
  induction n with
  | zero => intro _; rfl
  | succ n ih => intro v; rw [leBytes, List.length_cons, ih]

theorem ofLe_leBytes (n : Nat) : ∀ v : Nat, ofLe (leBytes n v) = v % 256 ^ n := by
  induction n with
  | zero => intro v; simp [leBytes, ofLe, Nat.mod_one]
  | succ n ih => intro v; rw [leBytes, ofLe, ih, BitVec.toNat_ofNat, pow_succ' 256 n, Nat.mod_mul (a := 256)]

theorem beAt_beBytes (n v : Nat) : beAt (beBytes n v) 0 n = v % 256 ^ n := by
  have whole : (leBytes n v).reverse.take n = (leBytes n v).reverse := List.take_of_length_le (by simp)
  simp [beAt, ofBe, sliceB, beBytes, whole, ofLe_leBytes]

/-! ## Packed fields -/

theorem pack_lt : ∀ l : List (Nat × Nat), pack l < 2 ^ widthSum (l.map Prod.fst)
  | [] => Nat.one_pos
  | (w, v) :: t => by
    have low := pack_lt t
    have high : v % 2 ^ w + 1 ≤ 2 ^ w := Nat.mod_lt _ (Nat.two_pow_pos w)
    calc pack ((w, v) :: t)
        = v % 2 ^ w * 2 ^ widthSum (t.map Prod.fst) + pack t := rfl
      _ < (v % 2 ^ w + 1) * 2 ^ widthSum (t.map Prod.fst) := by rw [Nat.add_mul]; omega
      _ ≤ 2 ^ w * 2 ^ widthSum (t.map Prod.fst) := Nat.mul_le_mul_right _ high
      _ = _ := (Nat.pow_add 2 w _).symm

/-- Only the bits of a field's own width reach it: what lies above them does not change what is unpacked. -/
theorem unpack_add_mul (m : Nat) : ∀ (ws : List Nat) (n : Nat), unpack ws (m * 2 ^ widthSum ws + n) = unpack ws n
  | [], _ => rfl
  | w :: ws, n => by
    have split : m * 2 ^ widthSum (w :: ws) + n = m * 2 ^ w * 2 ^ widthSum ws + n := by
      rw [widthSum, Nat.pow_add, Nat.mul_assoc]
    rw [split, unpack, unpack, unpack_add_mul (m * 2 ^ w) ws n, Nat.add_comm,
      Nat.add_mul_div_right _ _ (Nat.two_pow_pos _), Nat.add_mul_mod_self_right]

/-- Packed fields are unpacked as they were, each cut to its width. -/
theorem unpack_pack : ∀ l : List (Nat × Nat), unpack (l.map Prod.fst) (pack l) = l.map fun x => x.2 % 2 ^ x.1
  | [] => rfl
  | (w, v) :: t => by
    have head : pack ((w, v) :: t) / 2 ^ widthSum (t.map Prod.fst) = v % 2 ^ w := by
      rw [pack, Nat.add_comm, Nat.add_mul_div_right _ _ (Nat.two_pow_pos _), Nat.div_eq_of_lt (pack_lt t), Nat.zero_add]
    rw [List.map_cons, unpack, head, Nat.mod_mod, pack, unpack_add_mul, unpack_pack t, List.map_cons]

/-- Fields laid out in as many bytes as their widths fill, and read back. -/
theorem unpack_beBytes_pack (ws vs : List Nat) (n : Nat) (same : (ws.zip vs).map Prod.fst = ws) (full : widthSum ws = 8 * n) :
    unpack ws (beAt (beBytes n (pack (ws.zip vs))) 0 n) = (ws.zip vs).map fun x => x.2 % 2 ^ x.1 := by
  have fits : pack (ws.zip vs) < 256 ^ n := by
    have low := pack_lt (ws.zip vs)
    rwa [same, full, Nat.pow_mul] at low
  have unpacked := unpack_pack (ws.zip vs)
  rwa [same, ← Nat.mod_eq_of_lt fits, ← beAt_beBytes] at unpacked

/-- A field of w bits that holds a bit vector reads as it. -/
theorem ofNat_toNat_mod {w : Nat} (x : BitVec w) : BitVec.ofNat w (x.toNat % 2 ^ w) = x := by
  rw [Nat.mod_eq_of_lt x.isLt, BitVec.ofNat_toNat, BitVec.setWidth_eq]

theorem b2n_mod_two_beq_one (b : Bool) : (b2n b % 2 ^ 1 == 1) = b := by cases b <;> rfl

/-! ## The headers -/

theorem unpack_baseBytes (h : BaseHdr) : unpack baseWidths (beAt (baseBytes h) 0 32) =
    (baseWidths.zip (baseFields h)).map fun x => x.2 % 2 ^ x.1 :=
  unpack_beBytes_pack baseWidths (baseFields h) 32 rfl rfl

theorem unpack_redBytes (x : RedExt) : unpack redWidths (beAt (redBytes x) 0 32) =
    (redWidths.zip (redFields x)).map fun x => x.2 % 2 ^ x.1 :=
  unpack_beBytes_pack redWidths (redFields x) 32 rfl rfl

theorem parseBase_baseBytes (h : BaseHdr) : parseBase (baseBytes h) = h := by
  rw [parseBase, unpack_baseBytes]
  simp only [baseWidths, baseFields, List.zip_cons_cons, List.zip_nil_right, List.map_cons, List.map_nil, nth,
    List.getElem?_cons_zero, List.getElem?_cons_succ, Option.getD_some, ofNat_toNat_mod, b2n_mod_two_beq_one]

theorem parseRed_redBytes (x : RedExt) : parseRed (redBytes x) = x := by
  rw [parseRed, unpack_redBytes]
  simp only [redWidths, redFields, List.zip_cons_cons, List.zip_nil_right, List.map_cons, List.map_nil, nth,
    List.getElem?_cons_zero, List.getElem?_cons_succ, Option.getD_some, ofNat_toNat_mod, b2n_mod_two_beq_one]

/-- Settles O59: the fields of a header, packed and unpacked, are the fields, each of its own width. -/
theorem headersRoundTrip : Obligations.HeadersRoundTrip := by
  unfold Obligations.HeadersRoundTrip
  exact ⟨parseBase_baseBytes, parseRed_redBytes⟩

end Sys2Proof.Machine

/-! PROOFS. The packet buffer (spec/11_switch_core.md R293 to R308): which registers and messages the operations on it touch, which
copies they keep, and that a frame of the switch's own, once queued, stays queued. -/
namespace Sys2Proof.Machine

open Sys2Proof

/-! ## The switch's own messages, but for how much of them has left -/

theorem sameOuts_refl (s : State) : sameOuts s s := rfl

theorem outsAre.trans {xs : List OutMsg} {s t : State} (a : outsAre xs s) (b : sameOuts s t) : outsAre xs t := Eq.trans b a

theorem sameOuts_of_eq {s t : State} (h : t.outs = s.outs) : sameOuts s t := by rw [sameOuts, outsAre, h]

theorem sameOuts_of_parts {c : List Part} {s t : State} (a : onlyParts c s t) (h : Part.outs ∉ c) : sameOuts s t :=
  sameOuts_of_eq (a .outs h)

theorem msgSent_sameOuts (s : State) (m : Option Nat) : sameOuts s (s.msgSent m) := by
  cases m with
  | none => exact sameOuts_refl s
  | some k =>
    simp only [sameOuts, outsAre, State.msgSent, List.map_map]
    refine List.map_congr_left fun o _ => ?_
    rw [Function.comp_apply]
    split <;> rfl

/-- What an operation on the packet buffer touches: the buffer, registers at addresses that satisfy Q, and, of the switch's own
messages, how many of their frames have left. -/
structure Moves (Q : Nat → Prop) (s t : State) : Prop extends Touches coreParts Q s t where
  outs : sameOuts s t

section
variable {Q R : Nat → Prop} {s t u : State}

theorem Moves.refl (Q : Nat → Prop) (s : State) : Moves Q s s := ⟨.refl _ Q s, sameOuts_refl s⟩

theorem Moves.trans (a : Moves Q s t) (b : Moves Q t u) : Moves Q s u := ⟨a.toTouches.trans b.toTouches, a.outs.trans b.outs⟩

theorem Moves.mono (a : Moves Q s t) (h : ∀ k, Q k → R k) : Moves R s t := ⟨a.toTouches.mono (fun _ => id) h, a.outs⟩

theorem Moves.of_core (a : onlyParts [.core] s t) : Moves Q s t :=
  ⟨(Touches.of_parts a (by decide)).mono (by decide) fun _ => id, sameOuts_of_parts a (by decide)⟩

theorem Moves.foldl {β : Type} (f : State → β → State) : ∀ (l : List β) (s : State),
    (∀ s, ∀ b ∈ l, Moves Q s (f s b)) → Moves Q s (l.foldl f s)
  | [], s, _ => .refl Q s
  | b :: l, s, h => (h s b List.mem_cons_self).trans
      (Moves.foldl f l (f s b) fun s x hx => h s x (List.mem_cons_of_mem _ hx))

theorem bump_moves (s : State) (f : Fld) (i : Nat) (h : Q (regAddr f.reg i)) : Moves Q s (s.bump f i) :=
  ⟨(setFld_touches s f i _ h).mono (by decide) fun _ => id, sameOuts_refl s⟩

theorem msgSent_moves (s : State) (m : Option Nat) : Moves Q s (s.msgSent m) :=
  ⟨(Touches.of_parts (msgSent_parts s m) (by decide)).mono (by decide) fun _ => id, msgSent_sameOuts s m⟩

end

/-- REFCOUNT_STATUS of a die. -/
def refcountOf (d k : Nat) : Prop := k = regAddr .REFCOUNT_STATUS d

theorem comeToHead_moves (die src : Nat) (dest : Dest) (vc : Nat) : ∀ (n : Nat) (s : State),
    Moves (refcountOf die) s (s.comeToHead die src dest vc n)
  | 0, s => .refl _ s
  | n + 1, s => by
    unfold State.comeToHead
    split
    · exact .refl _ s
    · split
      · refine .trans ?_ (comeToHead_moves die src dest vc n _)
        have here : refcountOf die (regAddr F.REFCOUNT_STATUS_LATE_COPY_DISCARDS.reg die) := rfl
        exact ((Moves.of_core (mapCore_parts s _)).trans (bump_moves _ _ _ here)).trans (msgSent_moves _ _)
      · split
        · exact .refl _ s
        · exact .of_core (mapCopy_parts s _ _)

theorem markHead_moves (s : State) (die src : Nat) (dest : Dest) (vc : Nat) :
    Moves (refcountOf die) s (s.markHead die src dest vc) := comeToHead_moves die src dest vc _ s

theorem refcountOf_buffer {d k : Nat} (h : refcountOf d k) : bufferRegs k := .inl ⟨d, h⟩

theorem admitLocal_moves (s : State) (h : Held) (cs : List Copy) {Q : Nat → Prop}
    (hq : ∀ c ∈ cs, ∀ k, refcountOf c.die k → Q k) : Moves Q s (s.admitLocal h cs) := by
  refine (Moves.of_core (mapCore_parts s _)).trans
    (Moves.foldl (fun s (c : Copy) => s.markHead c.die c.src c.dest c.vc) _ _ fun s c hc => ?_)
  obtain ⟨x, hx, rfl⟩ := List.mem_map.mp hc
  exact (markHead_moves s _ _ _ _).mono (hq x hx)

theorem drainLocal_moves (s : State) (d : Nat) : Moves bufferRegs s (s.drainLocal d) := by
  refine (Moves.of_core (mapCore_parts s _)).trans (Moves.foldl _ _ _ fun s x _ => ?_)
  split
  · exact .of_core (mapCore_parts s _)
  · exact admitLocal_moves s _ _ fun _ _ _ => refcountOf_buffer

theorem refreshPause_moves (s : State) (p : Nat) : Moves bufferRegs s (s.refreshPause p) :=
  ⟨⟨onlyParts_mono (refreshPause_parts s p) (by decide), refreshPause_regs s p⟩,
    sameOuts_of_parts (refreshPause_parts s p) (by decide)⟩

theorem refreshDie_moves (s : State) (d : Nat) : Moves bufferRegs s (s.refreshDie d) :=
  Moves.foldl _ _ s fun s p _ => refreshPause_moves s p

theorem releaseCopy_moves (s : State) (cid : Nat) : Moves bufferRegs s (s.releaseCopy cid) := by
  unfold State.releaseCopy
  split
  · exact .refl _ s
  · rename_i c _
    have marked : Moves bufferRegs s
        ((s.mapCore fun k => { k with copies := k.copies.filter fun x => x.cid != cid }).markHead c.die c.src c.dest c.vc) :=
      (Moves.of_core (mapCore_parts s _)).trans ((markHead_moves _ _ _ _ _).mono fun _ => refcountOf_buffer)
    dsimp only
    generalize (s.mapCore fun k => { k with copies := k.copies.filter fun x => x.cid != cid }).markHead
      c.die c.src c.dest c.vc = t at marked ⊢
    split
    · exact marked
    · refine marked.trans (.trans (.of_core ?_) ((drainLocal_moves _ _).trans (refreshDie_moves _ _)))
      repeat' split
      · exact freeHeld_parts _ _
      · exact onlyParts_refl _ _
      · exact freeHeld_parts _ _
      · exact mapHeld_parts _ _ _

theorem dropCopy_moves (s : State) (cid : Nat) : Moves bufferRegs s (s.dropCopy cid) := by
  unfold State.dropCopy
  split
  · exact .refl _ s
  · exact (releaseCopy_moves s cid).trans (msgSent_moves _ _)

theorem dropCopies_moves (s : State) (q : Copy → Bool) : Moves bufferRegs s (s.dropCopies q) :=
  ((Moves.of_core (mapCore_parts s _)).trans
    (Moves.foldl (fun s (c : Copy) => s.msgSent c.msg) _ _ fun s _ _ => msgSent_moves s _)).trans
    (Moves.foldl _ _ _ fun s cid _ => dropCopy_moves s cid)

theorem takeFrom_moves (s : State) (dest : Dest) (p : Nat) (f : Frame) : Moves bufferRegs s (s.takeFrom dest p f) := by
  unfold State.takeFrom
  split
  · exact releaseCopy_moves s _
  · exact .refl _ s

theorem takeLocal_moves (s : State) (d : Nat) (f : Frame) (xs : List LocalCopy) :
    Moves (refcountOf d) s (s.takeLocal d f xs) := by
  unfold State.takeLocal
  split
  · exact .refl _ s
  · dsimp only
    split
    · refine (Moves.of_core (mapCore_parts s _)).trans (admitLocal_moves _ _ _ fun c hc k hk => ?_)
      obtain ⟨x, _, rfl⟩ := List.mem_map.mp hc
      exact hk
    · exact (Moves.of_core (mapCore_parts s _)).trans (.of_core (mapCore_parts _ _))

/-! ## Copies at the heads of their VOQs (R307) -/

/-- The packet buffer of t is that of s but for the times at which copies came to the head of their VOQ and for late copies, which
are gone. -/
structure HeadsOf (s t : State) : Prop where
  core : t.core = { s.core with copies := t.core.copies }
  came : ∀ y ∈ t.core.copies, ∃ x ∈ s.core.copies, ∃ h, y = { x with headSince := h }
  kept : ∀ x ∈ s.core.copies, (∀ z ∈ s.core.copies, z.cid = x.cid → s.isLate z = false) →
    ∃ h, { x with headSince := h } ∈ t.core.copies

theorem HeadsOf.of_core {s t : State} (h : t.core = s.core) : HeadsOf s t where
  core := by rw [h]
  came := fun y hy => ⟨y, h ▸ hy, y.headSince, rfl⟩
  kept := fun x hx _ => ⟨x.headSince, h ▸ hx⟩

theorem HeadsOf.refl (s : State) : HeadsOf s s := .of_core rfl

theorem HeadsOf.isLate {s t : State} (a : HeadsOf s t) (c : Copy) (h : Option Nat) :
    t.isLate { c with headSince := h } = s.isLate c := by
  rw [State.isLate, State.useCount, a.core, State.isLate, State.useCount]

theorem HeadsOf.prompt {s t : State} (a : HeadsOf s t) {k : Nat}
    (h : ∀ z ∈ s.core.copies, z.cid = k → s.isLate z = false) : ∀ z ∈ t.core.copies, z.cid = k → t.isLate z = false := by
  intro z hz e
  obtain ⟨x, hx, since, rfl⟩ := a.came z hz
  rw [a.isLate]
  exact h x hx e

theorem HeadsOf.trans {s t u : State} (a : HeadsOf s t) (b : HeadsOf t u) : HeadsOf s u where
  core := by rw [b.core, a.core]
  came := fun z hz => by
    obtain ⟨y, hy, h, rfl⟩ := b.came z hz
    obtain ⟨x, hx, _, rfl⟩ := a.came y hy
    exact ⟨x, hx, h, rfl⟩
  kept := fun x hx prompt => by
    obtain ⟨h, hy⟩ := a.kept x hx prompt
    exact b.kept { x with headSince := h } hy (a.prompt prompt)

/-- A late copy is taken out of the packet buffer. -/
theorem HeadsOf.of_lateGone {s t : State} {c : Copy} (hc : c ∈ s.core.copies) (late : s.isLate c = true)
    (h : t.core = { s.core with copies := s.core.copies.filter fun x => x.cid != c.cid }) : HeadsOf s t where
  core := by rw [h]
  came := fun y hy => ⟨y, (List.mem_filter.mp (by rwa [h] at hy)).1, y.headSince, rfl⟩
  kept := fun x hx prompt => by
    refine ⟨x.headSince, ?_⟩
    rw [h]
    refine List.mem_filter.mpr ⟨hx, bne_iff_ne.mpr fun e => ?_⟩
    exact Bool.false_ne_true ((prompt c hc e.symm).symm.trans late)

theorem mapCopy_headsOf (s : State) (cid : Nat) (h : Option Nat) :
    HeadsOf s (s.mapCopy cid fun x => { x with headSince := h }) where
  core := rfl
  came := fun y hy => by
    obtain ⟨x, hx, rfl⟩ := List.mem_map.mp hy
    by_cases e : x.cid = cid
    · exact ⟨x, hx, h, if_pos e⟩
    · exact ⟨x, hx, x.headSince, if_neg e⟩
  kept := fun x hx _ => by
    by_cases e : x.cid = cid
    · exact ⟨h, List.mem_map.mpr ⟨x, hx, if_pos e⟩⟩
    · exact ⟨x.headSince, List.mem_map.mpr ⟨x, hx, if_neg e⟩⟩

theorem comeToHead_headsOf (die src : Nat) (dest : Dest) (vc : Nat) : ∀ (n : Nat) (s : State),
    HeadsOf s (s.comeToHead die src dest vc n)
  | 0, s => .refl s
  | n + 1, s => by
    unfold State.comeToHead
    split
    · exact .refl s
    · rename_i c found
      split
      · rename_i late
        refine HeadsOf.trans (.of_lateGone (List.mem_of_find?_eq_some found) late ?_) (comeToHead_headsOf die src dest vc n _)
        exact (msgSent_parts _ _) .core (by decide)
      · split
        · exact .refl s
        · exact mapCopy_headsOf s _ _

theorem markHead_headsOf (s : State) (die src : Nat) (dest : Dest) (vc : Nat) : HeadsOf s (s.markHead die src dest vc) :=
  comeToHead_headsOf die src dest vc _ s

theorem markHeads_headsOf : ∀ (cs : List Copy) (s : State),
    HeadsOf s (cs.foldl (fun s c => s.markHead c.die c.src c.dest c.vc) s)
  | [], s => .refl s
  | c :: cs, s => (markHead_headsOf s c.die c.src c.dest c.vc).trans (markHeads_headsOf cs _)

/-! ## Identifiers in the packet buffer -/

/-- The identifiers of held frames and copies, those that wait for local cells among them, are below n. -/
structure State.IdsBelow (s : State) (n : Nat) : Prop where
  held : ∀ h ∈ s.core.held, h.fid < n
  copies : ∀ c ∈ s.core.copies, c.cid < n
  waits : ∀ x ∈ s.core.backlog, x.1.fid < n ∧ ∀ c ∈ x.2, c.cid < n

theorem State.idsBelow_of_fresh {s : State} (h : s.idsFresh = true) : s.IdsBelow s.core.nextId := by
  simp only [State.idsFresh, Bool.and_eq_true, List.all_eq_true, decide_eq_true_eq] at h
  obtain ⟨⟨⟨⟨held, copies⟩, waits⟩, -⟩, -⟩ := h
  exact ⟨held, fun c hc => (copies c hc).1, fun x hx => ⟨(waits x hx).1.1, fun c hc => ((waits x hx).2 c hc).1.1.1.1⟩⟩

/-- No identifier is given, and none comes into the packet buffer that was not there or waiting. -/
structure KeepsIds (s t : State) : Prop where
  nextId : t.core.nextId = s.core.nextId
  below : ∀ n, s.IdsBelow n → t.IdsBelow n

theorem KeepsIds.of_eq {s t : State} (next : t.core.nextId = s.core.nextId) (held : t.core.held = s.core.held)
    (copies : t.core.copies = s.core.copies) (backlog : t.core.backlog = s.core.backlog) : KeepsIds s t where
  nextId := next
  below := fun _ ⟨a, b, c⟩ => ⟨held ▸ a, copies ▸ b, backlog ▸ c⟩

theorem KeepsIds.of_core {s t : State} (h : t.core = s.core) : KeepsIds s t := .of_eq (by rw [h]) (by rw [h]) (by rw [h]) (by rw [h])

theorem KeepsIds.refl (s : State) : KeepsIds s s := .of_core rfl

theorem KeepsIds.trans {s t u : State} (a : KeepsIds s t) (b : KeepsIds t u) : KeepsIds s u :=
  ⟨b.nextId.trans a.nextId, fun n h => b.below n (a.below n h)⟩

theorem KeepsIds.foldl {β : Type} (f : State → β → State) (h : ∀ s b, KeepsIds s (f s b)) : ∀ (l : List β) (s : State),
    KeepsIds s (l.foldl f s)
  | [], s => .refl s
  | b :: l, s => (h s b).trans (KeepsIds.foldl f h l (f s b))

theorem HeadsOf.keepsIds {s t : State} (a : HeadsOf s t) : KeepsIds s t where
  nextId := by rw [a.core]
  below := fun n ⟨held, copies, waits⟩ => by
    refine ⟨by rwa [a.core], fun c hc => ?_, by rwa [a.core]⟩
    obtain ⟨x, hx, _, rfl⟩ := a.came c hc
    exact copies x hx

theorem mapHeld_keepsIds (s : State) (fid : Nat) (g : Held → Held) (h : ∀ x, (g x).fid = x.fid) :
    KeepsIds s (s.mapHeld fid g) where
  nextId := rfl
  below := fun n ⟨held, copies, waits⟩ => by
    refine ⟨fun y hy => ?_, copies, waits⟩
    obtain ⟨x, hx, rfl⟩ := List.mem_map.mp hy
    have low := held x hx
    split
    · rwa [h]
    · exact low

theorem freeHeld_keepsIds (s : State) (fid : Nat) : KeepsIds s (s.freeHeld fid) := by
  unfold State.freeHeld
  split
  · exact .refl s
  · exact ⟨rfl, fun n ⟨held, copies, waits⟩ => ⟨fun y hy => held y (List.mem_filter.mp hy).1, copies, waits⟩⟩

theorem copiesGone_keepsIds (s : State) (q : Copy → Bool) :
    KeepsIds s (s.mapCore fun k => { k with copies := k.copies.filter q }) :=
  ⟨rfl, fun _ ⟨held, copies, waits⟩ => ⟨held, fun y hy => copies y (List.mem_filter.mp hy).1, waits⟩⟩

/-- What admission to a local region adds to the packet buffer, before its copies come to the heads of their VOQs. -/
theorem admitLocal_headsOf (s : State) (h : Held) (cs : List Copy) : HeadsOf (s.mapCore fun k => { k with
      held := k.held ++ [{ h with tag := s.newTag h.die }]
      copies := k.copies ++ cs.map fun c => { c with tag := s.newTag h.die, useCount := s.useCount h.die (s.newTag h.die) } })
    (s.admitLocal h cs) := markHeads_headsOf _ _

theorem admitLocal_nextId (s : State) (h : Held) (cs : List Copy) : (s.admitLocal h cs).core.nextId = s.core.nextId :=
  (admitLocal_headsOf s h cs).keepsIds.nextId

/-- A frame is put into a local region with copies whose identifiers are below n. -/
theorem admitLocal_below {s : State} {n : Nat} (a : s.IdsBelow n) (h : Held) (cs : List Copy) (hh : h.fid < n)
    (hcs : ∀ c ∈ cs, c.cid < n) : (s.admitLocal h cs).IdsBelow n := by
  refine (admitLocal_headsOf s h cs).keepsIds.below n ⟨fun x hx => ?_, fun x hx => ?_, a.waits⟩
  · rcases List.mem_append.mp hx with old | new
    · exact a.held x old
    · rw [List.mem_singleton.mp new]
      exact hh
  · rcases List.mem_append.mp hx with old | new
    · exact a.copies x old
    · obtain ⟨c, hc, rfl⟩ := List.mem_map.mp new
      exact hcs c hc

theorem drainLocal_keepsIds (s : State) (d : Nat) : KeepsIds s (s.drainLocal d) where
  nextId := by
    unfold State.drainLocal
    refine List.foldlRecOn (motive := fun t : State => t.core.nextId = s.core.nextId) _ _ rfl fun t ht x _ => ?_
    split
    · exact ht
    · exact (admitLocal_nextId t _ _).trans ht
  below := fun n ⟨held, copies, waits⟩ => by
    unfold State.drainLocal
    refine List.foldlRecOn (motive := fun t : State => t.IdsBelow n) _ _ ⟨held, copies, fun x hx => nomatch hx⟩
      fun t ht x hx => ?_
    split
    · refine ⟨ht.held, ht.copies, fun y hy => ?_⟩
      rcases List.mem_append.mp hy with old | new
      · exact ht.waits y old
      · rw [List.mem_singleton.mp new]
        exact waits x hx
    · exact admitLocal_below ht x.1 x.2 (waits x hx).1 (waits x hx).2

/-- The packet buffers of s and t differ at most in the pauses toward neighbours and in what the transmitters carry. -/
structure SamePackets (s t : State) : Prop where
  core : t.core = { s.core with pauses := t.core.pauses, pcs := t.core.pcs }

theorem SamePackets.refl (s : State) : SamePackets s s := ⟨rfl⟩

theorem SamePackets.trans {s t u : State} (a : SamePackets s t) (b : SamePackets t u) : SamePackets s u :=
  ⟨by rw [b.core, a.core]⟩

theorem transmit_samePackets (s : State) (p : Nat) (g : Nat → PcsTx → PcsTx) : SamePackets s (s.transmit p g) := by
  unfold State.transmit
  split
  · exact .refl s
  · exact ⟨rfl⟩

theorem setPauses_samePackets (s : State) (f : Fld) (i v : Nat) (g : List PauseSt → List PauseSt) :
    SamePackets s ((s.setFld f i v).mapCore fun k => { k with pauses := g k.pauses }) :=
  ⟨by simp only [State.mapCore, setFld_core]⟩

theorem refreshPause_samePackets (s : State) (p : Nat) : SamePackets s (s.refreshPause p) := by
  unfold State.refreshPause
  dsimp only
  split
  · exact .refl s
  · exact (setPauses_samePackets s F.PORT_BUFFER_PAUSING p (s.pauseMask p) fun l =>
      l.filter (fun x => x.port != p) ++ [⟨p, BitVec.ofNat 8 (s.pauseMask p), 0⟩]).trans (transmit_samePackets _ _ _)

theorem refreshDie_samePackets (s : State) (d : Nat) : SamePackets s (s.refreshDie d) :=
  List.foldlRecOn (motive := fun t : State => SamePackets s t) _ _ (.refl s) fun t ht p _ =>
    ht.trans (refreshPause_samePackets t p)

theorem SamePackets.keepsIds {s t : State} (a : SamePackets s t) : KeepsIds s t :=
  .of_eq (by rw [a.core]) (by rw [a.core]) (by rw [a.core]) (by rw [a.core])

theorem refreshDie_keepsIds (s : State) (d : Nat) : KeepsIds s (s.refreshDie d) := (refreshDie_samePackets s d).keepsIds

theorem msgSent_core (s : State) (m : Option Nat) : (s.msgSent m).core = s.core := msgSent_parts s m .core (by decide)

theorem msgSent_keepsIds (s : State) (m : Option Nat) : KeepsIds s (s.msgSent m) := .of_core (msgSent_core s m)

theorem releaseCopy_keepsIds (s : State) (cid : Nat) : KeepsIds s (s.releaseCopy cid) := by
  unfold State.releaseCopy
  split
  · exact .refl s
  · rename_i c _
    have marked := (copiesGone_keepsIds s fun x => x.cid != cid).trans (markHead_headsOf _ c.die c.src c.dest c.vc).keepsIds
    dsimp only
    generalize State.markHead _ c.die c.src c.dest c.vc = t at marked ⊢
    split
    · exact marked
    · refine marked.trans (.trans ?_ ((drainLocal_keepsIds _ _).trans (refreshDie_keepsIds _ _)))
      repeat' split
      · exact freeHeld_keepsIds _ _
      · exact .refl _
      · exact freeHeld_keepsIds _ _
      · exact mapHeld_keepsIds _ _ _ fun _ => rfl

theorem dropCopy_keepsIds (s : State) (cid : Nat) : KeepsIds s (s.dropCopy cid) := by
  unfold State.dropCopy
  split
  · exact .refl s
  · exact (releaseCopy_keepsIds s cid).trans (msgSent_keepsIds _ _)

theorem dropWaiting_keepsIds (s : State) (q : Copy → Bool) : KeepsIds s (s.dropWaiting q) := by
  unfold State.dropWaiting
  dsimp only
  refine .trans ?_ (KeepsIds.foldl (fun s (c : Copy) => s.msgSent c.msg) (fun s c => msgSent_keepsIds s c.msg) _ _)
  refine ⟨rfl, fun n ⟨held, copies, waits⟩ => ⟨held, copies, fun x hx => ?_⟩⟩
  obtain ⟨y, hy, rfl⟩ := List.mem_map.mp (List.mem_filter.mp hx).1
  exact ⟨(waits y hy).1, fun c hc => (waits y hy).2 c (List.mem_filter.mp hc).1⟩

theorem dropCopies_keepsIds (s : State) (q : Copy → Bool) : KeepsIds s (s.dropCopies q) :=
  (dropWaiting_keepsIds s q).trans (KeepsIds.foldl _ dropCopy_keepsIds _ _)

theorem pushOut_keepsIds (d need : Nat) : ∀ (n : Nat) (s : State), KeepsIds s (s.pushOut d need n)
  | 0, s => .refl s
  | n + 1, s => by
    unfold State.pushOut
    split
    · exact .refl s
    · split
      · exact .refl s
      · rename_i v _
        have pushed := (dropCopies_keepsIds s fun c => c.fid == v.fid).trans (freeHeld_keepsIds _ v.fid)
        refine .trans (pushed.trans ?_) (pushOut_keepsIds d need n _)
        exact .of_core rfl

end Sys2Proof.Machine

/-! PROOFS. The lookup of an arriving header (spec/02_fabric_frames.md R29, R34; 11_switch_core.md R301): what a discard counts, and
the one copy of a frame that passes. -/
namespace Sys2Proof.Machine

open Sys2Proof

/-! ## Header and rule discards (R29, R34) -/

theorem bitOf_eq_bitsOf (n b : Nat) : bitOf n b = decide (bitsOf n b b = 1) := by
  rw [bitOf, Nat.testBit_eq_decide_div_mod_eq, bitsOf, Nat.add_sub_cancel_left, pow_one]

theorem onlyField_setFld (s : State) (f : Fld) (i v : Nat) (h : f.ok = true) : onlyField f i s (s.setFld f i v) := by
  intro b hb
  rw [State.setFld, reg_setReg _ _ _ _ (setField_lt s f i v h), bitOf_eq_bitsOf, bitOf_eq_bitsOf]
  simp only [Fld.ok, Bool.and_eq_true, decide_eq_true_eq] at h
  rcases hb with below | above
  · rw [bitsOf_setBitsOf_below _ _ _ _ _ _ h.1 (Nat.le_refl b) below]
  · rw [bitsOf_setBitsOf_above _ _ _ _ _ _ h.1 above]

/-- A discard counts in one register and sets a flag in another, and changes nothing else. -/
theorem bump_setFlag_effect (s : State) (c e : Fld) (i : Nat) (hc : c.ok = true) (he : e.ok = true)
    (apart : regAddr c.reg i ≠ regAddr e.reg i) (bit : 1 % 2 ^ e.width = 1) :
    let t := (s.bump c i).setFlag e i true
    counted c i 1 s t ∧ fieldSet e i 1 s t ∧ onlyRegs [(c.reg, i), (e.reg, i)] s t ∧ onlyParts [.regs] s t := by
  intro t
  have flagged (n : RegName) (h : regAddr e.reg i ≠ regAddr n i) : t.reg n i = (s.bump c i).reg n i :=
    reg_setReg_ne _ _ _ _ _ _ h
  have bumped (n : RegName) (h : regAddr c.reg i ≠ regAddr n i) : (s.bump c i).reg n i = s.reg n i :=
    reg_setReg_ne _ _ _ _ _ _ h
  refine ⟨⟨?_, fun b hb => ?_⟩, ⟨?_, fun b hb => ?_⟩, fun k hk => ?_, ?_⟩
  · rw [State.fld, flagged c.reg apart.symm]
    exact fld_bump s c i hc
  · rw [flagged c.reg apart.symm]
    exact onlyField_setFld s c i _ hc b hb
  · exact (fld_setFld _ e i _ he).trans bit
  · exact (onlyField_setFld (s.bump c i) e i (b2n true) he b hb).trans (by rw [bumped e.reg apart])
  · have flag : regAddr e.reg i ≠ k := hk (e.reg, i) (by simp)
    have count : regAddr c.reg i ≠ k := hk (c.reg, i) (by simp)
    exact (sget_sset_ne _ _ _ _ _ flag).trans (sget_sset_ne _ _ _ _ _ count)
  · exact onlyParts_trans (bump_parts s c i) (setFld_parts _ e i _)

theorem regAddr_discardCount_ne_portStatus (i : Nat) : regAddr .TFP_DISCARD_COUNT i ≠ regAddr .TFP_PORT_STATUS i := by
  simp only [regAddr, regRow, row_TFP_DISCARD_COUNT, row_TFP_PORT_STATUS]
  omega

theorem exec_frameHeaderLookup (port : Nat) (f : Frame) (b : WordErr) (s : State) :
    exec (.frameHeaderLookup port f b) s = execFrameHeaderLookup port f b s := rfl

theorem frameHeaderLookup_headerDiscard (s : State) (port : Nat) (f : Frame) (b : WordErr) (lock : s.pcsLock port = true)
    (type : f.h.ftype ≠ 7#4) (bad : hdrOk (s.versionFor port f) f = false) :
    exec (.frameHeaderLookup port f b) s = .next (s.headerDiscard port) := by
  rw [exec_frameHeaderLookup, execFrameHeaderLookup]
  simp [lock, type, bad]

theorem frameHeaderLookup_ruleDiscard (s : State) (port : Nat) (f : Frame) (b : WordErr) (lock : s.pcsLock port = true)
    (type : f.h.ftype ≠ 7#4) (check : hdrOk (s.versionFor port f) f = true) (bad : ruleOk (s.versionFor port f) f = false) :
    exec (.frameHeaderLookup port f b) s = .next (s.ruleDiscard port) := by
  rw [exec_frameHeaderLookup, execFrameHeaderLookup]
  simp [lock, type, check, bad]

/-- A frame past every check is disposed of. -/
theorem frameHeaderLookup_dispose (s : State) (port : Nat) (f : Frame) (lock : s.pcsLock port = true) (type : f.h.ftype ≠ 7#4)
    (check : hdrOk (s.versionFor port f) f = true) (rule : ruleOk (s.versionFor port f) f = true)
    (allowed : s.quarantined port = false) (live : s.bankLive f.h.epoch = true) (policed : s.police port f = none) :
    exec (.frameHeaderLookup port f []) s = .next (s.dispose port f) := by
  rw [exec_frameHeaderLookup, execFrameHeaderLookup]
  simp [lock, type, check, rule, allowed, live, policed, State.sramRead, wordRead]

/-! ## Admission (R295, R314) -/

/-- A frame that finds room leaves the state as it was, but for what is pushed out to make room. -/
theorem admitFrame_some {s s1 : State} {p : Nat} {f : Frame} {ext : Bool} {r : Region}
    (h : s.admitFrame p f ext = (some r, s1)) : s1 = s ∨ ∃ d need n, s1 = s.pushOut d need n := by
  unfold State.admitFrame at h
  dsimp only at h
  repeat' split at h
  all_goals simp only [Prod.mk.injEq, reduceCtorEq, false_and] at h
  all_goals obtain ⟨-, rfl⟩ := h
  · exact .inl rfl
  · exact .inl rfl
  · exact .inl rfl
  · exact .inl rfl
  · exact .inr ⟨_, _, _, rfl⟩
  · exact .inl rfl

theorem admitFrame_some_keepsIds {s s1 : State} {p : Nat} {f : Frame} {ext : Bool} {r : Region}
    (h : s.admitFrame p f ext = (some r, s1)) : KeepsIds s s1 ∧ onlyParts coreParts s s1 := by
  rcases admitFrame_some h with rfl | ⟨d, need, n, rfl⟩
  · exact ⟨.refl _, onlyParts_refl _ _⟩
  · exact ⟨pushOut_keepsIds d need n s, pushOut_parts d need n s⟩

/-! ## A frame is held, and queued -/

/-- What is held of an arriving frame. -/
def State.arrival (s : State) (die src : Nat) (f : Frame) (r : Region) (tail : Tail) (ct : Bool) (sh : Option Nat) : Held :=
  { fid := s.core.nextId, die := die, src := src, frame := f, region := r, cells := cellsOf f, vc := f.h.vc.toNat,
    refcount := 0, lastOwner := none, tail := tail, cutThrough := ct, shaper := sh, tag := s.newTag die }

theorem hold_held? (s : State) (die src : Nat) (f : Frame) (r : Region) (tail : Tail) (ct : Bool) (sh : Option Nat)
    (fresh : s.IdsBelow s.core.nextId) :
    (s.hold die src f r tail ct sh).2.held? s.core.nextId = some (s.arrival die src f r tail ct sh) := by
  have older : s.core.held.find? (fun h => h.fid == s.core.nextId) = none :=
    List.find?_eq_none.mpr fun h hh => by simpa using Nat.ne_of_lt (fresh.held h hh)
  simp [State.held?, State.hold, State.mapCore, List.find?_append, older, State.arrival]

/-- The new copy of a held frame, before it comes to the head of its VOQ. -/
def State.copyOf (s : State) (h : Held) (dest : Dest) (out : Frame) (own rewritten : Bool) (msg : Option Nat)
    (fan : List (Nat × Frame × Option Nat)) : Copy :=
  { cid := s.core.nextId, fid := h.fid, die := h.die, src := h.src, dest := dest, vc := out.h.vc.toNat, out := out,
    started := false, markBad := none, released := h.shaper.isNone, headSince := none, own := own, rewritten := rewritten,
    msg := msg, fan := fan, tag := h.tag, useCount := s.useCount h.die h.tag }

/-- A copy of a held frame is queued: the frame has one copy more, and the copy is there, its cells its own. -/
theorem enqueue_queues (s : State) (fid : Nat) (dest : Dest) (out : Frame) (own rewritten : Bool) (msg : Option Nat)
    (fan : List (Nat × Frame × Option Nat)) (h : Held) (found : s.held? fid = some h)
    (fresh : ∀ c ∈ s.core.copies, c.cid < s.core.nextId) :
    let t := s.enqueue fid dest out own rewritten msg fan
    t.core.held = s.core.held.map (fun x => if x.fid = fid then
        { x with refcount := x.refcount + 1, lastOwner := some (dest, out.h.vc.toNat) } else x)
      ∧ ∃ since, { s.copyOf h dest out own rewritten msg fan with headSince := since } ∈ t.core.copies := by
  intro t
  have isFid : h.fid = fid := by simpa using List.find?_some found
  let u := (s.mapCore fun k =>
      { k with nextId := s.core.nextId + 1, copies := k.copies ++ [s.copyOf h dest out own rewritten msg fan] }).mapHeld fid
    fun x => { x with refcount := x.refcount + 1, lastOwner := some (dest, out.h.vc.toNat) }
  have heads : HeadsOf u t := by
    have e : t = u.markHead h.die h.src dest out.h.vc.toNat := by
      simp only [t, u, State.enqueue, found, State.copyOf, isFid]
    rw [e]
    exact markHead_headsOf _ _ _ _ _
  refine ⟨by rw [heads.core]; rfl, heads.kept _ (List.mem_append_right _ (List.mem_singleton.mpr rfl)) fun z hz same => ?_⟩
  rcases List.mem_append.mp hz with old | new
  · exact absurd same (Nat.ne_of_lt (fresh z old))
  · rw [List.mem_singleton.mp new]
    exact bne_eq_false_iff_eq.mpr rfl

theorem takeCopies_one (s s1 : State) (p q : Nat) (f : Frame) (r : Region)
    (room : s.admitFrame p f (s.voqExt p f.h.vc.toNat (.port q)) = (some r, s1)) :
    s.takeCopies p f [(q, f)] = ((s1.hold (dieOf p) (localOf p) f r .pending (s1.version p == 2#4) (s1.shaperOn p f)).2.enqueue
      s1.core.nextId (.port q) f false false none []).refreshDie (dieOf p) := by
  simp [State.takeCopies, fanOut, State.takeIn, room, State.hold]

/-- An arriving frame with room and one copy is held, its tail unknown, and the copy waits. -/
theorem takeCopies_one_holds (s s1 : State) (p q : Nat) (f : Frame) (r : Region) (fresh : s.idsFresh = true)
    (room : s.admitFrame p f (s.voqExt p f.h.vc.toNat (.port q)) = (some r, s1)) :
    let t := s.takeCopies p f [(q, f)]
    (∃ h ∈ t.core.held, h.fid = s.core.nextId ∧ h.die = dieOf p ∧ h.src = localOf p ∧ h.frame = f ∧ h.region = r
        ∧ h.cells = cellsOf f ∧ h.refcount = 1 ∧ h.tail = .pending)
      ∧ (∃ c ∈ t.core.copies, c.fid = s.core.nextId ∧ c.dest = .port q ∧ c.out = f ∧ c.started = false)
      ∧ onlyParts [.regs, .core, .outs] s t := by
  rw [takeCopies_one s s1 p q f r room]
  obtain ⟨ids, parts⟩ := admitFrame_some_keepsIds room
  have below : s1.IdsBelow s1.core.nextId := ids.nextId.symm ▸ ids.below _ (State.idsBelow_of_fresh fresh)
  rw [← ids.nextId]
  generalize (s1.version p == 2#4) = ct
  generalize s1.shaperOn p f = sh
  have found := hold_held? s1 (dieOf p) (localOf p) f r .pending ct sh below
  have held : s1.arrival (dieOf p) (localOf p) f r .pending ct sh ∈
      (s1.hold (dieOf p) (localOf p) f r .pending ct sh).2.core.held := List.mem_append_right _ (List.mem_singleton.mpr rfl)
  have older : ∀ c ∈ (s1.hold (dieOf p) (localOf p) f r .pending ct sh).2.core.copies,
      c.cid < (s1.hold (dieOf p) (localOf p) f r .pending ct sh).2.core.nextId :=
    fun c hc => Nat.lt_succ_of_lt (below.copies c hc)
  have coreStep := onlyParts_mono (d := coreParts) (hold_parts s1 (dieOf p) (localOf p) f r .pending ct sh) (by decide)
  generalize (s1.hold (dieOf p) (localOf p) f r .pending ct sh).2 = u at *
  obtain ⟨counts, since, queued⟩ := enqueue_queues u s1.core.nextId (.port q) f false false none [] _ found older
  have queueStep := enqueue_parts u s1.core.nextId (.port q) f false false none []
  generalize u.enqueue s1.core.nextId (.port q) f false false none [] = v at *
  have same := (refreshDie_samePackets v (dieOf p)).core
  refine ⟨?_, ?_, onlyParts_trans (onlyParts_trans parts coreStep) (onlyParts_trans queueStep
    (onlyParts_mono (refreshDie_parts v (dieOf p)) (by decide)))⟩
  · rw [same, counts]
    exact ⟨_, List.mem_map.mpr ⟨_, held, if_pos rfl⟩, rfl, rfl, rfl, rfl, rfl, rfl, rfl, rfl⟩
  · rw [same]
    exact ⟨_, queued, rfl, rfl, rfl, rfl⟩

/-- Settles O5: a discard is a count and a flag; a frame that passes is routed, sprayed, held and queued once. -/
theorem headerLookup : Obligations.HeaderLookup := by
  unfold Obligations.HeaderLookup
  refine ⟨fun s port f b lock type => ⟨fun bad => ?_, fun check bad => ?_⟩, ?_⟩
  · exact ⟨_, frameHeaderLookup_headerDiscard s port f b lock type bad, bump_setFlag_effect s
      F.TFP_DISCARD_COUNT_HEADER_DISCARDS F.TFP_PORT_STATUS_HEADER_ERR (s.blk port) (by decide) (by decide)
      (regAddr_discardCount_ne_portStatus _) (by decide)⟩
  · exact ⟨_, frameHeaderLookup_ruleDiscard s port f b lock type check bad, bump_setFlag_effect s
      F.TFP_DISCARD_COUNT_RULE_DISCARDS F.TFP_PORT_STATUS_RULE_ERR (s.blk port) (by decide) (by decide)
      (regAddr_discardCount_ne_portStatus _) (by decide)⟩
  · intro s s1 port q f ps r fresh lock type check rule allowed live policed untagged through unabsorbed route spray ne room
    refine ⟨_, frameHeaderLookup_dispose s port f lock type check rule allowed live policed, ?_⟩
    have routed : s.dispose port f = s.takeCopies port f [(q, f)] := by
      simp [State.dispose, State.routeOn, untagged, through, unabsorbed, route, spray, ne]
    rw [routed]
    exact takeCopies_one_holds s s1 port q f r fresh room

end Sys2Proof.Machine

/-! PROOFS. Frames of the switch's own on one port (spec/02_fabric_frames.md R58; 11_switch_core.md R294): what sending one touches,
that it waits in the packet buffer, and that what waits there stays. -/
namespace Sys2Proof.Machine

open Sys2Proof

/-! ## Copies that wait -/

/-- A copy waits for local cells, or in its VOQ with its cells its own. -/
def State.holdsCopy (t : State) (c : Copy) : Prop :=
  (∃ x ∈ t.core.backlog, c ∈ x.2)
    ∨ (∃ since, { c with headSince := since } ∈ t.core.copies) ∧ ∀ z ∈ t.core.copies, z.cid = c.cid → t.isLate z = false

theorem HeadsOf.holdsCopy {s t : State} (a : HeadsOf s t) {c : Copy} (h : s.holdsCopy c) : t.holdsCopy c := by
  rcases h with waits | ⟨⟨since, queued⟩, prompt⟩
  · exact .inl (by rwa [a.core])
  · refine .inr ⟨?_, a.prompt prompt⟩
    obtain ⟨later, mem⟩ := a.kept { c with headSince := since } queued prompt
    exact ⟨later, mem⟩

theorem holdsCopy_congr {s t : State} (h : t.core = s.core) (c : Copy) : t.holdsCopy c ↔ s.holdsCopy c := by
  unfold State.holdsCopy State.isLate State.useCount
  rw [h]

/-- A waiting copy with a new identifier is a newly queued frame. -/
theorem State.holdsCopy.queuesOn {s t : State} {c : Copy} {p : Nat} {Q : Frame → Prop} (h : t.holdsCopy c)
    (new : s.core.nextId ≤ c.cid) (dest : c.dest = .port p) (out : Q c.out) : s.queuesOn t p Q := by
  rcases h with ⟨x, hx, hc⟩ | ⟨⟨since, queued⟩, -⟩
  · exact ⟨c, List.mem_append_right _ (List.mem_flatten.mpr ⟨x.2, List.mem_map.mpr ⟨x, hx, rfl⟩, hc⟩), new, dest, out⟩
  · exact ⟨_, List.mem_append_left _ queued, new, dest, out⟩

theorem idsBelow_of_core {s t : State} {n : Nat} (h : t.core = s.core) (a : s.IdsBelow n) : t.IdsBelow n := by
  obtain ⟨held, copies, waits⟩ := a
  exact ⟨h ▸ held, h ▸ copies, h ▸ waits⟩

theorem queuesOn_of_core {s u t : State} {p : Nat} {Q : Frame → Prop} (h : u.core = s.core) (a : u.queuesOn t p Q) :
    s.queuesOn t p Q := by
  obtain ⟨c, mem, new, rest⟩ := a
  exact ⟨c, mem, h ▸ new, rest⟩

theorem queuesOn_of_core_eq {s t u : State} {p : Nat} {Q : Frame → Prop} (h : u.core = t.core) (a : s.queuesOn t p Q) :
    s.queuesOn u p Q := by
  rwa [State.queuesOn, State.allCopies, State.waitingCopies, h]

theorem queuesOn_mono {s t : State} {p : Nat} {P Q : Frame → Prop} (a : s.queuesOn t p P) (h : ∀ g, P g → Q g) :
    s.queuesOn t p Q := by
  obtain ⟨c, mem, new, dest, out⟩ := a
  exact ⟨c, mem, new, dest, h _ out⟩

/-! ## One frame is queued (R294) -/

/-- The cells of the local region that a frame of the switch's own for a port takes. -/
def State.ownHeld (s : State) (p : Nat) (f : Frame) : Held :=
  { fid := s.core.nextId, die := dieOf p, src := 64, frame := f, region := .localR, cells := cellsOf f, vc := f.h.vc.toNat,
    refcount := 1, lastOwner := some (.port p, f.h.vc.toNat), tail := .good, cutThrough := false, shaper := none, tag := 0 }

/-- The copy that it is queued as, before it has its cells. -/
def State.ownCopy (s : State) (p : Nat) (f : Frame) (msg : Option Nat) : Copy :=
  { cid := s.core.nextId + 1, fid := s.core.nextId, die := dieOf p, src := 64, dest := .port p, vc := f.h.vc.toNat, out := f,
    started := false, markBad := none, released := true, headSince := none, own := true, rewritten := true, msg := msg,
    fan := [], tag := 0, useCount := 0 }

/-- Two identifiers are given, to the frame and to its copy. -/
def State.idsDrawn (s : State) : State := s.mapCore fun k => { k with nextId := s.core.nextId + 2 }

/-- A frame of the switch's own finds local cells, or waits for them. -/
theorem queueOwn_eq (s : State) (p : Nat) (f : Frame) (msg : Option Nat) :
    s.queueOwn p f msg = s.idsDrawn.admitLocal (s.ownHeld p f) [s.ownCopy p f msg]
      ∨ s.queueOwn p f msg = s.idsDrawn.mapCore fun k =>
        { k with backlog := k.backlog ++ [(s.ownHeld p f, [s.ownCopy p f msg])] } := by
  unfold State.queueOwn State.takeLocal
  dsimp only [List.getLast?_singleton]
  split
  · exact .inl rfl
  · exact .inr rfl

theorem queueOwn_nextId (s : State) (p : Nat) (f : Frame) (msg : Option Nat) :
    (s.queueOwn p f msg).core.nextId = s.core.nextId + 2 := by
  rcases queueOwn_eq s p f msg with e | e <;> rw [e]
  · exact admitLocal_nextId _ _ _
  · rfl

theorem queueOwn_below (s : State) (p : Nat) (f : Frame) (msg : Option Nat) (fresh : s.IdsBelow s.core.nextId) :
    (s.queueOwn p f msg).IdsBelow (s.queueOwn p f msg).core.nextId := by
  obtain ⟨held, copies, waits⟩ := fresh
  have drawn : s.idsDrawn.IdsBelow (s.core.nextId + 2) :=
    ⟨fun h hh => Nat.lt_add_right 2 (held h hh), fun c hc => Nat.lt_add_right 2 (copies c hc),
      fun x hx => ⟨Nat.lt_add_right 2 (waits x hx).1, fun c hc => Nat.lt_add_right 2 ((waits x hx).2 c hc)⟩⟩
  have newFid : (s.ownHeld p f).fid < s.core.nextId + 2 := by simp [State.ownHeld]
  have newCid : ∀ c ∈ [s.ownCopy p f msg], c.cid < s.core.nextId + 2 := by simp [State.ownCopy]
  rw [queueOwn_nextId]
  rcases queueOwn_eq s p f msg with e | e <;> rw [e]
  · exact admitLocal_below drawn _ _ newFid newCid
  · refine ⟨drawn.held, drawn.copies, fun x hx => ?_⟩
    rcases List.mem_append.mp hx with old | new
    · exact drawn.waits x old
    · rw [List.mem_singleton.mp new]
      exact ⟨newFid, newCid⟩

/-- A frame of the switch's own, once sent to its port, waits there. -/
theorem queueOwn_holds (s : State) (p : Nat) (f : Frame) (msg : Option Nat) (fresh : s.IdsBelow s.core.nextId) :
    ∃ c, c.cid = s.core.nextId + 1 ∧ c.dest = .port p ∧ c.out = f ∧ (s.queueOwn p f msg).holdsCopy c := by
  rcases queueOwn_eq s p f msg with e | e <;> rw [e]
  · let tag := s.idsDrawn.newTag (dieOf p)
    let c : Copy := { s.ownCopy p f msg with tag := tag, useCount := s.idsDrawn.useCount (dieOf p) tag }
    refine ⟨c, rfl, rfl, rfl, (admitLocal_headsOf _ _ _).holdsCopy (.inr ⟨⟨none, ?_⟩, fun z hz same => ?_⟩)⟩
    · exact List.mem_append_right _ (List.mem_singleton.mpr rfl)
    · rcases List.mem_append.mp hz with old | new
      · exact absurd same (Nat.ne_of_lt (Nat.lt_succ_of_lt (fresh.copies z old)))
      · rw [List.mem_singleton.mp new]
        exact bne_eq_false_iff_eq.mpr rfl
  · exact ⟨s.ownCopy p f msg, rfl, rfl, rfl,
      .inl ⟨_, List.mem_append_right _ (List.mem_singleton.mpr rfl), List.mem_singleton.mpr rfl⟩⟩

/-- What waited before still waits. -/
theorem queueOwn_keeps (s : State) (p : Nat) (f : Frame) (msg : Option Nat) {c : Copy} (h : s.holdsCopy c)
    (old : c.cid < s.core.nextId) : (s.queueOwn p f msg).holdsCopy c := by
  rcases queueOwn_eq s p f msg with e | e <;> rw [e]
  · refine (admitLocal_headsOf _ _ _).holdsCopy ?_
    rcases h with waits | ⟨⟨since, queued⟩, prompt⟩
    · exact .inl waits
    · refine .inr ⟨⟨since, List.mem_append_left _ queued⟩, fun z hz same => ?_⟩
      rcases List.mem_append.mp hz with before | new
      · exact prompt z before same
      · rw [List.mem_singleton.mp new] at same
        have drawn : s.core.nextId + 1 = c.cid := same
        omega
  · rcases h with ⟨x, hx, hc⟩ | queued
    · exact .inl ⟨x, List.mem_append_left _ hx, hc⟩
    · exact .inr queued

theorem queueOwn_moves (s : State) (p : Nat) (f : Frame) (msg : Option Nat) :
    Moves (refcountOf (dieOf p)) s (s.queueOwn p f msg) := takeLocal_moves s _ _ _

/-! ## A frame for one port (R36, R281) -/

/-- A frame that may be sent leaves by its port as it is, stamped. -/
theorem emit_onPort (s : State) (p : Nat) (f : Frame) (msg : Option Nat) (may : unlockedMay f.h = true)
    (lock : s.pcsLock p = true) : s.emit (.onPort p) f msg = s.queueOwn p (s.stamp 0 f) msg := by
  simp [State.emit, State.place, may, lock]

theorem port_lt {s : State} {p : Nat} (ok : s.portsOk = true) (lock : s.pcsLock p = true) : p < 256 := by
  simp only [State.pcsLock, Bool.and_eq_true] at lock
  obtain ⟨c, found⟩ := Option.isSome_iff_exists.mp lock.1
  have num : c.num = p := by simpa using List.find?_some found
  have inside := List.all_eq_true.mp ok c (List.mem_of_find?_eq_some found)
  simp only [Bool.and_eq_true, decide_eq_true_eq] at inside
  exact num ▸ inside.1

end Sys2Proof.Machine

/-! PROOFS. Version negotiation of a link (spec/02_fabric_frames.md R61 to R64): the fields of TFP_PORT_STATUS, what a HELLO writes
of its port, the LINK frames sent, and the end of the negotiation. -/
namespace Sys2Proof.Machine

open Sys2Proof

/-! ## Fields of one register -/

/-- Two fields of one register that share no bit. -/
def Fld.apart (f g : Fld) : Bool := f.ok && g.ok && g.reg == f.reg && (decide (f.hi < g.lo) || decide (g.hi < f.lo))

theorem fld_setFld_apart (s : State) (f g : Fld) (i v : Nat) (h : f.apart g = true) : (s.setFld f i v).fld g i = s.fld g i := by
  simp only [Fld.apart, Bool.and_eq_true, Bool.or_eq_true, beq_iff_eq, decide_eq_true_eq] at h
  obtain ⟨⟨⟨hf, hg⟩, same⟩, apart⟩ := h
  exact fld_setFld_other s f g i v hf hg same apart

/-- A register that reads as before has every field as before. -/
theorem fld_of_reg {s t : State} (f : Fld) {i : Nat} (h : t.reg f.reg i = s.reg f.reg i) : t.fld f i = s.fld f i :=
  congrArg (bitsOf · f.hi f.lo) h

theorem reg_of_regs {s t : State} (h : t.regs = s.regs) (n : RegName) (i : Nat) : t.reg n i = s.reg n i := by
  unfold State.reg
  rw [h]

theorem blk_of_ports {s t : State} (h : t.ports = s.ports) (p : Nat) : t.blk p = s.blk p := by
  rw [State.blk, State.port?, h, State.blk, State.port?]

@[simp] theorem setNeg_blk (s : State) (x : NegSt) (p : Nat) : (s.setNeg x).blk p = s.blk p := rfl

@[simp] theorem setNeg_fld (s : State) (x : NegSt) (f : Fld) (i : Nat) : (s.setNeg x).fld f i = s.fld f i := rfl

/-! ## NEG_STATE, SELECTED_VER and the acknowledgements (R62, R63) -/

theorem neg_setNeg (s : State) (x : NegSt) : (s.setNeg x).neg x.port = x := by
  have gone : (s.negs.filter fun y => y.port != x.port).find? (fun y => y.port == x.port) = none :=
    List.find?_eq_none.mpr fun y hy => by simpa using (List.mem_filter.mp hy).2
  simp [State.neg, State.setNeg, List.find?_append, gone]

theorem neg_port (s : State) (p : Nat) : (s.neg p).port = p := by
  unfold State.neg
  cases found : s.negs.find? fun x => x.port == p with
  | none => rfl
  | some x => simpa using List.find?_some found

theorem neg_of_negs {s t : State} (h : t.negs = s.negs) (p : Nat) : t.neg p = s.neg p := by rw [State.neg, h, State.neg]

theorem setNeg_parts (s : State) (x : NegSt) : onlyParts [.negs] s (s.setNeg x) := fun p hp => by
  cases p
  case negs => exact absurd (by decide) hp
  all_goals rfl

theorem setNegState_touches (s : State) (p st sel : Nat) {Q : Nat → Prop} (h : Q (regAddr .TFP_PORT_STATUS (s.blk p))) :
    Touches [.regs] Q s (s.setNegState p st sel) := (setFld_touches s _ _ _ h).trans (setFld_touches _ _ _ _ h)

theorem setNegState_state (s : State) (p st sel : Nat) :
    (s.setNegState p st sel).fld F.TFP_PORT_STATUS_NEG_STATE (s.blk p) = st % 4 := by
  rw [State.setNegState, fld_setFld_apart _ _ _ _ _ (by decide), fld_setFld _ _ _ _ (by decide)]
  rfl

theorem setNegState_selected (s : State) (p st sel : Nat) :
    (s.setNegState p st sel).fld F.TFP_PORT_STATUS_SELECTED_VER (s.blk p) = sel % 16 := by
  rw [State.setNegState, fld_setFld _ _ _ _ (by decide)]
  rfl

theorem setNegState_peerMin (s : State) (p st sel : Nat) :
    (s.setNegState p st sel).fld F.TFP_PORT_STATUS_PEER_MIN_VER (s.blk p) = s.fld F.TFP_PORT_STATUS_PEER_MIN_VER (s.blk p) := by
  rw [State.setNegState, fld_setFld_apart _ _ _ _ _ (by decide), fld_setFld_apart _ _ _ _ _ (by decide)]

theorem setNegState_peerMax (s : State) (p st sel : Nat) :
    (s.setNegState p st sel).fld F.TFP_PORT_STATUS_PEER_MAX_VER (s.blk p) = s.fld F.TFP_PORT_STATUS_PEER_MAX_VER (s.blk p) := by
  rw [State.setNegState, fld_setFld_apart _ _ _ _ _ (by decide), fld_setFld_apart _ _ _ _ _ (by decide)]

theorem chooseVer_le (lo hi : Nat) : chooseVer lo hi ≤ 2 := by
  unfold chooseVer
  dsimp only
  split <;> omega

theorem setNegState_cruise (s : State) (p st sel : Nat) : (s.setNegState p st sel).cruise = s.cruise := by
  rw [State.setNegState, setFld_cruise, setFld_cruise]

theorem crz_of_cruise {s t : State} (h : t.cruise = s.cruise) (p : Nat) : t.crz p = s.crz p := by
  rw [State.crz, h, State.crz]

/-- Both acknowledgements end the negotiation of a port that no sweep waits for. -/
theorem negCheck_eq (s : State) (p : Nat) (idle : (s.crz p).phase ≠ .waiting) : s.negCheck p =
    if s.fld F.TFP_PORT_STATUS_NEG_STATE (s.blk p) = 1 ∧ (s.neg p).ackSent = true ∧ (s.neg p).ackGot = true
    then s.setNegState p 2 (s.chosen p) else s := by
  have still : ((s.setNegState p 2 (s.chosen p)).crz p).phase ≠ .waiting := by
    rwa [crz_of_cruise (setNegState_cruise s p 2 _)]
  rw [State.negCheck]
  simp only [beq_eq_false_iff_ne.mpr still, Bool.false_eq_true, if_false]

/-! ## LINK frames (R61) -/

theorem regAddr_portStatus (b : Nat) : regAddr .TFP_PORT_STATUS b = 0x20004000 + b / 32 * 0x100000 + b % 32 * 0x40 := by
  simp [regAddr, regRow, row_TFP_PORT_STATUS]

theorem portStatus_not_refcount (d b : Nat) : ¬ refcountOf d (regAddr .TFP_PORT_STATUS b) := by
  rw [refcountOf, regAddr_portStatus, regAddr_refcountStatus]
  omega

/-- A LINK frame waits for its port; nothing but the packet buffer has changed. -/
theorem sendLink_sends (s : State) (p op sel : Nat) (lock : s.pcsLock p = true) (fresh : s.IdsBelow s.core.nextId) :
    Moves (refcountOf (dieOf p)) s (s.sendLink p op sel)
      ∧ s.queuesOn (s.sendLink p op sel) p fun g => g.ext = (s.linkFrame p op sel).ext := by
  rw [State.sendLink, emit_onPort s p _ none rfl lock]
  obtain ⟨c, cid, dest, out, holds⟩ := queueOwn_holds s p (s.stamp 0 (s.linkFrame p op sel)) none fresh
  exact ⟨queueOwn_moves s p _ none, holds.queuesOn (by omega) dest (by rw [out]; rfl)⟩

theorem sendLink_status (s : State) (p op sel b : Nat) (sent : Moves (refcountOf (dieOf p)) s (s.sendLink p op sel)) :
    (s.sendLink p op sel).reg .TFP_PORT_STATUS b = s.reg .TFP_PORT_STATUS b :=
  sent.regs.reg _ _ (portStatus_not_refcount _ b)

/-! ## What a HELLO writes of its port (R63, R167, R313) -/

/-- The registers that a HELLO on a port may change. -/
def helloRegs (s : State) (p : Nat) : List (RegName × Nat) :=
  (.REFCOUNT_STATUS, dieOf p) :: (.TFP_PORT_STATUS, s.blk p) :: (.THIN_ACTIVE, 2 * dieOf p + localOf p / 32)
    :: (List.range 64).map fun m => (.METRO_EXT, m)

/-- Their addresses. -/
def helloAddr (s : State) (p k : Nat) : Prop := ∃ r ∈ helloRegs s p, regAddr r.1 r.2 = k

theorem helloAddr_refcount {s : State} {p : Nat} (k : Nat) (h : refcountOf (dieOf p) k) : helloAddr s p k :=
  ⟨(.REFCOUNT_STATUS, dieOf p), by simp [helloRegs], h.symm⟩

theorem helloAddr_status (s : State) (p : Nat) : helloAddr s p (regAddr .TFP_PORT_STATUS (s.blk p)) :=
  ⟨(.TFP_PORT_STATUS, s.blk p), by simp [helloRegs], rfl⟩

/-- THIN_ACTIVE of a port, and the extension slots of its die. -/
def attributeAddr (p k : Nat) : Prop :=
  k = regAddr .THIN_ACTIVE (2 * dieOf p + localOf p / 32) ∨ ∃ e < 16, k = regAddr .METRO_EXT (16 * dieOf p + e)

theorem attributeAddr_hello {s : State} {p : Nat} (hp : p < 256) (k : Nat) (h : attributeAddr p k) : helloAddr s p k := by
  rcases h with rfl | ⟨e, he, rfl⟩
  · exact ⟨(.THIN_ACTIVE, 2 * dieOf p + localOf p / 32), by simp [helloRegs], rfl⟩
  · refine ⟨(.METRO_EXT, 16 * dieOf p + e), ?_, rfl⟩
    simp only [helloRegs, List.mem_cons, List.mem_map, List.mem_range, dieOf]
    exact .inr (.inr (.inr ⟨_, by omega, rfl⟩))

theorem portStatus_not_attribute {p : Nat} (hp : p < 256) (b : Nat) : ¬ attributeAddr p (regAddr .TFP_PORT_STATUS b) := by
  have die : p / 64 < 4 := Nat.div_lt_of_lt_mul hp
  rw [regAddr_portStatus]
  rintro (h | ⟨e, he, h⟩)
  · simp only [regAddr, regRow, row_THIN_ACTIVE, dieOf, localOf] at h
    omega
  · simp only [regAddr, regRow, row_METRO_EXT, dieOf] at h
    omega

theorem linkAttributes_touches (s : State) (p : Nat) (caps : BitVec 32) :
    Touches [.regs] (attributeAddr p) s (s.linkAttributes p caps) := by
  unfold State.linkAttributes
  dsimp only
  have thin := setReg_touches s .THIN_ACTIVE (2 * dieOf p + localOf p / 32) (Q := attributeAddr p)
  split
  · exact thin _ (.inl rfl)
  · split
    · exact thin _ (.inl rfl)
    · rename_i few
      have slot : attributeAddr p (regAddr .METRO_EXT (16 * dieOf p + _)) := .inr ⟨_, Nat.lt_of_not_le few, rfl⟩
      exact ((thin _ (.inl rfl)).trans (setFld_touches _ _ _ _ slot)).trans (setFld_touches _ _ _ _ slot)

/-- The port as a HELLO describes it. -/
def State.peerHeard (s : State) (p : Nat) (x : LinkExt) : State :=
  ((s.setFld F.TFP_PORT_STATUS_PEER_MIN_VER (s.blk p) x.minVer.toNat).setFld F.TFP_PORT_STATUS_PEER_MAX_VER (s.blk p)
    x.maxVer.toNat).linkAttributes p x.caps

/-- The versions of a HELLO stand in the register of its port, and nothing but what a HELLO may change has changed. -/
structure HelloHeard (s t : State) (p : Nat) (x : LinkExt) : Prop where
  peerMin : t.fld F.TFP_PORT_STATUS_PEER_MIN_VER (s.blk p) = x.minVer.toNat
  peerMax : t.fld F.TFP_PORT_STATUS_PEER_MAX_VER (s.blk p) = x.maxVer.toNat
  parts : onlyParts [.regs, .negs, .core, .outs] s t
  outs : sameOuts s t
  regs : regsAt (helloAddr s p) s t

theorem HelloHeard.blk {s t : State} {p : Nat} {x : LinkExt} (a : HelloHeard s t p x) : t.blk p = s.blk p :=
  blk_of_ports (a.parts .ports (by decide)) p

theorem HelloHeard.chosen {s t : State} {p : Nat} {x : LinkExt} (a : HelloHeard s t p x) :
    t.chosen p = chooseVer x.minVer.toNat x.maxVer.toNat := by rw [State.chosen, a.blk, a.peerMin, a.peerMax]

theorem HelloHeard.setNeg {s t : State} {p : Nat} {x : LinkExt} (a : HelloHeard s t p x) (y : NegSt) :
    HelloHeard s (t.setNeg y) p x where
  peerMin := a.peerMin
  peerMax := a.peerMax
  parts := onlyParts_trans a.parts (onlyParts_mono (setNeg_parts t y) (by decide))
  outs := a.outs
  regs := a.regs

theorem HelloHeard.setNegState {s t : State} {p : Nat} {x : LinkExt} (a : HelloHeard s t p x) (st sel : Nat) :
    HelloHeard s (t.setNegState p st sel) p x := by
  have step := setNegState_touches t p st sel (Q := helloAddr s p) (a.blk ▸ helloAddr_status s p)
  refine ⟨?_, ?_, onlyParts_trans a.parts (onlyParts_mono step.parts (by decide)), a.outs.trans
    (sameOuts_of_parts step.parts (by decide)), regsAt_trans a.regs step.regs⟩
  · rw [← a.peerMin, ← a.blk]
    exact setNegState_peerMin t p st sel
  · rw [← a.peerMax, ← a.blk]
    exact setNegState_peerMax t p st sel

theorem HelloHeard.sendLink {s t : State} {p op sel : Nat} {x : LinkExt} (a : HelloHeard s t p x)
    (sent : Moves (refcountOf (dieOf p)) t (t.sendLink p op sel)) : HelloHeard s (t.sendLink p op sel) p x where
  peerMin := (fld_of_reg F.TFP_PORT_STATUS_PEER_MIN_VER (sendLink_status t p op sel _ sent)).trans a.peerMin
  peerMax := (fld_of_reg F.TFP_PORT_STATUS_PEER_MAX_VER (sendLink_status t p op sel _ sent)).trans a.peerMax
  parts := onlyParts_trans a.parts (onlyParts_mono sent.parts (by decide))
  outs := a.outs.trans sent.outs
  regs := regsAt_trans a.regs (regsAt_mono sent.regs helloAddr_refcount)

theorem peerHeard_heard (s : State) (p : Nat) (x : LinkExt) (hp : p < 256) : HelloHeard s (s.peerHeard p x) p x
    ∧ (s.peerHeard p x).fld F.TFP_PORT_STATUS_NEG_STATE (s.blk p) = s.fld F.TFP_PORT_STATUS_NEG_STATE (s.blk p)
    ∧ (s.peerHeard p x).fld F.TFP_PORT_STATUS_SELECTED_VER (s.blk p) = s.fld F.TFP_PORT_STATUS_SELECTED_VER (s.blk p)
    ∧ (s.peerHeard p x).core = s.core ∧ (s.peerHeard p x).negs = s.negs := by
  have written := (setFld_touches s F.TFP_PORT_STATUS_PEER_MIN_VER (s.blk p) x.minVer.toNat (helloAddr_status s p)).trans
    (setFld_touches _ F.TFP_PORT_STATUS_PEER_MAX_VER (s.blk p) x.maxVer.toNat (helloAddr_status s p))
  have attributes := linkAttributes_touches ((s.setFld F.TFP_PORT_STATUS_PEER_MIN_VER (s.blk p) x.minVer.toNat).setFld
    F.TFP_PORT_STATUS_PEER_MAX_VER (s.blk p) x.maxVer.toNat) p x.caps
  have whole := written.trans (attributes.mono (fun _ => id) (attributeAddr_hello hp))
  have status (f : Fld) (h : f.reg = .TFP_PORT_STATUS) : (s.peerHeard p x).fld f (s.blk p) =
      ((s.setFld F.TFP_PORT_STATUS_PEER_MIN_VER (s.blk p) x.minVer.toNat).setFld F.TFP_PORT_STATUS_PEER_MAX_VER (s.blk p)
        x.maxVer.toNat).fld f (s.blk p) := attributes.regs.fld f _ (h ▸ portStatus_not_attribute hp _)
  refine ⟨⟨?_, ?_, onlyParts_mono whole.parts (by decide), sameOuts_of_parts whole.parts (by decide), whole.regs⟩, ?_, ?_,
    whole.parts .core (by decide), whole.parts .negs (by decide)⟩
  · rw [status _ rfl, fld_setFld_apart _ _ _ _ _ (by decide), fld_setFld _ _ _ _ (by decide)]
    exact Nat.mod_eq_of_lt x.minVer.isLt
  · rw [status _ rfl, fld_setFld _ _ _ _ (by decide)]
    exact Nat.mod_eq_of_lt x.maxVer.isLt
  · rw [status _ rfl, fld_setFld_apart _ _ _ _ _ (by decide), fld_setFld_apart _ _ _ _ _ (by decide)]
  · rw [status _ rfl, fld_setFld_apart _ _ _ _ _ (by decide), fld_setFld_apart _ _ _ _ _ (by decide)]

/-! ## HELLO (R62, R63) -/

/-- The negotiation that a HELLO of another version than that in force belongs to: the one that runs, or a new one. -/
def State.negotiating (s : State) (p : Nat) : State :=
  if s.fld F.TFP_PORT_STATUS_NEG_STATE (s.blk p) = 1 then s else (s.setNeg ⟨p, false, false⟩).setNegState p 1 0

theorem helloIn_eq (s : State) (p v : Nat) (x : LinkExt) (hp : p < 256) (idle : (s.crz p).phase ≠ .waiting)
    (chosen : v = chooseVer x.minVer.toNat x.maxVer.toNat) : s.helloIn p x =
      if v = 0 then ((s.peerHeard p x).setNeg ⟨p, false, false⟩).setNegState p 3 0
      else if s.fld F.TFP_PORT_STATUS_NEG_STATE (s.blk p) = 2 ∧ v = s.fld F.TFP_PORT_STATUS_SELECTED_VER (s.blk p) then
        (s.peerHeard p x).sendLink p 2 v
      else ((((s.peerHeard p x).negotiating p).sendLink p 2 v).setNeg
        { ((s.peerHeard p x).negotiating p).neg p with ackSent := true }).negCheck p := by
  obtain ⟨heard, state, selected, -, -⟩ := peerHeard_heard s p x hp
  have still : ((((s.peerHeard p x).setNeg ⟨p, false, false⟩).setNegState p 3 0).crz p).phase ≠ .waiting := by
    rwa [crz_of_cruise (((heard.setNeg ⟨p, false, false⟩).setNegState 3 0).parts .cruise (by decide))]
  have version : (s.peerHeard p x).chosen p = v := heard.chosen.trans chosen.symm
  unfold State.helloIn
  dsimp only
  rw [show (State.linkAttributes _ p x.caps) = s.peerHeard p x from rfl, version, state, selected,
    beq_eq_false_iff_ne.mpr still]
  simp only [State.negotiating, heard.blk, state, Bool.false_eq_true, if_false]

theorem portLink_not_hello {s : State} {p : Nat} (hp : p < 256) (b : Nat) : ¬ helloAddr s p (regAddr .PORT_LINK b) := by
  have die : p / 64 < 4 := Nat.div_lt_of_lt_mul hp
  rintro ⟨r, hr, h⟩
  rw [regAddr_portLink] at h
  simp only [helloRegs, List.mem_cons, List.mem_map, List.mem_range] at hr
  rcases hr with rfl | rfl | rfl | ⟨m, hm, rfl⟩
  · rw [regAddr_refcountStatus] at h
    omega
  · rw [regAddr_portStatus] at h
    omega
  · simp only [regAddr, regRow, row_THIN_ACTIVE, dieOf, localOf] at h
    omega
  · simp only [regAddr, regRow, row_METRO_EXT] at h
    omega

/-- A HELLO leaves PCS lock alone. -/
theorem HelloHeard.pcsLock {s t : State} {p : Nat} {x : LinkExt} (a : HelloHeard s t p x) (hp : p < 256) :
    t.pcsLock p = s.pcsLock p := by
  have link := a.regs.fld F.PORT_LINK_LINK_STATE (s.blk p) (portLink_not_hello hp _)
  have ports : t.ports = s.ports := a.parts .ports (by decide)
  rw [State.pcsLock, a.blk, link, State.port?, ports, State.pcsLock, State.port?]

/-- A LINK frame sent once a HELLO has been heard. -/
theorem HelloHeard.sends {s t : State} {p : Nat} {x : LinkExt} (a : HelloHeard s t p x) (core : t.core = s.core) (hp : p < 256)
    (lock : s.pcsLock p = true) (fresh : s.idsFresh = true) (op sel : Nat) :
    Moves (refcountOf (dieOf p)) t (t.sendLink p op sel)
      ∧ s.queuesOn (t.sendLink p op sel) p fun g => g.ext = (t.linkFrame p op sel).ext := by
  obtain ⟨moves, queues⟩ := sendLink_sends t p op sel ((a.pcsLock hp).trans lock)
    (core ▸ idsBelow_of_core core (State.idsBelow_of_fresh fresh))
  exact ⟨moves, queuesOn_of_core core queues⟩

theorem negotiating_heard {s u : State} {p : Nat} {x : LinkExt} (a : HelloHeard s u p x) : HelloHeard s (u.negotiating p) p x := by
  unfold State.negotiating
  split
  · exact a
  · exact (a.setNeg _).setNegState 1 0

theorem negotiating_core (u : State) (p : Nat) : (u.negotiating p).core = u.core := by
  unfold State.negotiating
  split
  · rfl
  · exact (setNegState_touches (u.setNeg ⟨p, false, false⟩) p 1 0 (Q := fun _ => True) trivial).parts .core (by decide)

/-- A negotiation runs, in which the neighbour's HELLO_ACK counts only if it came in this same negotiation. -/
theorem negotiating_state (u : State) (p : Nat) :
    (u.negotiating p).fld F.TFP_PORT_STATUS_NEG_STATE (u.blk p) = 1
      ∧ ((u.negotiating p).neg p).ackGot =
        decide (u.fld F.TFP_PORT_STATUS_NEG_STATE (u.blk p) = 1 ∧ (u.neg p).ackGot = true) := by
  unfold State.negotiating
  split
  · rename_i runs
    exact ⟨runs, by simp [runs]⟩
  · rename_i ended
    refine ⟨setNegState_state (u.setNeg ⟨p, false, false⟩) p 1 0, ?_⟩
    have negs := (setNegState_touches (u.setNeg ⟨p, false, false⟩) p 1 0 (Q := fun _ => True) trivial).parts .negs (by decide)
    rw [neg_of_negs negs, neg_setNeg u ⟨p, false, false⟩]
    simp [ended]

/-- HELLO_ACK is sent in a negotiation, which ends if the neighbour's came before. -/
theorem negotiate_sends {s u w : State} {p v : Nat} {x : LinkExt} (a : HelloHeard s u p x) (core : u.core = s.core)
    (hp : p < 256) (lock : s.pcsLock p = true) (fresh : s.idsFresh = true) (idle : (s.crz p).phase ≠ .waiting)
    (chosen : v = chooseVer x.minVer.toNat x.maxVer.toNat) (hw : w = u.negotiating p) :
    let t := ((w.sendLink p 2 v).setNeg { w.neg p with ackSent := true }).negCheck p
    HelloHeard s t p x ∧ (s.queuesOn t p fun g => g.ext = (w.linkFrame p 2 v).ext) ∧ (t.neg p).ackSent = true
      ∧ t.fld F.TFP_PORT_STATUS_NEG_STATE (s.blk p) = (if (w.neg p).ackGot = true then 2 else 1)
      ∧ ((w.neg p).ackGot = true → t.fld F.TFP_PORT_STATUS_SELECTED_VER (s.blk p) = v) := by
  have heard : HelloHeard s w p x := hw ▸ negotiating_heard a
  obtain ⟨moves, queues⟩ := heard.sends (by rw [hw, negotiating_core, core]) hp lock fresh 2 v
  have sent := (heard.sendLink moves).setNeg { w.neg p with ackSent := true }
  have state : (w.sendLink p 2 v).fld F.TFP_PORT_STATUS_NEG_STATE (s.blk p) = 1 := by
    rw [fld_of_reg F.TFP_PORT_STATUS_NEG_STATE (sendLink_status w p 2 v _ moves), ← a.blk, hw]
    exact (negotiating_state u p).1
  have acks : ((w.sendLink p 2 v).setNeg { w.neg p with ackSent := true }).neg p = { w.neg p with ackSent := true } := by
    have put := neg_setNeg (w.sendLink p 2 v) { w.neg p with ackSent := true }
    rwa [show ({ w.neg p with ackSent := true } : NegSt).port = p from neg_port w p] at put
  have still : (((w.sendLink p 2 v).setNeg { w.neg p with ackSent := true }).crz p).phase ≠ .waiting := by
    rwa [crz_of_cruise (sent.parts .cruise (by decide))]
  intro t
  have ht : t = if (w.neg p).ackGot = true then
      ((w.sendLink p 2 v).setNeg { w.neg p with ackSent := true }).setNegState p 2 v
      else (w.sendLink p 2 v).setNeg { w.neg p with ackSent := true } := by
    simp only [t, negCheck_eq _ _ still, sent.chosen, ← chosen, sent.blk, acks, setNeg_fld, state, true_and]
  rw [ht]
  split
  · rename_i got
    have ended := sent.setNegState 2 v
    have touched := setNegState_touches ((w.sendLink p 2 v).setNeg { w.neg p with ackSent := true }) p 2 v
      (Q := fun _ => True) trivial
    refine ⟨ended, queuesOn_of_core_eq (touched.parts .core (by decide)) queues, ?_, ?_, fun _ => ?_⟩
    · rw [neg_of_negs (touched.parts .negs (by decide)), acks]
    · rw [← sent.blk]
      exact setNegState_state _ p 2 v
    · rw [← sent.blk, setNegState_selected]
      exact Nat.mod_eq_of_lt (Nat.lt_of_le_of_lt (chosen ▸ chooseVer_le _ _) (by decide))
  · rename_i pending
    exact ⟨sent, queues, by rw [acks], state, fun h => absurd h pending⟩

theorem exec_hello (s : State) (port : Nat) (f : Frame) (x : LinkExt) (good : tailGood f = true) (lock : s.pcsLock port = true)
    (link : linkOf f = some x) (op : x.op = 1) : exec (.hello port f) s = .next (s.helloIn port x) := by
  show execHello port f s = _
  simp only [execHello, link]
  exact if_pos ⟨good, lock, op⟩

theorem linkFrame_ext (s : State) (p op sel : Nat) : ∃ y, (s.linkFrame p op sel).ext = .link y ∧ y.op = BitVec.ofNat 8 op
    ∧ y.selectedVer = BitVec.ofNat 4 sel ∧ y.minVer = 1 ∧ y.maxVer = 2 := ⟨_, rfl, rfl, rfl, rfl, rfl⟩

/-- What a HELLO_ACK of a version says. -/
theorem helloAck_says (s : State) (p v : Nat) (hv : v ≤ 2) (g : Frame) (h : g.ext = (s.linkFrame p 2 v).ext) :
    ∃ y, g.ext = .link y ∧ y.op = 2 ∧ y.selectedVer.toNat = v := by
  obtain ⟨y, ext, op, selected, -⟩ := linkFrame_ext s p 2 v
  refine ⟨y, h.trans ext, op, ?_⟩
  rw [selected, BitVec.toNat_ofNat]
  exact Nat.mod_eq_of_lt (by omega)

/-- A HELLO with which this switch has no version in common (R62). -/
theorem hello_noVersion (s : State) (p : Nat) (x : LinkExt) (hp : p < 256) :
    let t := ((s.peerHeard p x).setNeg ⟨p, false, false⟩).setNegState p 3 0
    HelloHeard s t p x ∧ t.fld F.TFP_PORT_STATUS_NEG_STATE (s.blk p) = 3
      ∧ t.fld F.TFP_PORT_STATUS_SELECTED_VER (s.blk p) = 0 ∧ t.core = s.core := by
  obtain ⟨heard, -, -, core, -⟩ := peerHeard_heard s p x hp
  have fresh := heard.setNeg ⟨p, false, false⟩
  have touched := setNegState_touches ((s.peerHeard p x).setNeg ⟨p, false, false⟩) p 3 0 (Q := fun _ => True) trivial
  refine ⟨fresh.setNegState 3 0, ?_, ?_, (touched.parts .core (by decide)).trans core⟩
  · rw [← fresh.blk]
    exact setNegState_state _ p 3 0
  · rw [← fresh.blk]
    exact setNegState_selected _ p 3 0

/-- A HELLO that chooses the version in force is answered, and nothing is negotiated again (R63). -/
theorem hello_inForce (s : State) (p v : Nat) (x : LinkExt) (hp : p < 256) (lock : s.pcsLock p = true)
    (fresh : s.idsFresh = true) :
    let t := (s.peerHeard p x).sendLink p 2 v
    HelloHeard s t p x ∧ (s.queuesOn t p fun g => g.ext = ((s.peerHeard p x).linkFrame p 2 v).ext)
      ∧ t.fld F.TFP_PORT_STATUS_NEG_STATE (s.blk p) = s.fld F.TFP_PORT_STATUS_NEG_STATE (s.blk p)
      ∧ t.fld F.TFP_PORT_STATUS_SELECTED_VER (s.blk p) = s.fld F.TFP_PORT_STATUS_SELECTED_VER (s.blk p)
      ∧ t.negs = s.negs := by
  obtain ⟨heard, state, selected, core, negs⟩ := peerHeard_heard s p x hp
  obtain ⟨moves, queues⟩ := heard.sends core hp lock fresh 2 v
  exact ⟨heard.sendLink moves, queues,
    (fld_of_reg F.TFP_PORT_STATUS_NEG_STATE (sendLink_status _ p 2 v _ moves)).trans state,
    (fld_of_reg F.TFP_PORT_STATUS_SELECTED_VER (sendLink_status _ p 2 v _ moves)).trans selected, (moves.parts .negs (by decide)).trans negs⟩

/-! ## HELLO_ACK and HELLO_TIMER (R62, R63) -/

/-- A HELLO_ACK of the chosen version is noted, and ends the negotiation that has sent its own. -/
theorem helloAck_noted (s : State) (p : Nat) (idle : (s.crz p).phase ≠ .waiting) :
    let t := (s.setNeg { s.neg p with ackGot := true }).negCheck p
    (t.neg p).ackGot = true ∧ (t.neg p).ackSent = (s.neg p).ackSent
      ∧ (s.fld F.TFP_PORT_STATUS_NEG_STATE (s.blk p) = 1 → (s.neg p).ackSent = true →
        t.fld F.TFP_PORT_STATUS_NEG_STATE (s.blk p) = 2
          ∧ t.fld F.TFP_PORT_STATUS_SELECTED_VER (s.blk p) = s.chosen p)
      ∧ (¬(s.fld F.TFP_PORT_STATUS_NEG_STATE (s.blk p) = 1 ∧ (s.neg p).ackSent = true) → t.regs = s.regs)
      ∧ onlyParts [.regs, .negs] s t ∧ onlyRegs [(.TFP_PORT_STATUS, s.blk p)] s t := by
  have acks : (s.setNeg { s.neg p with ackGot := true }).neg p = { s.neg p with ackGot := true } := by
    have put := neg_setNeg s { s.neg p with ackGot := true }
    rwa [show ({ s.neg p with ackGot := true } : NegSt).port = p from neg_port s p] at put
  have noted := setNeg_parts s { s.neg p with ackGot := true }
  have ht : (s.setNeg { s.neg p with ackGot := true }).negCheck p =
      if s.fld F.TFP_PORT_STATUS_NEG_STATE (s.blk p) = 1 ∧ (s.neg p).ackSent = true then
        (s.setNeg { s.neg p with ackGot := true }).setNegState p 2 (s.chosen p)
      else s.setNeg { s.neg p with ackGot := true } := by
    have still : ((s.setNeg { s.neg p with ackGot := true }).crz p).phase ≠ .waiting := idle
    rw [negCheck_eq _ p still, acks, setNeg_fld, setNeg_blk]
    simp only [and_true]
    rfl
  intro t
  rw [show t = _ from ht]
  split
  · rename_i ends
    let Q (k : Nat) : Prop := ∃ r ∈ [(RegName.TFP_PORT_STATUS, s.blk p)], regAddr r.1 r.2 = k
    have touched := setNegState_touches (s.setNeg { s.neg p with ackGot := true }) p 2 (s.chosen p) (Q := Q)
      ⟨_, List.mem_singleton.mpr rfl, rfl⟩
    have negs := neg_of_negs (touched.parts .negs (by decide)) p
    refine ⟨by rw [negs, acks], by rw [negs, acks], fun _ _ => ⟨setNegState_state _ p 2 _, ?_⟩, fun h => absurd ends h,
      onlyParts_trans (onlyParts_mono noted (by decide)) (onlyParts_mono touched.parts (by decide)), touched.regs.onlyRegs⟩
    exact (setNegState_selected _ p 2 _).trans (Nat.mod_eq_of_lt (Nat.lt_of_le_of_lt (chooseVer_le _ _) (by decide)))
  · rename_i goes
    exact ⟨by rw [acks], by rw [acks], fun one sent => absurd ⟨one, sent⟩ goes, fun _ => rfl,
      onlyParts_mono noted (by decide), fun _ _ => rfl⟩

theorem exec_helloAck (s : State) (port : Nat) (f : Frame) (x : LinkExt) (good : tailGood f = true)
    (lock : s.pcsLock port = true) (link : linkOf f = some x) (op : x.op = 2) : exec (.helloAck port f) s =
      if s.chosen port ≠ 0 ∧ x.selectedVer.toNat = s.chosen port then
        .next ((s.setNeg { s.neg port with ackGot := true }).negCheck port)
      else .next s := by
  show execHelloAck port f s = _
  simp only [execHelloAck, link, good, lock, op, true_and]

theorem exec_helloTimer (s : State) (port : Nat) (lock : s.pcsLock port = true) : exec (.helloTimer port) s =
    if (s.neg port).ackSent = true ∧ (s.neg port).ackGot = true then .next s else .next (s.sendLink port 1 0) := by
  show execHelloTimer port s = _
  simp only [execHelloTimer, lock, true_and]
  cases (s.neg port).ackSent <;> cases (s.neg port).ackGot <;> rfl

/-- Settles O26: the versions of a HELLO decide between no version, the version in force and a negotiation; a HELLO_ACK of the
chosen version is noted; the timer repeats HELLO until both acknowledgements went. -/
theorem negotiation : Obligations.Negotiation := by
  unfold Obligations.Negotiation
  refine ⟨fun s port v f x fresh ok good lock link op idle chosen => ?_, fun s port f x fresh ok lock idle => ⟨?_, ?_, ?_⟩⟩
  · have hp := port_lt ok lock
    have short : v ≤ 2 := chosen ▸ chooseVer_le _ _
    refine ⟨_, exec_hello s port f x good lock link op, ?_⟩
    rw [helloIn_eq s port v x hp idle chosen]
    dsimp only
    by_cases noVersion : v = 0
    · obtain ⟨heard, state, selected, core⟩ := hello_noVersion s port x hp
      rw [if_pos noVersion]
      exact ⟨heard.peerMin, heard.peerMax, fun _ => ⟨state, selected, core⟩, fun h => absurd noVersion h, fun h => absurd noVersion h,
        fun h => absurd noVersion h, heard.parts, heard.outs, heard.regs.onlyRegs⟩
    · rw [if_neg noVersion]
      by_cases force : s.fld F.TFP_PORT_STATUS_NEG_STATE (s.blk port) = 2
          ∧ v = s.fld F.TFP_PORT_STATUS_SELECTED_VER (s.blk port)
      · obtain ⟨heard, queues, state, selected, negs⟩ := hello_inForce s port v x hp lock fresh
        rw [if_pos force]
        refine ⟨heard.peerMin, heard.peerMax, fun h => absurd h noVersion,
          fun _ => queuesOn_mono queues (helloAck_says _ port v short), fun _ st _ => ⟨state.trans st, negs, selected⟩,
          fun _ other => ?_, heard.parts, heard.outs, heard.regs.onlyRegs⟩
        exact absurd force fun ⟨st, sel⟩ => other.elim (absurd st) (absurd sel)
      · rw [if_neg force]
        obtain ⟨spoken, before, -, core, negs⟩ := peerHeard_heard s port x hp
        obtain ⟨heard, queues, sent, state, selected⟩ := negotiate_sends spoken core hp lock fresh idle chosen rfl
        have got := (negotiating_state (s.peerHeard port x) port).2
        rw [spoken.blk, before, neg_of_negs negs] at got
        rw [got] at state selected
        exact ⟨heard.peerMin, heard.peerMax, fun h => absurd h noVersion,
          fun _ => queuesOn_mono queues (helloAck_says _ port v short), fun _ st sel => absurd ⟨st, sel⟩ force,
          fun _ _ => ⟨sent, by simpa using state, fun h => selected (decide_eq_true h)⟩, heard.parts, heard.outs,
          heard.regs.onlyRegs⟩
  · intro good link op
    refine ⟨fun other => ⟨s, ?_, rfl⟩, fun same acked => ⟨_, ?_, helloAck_noted s port idle⟩⟩
    · rw [exec_helloAck s port f x good lock link op, if_neg fun h => other h.2]
    · rw [exec_helloAck s port f x good lock link op, if_pos ⟨acked, same⟩]
  · intro sent got
    exact ⟨s, by rw [exec_helloTimer s port lock, if_pos ⟨sent, got⟩], rfl⟩
  · intro owing
    obtain ⟨moves, queues⟩ := sendLink_sends s port 1 0 lock (State.idsBelow_of_fresh fresh)
    refine ⟨_, by rw [exec_helloTimer s port lock, if_neg owing], queuesOn_mono queues fun g hg => ?_, moves.parts, moves.outs,
      fun k hk => moves.regs k fun e => hk _ (List.mem_singleton.mpr rfl) e.symm⟩
    obtain ⟨y, ext, op, -, low, high⟩ := linkFrame_ext s port 1 0
    exact ⟨y, hg.trans ext, op, low, high⟩

end Sys2Proof.Machine

/-! PROOFS. Messages of the switch's own (spec/02_fabric_frames.md R55, R58): sending one changes counters of the fabric dies and
the packet buffer, in which whatever waits stays. -/
namespace Sys2Proof.Machine

open Sys2Proof

/-! ## Where a frame goes (R275 to R278) -/

/-- The port with the fewest cells queued is one of the ports. -/
theorem foldl_best_mem (w : Nat → Nat) : ∀ (us : List Nat) (a : Nat × Nat),
    let best := us.foldl (fun (a : Nat × Nat) p => if w p < a.2 then (p, w p) else a) a
    best.1 = a.1 ∨ best.1 ∈ us
  | [], _ => .inl rfl
  | p :: us, a => by
    have rest := foldl_best_mem w us (if w p < a.2 then (p, w p) else a)
    dsimp only at rest ⊢
    rw [List.foldl_cons]
    refine rest.elim (fun first => ?_) fun later => .inr (List.mem_cons_of_mem _ later)
    rw [first]
    split
    · exact .inr List.mem_cons_self
    · exact .inl rfl

/-- A sprayed frame takes a usable port. -/
theorem spray_usable {s : State} {ps : List Nat} {h : BaseHdr} {q : Nat} (found : s.spray ps h = some q) : q ∈ s.usable ps := by
  unfold State.spray at found
  dsimp only at found
  split at found
  · exact absurd found (by simp)
  · rename_i empty
    split at found
    · exact List.mem_of_getElem? found
    · have nonempty : s.usable ps ≠ [] := fun e => empty (by rw [e]; rfl)
      obtain ⟨p, us, head⟩ := List.exists_cons_of_ne_nil nonempty
      rw [Option.some_inj] at found
      have best := foldl_best_mem (fun p => s.queued p h.vc.toNat) (s.usable ps)
        ((s.usable ps).headD 0, s.queued ((s.usable ps).headD 0) h.vc.toNat)
      rw [← found]
      refine best.elim (fun first => ?_) id
      rw [first, head]
      exact List.mem_cons_self

theorem spray_lock {s : State} {ps : List Nat} {h : BaseHdr} {q : Nat} (found : s.spray ps h = some q) :
    s.pcsLock q = true := by
  have carries := (List.mem_filter.mp (spray_usable found)).2
  simp only [State.carries, Bool.and_eq_true] at carries
  exact carries.1.1

/-- A frame of the switch's own is placed on a port with PCS lock, or counted in NO_ROUTE, or not sent. -/
theorem place_cases (s : State) (k : Nat) (hop : Hop) (f : Frame) :
    (∃ p g, s.place k hop f = (some (p, g), s) ∧ s.pcsLock p = true) ∨ s.place k hop f = (none, s)
      ∨ s.place k hop f = (none, s.bumpDies F.ROUTE_DISCARDS_NO_ROUTE) := by
  unfold State.place
  split
  · exact .inr (.inl rfl)
  · dsimp only
    split
    · split
      · rename_i lock
        exact .inl ⟨_, _, rfl, lock⟩
      · exact .inr (.inl rfl)
    · split
      · rename_i found
        exact .inl ⟨_, _, rfl, spray_lock found⟩
      · exact .inr (.inr rfl)

/-! ## What sending does -/

/-- The counters that sending may raise: REFCOUNT_STATUS and ROUTE_DISCARDS of the fabric dies. -/
def dieCounters (k : Nat) : Prop := ∃ d < 4, k = regAddr .REFCOUNT_STATUS d ∨ k = regAddr .ROUTE_DISCARDS d

/-- Frames are sent: of registers only counters of the dies change, and what waits in the packet buffer still waits there. -/
structure Sends (c : List Part) (s t : State) : Prop where
  parts : onlyParts c s t
  ports : t.ports = s.ports
  regs : s.portsOk = true → regsAt dieCounters s t
  next : s.core.nextId ≤ t.core.nextId
  below : s.IdsBelow s.core.nextId → t.IdsBelow t.core.nextId
  keeps : ∀ x, x.cid < s.core.nextId → s.holdsCopy x → t.holdsCopy x

section
variable {c d : List Part} {s t u : State}

theorem Sends.refl (c : List Part) (s : State) : Sends c s s :=
  ⟨onlyParts_refl c s, rfl, fun _ => regsAt_refl _ s, Nat.le_refl _, id, fun _ _ h => h⟩

theorem Sends.trans (a : Sends c s t) (b : Sends c t u) : Sends c s u where
  parts := onlyParts_trans a.parts b.parts
  ports := b.ports.trans a.ports
  regs := fun ok => regsAt_trans (a.regs ok) (b.regs (by rwa [State.portsOk, a.ports]))
  next := Nat.le_trans a.next b.next
  below := fun h => b.below (a.below h)
  keeps := fun x low h => b.keeps x (Nat.lt_of_lt_of_le low a.next) (a.keeps x low h)

theorem Sends.mono (a : Sends c s t) (h : ∀ p ∈ c, p ∈ d) : Sends d s t := { a with parts := onlyParts_mono a.parts h }

/-- The packet buffer does not change, and of registers only counters of the dies. -/
theorem Sends.of_regs (a : onlyParts c s t) (core : Part.core ∉ c) (ports : Part.ports ∉ c) (regs : regsAt dieCounters s t) :
    Sends c s t := by
  have same : t.core = s.core := a .core core
  exact ⟨a, a .ports ports, fun _ => regs, Nat.le_of_eq (by rw [same]), fun h => same ▸ idsBelow_of_core same h,
    fun x _ h => (holdsCopy_congr same x).mpr h⟩

/-- Neither the packet buffer nor a register changes. -/
theorem Sends.of_parts (a : onlyParts c s t) (core : Part.core ∉ c) (regs : Part.regs ∉ c) (ports : Part.ports ∉ c) :
    Sends c s t := .of_regs a core ports (regsAt_of_parts a regs)

theorem Sends.foldl {β : Type} (f : State → β → State) (h : ∀ s b, Sends c s (f s b)) : ∀ (l : List β) (s : State),
    Sends c s (l.foldl f s)
  | [], s => .refl c s
  | b :: l, s => (h s b).trans (Sends.foldl f h l (f s b))

end

theorem bump_dieCounters (s : State) (f : Fld) (d : Nat) (h : dieCounters (regAddr f.reg d)) :
    regsAt dieCounters s (s.bump f d) := regsAt_setFld s f d _ h

theorem bumpDies_noRoute_sends (s : State) : Sends [.regs] s (s.bumpDies F.ROUTE_DISCARDS_NO_ROUTE) := by
  refine .of_regs (bumpDies_parts s _) (by decide) (by decide) ?_
  unfold State.bumpDies
  exact regsAt_foldl _ _ _ fun s d hd => bump_dieCounters s _ d ⟨d, List.mem_range.mp hd, .inr rfl⟩

theorem queueOwn_sends (s : State) (p : Nat) (f : Frame) (msg : Option Nat) (lock : s.pcsLock p = true) :
    Sends coreParts s (s.queueOwn p f msg) where
  parts := (queueOwn_moves s p f msg).parts
  ports := (queueOwn_moves s p f msg).parts .ports (by decide)
  regs := fun ok => regsAt_mono (queueOwn_moves s p f msg).regs fun _ e =>
    ⟨dieOf p, Nat.div_lt_of_lt_mul (port_lt ok lock), .inl e⟩
  next := by rw [queueOwn_nextId]; omega
  below := queueOwn_below s p f msg
  keeps := fun _ low h => queueOwn_keeps s p f msg h low

theorem emit_sends (s : State) (hop : Hop) (f : Frame) (msg : Option Nat) : Sends coreParts s (s.emit hop f msg) := by
  have sent (s : State) : Sends coreParts s (s.msgSent msg) :=
    (Sends.of_parts (msgSent_parts s msg) (by decide) (by decide) (by decide)).mono (by decide)
  unfold State.emit
  rcases place_cases s 0 hop f with ⟨p, g, e, lock⟩ | e | e <;> rw [e]
  · exact queueOwn_sends s p g msg lock
  · exact sent s
  · exact ((bumpDies_noRoute_sends s).mono (by decide)).trans (sent _)

theorem emit_sameOuts (s : State) (hop : Hop) (f : Frame) (msg : Option Nat) : sameOuts s (s.emit hop f msg) := by
  unfold State.emit
  rcases place_cases s 0 hop f with ⟨p, g, e, lock⟩ | e | e <;> rw [e]
  · exact (queueOwn_moves s p g msg).outs
  · exact msgSent_sameOuts s msg
  · exact (sameOuts_of_parts (bumpDies_parts s _) (by decide)).trans (msgSent_sameOuts _ msg)

/-- What sending messages may touch. -/
abbrev sendParts : List Part := [.regs, .core, .outs, .freeCount]

theorem send_sends (s : State) (hop : Hop) (fs : List Frame) (job : Option (BitVec 12)) (rank : Option Nat) (why : Purpose) :
    Sends sendParts s (s.send hop fs job rank why) := by
  unfold State.send
  split
  · exact .refl _ s
  · exact ((Sends.of_parts (open_parts s hop fs job rank why) (by decide) (by decide) (by decide)).mono (by decide)).trans
      (Sends.foldl _ (fun s f => (emit_sends s hop f _).mono (by decide)) _ _)

end Sys2Proof.Machine

/-! PROOFS. The cabling check's retries and sweeps (spec/13_topology.md R339 to R347; 18_watchtower.md R460): cruise messages on a
port, the judgement of a port without a reply, what follows from a result before epoch 0, and the full sweep. -/
namespace Sys2Proof.Machine

open Sys2Proof

/-! ## Cruise on a port -/

theorem crz_port (s : State) (p : Nat) : (s.crz p).port = p := by
  unfold State.crz
  cases found : s.cruise.find? fun x => x.port == p with
  | none => rfl
  | some x => simpa using List.find?_some found

theorem crz_setCrz_self (s : State) (x : CruisePort) {p : Nat} (h : x.port = p) : (s.setCrz x).crz p = x := by
  subst h
  have gone : (s.cruise.filter fun y => y.port != x.port).find? (fun y => y.port == x.port) = none :=
    List.find?_eq_none.mpr fun y hy => by simpa using (List.mem_filter.mp hy).2
  simp [State.crz, State.setCrz, List.find?_append, gone]

theorem crz_setCrz_ne (s : State) (x : CruisePort) {q : Nat} (h : q ≠ x.port) : (s.setCrz x).crz q = s.crz q := by
  have kept : (s.cruise.filter fun y => y.port != x.port).find? (fun y => y.port == q) =
      s.cruise.find? fun y => y.port == q := by
    rw [List.find?_filter]
    congr 1
    funext y
    by_cases e : y.port = q
    · simp [e, h]
    · simp [e]
  have other : (x.port == q) = false := beq_eq_false_iff_ne.mpr h.symm
  simp [State.crz, State.setCrz, List.find?_append, kept, other]

theorem setCrz_parts (s : State) (x : CruisePort) : onlyParts [.cruise] s (s.setCrz x) := fun p hp => by
  cases p
  case cruise => exact absurd (by decide) hp
  all_goals rfl

@[simp] theorem setCrz_fld (s : State) (x : CruisePort) (f : Fld) (i : Nat) : (s.setCrz x).fld f i = s.fld f i := rfl

@[simp] theorem setCrz_reg (s : State) (x : CruisePort) (n : RegName) (i : Nat) : (s.setCrz x).reg n i = s.reg n i := rfl

theorem cruiseBytes_of_image {s t : State} (h : t.image = s.image) (p kind : Nat) (n : BitVec 16) :
    t.cruiseBytes p kind n = s.cruiseBytes p kind n := by
  rw [State.cruiseBytes, State.ownCaps, State.cable, h, State.cruiseBytes, State.ownCaps, State.cable]

/-! ## A cruise message (R339, R340) -/

/-- A link-local message that is not sent again is on its way: what it changes, and the copy that waits. -/
structure SentOnce (s t : State) (p : Nat) (payload : List Byte) : Prop where
  parts : onlyParts [.regs, .core, .outs, .ended, .freeCount] s t
  regs : regsAt (refcountOf (dieOf p)) s t
  outs : sameOuts s t
  waits : ∃ c, s.core.nextId ≤ c.cid ∧ c.cid < t.core.nextId ∧ c.dest = .port p ∧ c.out.payload = payload ∧ t.holdsCopy c

theorem noteEnded_parts (s : State) (xs : List (Nat × BitVec 16)) : onlyParts [.ended] s (s.noteEnded xs) := fun p hp => by
  cases p
  case ended => exact absurd (by decide) hp
  all_goals rfl

/-- The one frame of a message that is not sent again, given its MSG_ID. -/
def State.onceFrame (s : State) (payload : List Byte) (m : BitVec 16) : Frame :=
  let f := s.linkMgmt payload
  { f with h := { f.h with msgId := m, attempt := 0, msgLen := BitVec.ofNat 32 (sumN [f.payload.length]),
                           payloadLen := BitVec.ofNat 13 f.payload.length } }

theorem sendOnce_eq (s : State) (p : Nat) (payload : List Byte) : ∃ d m, s.sendOnce p payload =
    (s.draw1.2.emit (.onPort p) (s.onceFrame payload m) none).noteEnded [(d, m)] := ⟨_, _, rfl⟩

theorem sendOnce_sends (s : State) (p : Nat) (payload : List Byte) :
    Sends [.regs, .core, .outs, .ended, .freeCount] s (s.sendOnce p payload) := by
  obtain ⟨d, m, e⟩ := sendOnce_eq s p payload
  rw [e]
  exact (((Sends.of_parts (draw1_parts s) (by decide) (by decide) (by decide)).mono (by decide)).trans
    ((emit_sends _ _ _ _).mono (by decide))).trans
    ((Sends.of_parts (noteEnded_parts _ _) (by decide) (by decide) (by decide)).mono (by decide))

theorem sendOnce_sent (s : State) (p : Nat) (payload : List Byte) (lock : s.pcsLock p = true)
    (fresh : s.IdsBelow s.core.nextId) : SentOnce s (s.sendOnce p payload) p payload := by
  have sends := sendOnce_sends s p payload
  obtain ⟨d, m, e⟩ := sendOnce_eq s p payload
  have drawn : s.draw1.2.core = s.core := rfl
  rw [emit_onPort s.draw1.2 p (s.onceFrame payload m) none rfl lock] at e
  generalize hg : s.draw1.2.stamp 0 (s.onceFrame payload m) = g at e
  have text : g.payload = payload := by rw [← hg]; rfl
  have moves := queueOwn_moves s.draw1.2 p g none
  obtain ⟨c, cid, dest, out, holds⟩ := queueOwn_holds s.draw1.2 p g none (drawn ▸ idsBelow_of_core drawn fresh)
  have next := queueOwn_nextId s.draw1.2 p g none
  generalize s.draw1.2.queueOwn p g none = u at *
  have ended := noteEnded_parts u [(d, m)]
  rw [← e] at ended
  have core : (s.sendOnce p payload).core = u.core := ended .core (by decide)
  refine ⟨sends.parts, fun k hk => ?_, ?_, c, ?_, ?_, dest, by rw [out, text], (holdsCopy_congr core c).mpr holds⟩
  · rw [show (s.sendOnce p payload).regs = u.regs from ended .regs (by decide)]
    exact moves.regs k hk
  · exact (show sameOuts s u from moves.outs).trans (sameOuts_of_parts ended (by decide))
  · rw [cid, drawn]
    exact Nat.le_succ _
  · rw [core, next, cid]
    exact Nat.lt_succ_self _

theorem sendCruise_eq (s : State) (p kind : Nat) (n : BitVec 16) (settled : s.negOver p = true) :
    s.sendCruise p kind n = s.sendOnce p (s.cruiseBytes p kind n) := by
  rw [State.sendCruise, if_pos settled]

/-! ## A port without a reply (R339, R342) -/

/-- The registers of the switch but those of the chiplets and CRUISE_STATUS. -/
def calmAddr (k : Nat) : Prop := k < 0x20000000 ∧ k ≠ regAddr .CRUISE_STATUS 0

/-- What a result and the loss of the parent touch, but for cruise itself. -/
abbrev Calm (s t : State) : Prop := Touches [.regs, .time, .wt] calmAddr s t

theorem calm_status {s t : State} (a : Calm s t) : t.reg .CRUISE_STATUS 0 = s.reg .CRUISE_STATUS 0 :=
  a.regs.reg _ _ fun h => h.2 rfl

theorem calm_cruise {s t : State} (a : Calm s t) (b : Nat) : t.reg .PORT_CRUISE b = s.reg .PORT_CRUISE b :=
  a.regs.reg _ _ fun h => absurd (base_le_regAddr .PORT_CRUISE b) (by
    have low := h.1
    have base : (regRow .PORT_CRUISE).base = 0x2000400C := rfl
    omega)

theorem setFld_calm (s : State) (f : Fld) (i v : Nat) (h : calmAddr (regAddr f.reg i)) : Calm s (s.setFld f i v) :=
  (setFld_touches s f i v h).mono (by decide) fun _ => id

theorem calmAddr_kindPending {i : Nat} (h : i < 8) : calmAddr (regAddr .KIND_PENDING i) := by
  rw [calmAddr, regAddr_kindPending, show regAddr .CRUISE_STATUS 0 = 0x800000 from rfl]
  omega

theorem raiseMsg_calm (s : State) (m : FaultMsg) : Calm s (s.raiseMsg m) := by
  refine (raiseMsg_touches s m).mono (by decide) ?_
  rintro k rfl
  exact calmAddr_kindPending (Nat.div_lt_of_lt_mul m.kind.isLt)

theorem calmAddr_repeatStatus {d : Nat} (h : d < 4) : calmAddr (regAddr .REPEAT_STATUS d) := by
  rw [calmAddr, (regAddr_onePerDie (n := .REPEAT_STATUS) (by decide) d).1, show regAddr .CRUISE_STATUS 0 = 0x800000 from rfl,
    show (regRow .REPEAT_STATUS).base = 0x10000F00 from rfl]
  omega

theorem intoHoldover_calm (s : State) : Calm s s.intoHoldover := by
  have stated : onlyParts [.time] s { s with time := { s.time with state := .holdover, slew := 0, good := 0 } } :=
    fun p hp => by
      cases p
      case time => exact absurd (by decide) hp
      all_goals rfl
  unfold State.intoHoldover State.setAll
  refine .trans (.trans ((Touches.of_parts stated (by decide)).mono (by decide) fun _ => id)
    (setFld_calm _ F.TIME_STATUS_HOLDOVER_SEEN 0 _ ⟨by decide, by decide⟩)) (.foldl _ _ _ fun s d hd => ?_)
  exact setFld_calm s _ d _ (calmAddr_repeatStatus (List.mem_range.mp hd))

theorem parentLost_calm (s : State) (p : Nat) : Calm s (s.parentLost p) := by
  unfold State.parentLost State.holdover
  split
  · split
    · exact intoHoldover_calm s
    · exact .refl _ _ s
  · exact .refl _ _ s

/-- The fields of PORT_CRUISE with a result. -/
def State.resultFields (s : State) (p code : Nat) (differs : Bool) : State :=
  (((s.setFld F.PORT_CRUISE_RESULT (s.blk p) code).setFld F.PORT_CRUISE_SWAP_PORT (s.blk p) 0).setFld
    F.PORT_CRUISE_LAST_SWEEP (s.blk p) (s.crz p).sweep.toNat).setFlag F.PORT_CRUISE_FW_DIFFERS (s.blk p) differs

theorem resultFields_touches (s : State) (p code : Nat) (differs : Bool) :
    Touches [.regs] (· = regAddr .PORT_CRUISE (s.blk p)) s (s.resultFields p code differs) := by
  have field (u : State) (f : Fld) (v : Nat) (h : f.reg = .PORT_CRUISE) :
      Touches [.regs] (· = regAddr .PORT_CRUISE (s.blk p)) u (u.setFld f (s.blk p) v) := setFld_touches u f _ v (by rw [h])
  exact (((field s F.PORT_CRUISE_RESULT code rfl).trans (field _ F.PORT_CRUISE_SWAP_PORT 0 rfl)).trans
    (field _ F.PORT_CRUISE_LAST_SWEEP _ rfl)).trans (field _ F.PORT_CRUISE_FW_DIFFERS _ rfl)

theorem resultFields_result (s : State) (p code : Nat) (differs : Bool) :
    (s.resultFields p code differs).fld F.PORT_CRUISE_RESULT (s.blk p) = code % 16 := by
  rw [State.resultFields, State.setFlag, fld_setFld_apart _ _ _ _ _ (by decide), fld_setFld_apart _ _ _ _ _ (by decide),
    fld_setFld_apart _ _ _ _ _ (by decide), fld_setFld _ _ _ _ (by decide)]
  rfl

theorem portCruise_not_status (b : Nat) : ¬ regAddr .CRUISE_STATUS 0 = regAddr .PORT_CRUISE b := by
  have base := base_le_regAddr .PORT_CRUISE b
  rw [show (regRow .PORT_CRUISE).base = 0x2000400C from rfl] at base
  rw [show regAddr .CRUISE_STATUS 0 = 0x800000 from rfl]
  omega

theorem resultFields_status (s : State) (p code : Nat) (differs : Bool) :
    (s.resultFields p code differs).reg .CRUISE_STATUS 0 = s.reg .CRUISE_STATUS 0 :=
  (resultFields_touches s p code differs).regs.reg _ _ (portCruise_not_status _)

theorem flag_of_reg {s t : State} (f : Fld) {i : Nat} (h : t.reg f.reg i = s.reg f.reg i) : t.flag f i = s.flag f i := by
  rw [State.flag, fld_of_reg f h, State.flag]

/-- A port has been judged before the first sweep has ended. -/
structure Judged (s t : State) (p code : Nat) : Prop where
  result : t.fld F.PORT_CRUISE_RESULT (s.blk p) = code % 16
  crz : t.crz p = { s.crz p with phase := .idle, matchAt := none }
  other : ∀ q, q ≠ p → t.crz q = s.crz q
  parts : onlyParts [.regs, .cruise, .time, .wt] s t
  status : t.reg .CRUISE_STATUS 0 = s.reg .CRUISE_STATUS 0

theorem Judged.calm {s t u : State} {p code : Nat} (a : Judged s t p code) (b : Calm t u) : Judged s u p code where
  result := (fld_of_reg F.PORT_CRUISE_RESULT (calm_cruise b _)).trans a.result
  crz := (crz_of_cruise (b.parts .cruise (by decide)) p).trans a.crz
  other := fun q h => (crz_of_cruise (b.parts .cruise (by decide)) q).trans (a.other q h)
  parts := onlyParts_trans a.parts (onlyParts_mono b.parts (by decide))
  status := (calm_status b).trans a.status

/-- The result is written, the port is idle, and no match of it counts. -/
theorem judged_of_result {s u : State} (p code : Nat) (differs : Bool) (a : Calm s u) :
    let v := u.resultFields p code differs
    let w := v.setCrz { v.crz p with phase := .idle }
    Judged s (w.setCrz { w.crz p with matchAt := none }) p code := by
  intro v w
  have fields := resultFields_touches u p code differs
  have blk : u.blk p = s.blk p := blk_of_ports (a.parts .ports (by decide)) p
  have same : v.cruise = s.cruise := (fields.parts .cruise (by decide)).trans (a.parts .cruise (by decide))
  have idle : w.crz p = { s.crz p with phase := .idle } := by
    rw [← crz_of_cruise same]
    exact crz_setCrz_self v _ (crz_port v p)
  refine ⟨?_, ?_, fun q h => ?_, ?_, ?_⟩
  · rw [← blk, setCrz_fld, setCrz_fld]
    exact resultFields_result u p code differs
  · rw [idle]
    exact crz_setCrz_self w _ (crz_port s p)
  · rw [crz_setCrz_ne w _ (by rwa [show ({ w.crz p with matchAt := none } : CruisePort).port = p from crz_port w p]),
      crz_setCrz_ne v _ (by rwa [show ({ v.crz p with phase := .idle } : CruisePort).port = p from crz_port v p]),
      crz_of_cruise same]
  · exact onlyParts_trans (onlyParts_mono a.parts (by decide)) (onlyParts_trans (onlyParts_mono fields.parts (by decide))
      (onlyParts_mono (onlyParts_trans (setCrz_parts v _) (setCrz_parts w _)) (by decide)))
  · rw [setCrz_reg, setCrz_reg]
    exact (resultFields_status u p code differs).trans (calm_status a)

theorem bump_quarantines_calm (s : State) : Calm s (s.bump F.CRUISE_EVENTS_QUARANTINES 0) :=
  setFld_calm s _ 0 _ ⟨by decide, by decide⟩

/-- Before the first sweep has ended no link returns and none is cut out (R347). -/
theorem askReturn_first (s : State) (p : Nat) (first : s.flag F.CRUISE_STATUS_FIRST_DONE 0 = false) :
    s.askReturn p = s.setCrz { s.crz p with matchAt := none } := by
  simp [State.askReturn, first]

theorem askCutLink_first (s : State) (p : Nat) (first : s.flag F.CRUISE_STATUS_FIRST_DONE 0 = false) : s.askCutLink p = s := by
  simp [State.askCutLink, first]

theorem recordResult_judged (s : State) (p code : Nat) (first : s.flag F.CRUISE_STATUS_FIRST_DONE 0 = false) :
    Judged s (s.recordResult p code 0) p code := by
  unfold State.recordResult
  dsimp only
  have counted : Calm s (if (code != 1 && decide (s.fld F.PORT_CRUISE_RESULT (s.blk p) ≤ 1)) = true then
      s.bump F.CRUISE_EVENTS_QUARANTINES 0 else s) := by
    split
    · exact bump_quarantines_calm s
    · exact .refl _ _ s
  generalize (if (code != 1 && decide (s.fld F.PORT_CRUISE_RESULT (s.blk p) ≤ 1)) = true then
      s.bump F.CRUISE_EVENTS_QUARANTINES 0 else s) = u at *
  have blk := blk_of_ports (counted.parts .ports (by decide)) p
  rw [← blk]
  generalize written : State.setFlag _ F.PORT_CRUISE_FW_DIFFERS (u.blk p) _ = v
  obtain ⟨differs, rfl⟩ : ∃ differs, v = u.resultFields p code differs := ⟨_, written.symm⟩
  have judged := judged_of_result p code differs counted
  have status := (resultFields_status u p code differs).trans (calm_status counted)
  clear written
  generalize u.resultFields p code differs = v at *
  have early (w : State) (h : w.regs = v.regs) : w.flag F.CRUISE_STATUS_FIRST_DONE 0 = false :=
    (flag_of_reg F.CRUISE_STATUS_FIRST_DONE ((reg_of_regs h _ _).trans status)).trans first
  split
  · rw [askReturn_first (State.setCrz v _) p (early _ rfl)]
    exact judged
  · rw [askCutLink_first (State.setCrz (State.setCrz v _) _) p (early _ rfl)]
    exact judged.calm (parentLost_calm _ p)

theorem cruiseResult_silent (s : State) (p : Nat) (silent : (s.crz p).reply = none) :
    s.cruiseResult p = if (s.cable p).role = .unused then 1 else 2 := by
  simp [State.cruiseResult, silent]

/-- A port without a reply is MATCH where it is unused, and MISSING where it is not (R342). -/
theorem judge_silent (s : State) (p : Nat) (first : s.flag F.CRUISE_STATUS_FIRST_DONE 0 = false)
    (silent : (s.crz p).reply = none) : Judged s (s.judge p) p (if (s.cable p).role = .unused then 1 else 2) := by
  unfold State.judge
  rw [cruiseResult_silent s p silent, silent]
  generalize (if (s.cable p).role = .unused then 1 else 2) = code
  have judged := recordResult_judged s p code first
  dsimp only
  split
  · rename_i impossible
    exact absurd impossible (by simp)
  · split
    · exact judged.calm (raiseMsg_calm _ _)
    · exact judged

/-- Where no port waits for its judgement none is judged. -/
theorem judgements_none : ∀ (l : List Nat) (s : State), (∀ q ∈ l, (s.crz q).phase ≠ .answered) →
    l.foldl (fun s p => if (s.crz p).phase == .answered && !s.deferred p then s.judge p else s) s = s
  | [], _, _ => rfl
  | q :: l, s, h => by
    rw [List.foldl_cons, beq_eq_false_iff_ne.mpr (h q List.mem_cons_self), Bool.false_and, if_neg Bool.false_ne_true]
    exact judgements_none l s fun q hq => h q (List.mem_cons_of_mem _ hq)

/-- Where one port without a reply waits for its judgement it alone is judged, once. -/
theorem judgements_one (p : Nat) : ∀ (l : List Nat) (s : State), p ∈ l → s.flag F.CRUISE_STATUS_FIRST_DONE 0 = false →
    (s.crz p).phase = .answered → (s.crz p).reply = none → (∀ q, q ≠ p → (s.crz q).phase ≠ .answered) →
    l.foldl (fun s p => if (s.crz p).phase == .answered && !s.deferred p then s.judge p else s) s = s.judge p
  | [], _, hp, _, _, _, _ => absurd hp List.not_mem_nil
  | q :: l, s, hp, first, answered, silent, others => by
    rw [List.foldl_cons]
    by_cases e : q = p
    · subst e
      have now : ((s.crz q).phase == .answered && !s.deferred q) = true := by
        rw [answered, State.deferred, silent]
        rfl
      rw [if_pos now]
      refine judgements_none l _ fun r _ => ?_
      have judged := judge_silent s q first silent
      by_cases same : r = q
      · rw [same, judged.crz]
        exact fun h => nomatch h
      · rw [judged.other r same]
        exact others r same
    · rw [beq_eq_false_iff_ne.mpr (others q e), Bool.false_and, if_neg Bool.false_ne_true]
      exact judgements_one p l s ((List.mem_cons.mp hp).resolve_left (Ne.symm e)) first answered silent others

theorem judgeAll_none (s : State) (h : ∀ x ∈ s.ports, (s.crz x.num).phase ≠ .answered) : s.judgeAll = s :=
  judgements_none _ s fun q hq => by
    obtain ⟨x, hx, rfl⟩ := List.mem_map.mp hq
    exact h x hx

/-! ## What sending leaves of the ports -/

theorem dieCounters_range {k : Nat} (h : dieCounters k) : 0x10000000 ≤ k ∧ k < 0x20000000 := by
  obtain ⟨d, hd, e | e⟩ := h
  · rw [e, regAddr_refcountStatus]
    omega
  · obtain ⟨address, low, high⟩ := regAddr_onePerDie (n := .ROUTE_DISCARDS) (by decide) d
    omega

theorem portBase_not_counter {n : RegName} (h : 0x20000000 ≤ (regRow n).base) (i : Nat) : ¬ dieCounters (regAddr n i) :=
  fun counter => absurd (Nat.le_trans h (base_le_regAddr n i)) (Nat.not_le.mpr (dieCounters_range counter).2)

section
variable {c : List Part} {s t : State}

theorem Sends.portReg (a : Sends c s t) (ok : s.portsOk = true) {n : RegName} (h : 0x20000000 ≤ (regRow n).base) (i : Nat) :
    t.reg n i = s.reg n i := (a.regs ok).reg n i (portBase_not_counter h i)

theorem Sends.cruiseStatus (a : Sends c s t) (ok : s.portsOk = true) : t.reg .CRUISE_STATUS 0 = s.reg .CRUISE_STATUS 0 :=
  (a.regs ok).reg _ _ fun counter => absurd (dieCounters_range counter).1 (by decide)

theorem Sends.portsOk (a : Sends c s t) (ok : s.portsOk = true) : t.portsOk = true := by
  rwa [State.portsOk, a.ports]

end

/-- PCS lock of a port, from PORT_LINK. -/
theorem pcsLock_of {s t : State} (ports : t.ports = s.ports) (link : ∀ i, t.reg .PORT_LINK i = s.reg .PORT_LINK i) (p : Nat) :
    t.pcsLock p = s.pcsLock p := by
  have state := fld_of_reg F.PORT_LINK_LINK_STATE (link (s.blk p))
  rw [State.pcsLock, blk_of_ports ports, state, State.port?, ports, State.pcsLock, State.port?]

/-- NEG_STATE of a port, from TFP_PORT_STATUS. -/
theorem negState_of {s t : State} (ports : t.ports = s.ports)
    (status : ∀ i, t.reg .TFP_PORT_STATUS i = s.reg .TFP_PORT_STATUS i) (p : Nat) :
    t.fld F.TFP_PORT_STATUS_NEG_STATE (t.blk p) = s.fld F.TFP_PORT_STATUS_NEG_STATE (s.blk p) := by
  rw [blk_of_ports ports]
  exact fld_of_reg F.TFP_PORT_STATUS_NEG_STATE (status (s.blk p))

theorem Sends.pcsLock {c : List Part} {s t : State} (a : Sends c s t) (ok : s.portsOk = true) (p : Nat) :
    t.pcsLock p = s.pcsLock p := pcsLock_of a.ports (a.portReg ok (by decide)) p

theorem Sends.negState {c : List Part} {s t : State} (a : Sends c s t) (ok : s.portsOk = true) (p : Nat) :
    t.fld F.TFP_PORT_STATUS_NEG_STATE (t.blk p) = s.fld F.TFP_PORT_STATUS_NEG_STATE (s.blk p) :=
  negState_of a.ports (a.portReg ok (by decide)) p

/-! ## The coordinator with nothing to do (R282, R287) -/

/-- No item waits for a change, and the coordinator runs none. -/
structure State.Quiet (s : State) : Prop where
  asked : s.epoch.asked = []
  coord : s.epoch.coord = .idle ∨ s.epoch.coord = .querying

theorem State.noChange.quiet {s : State} (h : s.noChange) : s.Quiet := ⟨h.1, .inl h.2.1⟩

theorem State.Quiet.of_epoch {s t : State} (h : s.Quiet) (e : t.epoch = s.epoch) : t.Quiet := by
  obtain ⟨asked, coord⟩ := h
  exact ⟨e ▸ asked, e ▸ coord⟩

theorem mapEpoch_self {s : State} {g : EpochSt → EpochSt} (h : g s.epoch = s.epoch) : s.mapEpoch g = s := by
  rw [State.mapEpoch, h]

theorem mapEpoch_parts (s : State) (g : EpochSt → EpochSt) : onlyParts [.epoch] s (s.mapEpoch g) := fun p hp => by
  cases p
  case epoch => exact absurd (by decide) hp
  all_goals rfl

theorem coordStart_quiet {s : State} (h : s.Quiet) : s.coordStart = s := by
  have same : (s.mapEpoch fun e => { e with asked := [] }) = s := mapEpoch_self (by rw [← h.asked])
  simp [State.coordStart, h.asked, same]

theorem coordPrepared_quiet {s : State} (h : s.Quiet) : s.coordPrepared = s := by
  rcases h.coord with e | e <;> simp [State.coordPrepared, e]

theorem coordDrained_quiet {s : State} (h : s.Quiet) : s.coordDrained = s := by
  rcases h.coord with e | e <;> simp [State.coordDrained, e]

theorem coordGo_quiet {s : State} (h : s.Quiet) : s.coordGo = s := by
  unfold State.coordGo
  split
  · rfl
  · rw [coordStart_quiet h, coordPrepared_quiet h, coordDrained_quiet h, coordStart_quiet h, coordPrepared_quiet h]

theorem epochAll_sends (s : State) (dests : List (BitVec 24)) (kind : Nat) (num : BitVec 32) (rest : List Byte) :
    Sends sendParts s (s.epochAll dests kind num rest) :=
  Sends.foldl (fun s d => s.epochSend d kind num rest) (fun _ _ => send_sends _ _ _ _ _ _) dests s

/-- What a new time root sends (R287), and what it records of the change it looks for. -/
theorem takeOver_sends {s : State} (h : s.Quiet) : Sends (.epoch :: sendParts) s s.takeOver ∧ s.takeOver.Quiet := by
  unfold State.takeOver
  split
  · exact ⟨.refl _ s, h⟩
  · split
    · exact ⟨.refl _ s, h⟩
    · rename_i x _
      dsimp only
      generalize hu : s.mapEpoch _ = u
      have asked : u.epoch.asked = [] := by rw [← hu]; exact h.asked
      have coord : u.epoch.coord = .querying := by rw [← hu]; rfl
      have sends := epochAll_sends u s.otherSwitches 0x77 u.epoch.num (zeros 8)
      refine ⟨.trans (.mono (.of_parts (c := [.epoch]) ?_ (by decide) (by decide) (by decide)) (by decide))
        (sends.mono (by decide)), State.Quiet.of_epoch ⟨asked, .inr coord⟩ (sends.parts .epoch (by decide))⟩
      rw [← hu]
      exact mapEpoch_parts _ _

/-- What follows the judgements, before epoch 0. -/
theorem followUp_sends {s : State} (h : s.Quiet) (first : s.flag F.CRUISE_STATUS_FIRST_DONE 0 = false) :
    Sends (.epoch :: sendParts) s s.timeRole.takeOver.coordGo := by
  have role : s.timeRole = s := by simp [State.timeRole, first]
  obtain ⟨sends, quiet⟩ := takeOver_sends h
  rw [role, coordGo_quiet quiet]
  exact sends

/-! ## CRUISE_RETRY_TIMER (R339) -/

theorem exec_cruiseRetryTimer (p : Nat) (s : State) : exec (.cruiseRetryTimer p) s = execCruiseRetryTimer p s := rfl

theorem retry_idle (s : State) (p : Nat) (idle : (s.crz p).phase = .idle) : exec (.cruiseRetryTimer p) s = .next s := by
  simp [exec_cruiseRetryTimer, execCruiseRetryTimer, idle]

theorem retry_asked (s : State) (p : Nat) (asked : (s.crz p).phase = .asked) (tries : (s.crz p).tries < 3)
    (fw : s.fwWaits = false) : exec (.cruiseRetryTimer p) s =
      .next ((s.setCrz { s.crz p with tries := (s.crz p).tries + 1 }).sendCruise p 0x20 (s.crz p).sweep) := by
  simp [exec_cruiseRetryTimer, execCruiseRetryTimer, asked, tries, fw]

theorem retry_noReply (s : State) (p : Nat) (first : s.flag F.CRUISE_STATUS_FIRST_DONE 0 = false) (fw : s.fwWaits = false)
    (last : (s.crz p).phase = .waiting ∨ ((s.crz p).phase = .asked ∧ 3 ≤ (s.crz p).tries)) :
    exec (.cruiseRetryTimer p) s = .next (s.noReply p).afterResult := by
  rcases last with waiting | ⟨asked, tries⟩
  · simp [exec_cruiseRetryTimer, execCruiseRetryTimer, waiting, first, fw]
  · simp [exec_cruiseRetryTimer, execCruiseRetryTimer, asked, Nat.not_lt.mpr tries, fw]

/-- CRUISE_ID is sent again on a port. -/
theorem resendCruise_effect (s : State) (p : Nat) (x : CruisePort) (hx : x.port = p) (lock : s.pcsLock p = true)
    (settled : s.negOver p = true) (fresh : s.IdsBelow s.core.nextId) :
    let t := (s.setCrz x).sendCruise p 0x20 x.sweep
    (s.queuesOn t p fun g => g.payload = s.cruiseBytes p 0x20 x.sweep) ∧ t.crz p = x
      ∧ onlyParts [.regs, .cruise, .core, .outs, .ended, .freeCount] s t ∧ sameOuts s t
      ∧ onlyRegs [(.REFCOUNT_STATUS, dieOf p)] s t := by
  have cruise := crz_setCrz_self s x hx
  have crzSet := setCrz_parts s x
  have same : (s.setCrz x).core = s.core := crzSet .core (by decide)
  have sent := sendOnce_sent (s.setCrz x) p ((s.setCrz x).cruiseBytes p 0x20 x.sweep) lock
    (same ▸ idsBelow_of_core same fresh)
  have eq := sendCruise_eq (s.setCrz x) p 0x20 x.sweep settled
  rw [cruiseBytes_of_image (crzSet .image (by decide))] at sent eq
  dsimp only
  rw [eq]
  generalize s.setCrz x = u at *
  generalize u.sendOnce p (s.cruiseBytes p 0x20 x.sweep) = t at *
  obtain ⟨parts, regs, outs, c, new, -, dest, payload, holds⟩ := sent
  refine ⟨holds.queuesOn (same ▸ new) dest payload, (crz_of_cruise (parts .cruise (by decide)) p).trans cruise,
    onlyParts_trans (onlyParts_mono crzSet (by decide)) (onlyParts_mono parts (by decide)),
    (sameOuts_of_parts crzSet (by decide)).trans outs, ?_⟩
  refine (regsAt_trans (regsAt_of_parts crzSet (by decide)) (regsAt_mono regs fun k e => ?_)).onlyRegs
  exact ⟨_, List.mem_singleton_self _, e.symm⟩

theorem endSweep_touches (s : State) : Touches [.regs] (· = regAddr .CRUISE_STATUS 0) s s.endSweep := by
  unfold State.endSweep
  dsimp only
  split
  · exact .refl _ _ s
  · exact setFld_touches s _ 0 _ rfl

theorem endSweep_first (s : State) : s.endSweep.flag F.CRUISE_STATUS_FIRST_DONE 0 = s.flag F.CRUISE_STATUS_FIRST_DONE 0 := by
  unfold State.endSweep
  dsimp only
  split
  · rfl
  · rw [State.flag, State.setFlag, fld_setFld_apart _ _ _ _ _ (by decide), State.flag]

/-- A port without a reply is judged, and nothing that follows changes its result. -/
theorem noReply_judged (s : State) (p : Nat) (hp : (s.port? p).isSome = true) (ok : s.portsOk = true) (quiet : s.Quiet)
    (first : s.flag F.CRUISE_STATUS_FIRST_DONE 0 = false) (unanswered : ∀ q, (s.crz q).phase ≠ .answered) :
    let t := (s.noReply p).afterResult
    t.fld F.PORT_CRUISE_RESULT (s.blk p) = (if (s.cable p).role = .unused then 1 else 2)
      ∧ (t.crz p).phase = .idle ∧ (t.crz p).reply = none := by
  have port : ({ s.crz p with phase := .answered, reply := none } : CruisePort).port = p := crz_port s p
  have waits : (s.noReply p).crz p = { s.crz p with phase := .answered, reply := none } := crz_setCrz_self s _ port
  have others (q : Nat) (h : q ≠ p) : (s.noReply p).crz q = s.crz q := crz_setCrz_ne s _ (by rwa [port])
  have parts : onlyParts [.cruise] s (s.noReply p) := setCrz_parts s _
  have blk : (s.noReply p).blk p = s.blk p := blk_of_ports (parts .ports (by decide)) p
  have cable : (s.noReply p).cable p = s.cable p := by rw [State.cable, parts .image (by decide), State.cable]
  have start : (s.noReply p).flag F.CRUISE_STATUS_FIRST_DONE 0 = false :=
    (flag_of_reg F.CRUISE_STATUS_FIRST_DONE (reg_of_regs (parts .regs (by decide)) _ _)).trans first
  obtain ⟨x, found⟩ := Option.isSome_iff_exists.mp hp
  have listed : p ∈ (s.noReply p).ports.map (·.num) := by
    rw [show (s.noReply p).ports = s.ports from parts .ports (by decide)]
    exact List.mem_map.mpr ⟨x, List.mem_of_find?_eq_some found, by simpa using List.find?_some found⟩
  have all : (s.noReply p).judgeAll = (s.noReply p).judge p :=
    judgements_one p _ _ listed start (by rw [waits]) (by rw [waits]) fun q h => by rw [others q h]; exact unanswered q
  have judged := judge_silent (s.noReply p) p start (by rw [waits])
  dsimp only
  rw [State.afterResult, all]
  generalize s.noReply p = u at *
  generalize u.judge p = v at *
  have ended := endSweep_touches v
  have firstV : v.endSweep.flag F.CRUISE_STATUS_FIRST_DONE 0 = false := by
    rw [endSweep_first, flag_of_reg F.CRUISE_STATUS_FIRST_DONE judged.status, start]
  generalize v.endSweep = w at *
  have before : onlyParts [.regs, .cruise, .time, .wt] s w :=
    onlyParts_trans (onlyParts_mono parts (by decide)) (onlyParts_trans judged.parts (onlyParts_mono ended.parts (by decide)))
  have after := followUp_sends (quiet.of_epoch (before .epoch (by decide))) firstV
  generalize w.timeRole.takeOver.coordGo = t at *
  have okW : w.portsOk = true := by rwa [State.portsOk, show w.ports = s.ports from before .ports (by decide)]
  have crz : t.crz p = v.crz p := crz_of_cruise
    ((after.parts .cruise (by decide)).trans (ended.parts .cruise (by decide))) p
  have result : t.reg .PORT_CRUISE (s.blk p) = v.reg .PORT_CRUISE (s.blk p) :=
    (after.portReg okW (by decide) _).trans (ended.regs.reg _ _ (Ne.symm (portCruise_not_status _)))
  refine ⟨?_, ?_, ?_⟩
  · rw [fld_of_reg F.PORT_CRUISE_RESULT result, ← blk, judged.result, cable]
    split <;> rfl
  · rw [crz, judged.crz]
  · rw [crz, judged.crz, waits]

/-! ## A full sweep (R339, R460) -/

theorem wantSweep_waits (s : State) (fw : s.fwWaits = true) :
    s.wantSweep = { s with power := { s.power with sweepWanted := true } } := by
  rw [State.wantSweep, if_pos fw]

theorem wantSweep_runs (s : State) (fw : s.fwWaits = false) (active : s.flag F.CRUISE_STATUS_SWEEP_ACTIVE 0 = true) :
    s.wantSweep = s := by
  rw [State.wantSweep, fw, if_neg Bool.false_ne_true, if_pos active]

theorem wantSweep_begins (s : State) (fw : s.fwWaits = false) (active : s.flag F.CRUISE_STATUS_SWEEP_ACTIVE 0 = false) :
    s.wantSweep = s.fullSweep := by
  rw [State.wantSweep, fw, active, if_neg Bool.false_ne_true, if_neg Bool.false_ne_true]

/-- The sweep has asked the listed ports, each with a CRUISE_ID that waits for it. -/
structure Swept (n : BitVec 16) (done : List Nat) (s t : State) : Prop where
  sends : Sends [.regs, .cruise, .core, .outs, .ended, .freeCount] s t
  asked : ∀ p ∈ done, (t.crz p).phase = .asked ∧ (t.crz p).tries = 1
  waits : ∀ p ∈ done, ∃ c, s.core.nextId ≤ c.cid ∧ c.cid < t.core.nextId ∧ c.dest = .port p
    ∧ c.out.payload = s.cruiseBytes p 0x20 n ∧ t.holdsCopy c

theorem Swept.begin (n : BitVec 16) (s : State) : Swept n [] s s :=
  ⟨.refl _ s, fun _ h => absurd h List.not_mem_nil, fun _ h => absurd h List.not_mem_nil⟩

/-- One more port is asked. -/
theorem Swept.sweepPort {n : BitVec 16} {done : List Nat} {s t : State} (a : Swept n done s t) (p : Nat)
    (ok : s.portsOk = true) (fresh : s.IdsBelow s.core.nextId) (lock : s.pcsLock p = true)
    (settled : s.fld F.TFP_PORT_STATUS_NEG_STATE (s.blk p) = 2 ∨ s.fld F.TFP_PORT_STATUS_NEG_STATE (s.blk p) = 3) :
    Swept n (done ++ [p]) s (t.sweepPort p n true) := by
  have lockT : t.pcsLock p = true := (a.sends.pcsLock ok p).trans lock
  have state : (t.fld F.TFP_PORT_STATUS_NEG_STATE (t.blk p) == 2 || t.fld F.TFP_PORT_STATUS_NEG_STATE (t.blk p) == 3) = true := by
    rw [a.sends.negState ok p]
    rcases settled with e | e <;> rw [e] <;> rfl
  have freshT := a.sends.below fresh
  have eq : t.sweepPort p n true =
      (t.setCrz { t.crz p with phase := .asked, sweep := n, tries := 1 }).sendCruise p 0x20 n := by
    simp only [State.sweepPort, lockT, state, Bool.and_self, if_true]
  have port : ({ t.crz p with phase := .asked, sweep := n, tries := 1 } : CruisePort).port = p := crz_port t p
  have askedNow : ({ t.crz p with phase := .asked, sweep := n, tries := 1 } : CruisePort).phase = .asked := rfl
  have first : ({ t.crz p with phase := .asked, sweep := n, tries := 1 } : CruisePort).tries = 1 := rfl
  generalize ({ t.crz p with phase := .asked, sweep := n, tries := 1 } : CruisePort) = x at *
  have crzSet := setCrz_parts t x
  have self := crz_setCrz_self t x port
  have others (q : Nat) (h : q ≠ p) : (t.setCrz x).crz q = t.crz q := crz_setCrz_ne t x (by rwa [port])
  have core : (t.setCrz x).core = t.core := crzSet .core (by decide)
  have bytes := cruiseBytes_of_image (a.sends.parts .image (by decide)) p 0x20 n
  have send := sendCruise_eq (t.setCrz x) p 0x20 n state
  rw [cruiseBytes_of_image (crzSet .image (by decide)), bytes] at send
  have sends := sendOnce_sends (t.setCrz x) p (s.cruiseBytes p 0x20 n)
  have sent := sendOnce_sent (t.setCrz x) p (s.cruiseBytes p 0x20 n) lockT (core ▸ idsBelow_of_core core freshT)
  rw [eq, send]
  generalize t.setCrz x = u at *
  generalize u.sendOnce p (s.cruiseBytes p 0x20 n) = v at *
  have more : Sends [.regs, .cruise, .core, .outs, .ended, .freeCount] t v :=
    ((Sends.of_parts crzSet (by decide) (by decide) (by decide)).mono (by decide)).trans (sends.mono (by decide))
  have crz (q : Nat) : v.crz q = u.crz q := crz_of_cruise (sends.parts .cruise (by decide)) q
  refine ⟨a.sends.trans more, fun q hq => ?_, fun q hq => ?_⟩
  · rw [crz]
    by_cases e : q = p
    · rw [e, self]
      exact ⟨askedNow, first⟩
    · rw [others q e]
      exact a.asked q ((List.mem_append.mp hq).resolve_right fun h => e (List.mem_singleton.mp h))
  · rcases List.mem_append.mp hq with old | new
    · obtain ⟨c, low, high, dest, payload, holds⟩ := a.waits q old
      exact ⟨c, low, Nat.lt_of_lt_of_le high more.next, dest, payload, more.keeps c high holds⟩
    · obtain ⟨c, low, high, dest, payload, holds⟩ := sent.waits
      rw [List.mem_singleton.mp new]
      exact ⟨c, Nat.le_trans a.sends.next (core ▸ low), high, dest, payload, holds⟩

theorem Swept.foldl (n : BitVec 16) {s : State} (ok : s.portsOk = true) (fresh : s.IdsBelow s.core.nextId) :
    ∀ (ps done : List Nat) (t : State), Swept n done s t →
      (∀ p ∈ ps, s.pcsLock p = true ∧ (s.fld F.TFP_PORT_STATUS_NEG_STATE (s.blk p) = 2
        ∨ s.fld F.TFP_PORT_STATUS_NEG_STATE (s.blk p) = 3)) →
      Swept n (done ++ ps) s (ps.foldl (fun s p => s.sweepPort p n true) t)
  | [], done, t, a, _ => by rwa [List.append_nil]
  | p :: ps, done, t, a, h => by
    have next := a.sweepPort p ok fresh (h p List.mem_cons_self).1 (h p List.mem_cons_self).2
    have rest := Swept.foldl n ok fresh ps (done ++ [p]) _ next fun q hq => h q (List.mem_cons_of_mem _ hq)
    rwa [List.append_assoc] at rest

/-- A sweep goes on while a port awaits its reply. -/
theorem endSweep_asked (s : State) (p : Nat) (asked : (s.crz p).phase = .asked) : s.endSweep = s := by
  have waits : ∃ x ∈ s.cruise, x.phase = .asked := by
    unfold State.crz at asked
    cases found : s.cruise.find? fun x => x.port == p with
    | none => rw [found] at asked; exact nomatch asked
    | some x => rw [found] at asked; exact ⟨x, List.mem_of_find?_eq_some found, asked⟩
  obtain ⟨x, mem, phase⟩ := waits
  rw [State.endSweep, if_pos (List.any_eq_true.mpr ⟨x, mem, by rw [phase]; rfl⟩)]

/-- The number of a sweep and that it runs. -/
def State.sweepNumbered (s : State) (n : BitVec 16) : State :=
  (s.setFld F.CRUISE_STATUS_SWEEP 0 n.toNat).setFlag F.CRUISE_STATUS_SWEEP_ACTIVE 0 true

theorem sweepNumbered_touches (s : State) (n : BitVec 16) :
    Touches [.regs] (· = regAddr .CRUISE_STATUS 0) s (s.sweepNumbered n) := by
  have field (u : State) (f : Fld) (v : Nat) (h : f.reg = .CRUISE_STATUS) :
      Touches [.regs] (· = regAddr .CRUISE_STATUS 0) u (u.setFld f 0 v) := setFld_touches u f 0 v (by rw [h])
  exact (field s F.CRUISE_STATUS_SWEEP _ rfl).trans (field _ F.CRUISE_STATUS_SWEEP_ACTIVE _ rfl)

theorem sweepNumbered_portReg (s : State) (n : BitVec 16) {m : RegName} (h : 0x20000000 ≤ (regRow m).base) (i : Nat) :
    (s.sweepNumbered n).reg m i = s.reg m i :=
  (sweepNumbered_touches s n).regs.reg m i fun e => by
    have base := Nat.le_trans h (base_le_regAddr m i)
    rw [show regAddr m i = regAddr .CRUISE_STATUS 0 from e] at base
    exact absurd base (by decide)

theorem sweepNumbered_fields (s : State) (n : BitVec 16) :
    (s.sweepNumbered n).fld F.CRUISE_STATUS_SWEEP 0 = n.toNat
      ∧ (s.sweepNumbered n).flag F.CRUISE_STATUS_SWEEP_ACTIVE 0 = true
      ∧ (s.sweepNumbered n).flag F.CRUISE_STATUS_FIRST_DONE 0 = s.flag F.CRUISE_STATUS_FIRST_DONE 0 := by
  unfold State.sweepNumbered State.setFlag State.flag
  refine ⟨?_, ?_, ?_⟩
  · rw [fld_setFld_apart _ _ _ _ _ (by decide), fld_setFld _ _ _ _ (by decide)]
    exact Nat.mod_eq_of_lt n.isLt
  · rw [fld_setFld _ _ _ _ (by decide)]
    rfl
  · rw [fld_setFld_apart _ _ _ _ _ (by decide), fld_setFld_apart _ _ _ _ _ (by decide)]

theorem sweepNo_next (s : State) : (s.sweepNo + 1).toNat = (s.fld F.CRUISE_STATUS_SWEEP 0 + 1) % 2 ^ 16 := by
  rw [State.sweepNo, BitVec.toNat_add, BitVec.toNat_ofNat]
  exact Nat.mod_add_mod _ _ _

/-- The registers that a sweep of the ports changes. -/
def sweepRegs : List (RegName × Nat) :=
  (.CRUISE_STATUS, 0) :: (List.range 4).flatMap fun d => [(.REFCOUNT_STATUS, d), (.ROUTE_DISCARDS, d)]

theorem dieCounters_sweepRegs (k : Nat) (h : dieCounters k) : ∃ r ∈ sweepRegs, regAddr r.1 r.2 = k := by
  obtain ⟨d, hd, e | e⟩ := h
  · exact ⟨(.REFCOUNT_STATUS, d), List.mem_cons_of_mem _ (List.mem_flatMap.mpr ⟨d, List.mem_range.mpr hd, by simp⟩), e.symm⟩
  · exact ⟨(.ROUTE_DISCARDS, d), List.mem_cons_of_mem _ (List.mem_flatMap.mpr ⟨d, List.mem_range.mpr hd, by simp⟩), e.symm⟩

theorem fullSweep_effect (s : State) (ok : s.portsOk = true) (fresh : s.IdsBelow s.core.nextId) (nonempty : s.ports ≠ [])
    (quiet : s.Quiet) (first : s.flag F.CRUISE_STATUS_FIRST_DONE 0 = false)
    (up : ∀ x ∈ s.ports, s.pcsLock x.num = true ∧ (s.fld F.TFP_PORT_STATUS_NEG_STATE (s.blk x.num) = 2
      ∨ s.fld F.TFP_PORT_STATUS_NEG_STATE (s.blk x.num) = 3)) :
    s.fullSweep.flag F.CRUISE_STATUS_SWEEP_ACTIVE 0 = true
      ∧ s.fullSweep.fld F.CRUISE_STATUS_SWEEP 0 = (s.fld F.CRUISE_STATUS_SWEEP 0 + 1) % 2 ^ 16
      ∧ (∀ x ∈ s.ports, (s.fullSweep.crz x.num).phase = .asked ∧ (s.fullSweep.crz x.num).tries = 1
        ∧ s.queuesOn s.fullSweep x.num fun g => g.payload = s.cruiseBytes x.num 0x20 (s.sweepNo + 1))
      ∧ onlyRegs sweepRegs s s.fullSweep := by
  have eq : s.fullSweep = (((s.sweepNumbered (s.sweepNo + 1)).ports.map (·.num)).foldl
      (fun t p => t.sweepPort p (s.sweepNo + 1) true) (s.sweepNumbered (s.sweepNo + 1))).afterResult := rfl
  have number := sweepNo_next s
  have numbered := sweepNumbered_touches s (s.sweepNo + 1)
  obtain ⟨sweep, active, firstU⟩ := sweepNumbered_fields s (s.sweepNo + 1)
  rw [first] at firstU
  rw [number] at sweep
  have lockOf (p : Nat) := pcsLock_of (numbered.parts .ports (by decide))
    (sweepNumbered_portReg s (s.sweepNo + 1) (m := .PORT_LINK) (by decide)) p
  have negOf (p : Nat) := negState_of (numbered.parts .ports (by decide))
    (sweepNumbered_portReg s (s.sweepNo + 1) (m := .TFP_PORT_STATUS) (by decide)) p
  generalize s.sweepNo + 1 = n at *
  generalize s.sweepNumbered n = u at *
  have ports : u.ports = s.ports := numbered.parts .ports (by decide)
  have core : u.core = s.core := numbered.parts .core (by decide)
  have okU : u.portsOk = true := by rwa [State.portsOk, ports]
  have swept := Swept.foldl n okU (core ▸ idsBelow_of_core core fresh) (u.ports.map (·.num)) [] u (.begin n u) fun p hp => by
    obtain ⟨x, hx, rfl⟩ := List.mem_map.mp hp
    rw [lockOf, negOf]
    exact up x (ports ▸ hx)
  rw [List.nil_append] at swept
  rw [eq]
  generalize (u.ports.map (·.num)).foldl (fun t p => t.sweepPort p n true) u = v at *
  have askedAt (x) (hx : x ∈ s.ports) : (v.crz x.num).phase = .asked ∧ (v.crz x.num).tries = 1 :=
    swept.asked x.num (List.mem_map.mpr ⟨x, ports ▸ hx, rfl⟩)
  have status := swept.sends.cruiseStatus okU
  have firstV : v.flag F.CRUISE_STATUS_FIRST_DONE 0 = false := (flag_of_reg F.CRUISE_STATUS_FIRST_DONE status).trans firstU
  have portsV : v.ports = s.ports := swept.sends.ports.trans ports
  have noneJudged : v.judgeAll = v := judgeAll_none v fun x hx => by
    rw [(askedAt x (portsV ▸ hx)).1]
    exact fun h => nomatch h
  obtain ⟨x, xs, head⟩ := List.exists_cons_of_ne_nil nonempty
  rw [State.afterResult, noneJudged, endSweep_asked v x.num (askedAt x (head ▸ List.mem_cons_self)).1]
  have quietV : v.Quiet := quiet.of_epoch ((swept.sends.parts .epoch (by decide)).trans (numbered.parts .epoch (by decide)))
  have after := followUp_sends quietV firstV
  generalize v.timeRole.takeOver.coordGo = t at *
  have statusT := (after.cruiseStatus (swept.sends.portsOk okU)).trans status
  refine ⟨(flag_of_reg F.CRUISE_STATUS_SWEEP_ACTIVE statusT).trans active,
    (fld_of_reg F.CRUISE_STATUS_SWEEP statusT).trans sweep, fun y hy => ?_, ?_⟩
  · have crz : t.crz y.num = v.crz y.num := crz_of_cruise (after.parts .cruise (by decide)) _
    obtain ⟨c, low, high, dest, payload, holds⟩ := swept.waits y.num (List.mem_map.mpr ⟨y, ports ▸ hy, rfl⟩)
    rw [cruiseBytes_of_image (numbered.parts .image (by decide))] at payload
    exact ⟨crz ▸ (askedAt y hy).1, crz ▸ (askedAt y hy).2, (after.keeps c high holds).queuesOn (core ▸ low) dest payload⟩
  · have sent := regsAt_trans (swept.sends.regs okU) (after.regs (swept.sends.portsOk okU))
    exact (regsAt_trans (regsAt_mono numbered.regs fun _ e => ⟨(.CRUISE_STATUS, 0), List.mem_cons_self, e.symm⟩)
      (regsAt_mono sent dieCounters_sweepRegs)).onlyRegs

/-! ## O28 -/

/-- Settles O28: one more CRUISE_ID is one more frame on the port; a port without a reply is judged alone, and what follows a
result before epoch 0 only sends messages; a full sweep asks its ports one after the other, and what it sent still waits. -/
theorem cruiseRetriesAndSweeps : Obligations.CruiseRetriesAndSweeps := by
  unfold Obligations.CruiseRetriesAndSweeps
  refine ⟨fun s p fresh ok hp still first unanswered => ⟨fun idle => ⟨s, retry_idle s p idle, rfl⟩,
    fun asked tries fw lock settled => ⟨_, retry_asked s p asked tries fw,
      resendCruise_effect s p _ (crz_port s p) lock settled (State.idsBelow_of_fresh fresh)⟩,
    fun fw last => ⟨_, retry_noReply s p first fw last, noReply_judged s p hp ok still.quiet first unanswered⟩⟩,
    fun s c hc => ?_⟩
  have run : exec c s = .next s.wantSweep := by rcases hc with rfl | rfl <;> rfl
  refine ⟨fun fw => ⟨_, run, wantSweep_waits s fw⟩, fun fw active => ⟨_, run, wantSweep_runs s fw active⟩,
    fun fw active fresh ok nonempty still first up => ⟨_, run, ?_⟩⟩
  rw [wantSweep_begins s fw active]
  exact fullSweep_effect s ok (State.idsBelow_of_fresh fresh) nonempty still.quiet first up

end Sys2Proof.Machine

/-! PROOFS. The switch's own messages and reduction contexts as state (spec/02_fabric_frames.md R55, R58; 04_reduction_contexts.md
R107): what forgetting and sending a message does to the list of messages, and what writing a context touches. -/
namespace Sys2Proof.Machine

open Sys2Proof

/-! ## Parts -/

theorem keepsParts_of_onlyParts {c l : List Part} {s t : State} (a : onlyParts c s t) (h : ∀ p ∈ l, p ∉ c) : keepsParts l s t :=
  fun p hp => a p (h p hp)

/-- A message with none of its frames left to count. -/
def OutMsg.still (o : OutMsg) : OutMsg := { o with unsent := 0 }

theorem outsAre_iff (xs : List OutMsg) (t : State) : outsAre xs t ↔ t.outs.map OutMsg.still = xs.map OutMsg.still := Iff.rfl

/-- The messages that a test keeps, where the test does not ask how many frames have left. -/
theorem outsAre.filter {xs : List OutMsg} {s t : State} (a : outsAre xs s) (q : OutMsg → Bool) (still : ∀ o, q o.still = q o)
    (h : t.outs = s.outs.filter q) : outsAre (xs.filter q) t := by
  have pull (l : List OutMsg) : (l.filter q).map OutMsg.still = (l.map OutMsg.still).filter q := by
    rw [List.filter_map]
    exact congrArg (List.map OutMsg.still) (List.filter_congr fun o _ => (still o).symm)
  rw [outsAre_iff] at a ⊢
  rw [h, pull, a, pull]

/-- A message of a list that the messages are, but for what has left. -/
theorem outsAre.mem {xs : List OutMsg} {t : State} (a : outsAre xs t) {o : OutMsg} (h : o ∈ xs) :
    ∃ x ∈ t.outs, x.still = o.still := by
  have listed : o.still ∈ t.outs.map OutMsg.still := a ▸ List.mem_map_of_mem h
  obtain ⟨x, mem, e⟩ := List.mem_map.mp listed
  exact ⟨x, mem, e⟩

theorem outsAre.of_mem {xs : List OutMsg} {t : State} (a : outsAre xs t) {x : OutMsg} (h : x ∈ t.outs) :
    ∃ o ∈ xs, o.still = x.still := by
  have listed : x.still ∈ xs.map OutMsg.still := a ▸ List.mem_map_of_mem h
  obtain ⟨o, mem, e⟩ := List.mem_map.mp listed
  exact ⟨o, mem, e⟩

theorem outsAre.keys {xs : List OutMsg} {t : State} (a : outsAre xs t) : t.outs.map (·.key) = xs.map (·.key) := by
  have keys (l : List OutMsg) : l.map (·.key) = (l.map OutMsg.still).map (·.key) := by
    rw [List.map_map]
    rfl
  rw [keys, keys xs, (outsAre_iff xs t).mp a]

theorem fields_of_still {x o : OutMsg} (h : x.still = o.still) :
    x.key = o.key ∧ x.purpose = o.purpose ∧ x.attempt = o.attempt ∧ x.hop = o.hop ∧ x.frames = o.frames := by
  cases x
  cases o
  simp only [OutMsg.still, OutMsg.mk.injEq] at h
  obtain ⟨key, -, -, hop, frames, attempt, purpose, -⟩ := h
  exact ⟨key, purpose, attempt, hop, frames⟩

/-! ## Forgetting messages (R55, R58) -/

theorem dropOuts_parts (s : State) (q : OutMsg → Bool) : onlyParts [.outs, .ended] s (s.dropOuts q) := fun p hp => by
  cases p
  case outs => exact absurd (by decide) hp
  case ended => exact absurd (by decide) hp
  all_goals rfl

theorem dropOut_parts (s : State) (key : Nat) : onlyParts [.outs, .ended] s (s.dropOut key) := dropOuts_parts s _

/-- What forgetting a message touches, with the copies of it that wait. -/
abbrev closeParts : List Part := [.regs, .core, .outs, .ended]

theorem closeOut_cases (s : State) (o : OutMsg) : s.closeOut o = s.dropOut o.key
    ∨ s.closeOut o = (s.dropOut o.key).dropCopies fun c => c.msg == some o.key && !c.started := by
  unfold State.closeOut
  dsimp only
  split
  · exact .inr rfl
  · exact .inl rfl

theorem closeOut_parts (s : State) (o : OutMsg) : onlyParts closeParts s (s.closeOut o) := by
  have drop := onlyParts_mono (d := closeParts) (dropOut_parts s o.key) (by decide)
  rcases closeOut_cases s o with e | e <;> rw [e]
  · exact drop
  · exact onlyParts_trans drop (onlyParts_mono (dropCopies_parts _ _) (by decide))

theorem closeOut_ended (s : State) (o : OutMsg) : (s.closeOut o).ended = (s.dropOut o.key).ended := by
  rcases closeOut_cases s o with e | e <;> rw [e]
  exact dropCopies_parts _ _ .ended (by decide)

theorem closeOut_outs (s : State) (o : OutMsg) : outsAre (s.outs.filter fun x => x.key != o.key) (s.closeOut o) := by
  rcases closeOut_cases s o with e | e <;> rw [e]
  · exact rfl
  · exact outsAre.trans (s := s.dropOut o.key) rfl (dropCopies_moves _ _).outs

/-! ## Sending a message (R55, R58) -/

theorem emits_sameOuts (hop : Hop) (key : Nat) (fs : List Frame) (s : State) :
    sameOuts s (fs.foldl (fun s f => s.emit hop f (some key)) s) :=
  List.foldlRecOn (motive := fun t => sameOuts s t) fs _ (sameOuts_refl s) fun t h f _ => h.trans (emit_sameOuts t hop f _)

theorem emits_parts (hop : Hop) (key : Nat) (fs : List Frame) (s : State) :
    onlyParts coreParts s (fs.foldl (fun s f => s.emit hop f (some key)) s) :=
  onlyParts_foldl _ (fun s f => emit_parts s hop f _) fs s

/-- The MSG_ID that a new message takes. -/
def State.freshId (s : State) (hop : Hop) (fs : List Frame) : BitVec 16 :=
  (s.newMsgId (match fs.head? with | some f => s.destKey hop f.h | none => 0)).1

/-- The record of a message as it is sent. -/
def State.sentOut (s : State) (hop : Hop) (fs : List Frame) (job : Option (BitVec 12)) (rank : Option Nat) (why : Purpose) :
    OutMsg := newOut s.freeCount job rank hop (numberFrames (s.freshId hop fs) 0 fs) why

/-- A message has its record before any of its frames is sent. -/
theorem open_eq (s : State) (hop : Hop) (fs : List Frame) (job : Option (BitVec 12)) (rank : Option Nat) (why : Purpose) :
    s.open_ hop fs job rank why = (s.freeCount, numberFrames (s.freshId hop fs) 0 fs,
      { s.draw1.2 with outs := s.outs ++ [s.sentOut hop fs job rank why] }) := rfl

theorem send_outs (s : State) (hop : Hop) (fs : List Frame) (job : Option (BitVec 12)) (rank : Option Nat) (why : Purpose)
    (heard : s.silenced job = false) : outsAre (s.outs ++ [s.sentOut hop fs job rank why]) (s.send hop fs job rank why) := by
  rw [State.send, heard, if_neg Bool.false_ne_true, open_eq]
  generalize s.sentOut hop fs job rank why = o
  exact emits_sameOuts hop s.freeCount _ { s.draw1.2 with outs := s.outs ++ [o] }

theorem silenced_of_jobs {s t : State} (h : t.jobs = s.jobs) (job : Option (BitVec 12)) : t.silenced job = s.silenced job := by
  cases job with
  | none => rfl
  | some id => simp only [State.silenced, h]

/-! ## MSG_IDs (R55) -/

theorem destKey_of_image {s t : State} (h : t.image = s.image) (hop : Hop) (b : BaseHdr) : t.destKey hop b = s.destKey hop b := by
  have cable : t.cable = s.cable := funext fun p => by rw [State.cable, h, State.cable]
  unfold State.destKey
  rw [cable]

/-- The MSG_IDs of the messages outstanding and ended. -/
def State.usedIds (s : State) : List (BitVec 16) :=
  (s.outs.filterMap fun o => o.frames.head?.map (·.h.msgId)) ++ s.ended.map (·.msgId)

theorem usedIds_length (s : State) : s.usedIds.length ≤ s.outs.length + s.ended.length := by
  rw [State.usedIds, List.length_append, List.length_map]
  exact Nat.add_le_add_right (List.length_filterMap_le _ _) _

theorem idTaken_used {s : State} {dest : Nat} {m : BitVec 16} (h : s.idTaken dest m = true) : m ∈ s.usedIds := by
  rw [State.idTaken, Bool.or_eq_true] at h
  rcases h with out | ended
  · obtain ⟨o, mem, h⟩ := List.any_eq_true.mp out
    simp only [Bool.and_eq_true, beq_iff_eq] at h
    exact List.mem_append_left _ (List.mem_filterMap.mpr ⟨o, mem, h.2⟩)
  · obtain ⟨e, mem, h⟩ := List.any_eq_true.mp ended
    simp only [Bool.and_eq_true, beq_iff_eq] at h
    exact List.mem_append_right _ (List.mem_map.mpr ⟨e, mem, h.2⟩)

/-- A barred choice has found every MSG_ID up to it barred. -/
theorem pickId_taken (s : State) (dest : Nat) : ∀ (n : Nat) (m : BitVec 16), s.idTaken dest (s.pickId dest n m) = true →
    ∀ i ≤ n, s.idTaken dest (m + BitVec.ofNat 16 i) = true
  | 0, m, h, i, hi => by
    rw [Nat.le_zero.mp hi]
    simpa [State.pickId] using h
  | n + 1, m, h, i, hi => by
    rw [State.pickId] at h
    by_cases taken : s.idTaken dest m = true
    · rw [if_pos taken] at h
      cases i with
      | zero => simpa using taken
      | succ i =>
        have next := pickId_taken s dest n (m + 1) h i (Nat.le_of_succ_le_succ hi)
        rwa [show m + 1 + BitVec.ofNat 16 i = m + BitVec.ofNat 16 (i + 1) by
          rw [BitVec.add_assoc, BitVec.add_comm 1, BitVec.ofNat_add]; rfl] at next
    · rw [if_neg taken] at h
      exact absurd h taken

/-- Where fewer MSG_IDs are in use than there are, the one picked is not barred. -/
theorem pickId_free (s : State) (dest : Nat) (m : BitVec 16) (few : s.outs.length + s.ended.length < 2 ^ 16 - 1) :
    s.idTaken dest (s.pickId dest (s.outs.length + s.ended.length) m) = false := by
  by_contra taken
  have all := pickId_taken s dest _ m (by simpa using taken)
  have count := usedIds_length s
  generalize s.outs.length + s.ended.length = n at *
  have distinct : ((List.range (n + 1)).map fun i => m + BitVec.ofNat 16 i).Nodup := by
    refine List.Nodup.map_on (fun i hi j hj e => ?_) List.nodup_range
    have same : BitVec.ofNat 16 i = BitVec.ofNat 16 j := (BitVec.add_right_inj m).mp e
    rw [List.mem_range] at hi hj
    have nums := congrArg BitVec.toNat same
    rw [BitVec.toNat_ofNat, BitVec.toNat_ofNat, Nat.mod_eq_of_lt (by omega), Nat.mod_eq_of_lt (by omega)] at nums
    exact nums
  have inside : ((List.range (n + 1)).map fun i => m + BitVec.ofNat 16 i) ⊆ s.usedIds := fun x hx => by
    obtain ⟨i, hi, rfl⟩ := List.mem_map.mp hx
    exact idTaken_used (all i (Nat.le_of_lt_succ (List.mem_range.mp hi)))
  have atMost := (distinct.subperm inside).length_le
  rw [List.length_map, List.length_range] at atMost
  omega

/-- A new message's MSG_ID is not barred. -/
theorem freshId_free (s : State) (hop : Hop) (f : Frame) (fs : List Frame)
    (few : s.outs.length + s.ended.length < 2 ^ 16 - 1) : s.idTaken (s.destKey hop f.h) (s.freshId hop (f :: fs)) = false :=
  pickId_free s.draw1.2 _ _ few

/-- The MSG_ID of a message that has just been forgotten is barred toward its destination. -/
theorem idTaken_closeOut (s : State) (o : OutMsg) (f : Frame) (fs : List Frame) (mem : o ∈ s.outs) (frames : o.frames = f :: fs) :
    (s.closeOut o).idTaken (s.destKey o.hop f.h) f.h.msgId = true := by
  have time : (s.closeOut o).time = s.time := closeOut_parts s o .time (by decide)
  have recent : (⟨s.destKey o.hop f.h, f.h.msgId, s.ns⟩ : EndedMsg) ∈ (s.closeOut o).ended := by
    rw [closeOut_ended]
    refine List.mem_append_right _ (List.mem_map.mpr ⟨(s.destOfOut o, f.h.msgId), List.mem_filterMap.mpr ⟨o, ?_, ?_⟩, ?_⟩)
    · exact List.mem_filter.mpr ⟨mem, beq_self_eq_true _⟩
    · rw [frames]
      rfl
    · rw [State.destOfOut, frames]
      rfl
  rw [State.idTaken, Bool.or_eq_true]
  refine .inr (List.any_eq_true.mpr ⟨_, recent, ?_⟩)
  simp [State.ns, time]

/-- No more messages are remembered, outstanding or ended, after one is forgotten. -/
theorem closeOut_count (s : State) (o : OutMsg) :
    (s.closeOut o).outs.length + (s.closeOut o).ended.length ≤ s.outs.length + s.ended.length := by
  have outs : (s.closeOut o).outs.length = (s.outs.filter fun x => !(x.key == o.key)).length := by
    have keys := congrArg List.length (closeOut_outs s o)
    rwa [List.length_map, List.length_map] at keys
  have gone : (s.closeOut o).ended.length ≤ s.ended.length + (s.outs.filter fun x => x.key == o.key).length := by
    rw [closeOut_ended]
    simp only [State.dropOut, State.dropOuts, State.noteEnded, List.length_append, List.length_map]
    exact Nat.add_le_add (List.length_filter_le _ _) (List.length_filterMap_le _ _)
  have split := List.length_eq_length_filter_add (l := s.outs) fun x => x.key == o.key
  omega

/-! ## Contexts (R107) -/

theorem setCtx_parts (s : State) (d : Nat) (c : Ctx) : onlyParts [.ctxs, .descCache, .mem, .memory] s (s.setCtx d c) := by
  have frame := setCtx_frame s d c
  intro p hp
  cases p
  case ctxs => exact absurd (by decide) hp
  case descCache => exact absurd (by decide) hp
  case mem => exact absurd (by decide) hp
  case memory => exact absurd (by decide) hp
  all_goals simp only [Part.same, frame]

theorem setCtx_ctxs (s : State) (d : Nat) (c : Ctx) : (s.setCtx d c).ctxs = sput d c s.ctxs := by
  simp [State.setCtx]

theorem setCtx_ctx?_self (s : State) (d : Nat) (c : Ctx) : (s.setCtx d c).ctx? d = some c := by
  rw [State.ctx?, setCtx_ctxs, sget_sput, if_pos rfl]

theorem setCtx_ctx?_ne (s : State) (c : Ctx) {d e : Nat} (h : e ≠ d) : (s.setCtx d c).ctx? e = s.ctx? e := by
  rw [State.ctx?, setCtx_ctxs, sget_sput, if_neg h.symm, State.ctx?]

/-- A write of a context may write a descriptor back that a cache held. -/
theorem setCtx_bytes (s : State) (d : Nat) (c : Ctx) : keepsBytes s (s.setCtx d c) := by
  intro a cached
  unfold State.setCtx State.touchDesc
  dsimp only
  split
  · rfl
  · split
    · rename_i old last
      have held : old ∈ s.descCache :=
        (List.mem_filter.mp (List.mem_filter.mp (List.mem_of_getLast? last)).1).1
      have size (x : Option Ctx) : (descBytes x).length = 32 := by
        cases x with
        | none => simp [descBytes, zeros]
        | some x => exact length_leBytes 32 _
      refine readMem_writeMem_outside { s with ctxs := sput d c s.ctxs } _ _ a ?_
      rw [size]
      have other := cached old held
      omega
    · rfl

theorem keepsBytes.trans {s t u : State} (a : keepsBytes s t) (b : keepsBytes t u) (h : t.descCache = s.descCache) :
    keepsBytes s u := fun x cached => (b x (h ▸ cached)).trans (a x cached)

theorem keepsBytes_of_parts {c : List Part} {s t : State} (a : onlyParts c s t) (h : Part.mem ∉ c) : keepsBytes s t :=
  fun x _ => by
    rw [State.readMem, State.readMem, show t.mem = s.mem from a .mem h]

theorem mem_of_sget {α : Type} {k : Nat} {v : α} : ∀ {l : List (Nat × α)}, sget k l = some v → (k, v) ∈ l
  | [], h => nomatch h
  | (j, w) :: l, h => by
    rw [sget] at h
    by_cases e : j = k
    · rw [if_pos e, Option.some_inj] at h
      rw [e, h]
      exact List.mem_cons_self
    · rw [if_neg e] at h
      exact List.mem_cons_of_mem _ (mem_of_sget h)

/-- No context waits for the previous step to end. -/
def State.noneWait (s : State) : Prop := ∀ x ∈ s.ctxs, x.2.commitWait = false

theorem State.noneWait.of_ctxs {s t : State} (a : s.noneWait) (h : t.ctxs = s.ctxs) : t.noneWait := fun x hx => a x (h ▸ hx)

theorem State.noneWait.ctx {s : State} (a : s.noneWait) {d : Nat} {c : Ctx} (h : s.ctx? d = some c) : c.commitWait = false :=
  a _ (mem_of_sget h)

theorem State.noneWait.setCtx {s : State} (a : s.noneWait) (d : Nat) {c : Ctx} (h : c.commitWait = false) :
    (s.setCtx d c).noneWait := fun x hx => by
  rw [setCtx_ctxs] at hx
  rcases mem_sput d c _ x hx with rfl | old
  · exact h
  · exact a x old

/-- Where no context waits none goes on. -/
theorem settleFree_none {s : State} (h : s.noneWait) : s.settleFree = s := by
  have empty : s.ctxs.filter (fun x => x.2.commitWait) = [] :=
    List.filter_eq_nil_iff.mpr fun x hx => by rw [h x hx]; exact Bool.false_ne_true
  rw [State.settleFree, empty]
  rfl

theorem ctx?_of_ctxs {s t : State} (h : t.ctxs = s.ctxs) (d : Nat) : t.ctx? d = s.ctx? d := by
  rw [State.ctx?, h, State.ctx?]

end Sys2Proof.Machine

/-! PROOFS. Answers to the switch's own messages (spec/02_fabric_frames.md R49, R56): what an ACK and each NACK do to the message
they answer and to what it was about. -/
namespace Sys2Proof.Machine

open Sys2Proof

/-! ## The message an answer belongs to -/

theorem outFor_mem {s : State} {p : Nat} {h : BaseHdr} {o : OutMsg} (found : s.outFor p h = some o) : o ∈ s.outs :=
  List.mem_of_find?_eq_some found

/-- An answer carries the MSG_ID of the first frame of its message. -/
theorem outFor_frames {s : State} {p : Nat} {h : BaseHdr} {o : OutMsg} (found : s.outFor p h = some o) :
    ∃ f fs, o.frames = f :: fs ∧ f.h.msgId = h.msgId := by
  have answers : s.answers p h o = true := List.find?_some found
  unfold State.answers at answers
  cases frames : o.frames with
  | nil => simp [frames] at answers
  | cons f fs =>
    simp only [frames, List.head?_cons, Bool.and_eq_true, beq_iff_eq] at answers
    exact ⟨f, fs, rfl, answers.1.1.1⟩

theorem takeFrom_parts (s : State) (dest : Dest) (p : Nat) (f : Frame) : onlyParts coreParts s (s.takeFrom dest p f) :=
  (takeFrom_moves s dest p f).parts

/-! ## ACK (R56) -/

theorem exec_ackFrame (p : Nat) (f : Frame) (s : State) : exec (.ackFrame p f) s = execAckFrame p f s := rfl

/-- An ACK of a message of the switch's own ends it, and has the effect that the message's purpose gives it. -/
theorem ack_answered (s : State) (p : Nat) (f : Frame) (o : OutMsg) (free : s.queuedBehind .firmware p f = false)
    (good : tailGood f = true) (ack : f.h.ftype = 6#4) (own : (s.takeFrom .firmware p f).mcAbsorbs p f.h = false)
    (found : (s.takeFrom .firmware p f).outFor p f.h = some o) :
    exec (.ackFrame p f) s = .next ((((s.takeFrom .firmware p f).closeOut o).acked o).settleFree) := by
  rw [exec_ackFrame, execAckFrame, free, if_neg Bool.false_ne_true]
  simp [good, ack, State.ackInRaw, own, found]

theorem acked_plain (s : State) (o : OutMsg) (plain : o.purpose = .plain) : s.acked o = s := by
  simp [State.acked, plain]

theorem acked_partial (s : State) (o : OutMsg) (d gen : Nat) (c : Ctx) (up : o.purpose = .partialUp d gen)
    (found : s.ctx? d = some c) (now : c.generation = gen) (state : c.state = .forwarded) : s.acked o = s.setCtx d c.freed := by
  simp [State.acked, up, found, now, state]

/-- A context that awaits a receiver is not final. -/
theorem maybeFinal_awaits (s : State) (d : Nat) (c : Ctx) (found : s.ctx? d = some c) (nonempty : c.awaiting ≠ []) :
    s.maybeFinal d = s := by
  have waits : c.awaiting.isEmpty = false := by rwa [List.isEmpty_eq_false_iff]
  simp [State.maybeFinal, found, waits]

theorem acked_result (s : State) (o : OutMsg) (d gen : Nat) (w w' : SlotId) (c : Ctx) (result : o.purpose = .result d gen w)
    (found : s.ctx? d = some c) (now : c.generation = gen) (state : c.state = .released) (more : w' ∈ c.awaiting)
    (other : w' ≠ w) : s.acked o = s.setCtx d { c with awaiting := c.awaiting.filter (· != w) } := by
  have left : c.awaiting.filter (· != w) ≠ [] :=
    List.ne_nil_of_mem (List.mem_filter.mpr ⟨more, bne_iff_ne.mpr other⟩)
  simp only [State.acked, result, found, now, state, and_self, if_true]
  exact maybeFinal_awaits _ d _ (setCtx_ctx?_self s d _) left

/-- A context written on an ACK: every other context, the control half and every byte of memory are kept. -/
theorem acked_setCtx {s v : State} (before : onlyParts closeParts s v) (noneWaits : v.noneWait) (d : Nat) (c : Ctx)
    (still : c.commitWait = false) :
    let t := (v.setCtx d c).settleFree
    t.outs = v.outs ∧ t.ctx? d = some c ∧ (∀ e, e ≠ d → t.ctx? e = s.ctx? e) ∧ keepsParts controlParts s t ∧ keepsBytes s t := by
  rw [settleFree_none (noneWaits.setCtx d still)]
  have written := setCtx_parts v d c
  refine ⟨written .outs (by decide), setCtx_ctx?_self v d c, fun e he => ?_, ?_, ?_⟩
  · rw [setCtx_ctx?_ne v c he]
    exact ctx?_of_ctxs (before .ctxs (by decide)) e
  · exact keepsParts_of_onlyParts (onlyParts_trans (onlyParts_mono (d := closeParts ++ [.ctxs, .descCache, .mem, .memory]) before
      (by decide)) (onlyParts_mono written (by decide))) (by decide)
  · exact keepsBytes.trans (keepsBytes_of_parts before (by decide)) (setCtx_bytes v d c) (before .descCache (by decide))

/-! ## NACK (R49) -/

theorem exec_nackFrame (p : Nat) (f : Frame) (s : State) : exec (.nackFrame p f) s = execNackFrame p f s := rfl

theorem nack_answered (s : State) (p : Nat) (f : Frame) (o : OutMsg) (free : s.queuedBehind .firmware p f = false)
    (good : tailGood f = true) (nack : f.h.ftype = 5#4) (own : (s.takeFrom .firmware p f).mcAbsorbs p f.h = false)
    (found : (s.takeFrom .firmware p f).outFor p f.h = some o)
    (plain : (nackOf f).code = nackCheckFail → o.checkedBelow = false) :
    exec (.nackFrame p f) s = .next ((s.takeFrom .firmware p f).nacked o (nackOf f)) := by
  rw [exec_nackFrame, execNackFrame, free, if_neg Bool.false_ne_true]
  simp only [good, nack, own, found, Bool.not_true, bne_self_eq_false, Bool.or_self, Bool.false_eq_true, if_false]
  by_cases check : (nackOf f).code = nackCheckFail
  · simp [plain check]
  · simp [check]

theorem nacked_busy (s : State) (o : OutMsg) (x : NackExt) (busy : x.code = nackBusy) : s.nacked o x =
    { s with outs := s.outs.map fun (y : OutMsg) => if y.key = o.key then { y with holdUntil := s.ns + 1000 * x.retryHint.toNat } else y } := by
  rw [State.nacked, if_pos busy]

theorem nacked_checkFail (s : State) (o : OutMsg) (x : NackExt) (check : x.code = nackCheckFail) : s.nacked o x = s.sendAnew o := by
  rw [State.nacked, check, if_neg (by decide), if_pos rfl]

theorem nacked_ends (s : State) (o : OutMsg) (x : NackExt)
    (ends : x.code ∈ [nackStaleLayout, nackScaleExceeded, nackNoContext, nackGenSuperseded]) : s.nacked o x = s.closeOut o := by
  simp only [List.mem_cons, List.not_mem_nil, or_false] at ends
  rcases ends with e | e | e | e <;> rw [State.nacked, e] <;> rfl

theorem nacked_fenced (s : State) (o : OutMsg) (x : NackExt) (fenced : x.code = nackFenced) :
    s.nacked o x = match o.job with | some id => (s.closeOut o).fencedOff id | none => s.closeOut o := by
  rw [State.nacked, fenced]
  rfl

/-! ### FENCED -/

/-- A job for which the switch sends no more. -/
def State.silence (s : State) (job : BitVec 12) : State := s.mapJob job fun j => { j with silenced := true }

theorem silence_parts (s : State) (job : BitVec 12) : onlyParts [.jobs] s (s.silence job) := fun p hp => by
  cases p
  case jobs => exact absurd (by decide) hp
  all_goals rfl

theorem silence_job (s : State) (job : BitVec 12) (k : Job) (found : (s.silence job).job? job = some k) : k.silenced = true := by
  obtain ⟨j, -, rfl⟩ := List.mem_map.mp (List.mem_of_find?_eq_some found)
  have id : (if j.id = job then { j with silenced := true } else j).id = job := by simpa using List.find?_some found
  by_cases e : j.id = job
  · rw [if_pos e]
  · rw [if_neg e] at id
    exact absurd id e

/-- FENCED forgets the messages of the job, and of its copies those that have not started. -/
theorem fencedOff_eq (s : State) (job : BitVec 12) : ∃ q, s.fencedOff job =
    ((s.silence job).dropOuts fun o => o.job == some job).dropCopies q := ⟨_, rfl⟩

theorem fencedOff_parts (s : State) (job : BitVec 12) : onlyParts (.jobs :: closeParts) s (s.fencedOff job) := by
  obtain ⟨q, e⟩ := fencedOff_eq s job
  rw [e]
  exact onlyParts_trans (onlyParts_trans (onlyParts_mono (silence_parts s job) (by decide))
    (onlyParts_mono (dropOuts_parts _ _) (by decide))) (onlyParts_mono (dropCopies_parts _ _) (by decide))

theorem fencedOff_job (s : State) (job : BitVec 12) (k : Job) (found : (s.fencedOff job).job? job = some k) :
    k.silenced = true := by
  obtain ⟨q, e⟩ := fencedOff_eq s job
  have jobs : (s.fencedOff job).jobs = (s.silence job).jobs := by
    rw [e]
    exact (dropCopies_parts _ _ .jobs (by decide)).trans (dropOuts_parts _ _ .jobs (by decide))
  rw [State.job?, jobs] at found
  exact silence_job s job k found

theorem fencedOff_outs {xs : List OutMsg} {s : State} (a : outsAre xs s) (job : BitVec 12) :
    outsAre (xs.filter fun o => !(o.job == some job)) (s.fencedOff job) := by
  obtain ⟨q, e⟩ := fencedOff_eq s job
  rw [e]
  refine outsAre.trans (s := (s.silence job).dropOuts fun o => o.job == some job) ?_ (dropCopies_moves _ _).outs
  exact outsAre.filter a _ (fun _ => rfl) rfl

/-- FENCED ends the message and, with a job, every message of it. -/
theorem nacked_fenced_effect (u : State) (o : OutMsg) (x : NackExt) (fenced : x.code = nackFenced) :
    let t := u.nacked o x
    outsAre (u.outs.filter fun y => y.key != o.key && !(o.job.isSome && y.job == o.job)) t
      ∧ (∀ id, o.job = some id → ∀ k, t.job? id = some k → k.silenced = true)
      ∧ (o.job = none → keepsParts [.jobs] u t) ∧ onlyParts (.jobs :: closeParts) u t := by
  have closed := closeOut_parts u o
  have outs := closeOut_outs u o
  rw [nacked_fenced u o x fenced]
  cases job : o.job with
  | none =>
    refine ⟨?_, fun _ h => absurd h (by simp), fun _ => keepsParts_of_onlyParts closed (by decide),
      onlyParts_mono closed (by decide)⟩
    simpa using outs
  | some id =>
    refine ⟨?_, fun id' h k here => ?_, fun h => absurd h (by simp),
      onlyParts_trans (onlyParts_mono closed (by decide)) (fencedOff_parts (u.closeOut o) id)⟩
    · have left := fencedOff_outs outs id
      rw [List.filter_filter] at left
      simpa [Bool.and_comm] using left
    · rw [← Option.some_inj.mp h] at here
      exact fencedOff_job (u.closeOut o) id k here

/-! ### CHECK_FAIL of a switch -/

/-- A message sent anew, under a MSG_ID of its own. -/
theorem sendAnew_effect (u : State) (o : OutMsg) (p : Nat) (h : BaseHdr) (found : u.outFor p h = some o)
    (old : o.key < u.freeCount) (heard : u.silenced o.job = false) :
    onlyParts (.freeCount :: closeParts) u (u.sendAnew o)
      ∧ (∃ x ∈ (u.sendAnew o).outs, x.key = u.freeCount ∧ x.purpose = o.purpose ∧ x.attempt = 0 ∧ x.hop = o.hop
        ∧ ∀ g ∈ x.frames, g.h.attempt = 0#3 ∧ (u.outs.length + u.ended.length < 2 ^ 16 - 1 → g.h.msgId ≠ h.msgId))
      ∧ ∀ x ∈ (u.sendAnew o).outs, x.key ≠ o.key := by
  obtain ⟨f, fs, frames, id⟩ := outFor_frames found
  have closed := closeOut_parts u o
  have outs := closeOut_outs u o
  have fewer := closeOut_count u o
  have taken := idTaken_closeOut u o f fs (outFor_mem found) frames
  rw [State.sendAnew, frames]
  have free : (u.closeOut o).freeCount = u.freeCount := closed .freeCount (by decide)
  have silent := (silenced_of_jobs (closed .jobs (by decide)) o.job).trans heard
  have key := destKey_of_image (closed .image (by decide)) o.hop f.h
  generalize u.closeOut o = v at *
  have sent := send_outs v o.hop (f :: fs) o.job o.rank o.purpose silent
  have parts := send_parts v o.hop (f :: fs) o.job o.rank o.purpose
  generalize v.send o.hop (f :: fs) o.job o.rank o.purpose = t at *
  refine ⟨onlyParts_trans (onlyParts_mono closed (by decide)) (onlyParts_mono parts (by decide)), ?_, fun x hx => ?_⟩
  · obtain ⟨x, mem, same⟩ := sent.mem (List.mem_append_right _ (List.mem_singleton_self _))
    obtain ⟨sameKey, purpose, attempt, hop, sentFrames⟩ := fields_of_still same
    refine ⟨x, mem, sameKey.trans free, purpose, attempt, hop, fun g hg => ?_⟩
    rw [show x.frames = numberFrames (v.freshId o.hop (f :: fs)) 0 (f :: fs) from sentFrames] at hg
    obtain ⟨g₀, -, rfl⟩ := List.mem_map.mp hg
    refine ⟨rfl, fun few => ?_⟩
    have fresh := freshId_free v o.hop f fs (Nat.lt_of_le_of_lt fewer few)
    rw [key] at fresh
    intro clash
    rw [← id] at clash
    rw [show v.freshId o.hop (f :: fs) = f.h.msgId from clash, taken] at fresh
    exact nomatch fresh
  · obtain ⟨y, mem, same⟩ := sent.of_mem hx
    rw [← (fields_of_still same).1]
    rcases List.mem_append.mp mem with kept | new
    · obtain ⟨z, listed, still⟩ := outs.of_mem kept
      rw [← (fields_of_still still).1]
      exact bne_iff_ne.mp (List.mem_filter.mp listed).2
    · rw [List.mem_singleton.mp new, show (v.sentOut o.hop (f :: fs) o.job o.rank o.purpose).key = v.freeCount from rfl, free]
      exact Nat.ne_of_gt old

/-! ## O16 -/

/-- Settles O16: an answer takes its frame off the input and finds its message; forgetting that message, writing its context and
sending it anew each touch what their lemmas say. -/
theorem acksAndNacks : Obligations.AcksAndNacks := by
  unfold Obligations.AcksAndNacks
  refine ⟨fun s u p f o free eq good ack own found noneWaits => ?_, fun s u p f o free eq good nack own found => ?_⟩
  · have run := ack_answered s p f o free good ack (eq ▸ own) (eq ▸ found)
    have taken := takeFrom_parts s .firmware p f
    rw [← eq] at run taken
    have closed := closeOut_parts u o
    have outs := closeOut_outs u o
    have before := onlyParts_trans (onlyParts_mono taken (by decide)) closed
    have still : (u.closeOut o).noneWait := State.noneWait.of_ctxs noneWaits (closed .ctxs (by decide))
    have ctx (d : Nat) : (u.closeOut o).ctx? d = u.ctx? d := ctx?_of_ctxs (closed .ctxs (by decide)) d
    have prompt (d : Nat) (c : Ctx) (here : u.ctx? d = some c) : c.commitWait = false := still.ctx ((ctx d).trans here)
    generalize u.closeOut o = v at *
    refine ⟨fun plain => ⟨_, run, ?_⟩, fun d gen c up here now state => ⟨_, run, ?_⟩,
      fun d gen w w' c result here now state more other => ⟨_, run, ?_⟩⟩
    · rw [acked_plain v o plain, settleFree_none still]
      exact ⟨outs, keepsParts_of_onlyParts before (by decide), keepsParts_of_onlyParts before (by decide)⟩
    · rw [acked_partial v o d gen c up ((ctx d).trans here) now state]
      obtain ⟨same, written, others, control, bytes⟩ :=
        acked_setCtx before still d c.freed (prompt d c here)
      exact ⟨outs.trans (sameOuts_of_eq same), ⟨c.freed, written, rfl, rfl, state⟩, others, control, bytes⟩
    · rw [acked_result v o d gen w w' c result ((ctx d).trans here) now state more other]
      obtain ⟨-, written, others, control, bytes⟩ :=
        acked_setCtx before still d { c with awaiting := c.awaiting.filter (· != w) } (prompt d c here)
      exact ⟨⟨_, written, rfl, state⟩, others, control, bytes⟩
  · have run := nack_answered s p f o free good nack (eq ▸ own) (eq ▸ found)
    have taken := takeFrom_parts s .firmware p f
    rw [← eq] at run taken
    have closed := onlyParts_trans (onlyParts_mono (d := closeParts) taken (by decide)) (closeOut_parts u o)
    refine ⟨fun busy => ⟨_, run fun check => absurd (busy.symm.trans check) (by decide), nacked_busy u o _ busy⟩,
      fun ends => ⟨_, run fun check => absurd ends (by rw [check]; decide), ?_⟩,
      fun fenced => ⟨_, run fun check => absurd (fenced.symm.trans check) (by decide), ?_⟩,
      fun check below old heard => ⟨_, run fun _ => below, ?_⟩⟩
    · rw [nacked_ends u o _ ends]
      exact ⟨closeOut_outs u o, keepsParts_of_onlyParts closed (by decide), keepsParts_of_onlyParts closed (by decide)⟩
    · obtain ⟨outs, silenced, other, parts⟩ := nacked_fenced_effect u o _ fenced
      have all := onlyParts_trans (onlyParts_mono (d := .jobs :: closeParts) taken (by decide)) parts
      refine ⟨outs, silenced, fun noneWaits p hp => ?_, keepsParts_of_onlyParts all (by decide),
        keepsParts_of_onlyParts all (by decide)⟩
      have jobs : u.jobs = s.jobs := taken .jobs (by decide)
      rw [List.mem_singleton.mp hp]
      exact (other noneWaits .jobs (by decide)).trans jobs
    · rw [nacked_checkFail u o _ check]
      have count : u.freeCount = s.freeCount := taken .freeCount (by decide)
      obtain ⟨parts, sent, others⟩ := sendAnew_effect u o p f.h found (count ▸ old)
        ((silenced_of_jobs (taken .jobs (by decide)) o.job).trans heard)
      have all := onlyParts_trans (onlyParts_mono (d := .freeCount :: closeParts) taken (by decide)) parts
      exact ⟨count ▸ sent, others, keepsParts_of_onlyParts all (by decide), keepsParts_of_onlyParts all (by decide)⟩

end Sys2Proof.Machine

/-! PROOFS. What sending and event records touch, whatever the port map (spec/02_fabric_frames.md R58; 22_companion_link.md R538 to
R546), and the time root as a function of what they leave alone (09_belfry_and_time.md R251). -/
namespace Sys2Proof.Machine

open Sys2Proof

/-! ## Sending -/

/-- The counters that sending may raise. -/
def sendAddr (k : Nat) : Prop := ∃ d, k = regAddr .REFCOUNT_STATUS d ∨ k = regAddr .ROUTE_DISCARDS d

theorem sendAddr_mod {k : Nat} (h : sendAddr k) : 0x10000000 ≤ k ∧ (k % 0x4000000 = 0x70C ∨ k % 0x4000000 = 0x610) := by
  obtain ⟨d, e | e⟩ := h
  · rw [regAddr_refcountStatus] at e
    omega
  · have address := (regAddr_onePerDie (n := .ROUTE_DISCARDS) (by decide) d).1
    rw [show (regRow .ROUTE_DISCARDS).base = 0x10000610 from rfl] at address
    omega

theorem bumpDies_noRoute_touches (s : State) : Touches [.regs] sendAddr s (s.bumpDies F.ROUTE_DISCARDS_NO_ROUTE) :=
  Touches.foldl _ _ _ fun s d _ => setFld_touches s F.ROUTE_DISCARDS_NO_ROUTE d _ ⟨d, .inr rfl⟩

theorem place_touches (s : State) (k : Nat) (hop : Hop) (f : Frame) : Touches [.regs] sendAddr s (s.place k hop f).2 := by
  rcases place_cases s k hop f with ⟨p, g, e, -⟩ | e | e <;> rw [e]
  · exact .refl _ _ s
  · exact .refl _ _ s
  · exact bumpDies_noRoute_touches s

theorem msgSent_touches (s : State) (msg : Option Nat) : Touches coreParts sendAddr s (s.msgSent msg) :=
  (msgSent_moves s msg).toTouches

theorem takeLocal_touches (s : State) (d : Nat) (f : Frame) (xs : List LocalCopy) :
    Touches coreParts sendAddr s (s.takeLocal d f xs) :=
  (takeLocal_moves s d f xs).toTouches.mono (fun _ => id) fun _ e => ⟨d, .inl e⟩

theorem emit_touches (s : State) (hop : Hop) (f : Frame) (msg : Option Nat) : Touches coreParts sendAddr s (s.emit hop f msg) := by
  have place := (place_touches s 0 hop f).mono (d := coreParts) (by decide) fun _ => id
  unfold State.emit
  split
  · rename_i p g u e
    rw [e] at place
    exact place.trans (takeLocal_touches _ _ _ _)
  · rename_i u e
    rw [e] at place
    exact place.trans (msgSent_touches _ _)

theorem open_touches (s : State) (hop : Hop) (fs : List Frame) (job : Option (BitVec 12)) (rank : Option Nat) (why : Purpose) :
    Touches sendParts sendAddr s (s.open_ hop fs job rank why).2.2 :=
  (Touches.of_parts (open_parts s hop fs job rank why) (by decide)).mono (by decide) fun _ => id

theorem send_touches (s : State) (hop : Hop) (fs : List Frame) (job : Option (BitVec 12)) (rank : Option Nat) (why : Purpose) :
    Touches sendParts sendAddr s (s.send hop fs job rank why) := by
  unfold State.send
  split
  · exact .refl _ _ s
  · exact (open_touches s hop fs job rank why).trans
      (.foldl _ _ _ fun s f _ => (emit_touches s hop f _).mono (by decide) fun _ => id)

/-- A fold that carries a state and more touches no more than each of its turns does. -/
theorem Touches.foldl₂ {c : List Part} {Q : Nat → Prop} {α β : Type} (f : α × State → β → α × State)
    (h : ∀ a b, Touches c Q a.2 (f a b).2) : ∀ (l : List β) (a : α × State), Touches c Q a.2 (l.foldl f a).2
  | [], a => .refl c Q a.2
  | b :: l, a => (h a b).trans (Touches.foldl₂ f h l (f a b))

theorem emitCopies_touches (s : State) (xs : List (Hop × Frame × Option Nat)) : Touches coreParts sendAddr s (s.emitCopies xs) := by
  unfold State.emitCopies
  dsimp only
  refine .trans (Touches.foldl₂ (c := coreParts) (Q := sendAddr) _ (fun a x => ?_) xs ([], s)) (.foldl _ _ _ fun s d _ => ?_)
  · have place := (place_touches a.2 a.1.length x.1 x.2.1).mono (d := coreParts) (by decide) fun _ => id
    split
    · rename_i e
      rw [e] at place
      exact place
    · rename_i e
      rw [e] at place
      exact place.trans (msgSent_touches _ _)
  · split
    · exact .refl _ _ s
    · exact takeLocal_touches s _ _ _

theorem sendMany_touches (s : State) (job : Option (BitVec 12)) (xs : List (Hop × List Frame × Option Nat × Purpose)) :
    Touches sendParts sendAddr s (s.sendMany job xs) := by
  unfold State.sendMany
  split
  · exact .refl _ _ s
  · dsimp only
    refine .trans (Touches.foldl₂ (c := sendParts) (Q := sendAddr) _ (fun a x => ?_) xs ([], s)) (.foldl _ _ _ fun s i _ => ?_)
    · exact open_touches a.2 _ _ _ _ _
    · exact (emitCopies_touches s _).mono (by decide) fun _ => id

/-! ## Event records (R361, R538 to R546) -/

/-- The registers that an event record may change. -/
def eventAddr (k : Nat) : Prop := k = regAddr .HOST_INT_STATUS 0 ∨ k = regAddr .TALLY_EVENTS 0

/-- What an event record may change. -/
abbrev eventParts : List Part := [.mem, .memory, .host, .regs, .ringQueue]

theorem raiseInt_touches (s : State) (bit : Nat) : Touches [.regs, .host] eventAddr s (s.raiseInt bit) := by
  have risen (v : Nat) : Touches [.regs, .host] eventAddr s (s.setFld F.HOST_INT_STATUS_STATUS 0 v) :=
    (setFld_touches s F.HOST_INT_STATUS_STATUS 0 v (.inl rfl)).mono (by decide) fun _ => id
  unfold State.raiseInt
  dsimp only
  split
  · exact .refl _ _ s
  · split
    · exact (risen _).trans ((Touches.of_parts (sendIntr_parts _ bit) (by decide)).mono (by decide) fun _ => id)
    · exact risen _

theorem ringPutNow_touches (s : State) (r : RingAt) (rec : List Byte) (irq : Nat) (plain : r.tele = none) :
    Touches [.mem, .memory, .host, .regs] eventAddr s (s.ringPutNow r rec irq) := by
  have window (s : State) (a : Nat) (bs : List Byte) : Touches [.mem, .memory, .host, .regs] eventAddr s (s.windowWrite a bs) :=
    (Touches.of_parts (windowWrite_parts s a bs) (by decide)).mono (by decide) fun _ => id
  have wrote (s : State) : Touches [.mem, .memory, .host, .regs] eventAddr s (s.ringWrote r) := by
    rw [State.ringWrote, plain]
    dsimp only
    split
    · exact (setFld_touches s F.TALLY_EVENTS_TALLY_RECORDS 0 _ (.inr rfl)).mono (by decide) fun _ => id
    · exact .refl _ _ s
  unfold State.ringPutNow
  split
  · rw [State.ringDrop, plain]
    exact window s _ _
  · dsimp only
    have entries (s : State) (p : Nat) (rec : List Byte) :
        Touches [.mem, .memory, .host, .regs] eventAddr s (s.ringWrite r p rec) :=
      (Touches.of_parts (ringWrite_parts s r p rec) (by decide)).mono (by decide) fun _ => id
    exact (((entries s _ _).trans (window _ _ _)).trans (wrote _)).trans
      ((raiseInt_touches _ irq).mono (by decide) fun _ => id)

theorem ringPut_touches (s : State) (r : RingAt) (rec : List Byte) (irq : Nat) (plain : r.tele = none) :
    Touches eventParts eventAddr s (s.ringPut r rec irq) := by
  have waits (s : State) (q) : onlyParts [.ringQueue] s { s with ringQueue := q } := fun p hp => by
    cases p
    case ringQueue => exact absurd (by decide) hp
    all_goals rfl
  unfold State.ringPut
  dsimp only
  split
  · exact (Touches.of_parts (waits s _) (by decide)).mono (by decide) fun _ => id
  · split
    · exact ((Touches.of_parts (snoop_parts s _ false) (by decide)).mono (by decide) fun _ => id).trans
        ((Touches.of_parts (waits (s.snoop _ false) _) (by decide)).mono (by decide) fun _ => id)
    · exact (ringPutNow_touches s r rec irq plain).mono (by decide) fun _ => id

theorem event_touches (s : State) (j : Job) (kind : Nat) (step : BitVec 32) (object rank detail waited : Nat) :
    Touches eventParts eventAddr s (s.event j kind step object rank detail waited) := ringPut_touches s _ _ _ rfl

end Sys2Proof.Machine

/-! PROOFS. Check failures, resends and the waits of a chunk (spec/02_fabric_frames.md R58; 04_reduction_contexts.md R126;
14_failure_survival.md R358 to R360). -/
namespace Sys2Proof.Machine

open Sys2Proof

/-! ## The time root (R251) -/

theorem curBank_of {s t : State} (epoch : t.epoch = s.epoch) (bank0 : t.bank0 = s.bank0) (bank1 : t.bank1 = s.bank1) :
    t.curBank = s.curBank := by
  rw [State.curBank, State.bank, State.curBit, epoch, bank0, bank1, State.curBank, State.bank, State.curBit]

theorem newest_of {s t : State} (epoch : t.epoch = s.epoch) (bank0 : t.bank0 = s.bank0) (bank1 : t.bank1 = s.bank1) :
    t.newest = s.newest := by
  unfold State.newest
  rw [curBank_of epoch bank0 bank1, State.bank, State.curBit, epoch, bank0, bank1, State.bank, State.curBit]

/-- A register address that no port register has. -/
def offPorts (k : Nat) : Prop := k < 0x20000000 ∨ k % 0x100000 < 0x4000

theorem port_not_offPorts {n : RegName} (h : n = .PORT_LINK ∨ n = .TFP_PORT_STATUS ∨ n = .PORT_CRUISE) (i : Nat) :
    ¬ offPorts (regAddr n i) := by
  have cruise : regAddr .PORT_CRUISE i = 0x2000400C + i / 32 * 0x100000 + i % 32 * 0x40 := by
    simp [regAddr, regRow, row_PORT_CRUISE]
  rw [offPorts]
  rcases h with rfl | rfl | rfl
  · rw [regAddr_portLink]
    omega
  · rw [regAddr_portStatus]
    omega
  · rw [cruise]
    omega

theorem sendAddr_offPorts (k : Nat) (h : sendAddr k) : offPorts k := .inr (by have address := sendAddr_mod h; omega)

theorem eventAddr_offPorts (k : Nat) (h : eventAddr k) : offPorts k := by
  rcases h with rfl | rfl
  · exact .inl (by decide)
  · exact .inl (by decide)

/-- Which ports carry frames does not change without a port register. -/
theorem carries_of {c : List Part} {s t : State} (a : Touches c offPorts s t) (h : Part.ports ∉ c) : t.carries = s.carries := by
  have ports : t.ports = s.ports := a.parts .ports h
  funext p
  have lock := pcsLock_of ports (fun i => a.regs.reg _ i (port_not_offPorts (.inl rfl) i)) p
  have neg := negState_of ports (fun i => a.regs.reg _ i (port_not_offPorts (.inr (.inl rfl)) i)) p
  have reg := a.regs.reg _ (s.blk p) (port_not_offPorts (.inr (.inr rfl)) _)
  unfold State.carries State.negUp State.quarantined
  rw [lock, neg, blk_of_ports ports, fld_of_reg F.PORT_CRUISE_RESULT reg, flag_of_reg F.PORT_CRUISE_FORCE reg]

theorem route_of {s t : State} (image : t.image = s.image) (carries : t.carries = s.carries) : t.route = s.route := by
  funext k h up
  unfold State.route State.isTop State.isBelow State.childIndex State.usable
  rw [image, carries]

/-- The time root is judged by the banks, the ports that carry frames and the switches known. -/
theorem isTimeRoot_of {c : List Part} {s t : State} (a : Touches c offPorts s t)
    (h : ∀ p ∈ [Part.ports, .image, .epoch, .bank0, .bank1], p ∉ c) (tiers : t.knownTiers = s.knownTiers) :
    t.isTimeRoot = s.isTimeRoot := by
  have image : t.image = s.image := a.parts .image (h _ (by decide))
  have epoch : t.epoch = s.epoch := a.parts .epoch (h _ (by decide))
  have bank0 : t.bank0 = s.bank0 := a.parts .bank0 (h _ (by decide))
  have bank1 : t.bank1 = s.bank1 := a.parts .bank1 (h _ (by decide))
  have carries := carries_of a (h _ (by decide))
  have absent : t.absent = s.absent := by
    funext f
    unfold State.absent State.relayLeaf State.usable
    rw [image, route_of image carries, curBank_of epoch bank0 bank1, carries]
  have present : t.present = s.present := by
    funext f
    rw [State.present, newest_of epoch bank0 bank1, absent, State.present]
  rw [State.isTimeRoot, State.timeRoot, present, tiers, image, State.isTimeRoot, State.timeRoot]

theorem knownTiers_of {s t : State} (image : t.image = s.image)
    (jobs : t.jobs.map (·.cur.plan.switches) = s.jobs.map (·.cur.plan.switches)) : t.knownTiers = s.knownTiers := by
  have pairs (l : List Job) : (l.map fun j => j.cur.plan.switches.map fun w => (w.flat, w.tier)) =
      (l.map (·.cur.plan.switches)).map fun ws => ws.map fun w => (w.flat, w.tier) := by
    rw [List.map_map]
    rfl
  rw [State.knownTiers, image, pairs, jobs, ← pairs, State.knownTiers]

/-- A coordinator that is idle and not the time root does nothing. -/
theorem coordGo_below {s : State} (root : s.isTimeRoot = false) (idle : s.epoch.coord = .idle) : s.coordGo = s := by
  have start : s.coordStart = s := by simp [State.coordStart, root]
  have prepared : s.coordPrepared = s := by simp [State.coordPrepared, idle]
  have drained : s.coordDrained = s := by simp [State.coordDrained, idle]
  unfold State.coordGo
  split
  · rfl
  · rw [start, prepared, drained, start, prepared]

/-! ## Jobs -/

theorem mapJob_parts (s : State) (id : BitVec 12) (g : Job → Job) : onlyParts [.jobs] s (s.mapJob id g) := fun p hp => by
  cases p
  case jobs => exact absurd (by decide) hp
  all_goals rfl

theorem job?_id {s : State} {id : BitVec 12} {j : Job} (h : s.job? id = some j) : j.id = id := by
  simpa using List.find?_some h

theorem job?_mapJob (s : State) (id : BitVec 12) (g : Job → Job) (keeps : ∀ j, (g j).id = j.id) :
    (s.mapJob id g).job? id = (s.job? id).map g := by
  have same (j : Job) : ((if j.id = id then g j else j).id == id) = (j.id == id) := by
    split
    · rw [keeps]
    · rfl
  rw [State.job?, State.mapJob, List.find?_map, State.job?]
  have test : ((fun j : Job => j.id == id) ∘ fun j => if j.id = id then g j else j) = fun j => j.id == id := funext same
  rw [test]
  cases found : s.jobs.find? fun j => j.id == id with
  | none => rfl
  | some j =>
    have here : j.id = id := by simpa using List.find?_some found
    simp [here]

theorem job?_of_jobs {s t : State} (h : t.jobs = s.jobs) (id : BitVec 12) : t.job? id = s.job? id := by
  rw [State.job?, h, State.job?]

/-! ## RESEND_TIMER_EXPIRY (R58, R360) -/

theorem exec_resendTimerExpiry (key : Nat) (s : State) : exec (.resendTimerExpiry key) s = execResendTimerExpiry key s := rfl

/-- The frames of a message's next attempt. -/
def OutMsg.nextFrames (o : OutMsg) : List Frame :=
  o.frames.map fun f => { f with h := { f.h with attempt := BitVec.ofNat 3 (o.attempt + 1) } }

/-- A message as its next attempt begins. -/
def State.attemptAgain (s : State) (key : Nat) (o : OutMsg) : State :=
  { s with outs := s.outs.map fun x =>
      if x.key = key then { x with attempt := o.attempt + 1, frames := o.nextFrames, unsent := o.nextFrames.length } else x }

section
variable {s : State} {o : OutMsg} {key : Nat} (found : s.outs.find? (fun x => x.key == key) = some o)
include found

theorem resend_held (held : s.ns < o.holdUntil) : exec (.resendTimerExpiry key) s = .next s := by
  simp [exec_resendTimerExpiry, execResendTimerExpiry, found, held]

theorem resend_fenced (left : o.unsent = 0) (goes : o.failed = false) (due : o.holdUntil ≤ s.ns) (j : BitVec 12) (r : Nat)
    (job : o.job = some j) (rank : o.rank = some r) (fenced : s.curBank.fenced j r = true) :
    exec (.resendTimerExpiry key) s = .next (s.dropOut key) := by
  simp [exec_resendTimerExpiry, execResendTimerExpiry, found, left, goes, Nat.not_lt.mpr due, job, rank, fenced]

theorem resend_again (left : o.unsent = 0) (goes : o.failed = false) (due : o.holdUntil ≤ s.ns)
    (alive : ∀ j r, o.job = some j → o.rank = some r → s.curBank.fenced j r = false) (more : o.attempt + 1 < 8) :
    exec (.resendTimerExpiry key) s =
      .next (o.nextFrames.foldl (fun s f => s.emit o.hop f (some key)) (s.attemptAgain key o)) := by
  have goesNow : ¬ (o.unsent != 0 || o.failed || decide (s.ns < o.holdUntil)) = true := by
    simp [left, goes, Nat.not_lt.mpr due]
  rw [exec_resendTimerExpiry, execResendTimerExpiry, found]
  dsimp only
  rw [if_neg goesNow, if_neg, if_neg (Nat.not_le.mpr more)]
  · rfl
  · intro fenced
    split at fenced
    · rename_i j r job rank
      rw [alive j r job rank] at fenced
      exact nomatch fenced
    · exact nomatch fenced

/-- Every other message is as it was, and the list has the same keys. -/
theorem resend_effect :
    let t := o.nextFrames.foldl (fun s f => s.emit o.hop f (some key)) (s.attemptAgain key o)
    (∃ x ∈ t.outs, x.key = key ∧ x.attempt = o.attempt + 1 ∧ x.purpose = o.purpose ∧ x.frames = o.nextFrames)
      ∧ t.outs.map (·.key) = s.outs.map (·.key) ∧ onlyParts coreParts s t := by
  have mem := List.mem_of_find?_eq_some found
  have address : o.key = key := by simpa using List.find?_some found
  have begun : onlyParts coreParts s (s.attemptAgain key o) := fun p hp => by
    cases p
    case outs => exact absurd (by decide) hp
    all_goals rfl
  have same := emits_sameOuts o.hop key o.nextFrames (s.attemptAgain key o)
  have parts := onlyParts_trans begun (emits_parts o.hop key o.nextFrames (s.attemptAgain key o))
  refine ⟨?_, ?_, parts⟩
  · obtain ⟨x, hx, still⟩ := outsAre.mem same (List.mem_map_of_mem mem)
    rw [if_pos address] at still
    obtain ⟨k, purpose, attempt, -, frames⟩ := fields_of_still still
    exact ⟨x, hx, k.trans address, attempt, purpose, frames⟩
  · rw [outsAre.keys same, State.attemptAgain, List.map_map]
    refine List.map_congr_left fun x _ => ?_
    rw [Function.comp_apply]
    split <;> rfl

end

/-! ## STRAGGLER_TIMER_EXPIRY and FENCE_TIMER_EXPIRY of a context (R268, R358, R359) -/

theorem exec_stragglerTimerExpiry (w : WaitObj) (s : State) :
    exec (.stragglerTimerExpiry w) s = execStragglerTimerExpiry w s := rfl

theorem exec_fenceTimerExpiry (w : WaitObj) (s : State) : exec (.fenceTimerExpiry w) s = execFenceTimerExpiry w s := rfl

theorem survivalEvents_not_event : ¬ eventAddr (regAddr .SURVIVAL_EVENTS 0) := by
  rw [eventAddr]
  decide

theorem survivalEvents_not_send : ¬ sendAddr (regAddr .SURVIVAL_EVENTS 0) := fun h =>
  absurd (sendAddr_mod h).1 (by decide)

/-- Counting once and then k times more. -/
theorem satAdd_one_satAdd (w a k : Nat) : satAdd w (satAdd w a 1) k = satAdd w a (k + 1) := by
  unfold satAdd
  omega

theorem satAdd_zero {w a : Nat} (h : a < 2 ^ w) : satAdd w a 0 = a := by
  unfold satAdd
  omega

/-- The STRAGGLER record of one member, counted. -/
def State.straggler (s : State) (j : Job) (x : Wait) (r : Nat) : State :=
  (s.bump F.SURVIVAL_EVENTS_STRAGGLER_REPORTS 0).event j 1 x.step x.object r 0 (s.waited x.since)

theorem straggler_parts (s : State) (j : Job) (x : Wait) (r : Nat) : onlyParts eventParts s (s.straggler j x r) :=
  onlyParts_trans (onlyParts_mono (bump_parts s _ _) (by decide)) (event_touches _ _ _ _ _ _ _ _).parts

theorem straggler_counts (s : State) (j : Job) (x : Wait) (r : Nat) :
    (s.straggler j x r).fld F.SURVIVAL_EVENTS_STRAGGLER_REPORTS 0 =
      satAdd F.SURVIVAL_EVENTS_STRAGGLER_REPORTS.width (s.fld F.SURVIVAL_EVENTS_STRAGGLER_REPORTS 0) 1 :=
  ((event_touches _ _ _ _ _ _ _ _).regs.fld _ _ survivalEvents_not_event).trans (fld_bump s _ 0 (by decide))

theorem stragglers_effect (j : Job) (x : Wait) : ∀ (rs : List Nat) (s : State),
    let t := rs.foldl (fun s r => s.straggler j x r) s
    onlyParts eventParts s t ∧ t.fld F.SURVIVAL_EVENTS_STRAGGLER_REPORTS 0 =
      satAdd F.SURVIVAL_EVENTS_STRAGGLER_REPORTS.width (s.fld F.SURVIVAL_EVENTS_STRAGGLER_REPORTS 0) rs.length
  | [], s => ⟨onlyParts_refl _ s, (satAdd_zero (fld_lt s F.SURVIVAL_EVENTS_STRAGGLER_REPORTS 0)).symm⟩
  | r :: rs, s => by
    obtain ⟨parts, count⟩ := stragglers_effect j x rs (s.straggler j x r)
    refine ⟨onlyParts_trans (straggler_parts s j x r) parts, ?_⟩
    rw [List.foldl_cons, count, straggler_counts, satAdd_one_satAdd, List.length_cons]

section
variable {s : State} {d : Nat} {w : Wait} {c : Ctx} {j : Job} (here : s.ctx? d = some c) (waits : s.ctxWait d = some w)
  (job : s.job? w.job = some j)
include waits job

theorem straggler_early (early : s.waitOver w j.cur.plan.policy.stragglerUs = false) :
    exec (.stragglerTimerExpiry (.context d)) s = .next s := by
  simp [exec_stragglerTimerExpiry, execStragglerTimerExpiry, State.waitOf, waits, job, early]

theorem fence_early (early : s.waitOver w j.cur.plan.policy.fenceUs = false) :
    exec (.fenceTimerExpiry (.context d)) s = .next s := by
  simp [exec_fenceTimerExpiry, execFenceTimerExpiry, State.waitOf, waits, State.fenceWait, job, early]

/-- Under FENCE_ACTION 1 no fence is requested. -/
theorem fence_wait (action : j.cur.plan.policy.wait = true) : exec (.fenceTimerExpiry (.context d)) s = .next s := by
  simp [exec_fenceTimerExpiry, execFenceTimerExpiry, State.waitOf, waits, State.fenceWait, job, action]

theorem fence_due (action : j.cur.plan.policy.wait = false) (due : s.waitOver w j.cur.plan.policy.fenceUs = true) (r : Nat)
    (one : w.ranks = [r]) : exec (.fenceTimerExpiry (.context d)) s =
      .next (s.requestFence w.job r w.step w.object (s.waited w.since)).coordGo := by
  simp [exec_fenceTimerExpiry, execFenceTimerExpiry, State.waitOf, waits, State.fenceWait, job, action, due, one]

include here in
theorem straggler_due (first : w.sent = false) (due : s.waitOver w j.cur.plan.policy.stragglerUs = true) :
    exec (.stragglerTimerExpiry (.context d)) s =
      .next (w.ranks.foldl (fun s r => s.straggler j w r) (s.setCtx d { c with stragglerSent := true })) := by
  simp [exec_stragglerTimerExpiry, execStragglerTimerExpiry, State.waitOf, waits, job, first, due, State.markStraggler, here]
  rfl

end

theorem stragglers_marked (s : State) (d : Nat) (c : Ctx) (j : Job) (w : Wait) :
    let t := w.ranks.foldl (fun s r => s.straggler j w r) (s.setCtx d { c with stragglerSent := true })
    (∃ c', t.ctx? d = some c' ∧ c'.stragglerSent = true ∧ c'.state = c.state ∧ c'.done = c.done)
      ∧ t.fld F.SURVIVAL_EVENTS_STRAGGLER_REPORTS 0
          = satAdd F.SURVIVAL_EVENTS_STRAGGLER_REPORTS.width (s.fld F.SURVIVAL_EVENTS_STRAGGLER_REPORTS 0) w.ranks.length
      ∧ (∀ e, e ≠ d → t.ctx? e = s.ctx? e) ∧ keepsParts controlParts s t := by
  have marked := setCtx_parts s d { c with stragglerSent := true }
  have self := setCtx_ctx?_self s d { c with stragglerSent := true }
  have others (e : Nat) (h : e ≠ d) := setCtx_ctx?_ne s { c with stragglerSent := true } h
  obtain ⟨parts, count⟩ := stragglers_effect j w w.ranks (s.setCtx d { c with stragglerSent := true })
  generalize s.setCtx d { c with stragglerSent := true } = u at *
  generalize w.ranks.foldl (fun s r => s.straggler j w r) u = t at *
  have regs : u.fld F.SURVIVAL_EVENTS_STRAGGLER_REPORTS 0 = s.fld F.SURVIVAL_EVENTS_STRAGGLER_REPORTS 0 :=
    fld_of_reg F.SURVIVAL_EVENTS_STRAGGLER_REPORTS (reg_of_regs (marked .regs (by decide)) _ _)
  have ctx (e : Nat) : t.ctx? e = u.ctx? e := ctx?_of_ctxs (parts .ctxs (by decide)) e
  refine ⟨⟨_, (ctx d).trans self, rfl, rfl, rfl⟩, by rw [count, regs], fun e h => (ctx e).trans (others e h), ?_⟩
  exact keepsParts_of_onlyParts (onlyParts_trans (onlyParts_mono (d := [.ctxs, .descCache, .mem, .memory, .host, .regs, .ringQueue])
    marked (by decide)) (onlyParts_mono parts (by decide))) (by decide)

/-! ### A fence request -/

/-- A fence is requested of a job. -/
def Job.askFence (r : Nat) (j : Job) : Job := { j with fenceReqs := j.fenceReqs ++ [r], fenceOwed := j.fenceOwed ++ [r] }

/-- The record and the count of a fence request. -/
def State.fenceAsked (s : State) (j : Job) (r : Nat) (step : BitVec 32) (object waited : Nat) : State :=
  ((s.mapJob j.id (Job.askFence r)).bump F.SURVIVAL_EVENTS_FENCE_REQUESTS 0).event j 2 step object r 0 waited

theorem requestFence_eq {s : State} {id : BitVec 12} {j : Job} (job : s.job? id = some j) (r : Nat) (step : BitVec 32)
    (object waited : Nat) (first : r ∉ j.fenceReqs) (alive : s.newest.1.fenced id r = false) :
    s.requestFence id r step object waited = (s.fenceAsked j r step object waited).ask [itemFence id r] := by
  have new : j.fenceReqs.contains r = false := by simpa using first
  rw [State.requestFence, job]
  dsimp only
  rw [new, alive, Bool.or_self, if_neg Bool.false_ne_true, ← job?_id job]
  rfl

/-- What the record and the count of a fence request touch. -/
theorem fenceAsked_effect {s : State} {id : BitVec 12} {j : Job} (job : s.job? id = some j) (r : Nat) (step : BitVec 32)
    (object waited : Nat) :
    let t := s.fenceAsked j r step object waited
    Touches (.jobs :: eventParts) offPorts s t ∧ t.job? id = some (j.askFence r) ∧ t.knownTiers = s.knownTiers
      ∧ t.fld F.SURVIVAL_EVENTS_FENCE_REQUESTS 0
          = satAdd F.SURVIVAL_EVENTS_FENCE_REQUESTS.width (s.fld F.SURVIVAL_EVENTS_FENCE_REQUESTS 0) 1 := by
  have mapped := mapJob_parts s j.id (Job.askFence r)
  have found := job?_mapJob s j.id (Job.askFence r) fun _ => rfl
  have count : (s.mapJob j.id (Job.askFence r)).fld F.SURVIVAL_EVENTS_FENCE_REQUESTS 0 =
      s.fld F.SURVIVAL_EVENTS_FENCE_REQUESTS 0 :=
    fld_of_reg F.SURVIVAL_EVENTS_FENCE_REQUESTS (reg_of_regs (mapped .regs (by decide)) _ _)
  have plans : (s.mapJob j.id (Job.askFence r)).jobs.map (·.cur.plan.switches) = s.jobs.map (·.cur.plan.switches) := by
    rw [State.mapJob, List.map_map]
    refine List.map_congr_left fun k _ => ?_
    rw [Function.comp_apply]
    split <;> rfl
  dsimp only
  unfold State.fenceAsked
  generalize s.mapJob j.id (Job.askFence r) = u at *
  have bumped : Touches [.regs] offPorts u (u.bump F.SURVIVAL_EVENTS_FENCE_REQUESTS 0) :=
    setFld_touches u F.SURVIVAL_EVENTS_FENCE_REQUESTS 0 _ (.inl (by decide))
  have once := fld_bump u F.SURVIVAL_EVENTS_FENCE_REQUESTS 0 (by decide)
  generalize u.bump F.SURVIVAL_EVENTS_FENCE_REQUESTS 0 = v at *
  have event := event_touches v j 2 step object r 0 waited
  generalize v.event j 2 step object r 0 waited = t at *
  have all : Touches (.jobs :: eventParts) offPorts s t :=
    (((Touches.of_parts mapped (by decide)).mono (by decide) fun _ h => h).trans (bumped.mono (by decide) fun _ h => h)).trans
      (event.mono (by decide) eventAddr_offPorts)
  have jobs : t.jobs = u.jobs := (event.parts .jobs (by decide)).trans (bumped.parts .jobs (by decide))
  refine ⟨all, ?_, knownTiers_of (all.parts .image (by decide)) (by rw [jobs, plans]), ?_⟩
  · rw [job?_of_jobs jobs, ← job?_id job, found, job?_id job, job]
    rfl
  · rw [event.regs.fld F.SURVIVAL_EVENTS_FENCE_REQUESTS 0 survivalEvents_not_event, once, count]

/-- A switch that is not the time root sends its items to it, and nothing else. -/
theorem ask_below {s : State} (root : s.isTimeRoot = false) (i : EpochItem) (is : List EpochItem) :
    Touches sendParts sendAddr s (s.ask (i :: is)) := by
  rw [State.ask, List.isEmpty_cons, if_neg Bool.false_ne_true, root, if_neg Bool.false_ne_true]
  exact send_touches s _ _ _ _ _

theorem requestFence_effect {s : State} {id : BitVec 12} {j : Job} (job : s.job? id = some j) (r : Nat) (step : BitVec 32)
    (object waited : Nat) (first : r ∉ j.fenceReqs) (alive : s.newest.1.fenced id r = false) (root : s.isTimeRoot = false)
    (idle : s.epoch.coord = .idle) :
    let t := (s.requestFence id r step object waited).coordGo
    (∃ j', t.job? id = some j' ∧ j'.fenceReqs = j.fenceReqs ++ [r])
      ∧ t.fld F.SURVIVAL_EVENTS_FENCE_REQUESTS 0
          = satAdd F.SURVIVAL_EVENTS_FENCE_REQUESTS.width (s.fld F.SURVIVAL_EVENTS_FENCE_REQUESTS 0) 1
      ∧ t.ctxs = s.ctxs := by
  obtain ⟨noted, found, tiers, count⟩ := fenceAsked_effect job r step object waited
  rw [requestFence_eq job r step object waited first alive]
  generalize s.fenceAsked j r step object waited = u at *
  have rootU : u.isTimeRoot = false := (isTimeRoot_of noted (by decide) tiers).trans root
  have asked := ask_below rootU (itemFence id r) []
  generalize u.ask [itemFence id r] = t at *
  have jobs : t.jobs = u.jobs := asked.parts .jobs (by decide)
  have rootT : t.isTimeRoot = false := (isTimeRoot_of (asked.mono (fun _ h => h) sendAddr_offPorts) (by decide)
    (knownTiers_of (asked.parts .image (by decide)) (by rw [jobs]))).trans rootU
  have epoch : t.epoch = s.epoch := (asked.parts .epoch (by decide)).trans (noted.parts .epoch (by decide))
  rw [coordGo_below rootT (by rw [epoch]; exact idle)]
  refine ⟨⟨_, (job?_of_jobs jobs id).trans found, rfl⟩, ?_, (asked.parts .ctxs (by decide)).trans (noted.parts .ctxs (by decide))⟩
  rw [asked.regs.fld F.SURVIVAL_EVENTS_FENCE_REQUESTS 0 survivalEvents_not_send, count]

/-! ## A check failure below (R126, R145) -/

theorem slotOn_of_image {s t : State} (h : t.image = s.image) (l : Layout) (p : Nat) (src : BitVec 24) :
    t.slotOn l p src = s.slotOn l p src := by
  have cable : t.cable = s.cable := funext fun p => by rw [State.cable, h, State.cable]
  rw [State.slotOn, State.childOn, cable, State.slotOn, State.childOn]

/-- A member is a slot of a group at this switch where it is a direct member, whatever the bank. -/
theorem slotsIn_member (s : State) (k : Bank) (l : Layout) (g : PlanGroup) (r : Nat) :
    (s.slotsIn k l g).contains (.member r) = (l.plan.direct g l.self).contains r := by
  rw [Bool.eq_iff_iff, List.contains_iff_mem, List.contains_iff_mem, State.slotsIn, List.mem_append]
  constructor
  · rintro (member | child)
    · obtain ⟨x, hx, e⟩ := List.mem_map.mp member
      rw [SlotId.member.injEq] at e
      exact e ▸ hx
    · obtain ⟨x, -, e⟩ := List.mem_map.mp child
      exact nomatch e
  · exact fun h => .inl (List.mem_map_of_mem h)

theorem layoutOf_eq {s : State} {c : Ctx} {j : Job} {l : Layout} (job : s.job? c.job = some j)
    (layout : j.layout c.layoutGen = some l) : s.layoutOf c = some (j, l) := by
  rw [State.layoutOf, job]
  exact congrArg (Option.map fun l => (j, l)) layout

theorem layoutOf_inv {s : State} {c : Ctx} {j : Job} {l : Layout} (h : s.layoutOf c = some (j, l)) :
    s.job? c.job = some j ∧ j.layout c.layoutGen = some l := by
  unfold State.layoutOf at h
  split at h
  · exact nomatch h
  · rename_i k job
    obtain ⟨q, layout, e⟩ := Option.map_eq_some_iff.mp h
    rw [Prod.mk.injEq] at e
    obtain ⟨rfl, rfl⟩ := e
    exact ⟨job, layout⟩

theorem writePart_parts (s : State) (part : Nat) (rs : List MemRegion) (off : Nat) (bs : List Byte) :
    onlyParts [.mem, .memory] s (s.writePart part rs off bs) := by
  refine onlyParts_foldl _ (fun s i => ?_) _ s
  split
  · exact writeMem_parts s _ _
  · exact onlyParts_refl _ s

theorem syncErrs_parts (s : State) (job : BitVec 12) (old : List ErrRegion) : onlyParts [.mem, .memory] s (s.syncErrs job old) := by
  unfold State.syncErrs
  split
  · exact onlyParts_refl _ s
  · exact onlyParts_foldl _ (fun s r => onlyParts_foldl _ (fun s x => writePart_parts s _ _ _ _) _ s) _ s

theorem mapErrs_parts (s : State) (job : BitVec 12) (g : Job → Job) : onlyParts [.jobs, .mem, .memory] s (s.mapErrs job g) := by
  unfold State.mapErrs
  split
  · exact onlyParts_refl _ s
  · exact onlyParts_trans (onlyParts_mono (mapJob_parts s job g) (by decide)) (onlyParts_mono (syncErrs_parts _ _ _) (by decide))

/-- What a SUPERSEDE touches besides its context. -/
abbrev supersedeParts : List Part := [.regs, .core, .outs, .ended, .freeCount, .jobs, .mem, .memory]

/-- Older messages of a chunk are forgotten, its staged residuals dropped, and those below are told. -/
theorem supersede_sends (s : State) (d : Nat) (job : BitVec 12) (g : Job → Job) (l : Layout) (xs : List SlotId)
    (mk : BitVec 24 → Frame) (why : SlotId → Purpose) :
    Touches supersedeParts sendAddr s ((((s.dropPartials d).dropRescales d).mapErrs job g).sendSlots l xs mk why) := by
  have quiet {c : List Part} {s t : State} (a : onlyParts c s t) (h : ∀ p ∈ c, p ∈ supersedeParts) (regs : Part.regs ∉ c) :
      Touches supersedeParts sendAddr s t := (Touches.of_parts a regs).mono h fun _ => id
  exact (((quiet (dropOuts_parts s _) (by decide) (by decide)).trans (quiet (dropOuts_parts _ _) (by decide) (by decide))).trans
    (quiet (mapErrs_parts _ job g) (by decide) (by decide))).trans ((sendMany_touches _ _ _).mono (by decide) fun _ => id)

/-- A superseded context: open, empty, at its new generation. -/
structure Ctx.Superseded (c : Ctx) (g : Nat) (c' : Ctx) : Prop where
  state : c'.state = .openS
  generation : c'.generation = g
  done : c'.done = 0
  checkFails : c'.checkFails = c.checkFails
  commitWait : c'.commitWait = false

theorem supersedeTo_effect {s : State} {d : Nat} {c : Ctx} {j : Job} {l : Layout} {b : PlanBucket} {grp : PlanGroup} (g : Nat)
    (here : s.ctx? d = some c) (layout : s.layoutOf c = some (j, l)) (bucket : l.bucketOf c = some (b, grp)) :
    ∃ c', c.Superseded g c' ∧ Touches supersedeParts sendAddr (s.setCtx d c') (s.supersedeTo d g none) := by
  rw [State.supersedeTo, here]
  dsimp only
  rw [layout]
  dsimp only
  rw [bucket]
  dsimp only
  refine ⟨_, ?_, supersede_sends _ _ _ _ _ _ _ _⟩
  exact ⟨rfl, rfl, rfl, rfl, rfl⟩

/-- The switch takes the report of a step back where it has reported. -/
def Job.unreport (step : BitVec 32) (self : Nat) (j : Job) : Job :=
  j.mapStep step fun x => { x with reported := false, reports := x.reports.filter fun r => r.releaser != self }

theorem supersedeOwn_eq {s : State} {d : Nat} {c : Ctx} {j : Job} {l : Layout} (here : s.ctx? d = some c)
    (layout : s.layoutOf c = some (j, l)) (ended : j.stepEnded c.step = false) (more : c.generation + 1 ≠ 256)
    (fresh : (j.step c.step).reported = false) : s.supersedeOwn d =
      ((s.mapJob c.job (Job.unreport c.step l.self)).supersedeTo d (c.generation + 1) none).bump
        F.SUPERSEDE_EVENTS_SUPERSESSIONS c.mill := by
  rw [State.supersedeOwn, here]
  dsimp only
  rw [layout]
  dsimp only
  rw [ended, if_neg Bool.false_ne_true, if_neg more, fresh, Bool.false_and, if_neg Bool.false_ne_true]
  rfl

theorem regAddr_supersedeEvents (m : Nat) :
    regAddr .SUPERSEDE_EVENTS m = 0x11000824 + m / 32 * 0x4000000 + m % 32 * 0x10000 := by
  simp [regAddr, regRow, row_SUPERSEDE_EVENTS]

theorem supersedeEvents_not_send (m : Nat) : ¬ sendAddr (regAddr .SUPERSEDE_EVENTS m) := fun h => by
  have address := sendAddr_mod h
  rw [regAddr_supersedeEvents] at address
  omega

theorem supersedeEvents_not_buffer (m : Nat) : ¬ bufferRegs (regAddr .SUPERSEDE_EVENTS m) := by
  rintro (⟨d, e⟩ | ⟨p, e⟩)
  · rw [regAddr_supersedeEvents, regAddr_refcountStatus] at e
    omega
  · rw [regAddr_supersedeEvents, regAddr_portBuffer] at e
    omega

/-- What the first check failure of a chunk touches. -/
abbrev failureParts : List Part := [.regs, .core, .outs, .ended, .freeCount, .jobs, .mem, .memory, .ctxs, .descCache, .wt]

/-- A chunk that goes to its next generation. -/
structure NextGeneration (d : Nat) (c : Ctx) (s t : State) : Prop where
  ctx : ∃ c', t.ctx? d = some c' ∧ c.Superseded (c.generation + 1) c'
  parts : onlyParts [.regs, .core, .outs, .ended, .freeCount, .jobs, .mem, .memory, .ctxs, .descCache] s t
  fails : t.fld F.SUPERSEDE_EVENTS_DOWNSTREAM_FAILS c.mill = s.fld F.SUPERSEDE_EVENTS_DOWNSTREAM_FAILS c.mill
  noneWait : s.noneWait → t.noneWait

theorem supersedeOwn_effect {s : State} {d : Nat} {c : Ctx} {j : Job} {l : Layout} {b : PlanBucket} {g : PlanGroup}
    (here : s.ctx? d = some c) (layout : s.layoutOf c = some (j, l)) (bucket : l.bucketOf c = some (b, g))
    (ended : j.stepEnded c.step = false) (more : c.generation + 1 ≠ 256) (fresh : (j.step c.step).reported = false) :
    NextGeneration d c s (s.supersedeOwn d) := by
  obtain ⟨job, lay⟩ := layoutOf_inv layout
  have mapped := mapJob_parts s c.job (Job.unreport c.step l.self)
  have found : (s.mapJob c.job (Job.unreport c.step l.self)).job? c.job = some (j.unreport c.step l.self) := by
    rw [job?_mapJob s c.job (Job.unreport c.step l.self) fun _ => rfl, job]
    rfl
  rw [supersedeOwn_eq here layout ended more fresh]
  generalize s.mapJob c.job (Job.unreport c.step l.self) = u at *
  obtain ⟨c', next, told⟩ := supersedeTo_effect (c.generation + 1) ((ctx?_of_ctxs (mapped .ctxs (by decide)) d).trans here)
    (layoutOf_eq found lay) bucket
  have written := setCtx_parts u d c'
  have self := setCtx_ctx?_self u d c'
  have waits (h : u.noneWait) : (u.setCtx d c').noneWait := h.setCtx d next.commitWait
  have regs : (u.setCtx d c').reg .SUPERSEDE_EVENTS c.mill = s.reg .SUPERSEDE_EVENTS c.mill :=
    reg_of_regs ((written .regs (by decide)).trans (mapped .regs (by decide))) _ _
  generalize u.setCtx d c' = v at *
  generalize u.supersedeTo d (c.generation + 1) none = w at *
  have counted := bump_parts w F.SUPERSEDE_EVENTS_SUPERSESSIONS c.mill
  have other : (w.bump F.SUPERSEDE_EVENTS_SUPERSESSIONS c.mill).fld F.SUPERSEDE_EVENTS_DOWNSTREAM_FAILS c.mill =
      w.fld F.SUPERSEDE_EVENTS_DOWNSTREAM_FAILS c.mill := fld_setFld_apart w _ _ _ _ (by decide)
  generalize w.bump F.SUPERSEDE_EVENTS_SUPERSESSIONS c.mill = t at *
  have ctxs : t.ctxs = v.ctxs := (counted .ctxs (by decide)).trans (told.parts .ctxs (by decide))
  refine ⟨⟨c', (ctx?_of_ctxs ctxs d).trans self, next⟩, ?_, ?_, fun h => ?_⟩
  · exact onlyParts_trans (onlyParts_trans (onlyParts_mono mapped (by decide)) (onlyParts_mono written (by decide)))
      (onlyParts_trans (onlyParts_mono told.parts (by decide)) (onlyParts_mono counted (by decide)))
  · rw [other, told.regs.fld F.SUPERSEDE_EVENTS_DOWNSTREAM_FAILS c.mill (supersedeEvents_not_send _),
      fld_of_reg F.SUPERSEDE_EVENTS_DOWNSTREAM_FAILS regs]
  · exact (waits (h.of_ctxs (mapped .ctxs (by decide)))).of_ctxs ctxs

theorem millFault_reports (s : State) (mill kind : Nat) (job : BitVec 12) (step : BitVec 32) (obj extra : Nat)
    (low : mill < 128) (k : kind < 256) : (s.millFault mill kind job step obj extra).reports (mill / 32) blkMill kind := by
  have raised := (raiseMsg_raised s (faultMsg (mill / 32) blkMill mill kind (addrJ job step) (detailJ obj extra))).reports
  have die : (BitVec.ofNat 3 (mill / 32)).toNat = mill / 32 := Nat.mod_eq_of_lt (by omega)
  have code : (BitVec.ofNat 8 kind).toNat = kind := Nat.mod_eq_of_lt k
  rw [show (faultMsg (mill / 32) blkMill mill kind (addrJ job step) (detailJ obj extra)).die.toNat = mill / 32 from die,
    show (faultMsg (mill / 32) blkMill mill kind (addrJ job step) (detailJ obj extra)).kind.toNat = kind from code] at raised
  exact raised

theorem millFault_touches (s : State) (mill kind : Nat) (job : BitVec 12) (step : BitVec 32) (obj extra : Nat) :
    Touches [.regs, .wt] (fun k => ∃ i < 8, k = regAddr .KIND_PENDING i) s (s.millFault mill kind job step obj extra) :=
  (raiseMsg_touches s _).mono (fun _ h => h) fun _ e => ⟨_, Nat.div_lt_of_lt_mul (BitVec.isLt _), e⟩

theorem reports_of_wt {s t : State} (h : t.wt = s.wt) {die block kind : Nat} (a : s.reports die block kind) :
    t.reports die block kind := by
  rwa [State.reports, h]

theorem checkFailure_first {s : State} {d : Nat} {c : Ctx} (here : s.ctx? d = some c) (first : c.checkFails = 0) :
    s.checkFailure d = ((s.setCtx d { c with checkFails := 1 }).millFault c.mill 0x21 c.job c.step c.chunk.toNat
      c.generation).supersedeOwn d := by
  rw [State.checkFailure, here]
  dsimp only
  rw [first, if_neg (by decide)]

/-- The first check failure of a chunk is reported and supersedes it. -/
theorem checkFailure_effect {s : State} {d : Nat} {c : Ctx} {j : Job} {l : Layout} {b : PlanBucket} {g : PlanGroup}
    (here : s.ctx? d = some c) (layout : s.layoutOf c = some (j, l)) (bucket : l.bucketOf c = some (b, g))
    (ended : j.stepEnded c.step = false) (more : c.generation + 1 ≠ 256) (fresh : (j.step c.step).reported = false)
    (first : c.checkFails = 0) (low : c.mill < 128) (noneWaits : s.noneWait) :
    let t := s.checkFailure d
    (∃ c', t.ctx? d = some c' ∧ c'.generation = c.generation + 1 ∧ c'.state = .openS ∧ c'.checkFails = 1 ∧ c'.done = 0)
      ∧ t.fld F.SUPERSEDE_EVENTS_DOWNSTREAM_FAILS c.mill = s.fld F.SUPERSEDE_EVENTS_DOWNSTREAM_FAILS c.mill
      ∧ t.reports (c.mill / 32) 0x11 0x21 ∧ onlyParts failureParts s t ∧ t.noneWait := by
  have still : c.commitWait = false := noneWaits.ctx here
  have written := setCtx_parts s d { c with checkFails := 1 }
  have self := setCtx_ctx?_self s d { c with checkFails := 1 }
  have waits := noneWaits.setCtx (c := { c with checkFails := 1 }) d still
  rw [checkFailure_first here first]
  generalize s.setCtx d { c with checkFails := 1 } = u at *
  have raised := millFault_touches u c.mill 0x21 c.job c.step c.chunk.toNat c.generation
  have reports := millFault_reports u c.mill 0x21 c.job c.step c.chunk.toNat c.generation low (by decide)
  generalize u.millFault c.mill 0x21 c.job c.step c.chunk.toNat c.generation = v at *
  have ctxs : v.ctxs = u.ctxs := raised.parts .ctxs (by decide)
  have jobs : v.jobs = s.jobs := (raised.parts .jobs (by decide)).trans (written .jobs (by decide))
  obtain ⟨job, lay⟩ := layoutOf_inv layout
  have next := supersedeOwn_effect ((ctx?_of_ctxs ctxs d).trans self)
    (layoutOf_eq (c := { c with checkFails := 1 }) ((job?_of_jobs jobs _).trans job) lay) bucket ended more fresh
  generalize v.supersedeOwn d = t at *
  obtain ⟨⟨c', now, superseded⟩, parts, fails, keeps⟩ := next
  have regs : v.fld F.SUPERSEDE_EVENTS_DOWNSTREAM_FAILS c.mill = s.fld F.SUPERSEDE_EVENTS_DOWNSTREAM_FAILS c.mill := by
    rw [raised.regs.fld F.SUPERSEDE_EVENTS_DOWNSTREAM_FAILS c.mill]
    · exact fld_of_reg F.SUPERSEDE_EVENTS_DOWNSTREAM_FAILS (reg_of_regs (written .regs (by decide)) _ _)
    · rintro ⟨i, hi, e⟩
      rw [regAddr_kindPending, show F.SUPERSEDE_EVENTS_DOWNSTREAM_FAILS.reg = .SUPERSEDE_EVENTS from rfl,
        regAddr_supersedeEvents] at e
      omega
  refine ⟨⟨c', now, superseded.generation, superseded.state, superseded.checkFails, superseded.done⟩, fails.trans regs,
    reports_of_wt (parts .wt (by decide)) reports, ?_, keeps (waits.of_ctxs ctxs)⟩
  exact onlyParts_trans (onlyParts_mono written (by decide))
    (onlyParts_trans (onlyParts_mono raised.parts (by decide)) (onlyParts_mono parts (by decide)))

/-! ### CHECK_FAIL_NACK from a member -/

theorem exec_checkFailNack (p : Nat) (f : Frame) (s : State) : exec (.checkFailNack p f) s = execCheckFailNack p f s := rfl

theorem checkFailNack_taken (s : State) (p : Nat) (f : Frame) (free : s.queuedBehind .firmware p f = false)
    (good : tailGood f = true) (nack : f.h.ftype = 5#4) (code : (nackOf f).code = nackCheckFail) :
    exec (.checkFailNack p f) s = .next (((s.takeFrom .firmware p f).checkFailIn p f).settleFree) := by
  simp [exec_checkFailNack, execCheckFailNack, free, good, nack, code]

/-- Is a CHECK_FAIL about a chunk that goes on at its generation? -/
def Ctx.faces (c : Ctx) (job : BitVec 12) (x : NackExt) : Prop :=
  c.job = job ∧ c.step = x.step ∧ c.chunk = x.chunkId ∧ c.generation = x.generation.toNat ∧ c.state ≠ .aborted

/-- A member's CHECK_FAIL that is owed is counted, and is a check failure at the releasing tier. -/
theorem checkFailIn_member {u : State} {p r : Nat} {f : Frame} {j : Job} {l : Layout} {b : PlanBucket} {g : PlanGroup} {c : Ctx}
    {o : OutMsg} (job : u.job? f.h.jobId = some j) (layout : j.layout f.h.layoutGen = some l)
    (here : u.ctx? (l.desc (nackOf f).step (nackOf f).chunkId.toNat) = some c) (faces : c.faces f.h.jobId (nackOf f))
    (ended : j.stepEnded c.step = false) (slot : u.slotOn l p f.h.src = some (.member r)) (found : u.outFor p f.h = some o)
    (below : o.checkedBelow = true) (bucket : l.bucketOf c = some (b, g))
    (inside : (u.slotsIn u.curBank l g).contains (.member r) = true) (releases : l.releases g = true) :
    u.checkFailIn p f = (u.bump F.SUPERSEDE_EVENTS_DOWNSTREAM_FAILS c.mill).checkFailure
      (l.desc (nackOf f).step (nackOf f).chunkId.toNat) := by
  obtain ⟨ofJob, step, chunk, generation, lives⟩ := faces
  have both : ((u.job? f.h.jobId).bind fun j => (j.layout f.h.layoutGen).map fun l => (j, l)) = some (j, l) := by
    rw [job, Option.bind_some, layout, Option.map_some]
  have takes : ¬ (c.job != f.h.jobId || c.step != (nackOf f).step || c.chunk != (nackOf f).chunkId
      || c.generation != (nackOf f).generation.toNat || c.state == .aborted || j.stepEnded c.step
      || !o.checkedBelow) = true := by
    simp [ofJob, ← step, chunk, generation, lives, ended, below]
  have counted : (u.bump F.SUPERSEDE_EVENTS_DOWNSTREAM_FAILS c.mill).ctx? (l.desc (nackOf f).step (nackOf f).chunkId.toNat) =
      some c := (ctx?_of_ctxs (bump_parts u _ _ .ctxs (by decide)) _).trans here
  rw [State.checkFailIn]
  dsimp only
  rw [both]
  dsimp only
  rw [here, slot]
  dsimp only
  rw [found]
  dsimp only
  rw [if_neg takes, bucket]
  dsimp only
  rw [inside, Bool.not_true, if_neg Bool.false_ne_true, releases, if_pos rfl, State.downFailure, counted]
  rfl

/-- The answer is taken off the input, counted, and supersedes its chunk. -/
theorem memberFailure_effect {s u : State} {p r d : Nat} {f : Frame} {j : Job} {l : Layout} {b : PlanBucket} {g : PlanGroup}
    {c : Ctx} {o : OutMsg} (taken : Moves bufferRegs s u) (job : s.job? f.h.jobId = some j)
    (layout : j.layout f.h.layoutGen = some l) (desc : d = l.desc (nackOf f).step (nackOf f).chunkId.toNat)
    (here : s.ctx? d = some c) (faces : c.faces f.h.jobId (nackOf f)) (ended : j.stepEnded c.step = false)
    (slot : s.slotOn l p f.h.src = some (.member r)) (found : u.outFor p f.h = some o) (below : o.checkedBelow = true)
    (bucket : l.bucketOf c = some (b, g)) (inside : (s.slotsIn s.curBank l g).contains (.member r) = true)
    (releases : l.releases g = true) (lay : s.layoutOf c = some (j, l)) (first : c.checkFails = 0)
    (more : c.generation + 1 < 256) (fresh : (j.step c.step).reported = false) (low : c.mill < 128) (noneWaits : s.noneWait) :
    let t := (u.checkFailIn p f).settleFree
    (∃ c', t.ctx? d = some c' ∧ c'.generation = c.generation + 1 ∧ c'.state = .openS ∧ c'.checkFails = 1 ∧ c'.done = 0)
      ∧ t.fld F.SUPERSEDE_EVENTS_DOWNSTREAM_FAILS c.mill = satAdd 16 (s.fld F.SUPERSEDE_EVENTS_DOWNSTREAM_FAILS c.mill) 1
      ∧ t.reports (c.mill / 32) 0x11 0x21 ∧ keepsParts controlParts s t := by
  have parts := taken.parts
  have jobs : u.jobs = s.jobs := parts .jobs (by decide)
  have ctxs : u.ctxs = s.ctxs := parts .ctxs (by decide)
  have insideU : (u.slotsIn u.curBank l g).contains (.member r) = true := by
    rwa [slotsIn_member, ← slotsIn_member s s.curBank]
  have failed := checkFailIn_member ((job?_of_jobs jobs _).trans job) layout (desc ▸ (ctx?_of_ctxs ctxs d).trans here) faces
    ended ((slotOn_of_image (parts .image (by decide)) l p _).trans slot) found below bucket insideU releases
  have counted := bump_parts u F.SUPERSEDE_EVENTS_DOWNSTREAM_FAILS c.mill
  have count := fld_bump u F.SUPERSEDE_EVENTS_DOWNSTREAM_FAILS c.mill (by decide)
  rw [taken.regs.fld F.SUPERSEDE_EVENTS_DOWNSTREAM_FAILS c.mill (supersedeEvents_not_buffer _)] at count
  rw [failed, ← desc]
  generalize u.bump F.SUPERSEDE_EVENTS_DOWNSTREAM_FAILS c.mill = v at *
  have ctxsV : v.ctxs = s.ctxs := (counted .ctxs (by decide)).trans ctxs
  obtain ⟨jobOf, layoutJ⟩ := layoutOf_inv lay
  have jobV := (job?_of_jobs ((counted .jobs (by decide)).trans jobs) c.job).trans jobOf
  obtain ⟨ctx, fails, reports, touched, waits⟩ := checkFailure_effect ((ctx?_of_ctxs ctxsV d).trans here)
    (layoutOf_eq jobV layoutJ) bucket ended (Nat.ne_of_lt more) fresh first low (noneWaits.of_ctxs ctxsV)
  rw [settleFree_none waits]
  refine ⟨ctx, fails.trans count, reports, keepsParts_of_onlyParts (c := failureParts) ?_ (by decide)⟩
  exact onlyParts_trans (onlyParts_mono parts (by decide)) (onlyParts_trans (onlyParts_mono counted (by decide)) touched)

/-! ## O17 -/

/-- Settles O17: a member's check failure counts, is reported and supersedes its chunk; a resend only sends frames; a straggler's
records change no context but the one marked; a fence request is recorded, and its item goes to the time root. -/
theorem checksResendsWaits : Obligations.ChecksResendsWaits := by
  unfold Obligations.ChecksResendsWaits
  refine ⟨?_, fun s o key found left goes => ⟨fun held => ⟨s, resend_held found held, rfl⟩, fun due => ⟨fun alive more => ?_,
    fun j r job rank fenced => ⟨_, resend_fenced found left goes due j r job rank fenced, rfl, dropOut_parts s key⟩⟩⟩,
    fun s d w c j here waits job => ⟨fun early => ⟨s, straggler_early waits job early, rfl⟩,
      fun early => ⟨s, fence_early waits job early, rfl⟩,
      fun first due => ⟨_, straggler_due here waits job first due, stragglers_marked s d c j w⟩,
      fun r action due one first alive root idle => ⟨_, fence_due waits job action due r one,
        requestFence_effect job r w.step w.object _ first alive root idle⟩,
      fun action => ⟨s, fence_wait waits job action, rfl⟩⟩⟩
  · rintro s u p d r f j l b g c free eq good nack code ⟨o, found, below⟩ job layout desc here ofJob step chunk generation lives
      ended slot bucket inside releases lay first more fresh low noneWaits
    have run := checkFailNack_taken s p f free good nack code
    rw [← eq] at run
    exact ⟨_, run, memberFailure_effect (eq ▸ takeFrom_moves s .firmware p f) job layout desc here
      ⟨ofJob, step, chunk, generation, lives⟩ ended slot found below bucket inside releases lay first more fresh low noneWaits⟩
  · obtain ⟨again, keys, parts⟩ := resend_effect found
    exact ⟨_, resend_again found left goes due alive more, again, keys, keepsParts_of_onlyParts parts (by decide),
      keepsParts_of_onlyParts parts (by decide)⟩

end Sys2Proof.Machine

/-! PROOFS. Where held runs lie in a mill's store, and what a compaction makes of them (spec/11_switch_core.md R309, R311). -/
namespace Sys2Proof.Machine

open Sys2Proof

/-! ## The length of runs -/

theorem runTotal_eq_sum (rs : List (Nat × Nat)) : runTotal rs = (rs.map (·.2)).sum := List.sum_eq_foldl.symm

theorem runTotal_cons (r : Nat × Nat) (rs : List (Nat × Nat)) : runTotal (r :: rs) = r.2 + runTotal rs := by
  rw [runTotal_eq_sum, runTotal_eq_sum, List.map_cons, List.sum_cons]

theorem runTotal_perm {rs rs' : List (Nat × Nat)} (h : rs.Perm rs') : runTotal rs = runTotal rs' := by
  rw [runTotal_eq_sum, runTotal_eq_sum, (h.map _).sum_eq]

/-- The runs, each where its start has moved. -/
def moveRuns (moves rs : List (Nat × Nat)) : List (Nat × Nat) := rs.map fun r => (movedTo moves r.1, r.2)

theorem runTotal_moveRuns (moves rs : List (Nat × Nat)) : runTotal (moveRuns moves rs) = runTotal rs := by
  rw [runTotal, moveRuns, List.map_map, runTotal]
  rfl

theorem mem_moveRuns {moves rs rs' : List (Nat × Nat)} (h : ∀ r, r ∈ rs ↔ r ∈ rs') (r : Nat × Nat) :
    r ∈ moveRuns moves rs ↔ r ∈ moveRuns moves rs' := by
  simp [moveRuns, h]

/-! ## The lowest free run (R310) -/

/-- A run of n that begins at 0 or behind a held run, inside the store and clear of every held run. -/
def FreeAt (rs : List (Nat × Nat)) (size n a : Nat) : Prop :=
  (a = 0 ∨ ∃ r ∈ rs, r.1 + r.2 = a) ∧ a + n ≤ size ∧ ∀ r ∈ rs, a + n ≤ r.1 ∨ r.1 + r.2 ≤ a

theorem freeAt_congr {rs rs' : List (Nat × Nat)} (h : ∀ r, r ∈ rs ↔ r ∈ rs') (size n a : Nat) :
    FreeAt rs size n a ↔ FreeAt rs' size n a := by
  simp only [FreeAt, h]

theorem firstFit_eq_min? (rs : List (Nat × Nat)) (size n : Nat) :
    firstFit rs size n = ((0 :: rs.map fun r => r.1 + r.2).filter fun a => runFits rs size a n).min? := by
  unfold firstFit
  dsimp only
  cases (0 :: rs.map fun r => r.1 + r.2).filter fun a => runFits rs size a n with
  | nil => rfl
  | cons a l =>
    show _ = some (l.foldl min a)
    rw [List.foldl_cons]
    dsimp only
    induction l generalizing a with
    | nil => rfl
    | cons x l ih => exact ih (min a x)

theorem mem_starts_iff (rs : List (Nat × Nat)) (size n a : Nat) :
    (a ∈ (0 :: rs.map fun r => r.1 + r.2).filter fun a => runFits rs size a n) ↔ FreeAt rs size n a := by
  simp [FreeAt, runFits, List.mem_filter]

theorem firstFit_eq_some_iff (rs : List (Nat × Nat)) (size n a : Nat) :
    firstFit rs size n = some a ↔ FreeAt rs size n a ∧ ∀ b, FreeAt rs size n b → a ≤ b := by
  rw [firstFit_eq_min?, List.min?_eq_some_iff]
  simp only [mem_starts_iff]

theorem firstFit_isSome {rs : List (Nat × Nat)} {size n a : Nat} (h : FreeAt rs size n a) :
    (firstFit rs size n).isSome = true := by
  rw [firstFit_eq_min?]
  exact List.isSome_min?_of_mem ((mem_starts_iff rs size n a).mpr h)

/-- Only which runs are held matters, not how they are listed. -/
theorem firstFit_congr {rs rs' : List (Nat × Nat)} (h : ∀ r, r ∈ rs ↔ r ∈ rs') (size n : Nat) :
    firstFit rs size n = firstFit rs' size n := by
  refine Option.ext fun a => ?_
  rw [firstFit_eq_some_iff, firstFit_eq_some_iff]
  simp only [freeAt_congr h]

theorem freeAt_zero (rs : List (Nat × Nat)) (size : Nat) : FreeAt rs size 0 0 :=
  ⟨.inl rfl, Nat.zero_le _, fun _ _ => .inl (Nat.zero_le _)⟩

/-! ## Granules placed one after another (R111, R311) -/

theorem placeRuns_succ_isSome {rs : List (Nat × Nat)} {size u a : Nat} (h : firstFit rs size u = some a) (k : Nat) :
    (placeRuns size u (k + 1) rs).isSome = (placeRuns size u k ((a, u) :: rs)).isSome := by
  rw [placeRuns, h, Option.isSome_map]

theorem placeRuns_congr (size u : Nat) : ∀ (k : Nat) {rs rs' : List (Nat × Nat)}, (∀ r, r ∈ rs ↔ r ∈ rs') →
    placeRuns size u k rs = placeRuns size u k rs'
  | 0, _, _, _ => rfl
  | k + 1, rs, rs', h => by
    rw [placeRuns, placeRuns, firstFit_congr h]
    cases firstFit rs' size u with
    | none => rfl
    | some a =>
      dsimp only
      rw [placeRuns_congr size u k (rs := (a, u) :: rs) (rs' := (a, u) :: rs') fun r => by simp only [List.mem_cons, h]]

/-- Granules of no units fit everywhere. -/
theorem placeRuns_noUnits (size : Nat) : ∀ (k : Nat) (rs : List (Nat × Nat)), (placeRuns size 0 k rs).isSome = true
  | 0, _ => rfl
  | k + 1, rs => by
    obtain ⟨a, found⟩ := Option.isSome_iff_exists.mp (firstFit_isSome (freeAt_zero rs size))
    rw [placeRuns_succ_isSome found]
    exact placeRuns_noUnits size k _

/-- The runs fill the store from 0 up to e, and lie nowhere above. -/
structure Fills (rs : List (Nat × Nat)) (e : Nat) : Prop where
  below : ∀ r ∈ rs, r.1 + r.2 ≤ e
  full : ∀ a < e, ∃ r ∈ rs, r.1 ≤ a ∧ a < r.1 + r.2
  last : e = 0 ∨ ∃ r ∈ rs, r.1 + r.2 = e

theorem fills_nil : Fills [] 0 where
  below := fun _ h => absurd h List.not_mem_nil
  full := fun _ h => absurd h (Nat.not_lt_zero _)
  last := .inl rfl

/-- One more run right behind the others. -/
theorem Fills.add {rs rs' : List (Nat × Nat)} {e : Nat} (h : Fills rs e) (n : Nat) (more : ∀ r, r ∈ rs' ↔ r = (e, n) ∨ r ∈ rs) :
    Fills rs' (e + n) where
  below := fun r hr => by
    rcases (more r).mp hr with rfl | old
    · exact Nat.le_refl _
    · exact Nat.le_add_right_of_le (h.below r old)
  full := fun a ha => by
    by_cases low : a < e
    · obtain ⟨r, hr, covers⟩ := h.full a low
      exact ⟨r, (more r).mpr (.inr hr), covers⟩
    · exact ⟨(e, n), (more _).mpr (.inl rfl), Nat.le_of_not_lt low, ha⟩
  last := .inr ⟨(e, n), (more _).mpr (.inl rfl), rfl⟩

theorem Fills.freeAt {rs : List (Nat × Nat)} {e size n : Nat} (h : Fills rs e) (room : e + n ≤ size) : FreeAt rs size n e :=
  ⟨h.last, room, fun r hr => .inr (h.below r hr)⟩

/-- The only free run of a filled store begins where the held ones end. -/
theorem Fills.firstFit {rs : List (Nat × Nat)} {e size n : Nat} (h : Fills rs e) (pos : 0 < n) (room : e + n ≤ size) :
    firstFit rs size n = some e := by
  refine (firstFit_eq_some_iff rs size n e).mpr ⟨h.freeAt room, fun b hb => ?_⟩
  obtain ⟨-, -, clear⟩ := hb
  by_contra low
  obtain ⟨r, hr, starts, ends⟩ := h.full b (Nat.lt_of_not_le low)
  rcases clear r hr with before | behind <;> omega

theorem Fills.placeRuns {size u : Nat} : ∀ (k : Nat) {rs : List (Nat × Nat)} {e : Nat}, Fills rs e → e + k * u ≤ size →
    (placeRuns size u k rs).isSome = true
  | 0, _, _, _, _ => rfl
  | k + 1, rs, e, h, room => by
    rcases Nat.eq_zero_or_pos u with rfl | pos
    · exact placeRuns_noUnits size _ rs
    · rw [Nat.add_mul, Nat.one_mul] at room
      rw [placeRuns_succ_isSome (h.firstFit pos (by omega))]
      exact Fills.placeRuns k (h.add u fun r => List.mem_cons) (by omega)

/-! ## Packing (R311) -/

theorem insertBy_perm {α : Type} (key : α → Nat) (x : α) : ∀ l : List α, (insertBy key x l).Perm (x :: l)
  | [] => .refl _
  | y :: l => by
    rw [insertBy]
    split
    · exact .refl _
    · exact ((insertBy_perm key x l).cons y).trans (.swap x y l)

theorem sortBy_perm {α : Type} (key : α → Nat) (xs : List α) : (sortBy key xs).Perm xs := by
  have grows (l : List α) : ∀ acc : List α, (l.foldl (fun a x => insertBy key x a) acc).Perm (l ++ acc) := by
    induction l with
    | nil => exact fun acc => .refl acc
    | cons x l ih => exact fun acc => ((ih _).trans ((insertBy_perm key x acc).append_left l)).trans List.perm_middle
  have sorted := grows xs []
  rwa [List.append_nil] at sorted

theorem movedTo_cons_self (old new : Nat) (moves : List (Nat × Nat)) : movedTo ((old, new) :: moves) old = new := by
  simp [movedTo]

theorem movedTo_cons_ne {old a : Nat} (h : old ≠ a) (new : Nat) (moves : List (Nat × Nat)) :
    movedTo ((old, new) :: moves) a = movedTo moves a := by
  simp [movedTo, h]

theorem moveRuns_nil (rs : List (Nat × Nat)) : moveRuns [] rs = rs := List.map_id rs

theorem moveRuns_cons {old : Nat} {t : List (Nat × Nat)} (h : old ∉ t.map (·.1)) (new n : Nat) (moves : List (Nat × Nat)) :
    moveRuns ((old, new) :: moves) ((old, n) :: t) = (new, n) :: moveRuns moves t := by
  have rest (r : Nat × Nat) (hr : r ∈ t) : (movedTo ((old, new) :: moves) r.1, r.2) = (movedTo moves r.1, r.2) := by
    rw [movedTo_cons_ne fun e => h (List.mem_map.mpr ⟨r, hr, e.symm⟩)]
  rw [moveRuns, List.map_cons, movedTo_cons_self, List.map_congr_left rest, moveRuns]

/-- Packing ends where the test holds of the runs as they then lie, or with every run moved down against the one before it. -/
theorem packUntil_ends (ok : List (Nat × Nat) → Bool) : ∀ (t : List (Nat × Nat)) (a : Nat) (done : List (Nat × Nat)),
    (t.map (·.1)).Nodup → Fills done a → ok (done ++ moveRuns (packUntil ok a done t) t) = true
      ∨ Fills (done ++ moveRuns (packUntil ok a done t) t) (a + runTotal t)
  | [], a, done, _, filled => .inr (by rwa [moveRuns, List.map_nil, List.append_nil])
  | (old, n) :: t, a, done, distinct, filled => by
    obtain ⟨apart, distinct⟩ := List.nodup_cons.mp distinct
    rw [packUntil]
    split
    · rename_i fits
      exact .inl (by rwa [moveRuns_nil])
    · have packed := packUntil_ends ok t (a + n) (done ++ [(a, n)]) distinct
        (filled.add n fun r => by rw [List.mem_append, List.mem_singleton, or_comm])
      rwa [List.append_assoc, List.singleton_append, Nat.add_assoc, ← runTotal_cons (old, n),
        ← moveRuns_cons apart a n] at packed

/-- The runs of a store after it has been packed for a request: the request fits, or they fill the store from 0 up. -/
theorem packed_runs (ok : List (Nat × Nat) → Bool) (sameRuns : ∀ {xs ys}, (∀ r, r ∈ xs ↔ r ∈ ys) → ok xs = ok ys)
    (rs : List (Nat × Nat)) (distinct : (rs.map (·.1)).Nodup) :
    let moved := moveRuns (packUntil ok 0 [] (sortBy (·.1) rs)) rs
    ok moved = true ∨ ∃ xs, (∀ r, r ∈ moved ↔ r ∈ xs) ∧ Fills xs (runTotal rs) := by
  have sorted := sortBy_perm (·.1) rs
  have listed := mem_moveRuns (moves := packUntil ok 0 [] (sortBy (·.1) rs)) fun r => (sorted.mem_iff (a := r)).symm
  rcases packUntil_ends ok (sortBy (·.1) rs) 0 [] ((sorted.map (·.1)).nodup_iff.mpr distinct) fills_nil with fits | filled
  · exact .inl ((sameRuns listed).trans fits)
  · rw [List.nil_append, Nat.zero_add, runTotal_perm sorted] at filled
    exact .inr ⟨_, listed, filled⟩

/-- Granules for which the store has room can be placed once it has been packed for them. -/
theorem packed_granules {rs : List (Nat × Nat)} (distinct : (rs.map (·.1)).Nodup) {size k u : Nat}
    (room : runTotal rs + k * u ≤ size) :
    (placeRuns size u k (moveRuns (packUntil (fun rs => (placeRuns size u k rs).isSome) 0 [] (sortBy (·.1) rs)) rs)).isSome
      = true := by
  rcases packed_runs (fun rs => (placeRuns size u k rs).isSome) (fun h => congrArg _ (placeRuns_congr size u k h)) rs distinct
    with fits | ⟨xs, listed, filled⟩
  · exact fits
  · rw [placeRuns_congr size u k listed]
    exact filled.placeRuns k room

/-- Lines for which the store has room can be found once it has been packed for them. -/
theorem packed_lines {rs : List (Nat × Nat)} (distinct : (rs.map (·.1)).Nodup) {size n : Nat} (room : runTotal rs + n ≤ size) :
    (firstFit (moveRuns (packUntil (fun rs => (firstFit rs size n).isSome) 0 [] (sortBy (·.1) rs)) rs) size n).isSome
      = true := by
  rcases packed_runs (fun rs => (firstFit rs size n).isSome) (fun h => congrArg _ (firstFit_congr h size n)) rs distinct
    with fits | ⟨xs, listed, filled⟩
  · exact fits
  · rw [firstFit_congr listed]
    exact firstFit_isSome (filled.freeAt room)

end Sys2Proof.Machine

/-! PROOFS. COMPACTION_DONE (spec/11_switch_core.md R311): what moves in a mill's contexts, which descriptors reach memory, and how
a waiting frame whose job has gone is answered. -/
namespace Sys2Proof.Machine

open Sys2Proof

/-! ## Sparse stores whose keys rise -/

theorem srising_pairwise {α : Type} : ∀ {m : List (Nat × α)}, srising m = true → (m.map (·.1)).Pairwise (· < ·)
  | [], _ => .nil
  | [_], _ => List.pairwise_singleton _ _
  | (j, v) :: (k, w) :: t, h => by
    rw [srising, Bool.and_eq_true, decide_eq_true_eq] at h
    obtain ⟨less, rising⟩ := h
    have rest := srising_pairwise rising
    refine List.pairwise_cons.mpr ⟨fun i hi => ?_, rest⟩
    rcases List.mem_cons.mp hi with rfl | later
    · exact less
    · exact Nat.lt_trans less ((List.pairwise_cons.mp rest).1 i later)

/-- A write at a key that is listed replaces its value. -/
theorem sput_listed {α : Type} (k : Nat) (v w : α) (post : List (Nat × α)) : ∀ pre : List (Nat × α), (∀ y ∈ pre, y.1 < k) →
    sput k v (pre ++ (k, w) :: post) = pre ++ (k, v) :: post
  | [], _ => by simp [sput]
  | (j, u) :: pre, low => by
    have less : j < k := low (j, u) List.mem_cons_self
    rw [List.cons_append, sput, if_neg (by omega), if_neg (by omega),
      sput_listed k v w post pre fun y hy => low y (List.mem_cons_of_mem _ hy), List.cons_append]

theorem sget_mapValues {α : Type} (g : α → α) (k : Nat) : ∀ m : List (Nat × α),
    sget k (m.map fun x => (x.1, g x.2)) = (sget k m).map g
  | [] => rfl
  | (j, v) :: m => by
    rw [List.map_cons, sget, sget]
    split
    · rfl
    · exact sget_mapValues g k m

/-! ## Contexts that are written back (R107, R311) -/

/-- A context is written back where it has changed. -/
def State.writeBack (s : State) (x : Nat × Ctx) (c : Ctx) : State := if c = x.2 then s else s.setCtx x.1 c

theorem writeBack_parts (s : State) (x : Nat × Ctx) (c : Ctx) :
    onlyParts [.ctxs, .descCache, .mem, .memory] s (s.writeBack x c) := by
  unfold State.writeBack
  split
  · exact onlyParts_refl _ s
  · exact setCtx_parts s _ c

theorem writeBack_ctxs {s : State} {x : Nat × Ctx} {pre post : List (Nat × Ctx)} (listed : s.ctxs = pre ++ x :: post)
    (low : ∀ y ∈ pre, y.1 < x.1) (c : Ctx) : (s.writeBack x c).ctxs = pre ++ (x.1, c) :: post := by
  unfold State.writeBack
  split
  · rename_i same
    rw [listed, same]
  · rw [setCtx_ctxs, listed, sput_listed _ _ _ _ _ low]

/-- Every context of a rising store that a test picks is changed, and the others are not. -/
theorem writeBacks_ctxs (q : Ctx → Bool) (g : Ctx → Ctx) : ∀ (post pre : List (Nat × Ctx)) (s : State), s.ctxs = pre ++ post →
    (s.ctxs.map (·.1)).Pairwise (· < ·) → ((post.filter fun x => q x.2).foldl (fun s x => s.writeBack x (g x.2)) s).ctxs =
      pre ++ post.map fun x => (x.1, if q x.2 then g x.2 else x.2)
  | [], _, _, listed, _ => listed
  | x :: post, pre, s, listed, rising => by
    have keys : (pre.map (·.1) ++ x.1 :: post.map (·.1)).Pairwise (· < ·) := by
      rwa [listed, List.map_append, List.map_cons] at rising
    have low (y : Nat × Ctx) (hy : y ∈ pre) : y.1 < x.1 :=
      (List.pairwise_append.mp keys).2.2 _ (List.mem_map_of_mem hy) _ List.mem_cons_self
    rw [List.map_cons]
    by_cases picked : q x.2 = true
    · have written := writeBack_ctxs listed low (g x.2)
      rw [List.filter_cons_of_pos (p := fun x : Nat × Ctx => q x.2) picked, List.foldl_cons, if_pos picked, List.append_cons]
      refine writeBacks_ctxs q g post _ _ (written.trans (List.append_cons pre _ post)) ?_
      rwa [written, List.map_append, List.map_cons]
    · rw [List.filter_cons_of_neg (p := fun x : Nat × Ctx => q x.2) picked, if_neg picked, List.append_cons]
      exact writeBacks_ctxs q g post _ s (listed.trans (List.append_cons pre x post)) rising

theorem touchDesc_cached {s : State} {die d : Nat} {y : Nat × Nat} (h : y ∈ (s.touchDesc die d).descCache) :
    y ∈ s.descCache ∨ y.2 = d := by
  have kept {q : Nat × Nat → Bool} (hy : y ∈ s.descCache.filter q) : y ∈ s.descCache := (List.mem_filter.mp hy).1
  unfold State.touchDesc at h
  dsimp only at h
  split at h
  · exact (List.mem_cons.mp h).elim (fun e => .inr (congrArg Prod.snd e)) fun hy => .inl (kept hy)
  · split at h
    · exact (List.mem_cons.mp h).elim (fun e => .inr (congrArg Prod.snd e)) fun hy => .inl (kept (List.mem_filter.mp hy).1)
    · exact .inl h

theorem writeBack_cached {s : State} {x : Nat × Ctx} {c : Ctx} {y : Nat × Nat} (h : y ∈ (s.writeBack x c).descCache) :
    y ∈ s.descCache ∨ y.2 = x.1 := by
  unfold State.writeBack at h
  split at h
  · exact .inl h
  · exact touchDesc_cached (s := { s with ctxs := sput x.1 c s.ctxs }) h

/-- Of memory, contexts that are written back reach the descriptors that were cached and their own. -/
theorem writeBacks_bytes (g : Ctx → Ctx) (a : Nat) : ∀ (xs : List (Nat × Ctx)) (s : State), (∀ y ∈ s.descCache, a / 32 ≠ y.2) →
    (∀ x ∈ xs, a / 32 ≠ x.1) → (xs.foldl (fun s x => s.writeBack x (g x.2)) s).readMem a 1 = s.readMem a 1
  | [], _, _, _ => rfl
  | x :: xs, s, cached, own => by
    have here : (s.writeBack x (g x.2)).readMem a 1 = s.readMem a 1 := by
      unfold State.writeBack
      split
      · rfl
      · exact setCtx_bytes s _ _ a cached
    rw [List.foldl_cons, writeBacks_bytes g a xs _ (fun y hy => ?_) fun x hx => own x (List.mem_cons_of_mem _ hx)]
    · exact here
    · rcases writeBack_cached hy with old | new
      · exact cached y old
      · exact new ▸ own x List.mem_cons_self

/-! ## A compaction (R311) -/

/-- Where the runs of units of a mill go, moved down until k granules of u units fit. -/
def State.unitMoves (s : State) (m k u : Nat) : List (Nat × Nat) :=
  packUntil (fun rs => (placeRuns poolUnits u k rs).isSome) 0 [] (sortBy (·.1) (s.unitRuns m))

/-- Where the runs of lines of a mill go, moved down until n lines fit. -/
def State.lineMoves (s : State) (m n : Nat) : List (Nat × Nat) :=
  packUntil (fun rs => (firstFit rs poolLines n).isSome) 0 [] (sortBy (·.1) (s.lineRuns m))

/-- A context whose granules and arrival record have moved. -/
def Ctx.movedBy (us ls : List (Nat × Nat)) (c : Ctx) : Ctx :=
  { c with granules := c.granules.map (movedTo us), arrival := if c.lines = 0 then 0 else movedTo ls c.arrival }

/-- A context after a compaction of a mill. -/
def Ctx.compacted (m : Nat) (us ls : List (Nat × Nat)) (c : Ctx) : Ctx := if c.mill == m then c.movedBy us ls else c

section
variable (m : Nat) (us ls : List (Nat × Nat)) (c : Ctx)

@[simp] theorem compacted_mill : (c.compacted m us ls).mill = c.mill := by
  unfold Ctx.compacted
  split <;> rfl

@[simp] theorem compacted_gclass : (c.compacted m us ls).gclass = c.gclass := by
  unfold Ctx.compacted
  split <;> rfl

@[simp] theorem compacted_lines : (c.compacted m us ls).lines = c.lines := by
  unfold Ctx.compacted
  split <;> rfl

@[simp] theorem compacted_commitWait : (c.compacted m us ls).commitWait = c.commitWait := by
  unfold Ctx.compacted
  split <;> rfl

@[simp] theorem compacted_unit : (c.compacted m us ls).unit = c.unit := by
  simp [Ctx.unit]

/-- A compaction changes where a context's granules and record lie, and nothing else of it. -/
theorem compacted_frame : c.compacted m us ls =
    { c with granules := (c.compacted m us ls).granules, arrival := (c.compacted m us ls).arrival } := by
  unfold Ctx.compacted
  split <;> rfl

theorem compacted_granules_length : (c.compacted m us ls).granules.length = c.granules.length := by
  unfold Ctx.compacted
  split
  · exact List.length_map _
  · rfl

end

theorem compacted_here (us ls : List (Nat × Nat)) (c : Ctx) : c.compacted c.mill us ls = c.movedBy us ls :=
  if_pos (beq_self_eq_true _)

theorem compacted_elsewhere {m : Nat} {c : Ctx} (h : c.mill ≠ m) (us ls : List (Nat × Nat)) : c.compacted m us ls = c :=
  if_neg (by simpa using h)

section
variable (s : State) (m k u n : Nat)

theorem compactMill_eq : s.compactMill m k u n = (s.ctxs.filter fun x => x.2.mill == m).foldl
    (fun t x => t.writeBack x (x.2.movedBy (s.unitMoves m k u) (s.lineMoves m n))) s := rfl

theorem compactMill_parts : onlyParts [.ctxs, .descCache, .mem, .memory] s (s.compactMill m k u n) :=
  onlyParts_foldl _ (fun s x => writeBack_parts s x _) _ s

theorem compactMill_ctxs (rising : srising s.ctxs = true) : (s.compactMill m k u n).ctxs =
    s.ctxs.map fun x => (x.1, x.2.compacted m (s.unitMoves m k u) (s.lineMoves m n)) := by
  rw [compactMill_eq]
  exact writeBacks_ctxs (fun c => c.mill == m) _ s.ctxs [] s rfl (srising_pairwise rising)

theorem compactMill_bytes (a : Nat) (cached : ∀ y ∈ s.descCache, a / 32 ≠ y.2) (own : ∀ y ∈ s.ctxs, a / 32 ≠ y.1) :
    (s.compactMill m k u n).readMem a 1 = s.readMem a 1 := by
  rw [compactMill_eq]
  exact writeBacks_bytes _ a _ s cached fun x hx => own x (List.mem_filter.mp hx).1

theorem compactMill_ctx? (rising : srising s.ctxs = true) (d : Nat) : (s.compactMill m k u n).ctx? d =
    (s.ctx? d).map (Ctx.compacted m (s.unitMoves m k u) (s.lineMoves m n)) := by
  rw [State.ctx?, compactMill_ctxs s m k u n rising, sget_mapValues, State.ctx?]

/-- A context after a compaction: only its granules and its record may lie elsewhere, and those of another mill do not. -/
theorem compactMill_found (rising : srising s.ctxs = true) {d : Nat} {c : Ctx} (listed : s.ctx? d = some c) :
    ∃ c', (s.compactMill m k u n).ctx? d = some c' ∧ c' = { c with granules := c'.granules, arrival := c'.arrival }
      ∧ c'.granules.length = c.granules.length ∧ (c.mill ≠ m → c' = c) := by
  refine ⟨c.compacted m (s.unitMoves m k u) (s.lineMoves m n), ?_, compacted_frame _ _ _ c, compacted_granules_length _ _ _ c,
    fun other => compacted_elsewhere other _ _⟩
  rw [compactMill_ctx? s m k u n rising, listed, Option.map_some]

theorem compactMill_unitRuns (rising : srising s.ctxs = true) :
    (s.compactMill m k u n).unitRuns m = moveRuns (s.unitMoves m k u) (s.unitRuns m) := by
  rw [State.unitRuns, compactMill_ctxs s m k u n rising, List.filter_map, List.map_map, State.unitRuns, moveRuns, List.map_flatten,
    List.map_map]
  refine congrArg List.flatten ?_
  simp only [Function.comp_def, compacted_mill, compacted_gclass]
  refine List.map_congr_left fun x hx => ?_
  obtain ⟨-, test⟩ := List.mem_filter.mp hx
  obtain ⟨here, -⟩ : x.2.mill = m ∧ x.2.gclass ≠ 0 := by simpa using test
  subst here
  rw [compacted_unit, compacted_here, Ctx.movedBy, List.map_map, List.map_map]
  rfl

theorem compactMill_lineRuns (rising : srising s.ctxs = true) :
    (s.compactMill m k u n).lineRuns m = moveRuns (s.lineMoves m n) (s.lineRuns m) := by
  rw [State.lineRuns, compactMill_ctxs s m k u n rising, List.filter_map, List.map_map, State.lineRuns, moveRuns, List.map_map]
  simp only [Function.comp_def, compacted_mill, compacted_lines]
  refine List.map_congr_left fun x hx => ?_
  obtain ⟨-, test⟩ := List.mem_filter.mp hx
  obtain ⟨here, held⟩ : x.2.mill = m ∧ x.2.lines ≠ 0 := by simpa using test
  subst here
  rw [compacted_here, Ctx.movedBy, if_neg held]

theorem compactMill_noneWait (rising : srising s.ctxs = true) (h : s.noneWait) : (s.compactMill m k u n).noneWait := by
  intro x hx
  rw [compactMill_ctxs s m k u n rising] at hx
  obtain ⟨y, hy, rfl⟩ := List.mem_map.mp hx
  exact (compacted_commitWait _ _ _ _).trans (h y hy)

end

end Sys2Proof.Machine

/-! PROOFS. COMPACTION_DONE as a whole (spec/04_reduction_contexts.md R108; 11_switch_core.md R311): the frame that waited is taken
up, and answered as one of no job. -/
namespace Sys2Proof.Machine

open Sys2Proof

/-! ## Requests that wait for a compaction -/

theorem comeToHead_compacting (die src : Nat) (dest : Dest) (vc : Nat) : ∀ (n : Nat) (s : State),
    (s.comeToHead die src dest vc n).core.compacting = s.core.compacting
  | 0, _ => rfl
  | n + 1, s => by
    unfold State.comeToHead
    split
    · rfl
    · split
      · rw [comeToHead_compacting die src dest vc n, msgSent_core]
        rfl
      · split
        · rfl
        · rfl

theorem takeLocal_compacting (s : State) (d : Nat) (f : Frame) (xs : List LocalCopy) :
    (s.takeLocal d f xs).core.compacting = s.core.compacting := by
  have heads (cs : List Copy) (s : State) :
      (cs.foldl (fun s c => s.markHead c.die c.src c.dest c.vc) s).core.compacting = s.core.compacting :=
    List.foldlRecOn (motive := fun t => t.core.compacting = s.core.compacting) cs _ rfl fun t same c _ =>
      (comeToHead_compacting c.die c.src c.dest c.vc _ t).trans same
  unfold State.takeLocal
  split
  · rfl
  · dsimp only
    split
    · exact heads _ _
    · rfl

theorem emit_compacting (s : State) (hop : Hop) (f : Frame) (msg : Option Nat) :
    (s.emit hop f msg).core.compacting = s.core.compacting := by
  have place : (s.place 0 hop f).2.core = s.core := place_parts s 0 hop f .core (by decide)
  unfold State.emit
  split
  · rename_i e
    rw [e] at place
    exact (takeLocal_compacting _ _ _ _).trans (congrArg CoreSt.compacting place)
  · rename_i e
    rw [e] at place
    rw [msgSent_core]
    exact congrArg CoreSt.compacting place

/-! ## Answering a frame (R48, R56) -/

/-- What an answer may touch, with the record of the message answered and the count of free values. -/
abbrev answerParts : List Part := .rxs :: sendParts

/-- A frame has been answered, or has drawn no answer. -/
structure Answers (s t : State) : Prop extends Touches answerParts sendAddr s t where
  outs : sameOuts s t
  compacting : t.core.compacting = s.core.compacting

theorem Answers.trans {s t u : State} (a : Answers s t) (b : Answers t u) : Answers s u :=
  ⟨a.toTouches.trans b.toTouches, a.outs.trans b.outs, b.compacting.trans a.compacting⟩

/-- Only the record of a message or the count of free values changes. -/
theorem Answers.of_parts {s t : State} (a : onlyParts [.rxs, .freeCount] s t) : Answers s t :=
  ⟨(Touches.of_parts a (by decide)).mono (by decide) fun _ => id, sameOuts_of_parts a (by decide),
    congrArg CoreSt.compacting (a .core (by decide))⟩

theorem Answers.refl (s : State) : Answers s s := .of_parts (onlyParts_refl _ s)

theorem emit_answers (s : State) (hop : Hop) (f : Frame) (msg : Option Nat) : Answers s (s.emit hop f msg) :=
  ⟨(emit_touches s hop f msg).mono (by decide) fun _ => id, emit_sameOuts s hop f msg, emit_compacting s hop f msg⟩

theorem setRx_answers (s : State) (p : Nat) (h : BaseHdr) (r : RxMsg) : Answers s (s.setRx p h r) :=
  .of_parts (onlyParts_mono (setRx_parts s p h r) (by decide))

theorem nack_answers (s : State) (p : Nat) (h : BaseHdr) (x : NackExt) : Answers s (s.nack p h x) := by
  unfold State.nack
  dsimp only
  split
  · exact .refl s
  · exact (setRx_answers s _ _ _).trans (emit_answers _ _ _ _)

theorem refuse_answers (s : State) (p : Nat) (h : BaseHdr) (x : NackExt) : Answers s (s.refuse p h x none) := by
  unfold State.refuse
  split
  · exact .refl s
  · exact nack_answers s p h x

/-- A reduction frame of a job that is not loaded draws NO_CONTEXT (R108, row 1). -/
theorem classify_noJob {s : State} {f : Frame} (gone : s.job? f.h.jobId = none) (p : Nat) (isPartial : Bool) :
    s.classify p f isPartial = .nack (nackRed nackNoContext (redOf f) 0) none := by
  rw [State.classify]
  dsimp only
  rw [gone]

theorem rejected_answers {s : State} (waits : s.noneWait) (p : Nat) (f : Frame) (x : NackExt) :
    Answers s (s.rejectRed p f (.nack x none)).settleFree := by
  have refused := refuse_answers s p f.h x
  rw [State.rejectRed, settleFree_none (waits.of_ctxs (refused.parts .ctxs (by decide)))]
  exact refused

theorem retry_noJob {s : State} {f : Frame} (gone : s.job? f.h.jobId = none) (waits : s.noneWait) (p : Nat) :
    Answers s (s.retry f p) := by
  refine (Answers.of_parts (onlyParts_mono (draw1_parts s) (by decide))).trans ?_
  have goneNow : s.draw1.2.job? f.h.jobId = none := gone
  have waitsNow : s.draw1.2.noneWait := waits
  unfold State.retry
  dsimp only
  split
  · unfold State.partialIn
    split
    · exact emit_answers _ _ _ _
    · rw [classify_noJob goneNow]
      exact rejected_answers waitsNow p f _
  · unfold State.contrib
    rw [classify_noJob goneNow]
    exact rejected_answers waitsNow p f _

/-! ## COMPACTION_DONE -/

theorem regAddr_poolEvents (m : Nat) : regAddr .POOL_EVENTS m = 0x11000844 + m / 32 * 0x4000000 + m % 32 * 0x10000 := by
  simp [regAddr, regRow, row_POOL_EVENTS]

theorem poolEvents_not_send (m : Nat) : ¬ sendAddr (regAddr .POOL_EVENTS m) := fun h => by
  have address := sendAddr_mod h
  rw [regAddr_poolEvents] at address
  omega

/-- The state once a mill has been compacted for a request, the compaction counted and the request no longer waiting. -/
def State.compactedFor (s : State) (x : PoolWait) : State :=
  ((s.compactMill x.mill x.grans x.units x.lines).bump F.POOL_EVENTS_COMPACTIONS x.mill).mapCore fun k =>
    { k with compacting := k.compacting.filter fun y => y.mill != x.mill }

theorem exec_compactionDone {s : State} {x : PoolWait} (waiting : s.core.compacting = [x]) :
    exec (.compactionDone x.mill) s = .next ((s.compactedFor x).retry x.frame x.port) := by
  have mine : [x].filter (fun y => y.mill == x.mill) = [x] := by simp
  show execCompactionDone x.mill s = _
  rw [execCompactionDone, waiting, mine]
  rfl

theorem compactedFor_parts (s : State) (x : PoolWait) :
    onlyParts [.regs, .core, .ctxs, .descCache, .mem, .memory] s (s.compactedFor x) :=
  onlyParts_trans (onlyParts_mono (compactMill_parts s _ _ _ _) (by decide))
    (onlyParts_trans (onlyParts_mono (bump_parts _ _ _) (by decide)) (onlyParts_mono (mapCore_parts _ _) (by decide)))

theorem compactedFor_counts (s : State) (x : PoolWait) : (s.compactedFor x).fld F.POOL_EVENTS_COMPACTIONS x.mill =
    satAdd 16 (s.fld F.POOL_EVENTS_COMPACTIONS x.mill) 1 := by
  have before : (s.compactMill x.mill x.grans x.units x.lines).fld F.POOL_EVENTS_COMPACTIONS x.mill =
      s.fld F.POOL_EVENTS_COMPACTIONS x.mill :=
    fld_of_reg _ (reg_of_regs (compactMill_parts s _ _ _ _ .regs (by decide)) _ _)
  rw [← before]
  exact fld_bump _ F.POOL_EVENTS_COMPACTIONS x.mill (by decide)

theorem compactedFor_compacting {s : State} {x : PoolWait} (waiting : s.core.compacting = [x]) :
    (s.compactedFor x).core.compacting = [] := by
  have core : (s.compactMill x.mill x.grans x.units x.lines).core = s.core := compactMill_parts s _ _ _ _ .core (by decide)
  show (s.compactMill x.mill x.grans x.units x.lines).core.compacting.filter (fun y => y.mill != x.mill) = []
  rw [core, waiting, List.filter_cons_of_neg (by simp), List.filter_nil]

theorem unitRuns_of_ctxs {s t : State} (h : t.ctxs = s.ctxs) (m : Nat) : t.unitRuns m = s.unitRuns m := by
  rw [State.unitRuns, h, State.unitRuns]

theorem lineRuns_of_ctxs {s t : State} (h : t.ctxs = s.ctxs) (m : Nat) : t.lineRuns m = s.lineRuns m := by
  rw [State.lineRuns, h, State.lineRuns]

/-- COMPACTION_DONE for one frame that waits, of a job that has gone. -/
theorem compactionDone_effect {s : State} {x : PoolWait} (waiting : s.core.compacting = [x])
    (gone : s.job? x.frame.h.jobId = none) (waits : s.noneWait) (rising : srising s.ctxs = true) :
    Completes (.compactionDone x.mill) s fun t =>
      t.fld F.POOL_EVENTS_COMPACTIONS x.mill = satAdd 16 (s.fld F.POOL_EVENTS_COMPACTIONS x.mill) 1
        ∧ t.core.compacting = [] ∧ t.ctxs = (s.compactMill x.mill x.grans x.units x.lines).ctxs
        ∧ t.mem = (s.compactMill x.mill x.grans x.units x.lines).mem
        ∧ onlyParts (.ctxs :: .descCache :: .mem :: .memory :: answerParts) s t ∧ sameOuts s t := by
  have parts := compactedFor_parts s x
  have count := compactedFor_counts s x
  have empty := compactedFor_compacting waiting
  have ctxs : (s.compactedFor x).ctxs = (s.compactMill x.mill x.grans x.units x.lines).ctxs := rfl
  have mem : (s.compactedFor x).mem = (s.compactMill x.mill x.grans x.units x.lines).mem := rfl
  have run := exec_compactionDone waiting
  have still := (compactMill_noneWait s x.mill x.grans x.units x.lines rising waits).of_ctxs ctxs
  generalize s.compactedFor x = v at *
  have answered := retry_noJob ((job?_of_jobs (parts .jobs (by decide)) _).trans gone) still x.port
  refine ⟨_, run, ?_, answered.compacting.trans empty, (answered.parts .ctxs (by decide)).trans ctxs,
    (answered.parts .mem (by decide)).trans mem,
    onlyParts_trans (onlyParts_mono parts (by decide)) (onlyParts_mono answered.parts (by decide)), ?_⟩
  · rw [answered.regs.fld _ _ (poolEvents_not_send _), count]
  · exact (sameOuts_of_parts parts (by decide)).trans answered.outs

end Sys2Proof.Machine

/-! PROOFS. RESCALE and SUPERSEDE from the parent (spec/03_reduction_arithmetic.md R99; 04_reduction_contexts.md R119), and the
statement about both and a compaction. -/
namespace Sys2Proof.Machine

open Sys2Proof

/-! ## A control message that completes (R56) -/

/-- What taking a control message touches before it is acted on, and what telling those below touches. -/
abbrev controlMsgParts : List Part := .rxs :: .ended :: sendParts

section
variable {s u : State} {port : Nat} {f : Frame}

/-- The parts that taking and acknowledging a control message touch. -/
theorem controlTaken_parts (received : (s.takeFrom .firmware port f).receive port f = (.complete, u)) :
    onlyParts controlMsgParts s (u.ack port f.h) := by
  have took := takeFrom_parts s .firmware port f
  have counted := receive_parts (s.takeFrom .firmware port f) port f
  rw [received] at counted
  exact onlyParts_trans (onlyParts_trans (onlyParts_mono took (by decide)) (onlyParts_mono counted (by decide)))
    (onlyParts_mono (ack_parts u port f.h) (by decide))

theorem control_complete (good : tailGood f = true) (reduction : f.h.ftype = 4#4) {code : BitVec 4}
    (ofCode : (redOf f).code = code) (received : s.receive port f = (.complete, u)) (act : State → State) :
    s.control port f code act = act (u.ack port f.h) := by
  rw [State.control, good, reduction, ofCode, received]
  simp

theorem exec_rescaleReceived (free : s.queuedBehind .firmware port f = false) : exec (.rescaleReceived port f) s =
    .next ((s.takeFrom .firmware port f).control port f codeRescale fun s => s.rescaleIn f) := by
  show execRescaleReceived port f s = _
  rw [execRescaleReceived, free, if_neg Bool.false_ne_true]

theorem exec_supersedeReceived (free : s.queuedBehind .firmware port f = false) : exec (.supersedeReceived port f) s =
    .next ((s.takeFrom .firmware port f).control port f codeSupersede fun s => s.supersedeIn f) := by
  show execSupersedeReceived port f s = _
  rw [execSupersedeReceived, free, if_neg Bool.false_ne_true]

end

theorem ctlCtx_of {s t : State} (jobs : t.jobs = s.jobs) (ctxs : t.ctxs = s.ctxs) (f : Frame) : t.ctlCtx f = s.ctlCtx f := by
  rw [State.ctlCtx, job?_of_jobs jobs, State.ctlCtx]
  simp only [ctx?_of_ctxs ctxs]

theorem layoutOf_of_jobs {s t : State} (jobs : t.jobs = s.jobs) (c : Ctx) : t.layoutOf c = s.layoutOf c := by
  rw [State.layoutOf, job?_of_jobs jobs, State.layoutOf]

theorem ctlCtx_ctx? {s : State} {f : Frame} {d : Nat} {c : Ctx} {j : Job} {l : Layout} (h : s.ctlCtx f = some (d, c, j, l)) :
    s.ctx? d = some c := by
  unfold State.ctlCtx at h
  dsimp only at h
  split at h
  · exact nomatch h
  · split at h
    · exact nomatch h
    · rename_i here
      split at h
      · obtain ⟨rfl, rfl, -, -⟩ : _ ∧ _ ∧ _ ∧ _ := by simpa using h
        exact here
      · exact nomatch h

/-! ## A context rewritten once a control message has been taken -/

/-- What taking a control message and writing its context touch. -/
abbrev rewriteParts : List Part := .ctxs :: .descCache :: .mem :: .memory :: controlMsgParts

section
variable {s v t : State} {d : Nat} {c : Ctx} {parts : List Part} (before : onlyParts controlMsgParts s v)
include before

theorem rewritten_bytes (mem : t.mem = (v.setCtx d c).mem) : keepsBytes s t := by
  have written := keepsBytes.trans (keepsBytes_of_parts before (by decide)) (setCtx_bytes v d c) (before .descCache (by decide))
  intro a cached
  rw [← written a cached, State.readMem, mem, State.readMem]

variable (after : onlyParts parts (v.setCtx d c) t)
include after

theorem rewritten_ctx? (ctxs : Part.ctxs ∉ parts) : t.ctx? d = some c ∧ ∀ e, e ≠ d → t.ctx? e = s.ctx? e := by
  have same : t.ctxs = (v.setCtx d c).ctxs := after .ctxs ctxs
  refine ⟨(ctx?_of_ctxs same d).trans (setCtx_ctx?_self v d c), fun e he => ?_⟩
  rw [ctx?_of_ctxs same, setCtx_ctx?_ne v c he, ctx?_of_ctxs (before .ctxs (by decide))]

theorem rewritten_parts : onlyParts (rewriteParts ++ parts) s t := by
  have written : onlyParts rewriteParts s (v.setCtx d c) :=
    onlyParts_trans (onlyParts_mono before (by decide)) (onlyParts_mono (setCtx_parts v d c) (by decide))
  exact onlyParts_trans (onlyParts_mono written fun _ => List.mem_append_left parts)
    (onlyParts_mono after fun _ => List.mem_append_right rewriteParts)

end

/-! ## RESCALE (R99) -/

/-- A context that has taken the anchor of a RESCALE. -/
def Ctx.rescaled (c : Ctx) (anchor : Int) : Ctx :=
  { c.cleared.freed with state := .openS, anchor := anchor, requestSent := false,
                         rescales := if c.state = .forwarded then satAdd 8 c.rescales 1 else c.rescales }

/-- A RESCALE rewrites its context; what follows forgets partials and tells those below. -/
theorem rescaleIn_parts {v : State} {f : Frame} {d : Nat} {c : Ctx} {j : Job} {l : Layout} (here : v.ctlCtx f = some (d, c, j, l))
    (now : (redOf f).generation.toNat = c.generation) (waits : c.state = .rescaleWait ∨ c.state = .forwarded) :
    onlyParts controlMsgParts (v.setCtx d (c.rescaled (redOf f).anchor.toInt)) (v.rescaleIn f) := by
  have takes : ¬ ((redOf f).generation.toNat != c.generation || (c.state != .rescaleWait && c.state != .forwarded)) = true := by
    rcases waits with state | state <;> simp [now, state]
  rw [State.rescaleIn, here]
  dsimp only
  rw [if_neg takes]
  exact onlyParts_trans (onlyParts_mono (dropOuts_parts _ _) (by decide))
    (onlyParts_mono (sendMany_touches _ _ _).parts (by decide))

/-! ## SUPERSEDE (R119) -/

/-- A slot that is awaited no more where its member is fenced in a bank. -/
def Slot.unlessFenced (k : Bank) (job : BitVec 12) (x : Slot) : Slot :=
  match x.who with
  | .member r => if x.live && k.fenced job r then { x with live := false } else x
  | .child _ => x

theorem unlessFenced_who (k : Bank) (job : BitVec 12) (x : Slot) : (x.unlessFenced k job).who = x.who := by
  unfold Slot.unlessFenced
  split
  · split
    · rfl
    · rfl
  · rfl

theorem unlessFenced_live {k : Bank} {job : BitVec 12} {x : Slot} {r : Nat} (member : x.who = .member r)
    (fenced : k.fenced job r = true) : (x.unlessFenced k job).live = false := by
  rw [Slot.unlessFenced, member]
  dsimp only
  rw [fenced, Bool.and_true]
  split
  · rfl
  · rename_i dead
    exact Bool.eq_false_iff.mpr dead

/-- A context superseded to generation g: open, with nothing folded, and awaiting no member that a bank has fenced. -/
structure Ctx.Restarted (c : Ctx) (k : Bank) (g : Nat) (c' : Ctx) : Prop where
  state : c'.state = .openS
  generation : c'.generation = g
  done : c'.done = 0
  acc : c'.acc = []
  held : c'.held = false
  anchor : c'.anchor = c.anchor
  commitWait : c'.commitWait = false
  slots : c'.slots = (c.slots.map (Slot.unlessFenced k c.job)).map Slot.cleared

theorem Ctx.Restarted.fenced {c c' : Ctx} {k : Bank} {g : Nat} (h : c.Restarted k g c') : ∀ y ∈ c'.slots, ∀ r,
    y.who = .member r → k.fenced c.job r = true → y.live = false := by
  intro y hy r member fenced
  rw [h.slots, List.map_map] at hy
  obtain ⟨x, -, rfl⟩ := List.mem_map.mp hy
  exact unlessFenced_live ((unlessFenced_who k c.job x).symm.trans member) fenced

/-- A job without error memory has none to write. -/
theorem mapErrs_mem {s : State} {id : BitVec 12} {j : Job} (job : s.job? id = some j) (g : Job → Job)
    (keeps : ∀ j, (g j).id = j.id) (noErrs : (g j).errs = []) : (s.mapErrs id g).mem = s.mem := by
  have mapped : (s.mapJob id g).job? id = some (g j) := by
    rw [job?_mapJob s id g keeps, job]
    rfl
  rw [State.mapErrs, job]
  dsimp only
  rw [State.syncErrs, mapped]
  dsimp only
  rw [noErrs]
  rfl

/-- What a SUPERSEDE does besides its context leaves memory alone where the job has no error memory. -/
theorem supersede_sends_mem {s : State} {id : BitVec 12} {j : Job} (job : s.job? id = some j) (g : Job → Job)
    (keeps : ∀ j, (g j).id = j.id) (noErrs : (g j).errs = []) (d : Nat) (l : Layout) (xs : List SlotId) (mk : BitVec 24 → Frame)
    (why : SlotId → Purpose) : ((((s.dropPartials d).dropRescales d).mapErrs id g).sendSlots l xs mk why).mem = s.mem := by
  have dropped : onlyParts [.outs, .ended] s ((s.dropPartials d).dropRescales d) :=
    onlyParts_trans (dropOuts_parts s _) (dropOuts_parts _ _)
  generalize (s.dropPartials d).dropRescales d = t at *
  calc ((t.mapErrs id g).sendSlots l xs mk why).mem
      = (t.mapErrs id g).mem := (sendMany_touches _ _ _).parts .mem (by decide)
    _ = t.mem := mapErrs_mem ((job?_of_jobs (dropped .jobs (by decide)) id).trans job) g keeps noErrs
    _ = s.mem := dropped .mem (by decide)

theorem unstage_errs {j : Job} (noErrs : j.errs = []) (bucket chunk : Nat) (step : BitVec 32) :
    (j.unstage bucket chunk step).errs = [] := by
  rw [Job.unstage, noErrs, List.map_nil]

/-- A supersession writes its context, then forgets what was sent of it and tells those below. -/
theorem supersedeTo_stages {s : State} {d : Nat} {c : Ctx} {j : Job} {l : Layout} {b : PlanBucket} {grp : PlanGroup} (g : Nat)
    (up : Option RedExt) (here : s.ctx? d = some c) (layout : s.layoutOf c = some (j, l)) (bucket : l.bucketOf c = some (b, grp)) :
    ∃ c' xs mk why, c.Restarted s.newest.1 g c' ∧ s.supersedeTo d g up = ((((s.setCtx d c').dropPartials d).dropRescales d).mapErrs
      c.job fun j => j.unstage b.id (c.chunk.toNat - b.first) c.step).sendSlots l xs mk why := by
  unfold State.supersedeTo
  rw [here]
  dsimp -zeta only
  rw [layout]
  dsimp -zeta only
  rw [bucket]
  dsimp -zeta only
  generalize s.newest = newest
  obtain ⟨bank, num⟩ := newest
  dsimp -zeta only
  extract_lets slots lowered emptied c1
  exact ⟨c1, _, _, _, ⟨rfl, rfl, rfl, rfl, rfl, rfl, rfl, rfl⟩, rfl⟩

theorem supersedeTo_restarts {s : State} {d : Nat} {c : Ctx} {j : Job} {l : Layout} {b : PlanBucket} {grp : PlanGroup} (g : Nat)
    (up : Option RedExt) (here : s.ctx? d = some c) (layout : s.layoutOf c = some (j, l)) (bucket : l.bucketOf c = some (b, grp)) :
    ∃ c', c.Restarted s.newest.1 g c' ∧ onlyParts supersedeParts (s.setCtx d c') (s.supersedeTo d g up)
      ∧ (j.errs = [] → (s.supersedeTo d g up).mem = (s.setCtx d c').mem) := by
  obtain ⟨c', xs, mk, why, restarted, stages⟩ := supersedeTo_stages g up here layout bucket
  have job : (s.setCtx d c').job? c.job = some j :=
    (job?_of_jobs (setCtx_parts s d c' .jobs (by decide)) c.job).trans (layoutOf_inv layout).1
  rw [stages]
  exact ⟨c', restarted, (supersede_sends _ d c.job _ l xs mk why).parts, fun noErrs =>
    supersede_sends_mem job (Job.unstage · _ _ _) (fun _ => rfl) (unstage_errs noErrs _ _ _) d l xs mk why⟩

/-- A SUPERSEDE at a higher generation restarts its context; contexts held back then go on. -/
theorem supersedeIn_eq {v : State} {f : Frame} {d : Nat} {c : Ctx} {j : Job} {l : Layout} (here : v.ctlCtx f = some (d, c, j, l))
    (higher : c.generation < (redOf f).generation.toNat) (lives : c.state ≠ .aborted) :
    v.supersedeIn f = (v.supersedeTo d (redOf f).generation.toNat (some (redOf f))).settleFree := by
  have takes : ¬ ((redOf f).generation.toNat ≤ c.generation || c.state == .aborted) = true := by simp [higher, lives]
  rw [State.supersedeIn, here]
  dsimp only
  rw [if_neg takes]

/-! ## O13 -/

section
variable {s u : State} {port d : Nat} {f : Frame} {j : Job} {l : Layout} {c : Ctx}
  (free : s.queuedBehind .firmware port f = false) (good : tailGood f = true) (reduction : f.h.ftype = 4#4)
  (received : (s.takeFrom .firmware port f).receive port f = (.complete, u)) (here : s.ctlCtx f = some (d, c, j, l))
include free good reduction received here

theorem rescaleReceived_effect (code : (redOf f).code = codeRescale) (now : (redOf f).generation.toNat = c.generation)
    (waits : c.state = .rescaleWait ∨ c.state = .forwarded) : Completes (.rescaleReceived port f) s fun t =>
      t.ctx? d = some (c.rescaled (redOf f).anchor.toInt) ∧ (∀ e, e ≠ d → t.ctx? e = s.ctx? e)
        ∧ keepsParts controlParts s t ∧ keepsParts [.jobs, .wt] s t ∧ keepsBytes s t := by
  have before := controlTaken_parts received
  have hereNow := (ctlCtx_of (before .jobs (by decide)) (before .ctxs (by decide)) f).trans here
  have after := rescaleIn_parts hereNow now waits
  obtain ⟨written, others⟩ := rewritten_ctx? before after (by decide)
  have parts := rewritten_parts before after
  refine ⟨_, exec_rescaleReceived free, ?_⟩
  rw [control_complete good reduction code received]
  exact ⟨written, others, keepsParts_of_onlyParts parts (by decide), keepsParts_of_onlyParts parts (by decide),
    rewritten_bytes before (after .mem (by decide))⟩

theorem supersedeReceived_effect {b : PlanBucket} {g : PlanGroup} (layout : s.layoutOf c = some (j, l))
    (bucket : l.bucketOf c = some (b, g)) (noneWaits : s.noneWait) (code : (redOf f).code = codeSupersede)
    (higher : c.generation < (redOf f).generation.toNat) (lives : c.state ≠ .aborted) :
    Completes (.supersedeReceived port f) s fun t =>
      (∃ c', t.ctx? d = some c' ∧ c.Restarted s.newest.1 (redOf f).generation.toNat c')
        ∧ (∀ e, e ≠ d → t.ctx? e = s.ctx? e) ∧ keepsParts controlParts s t ∧ keepsParts [.wt] s t
        ∧ (j.errs = [] → keepsBytes s t) := by
  have before := controlTaken_parts received
  have jobs := before .jobs (by decide)
  have ctxs := before .ctxs (by decide)
  obtain ⟨c', restarted, after, bytes⟩ := supersedeTo_restarts (redOf f).generation.toNat (some (redOf f))
    ((ctx?_of_ctxs ctxs d).trans (ctlCtx_ctx? here)) ((layoutOf_of_jobs jobs c).trans layout) bucket
  rw [newest_of (before .epoch (by decide)) (before .bank0 (by decide)) (before .bank1 (by decide))] at restarted
  have still := ((noneWaits.of_ctxs ctxs).setCtx d restarted.commitWait).of_ctxs (after .ctxs (by decide))
  obtain ⟨written, others⟩ := rewritten_ctx? before after (by decide)
  have parts := rewritten_parts before after
  refine ⟨_, exec_supersedeReceived free, ?_⟩
  rw [control_complete good reduction code received, supersedeIn_eq ((ctlCtx_of jobs ctxs f).trans here) higher lives,
    settleFree_none still]
  exact ⟨⟨c', written, restarted⟩, others, keepsParts_of_onlyParts parts (by decide), keepsParts_of_onlyParts parts (by decide),
    fun noErrs => rewritten_bytes before (bytes noErrs)⟩

end

/-- Settles O13: a compaction moves the runs of a mill down until the request fits, and the frame that waited is answered; RESCALE
and SUPERSEDE each rewrite one context between taking the message and telling those below. -/
theorem compactionRescaleSupersede : Obligations.CompactionRescaleSupersede := by
  unfold Obligations.CompactionRescaleSupersede
  refine ⟨?_, fun s u port d f j l b g c free good reduction received here layout bucket noneWaits =>
    ⟨fun code now waits => ?_, fun code higher lives => ?_⟩⟩
  · rintro s _ x - waiting rfl gone waits rising
    obtain ⟨t, run, count, empty, ctxs, mem, parts, outs⟩ := compactionDone_effect waiting gone waits rising
    have units := (unitRuns_of_ctxs ctxs _).trans (compactMill_unitRuns s x.mill x.grans x.units x.lines rising)
    have lines := (lineRuns_of_ctxs ctxs _).trans (compactMill_lineRuns s x.mill x.grans x.units x.lines rising)
    refine ⟨t, run, count, empty, ?_, ?_, fun distinct room => ?_, fun distinct room => ?_, fun d c listed => ?_,
      keepsParts_of_onlyParts parts (by decide), keepsParts_of_onlyParts parts (by decide), outs, fun a cached own => ?_⟩
    · rw [units, runTotal_moveRuns]
    · rw [lines, runTotal_moveRuns]
    · rw [units]
      exact packed_granules distinct room
    · rw [lines]
      exact packed_lines distinct room
    · rw [ctx?_of_ctxs ctxs]
      exact compactMill_found s x.mill x.grans x.units x.lines rising listed
    · rw [State.readMem, mem]
      exact compactMill_bytes s _ _ _ _ a cached own
  · obtain ⟨t, run, written, others, control, jobs, bytes⟩ :=
      rescaleReceived_effect free good reduction received here code now waits
    exact ⟨t, run, ⟨_, written, rfl, rfl, rfl, rfl, rfl, rfl, rfl⟩, others, control, jobs, bytes⟩
  · obtain ⟨t, run, ⟨c', written, restarted⟩, others, control, wt, bytes⟩ :=
      supersedeReceived_effect free good reduction received here layout bucket noneWaits code higher lives
    exact ⟨t, run, ⟨c', written, restarted.state, restarted.generation, restarted.done, restarted.acc, restarted.held,
      restarted.anchor, restarted.fenced⟩, others, control, wt, bytes⟩

end Sys2Proof.Machine

/-! PROOFS. Steps at a switch (spec/04_reduction_contexts.md R129; 05_result_checking.md R152, R162): what a job keeps of a step, and
the report of a step, sent, stored at the step root and withdrawn. -/
namespace Sys2Proof.Machine

open Sys2Proof

/-! ## What a job keeps of a step (R105) -/

@[simp] theorem step_step (j : Job) (st : BitVec 32) : (j.step st).step = st := by
  unfold Job.step
  cases found : j.steps.find? fun x => x.step == st with
  | none => rfl
  | some x => simpa using List.find?_some found

theorem step_mapStep_self (j : Job) (st : BitVec 32) (g : StepSt → StepSt) (keeps : ∀ x, (g x).step = x.step) :
    (j.mapStep st g).step st = g (j.step st) := by
  have others : (j.steps.filter fun x => x.step != st).find? (fun x => x.step == st) = none :=
    List.find?_eq_none.mpr fun x hx => by simpa using (List.mem_filter.mp hx).2
  have own : [g (j.step st)].find? (fun x => x.step == st) = some (g (j.step st)) := by simp [keeps]
  show ((j.steps.filter (fun x => x.step != st) ++ [g (j.step st)]).find? fun x => x.step == st).getD _ = _
  rw [List.find?_append, others, own]
  rfl

theorem stepEnded_of {j k : Job} {st : BitVec 32} (floor : k.floor = j.floor) (ended : (k.step st).ended = (j.step st).ended) :
    k.stepEnded st = j.stepEnded st := by
  rw [Job.stepEnded, Job.stepEnded, Job.ahead, Job.ahead, floor, ended]

/-- What a job keeps of a step is replaced where the job is. -/
theorem job?_mapStep {s : State} {id : BitVec 12} {j : Job} (job : s.job? id = some j) (st : BitVec 32) (g : StepSt → StepSt) :
    (s.mapJob id fun j => j.mapStep st g).job? id = some (j.mapStep st g) := by
  rw [job?_mapJob s id (fun j => j.mapStep st g) fun _ => rfl, job, Option.map_some]

/-! ## MGMT messages of the switch's own (R55, R162) -/

theorem numberFrames_single (id : BitVec 16) (attempt : Nat) (f : Frame) : ∃ g, numberFrames id attempt [f] = [g]
    ∧ g.h.ftype = f.h.ftype ∧ g.h.dest = f.h.dest ∧ g.payload = f.payload := ⟨_, rfl, rfl, rfl, rfl⟩

/-- A MGMT message that is sent is among the switch's messages, under a key that was free. -/
theorem sendMgmt_sends {s : State} {job : BitVec 12} (heard : s.silenced (some job) = false) (flat : BitVec 24) (gen : BitVec 4)
    (payload : List Byte) (why : Purpose) : s.sends (s.sendMgmt flat job gen payload why) flat payload := by
  obtain ⟨o, mem, same⟩ := (send_outs s .routed [mgmtFrame true flat s.image.ownFlat job gen payload] (some job) none why heard).mem
    (List.mem_append_right _ (List.mem_singleton_self _))
  obtain ⟨key, -, -, -, frames⟩ := fields_of_still same
  obtain ⟨g, numbered, kept⟩ := numberFrames_single (s.freshId .routed [mgmtFrame true flat s.image.ownFlat job gen payload]) 0
    (mgmtFrame true flat s.image.ownFlat job gen payload)
  have sent : g ∈ o.frames := by
    rw [show o.frames = [g] from frames.trans numbered]
    exact List.mem_singleton_self g
  exact ⟨o, mem, Nat.le_of_eq key.symm, g, sent, kept⟩

theorem sends_of_freeCount {s u t : State} {dest : BitVec 24} {payload : List Byte} (h : u.freeCount = s.freeCount)
    (a : u.sends t dest payload) : s.sends t dest payload := by
  rwa [State.sends, ← h]

theorem sendMgmt_parts (s : State) (flat : BitVec 24) (job : BitVec 12) (gen : BitVec 4) (payload : List Byte) (why : Purpose) :
    onlyParts sendParts s (s.sendMgmt flat job gen payload why) := send_parts s _ _ _ _ _

theorem silenced_mapJob (s : State) (id : BitVec 12) {g : Job → Job} (keepsId : ∀ j, (g j).id = j.id)
    (keeps : ∀ j, (g j).silenced = j.silenced) (job : Option (BitVec 12)) : (s.mapJob id g).silenced job = s.silenced job := by
  cases job with
  | none => rfl
  | some i =>
    rw [State.silenced, State.silenced, State.mapJob, List.any_map]
    refine congrArg s.jobs.any (funext fun j => ?_)
    rw [Function.comp_apply]
    split
    · rw [keepsId, keeps]
    · rfl

/-! ## STEP_REPORT_SEND (R129, R161, R162) -/

/-- A switch other than the step root marks the step as reported and sends the report to the step root. -/
theorem exec_stepReportSend {s : State} {id : BitVec 12} {st : BitVec 32} {j : Job} (job : s.job? id = some j)
    (may : s.mayReport j st = true) (below : j.cur.isRoot = false) : exec (.stepReportSend id st) s =
      .next ((s.mapJob id fun j => j.mapStep st fun x => { x with reported := true }).sendMgmt j.cur.rootFlat id j.cur.plan.gen
        (reportBytes id j.cur.plan.gen st (j.cur.plan.releaserIndex j.cur.self) (j.reportOf st) none) (.stepReport st)) := by
  show execStepReportSend id st s = _
  rw [execStepReportSend, job]
  dsimp only
  rw [may, Bool.not_true, if_neg Bool.false_ne_true, below, if_neg Bool.false_ne_true]
  rfl

theorem stepReportSend_effect {s : State} {id : BitVec 12} {st : BitVec 32} {j : Job} (job : s.job? id = some j)
    (may : s.mayReport j st = true) (below : j.cur.isRoot = false) (heard : s.silenced (some id) = false) :
    Completes (.stepReportSend id st) s fun t =>
      (∃ j', t.job? id = some j' ∧ (j'.step st).reported = true ∧ j'.floor = j.floor)
        ∧ s.sends t j.cur.rootFlat (reportBytes id j.cur.plan.gen st (j.cur.plan.releaserIndex j.cur.self) (j.reportOf st) none)
        ∧ onlyParts (.jobs :: sendParts) s t := by
  refine ⟨_, exec_stepReportSend job may below, ?_⟩
  have marked := mapJob_parts s id fun j => j.mapStep st fun x => { x with reported := true }
  have found := job?_mapStep job st fun x => { x with reported := true }
  have heardNow := (silenced_mapJob s id (g := fun j => j.mapStep st fun x => { x with reported := true }) (fun _ => rfl)
    (fun _ => rfl) (some id)).trans heard
  generalize s.mapJob id (fun j => j.mapStep st fun x => { x with reported := true }) = u at *
  have sent := sendMgmt_parts u j.cur.rootFlat id j.cur.plan.gen
    (reportBytes id j.cur.plan.gen st (j.cur.plan.releaserIndex j.cur.self) (j.reportOf st) none) (.stepReport st)
  refine ⟨⟨_, (job?_of_jobs (sent .jobs (by decide)) id).trans found,
      congrArg StepSt.reported (step_mapStep_self j st (fun x => { x with reported := true }) fun _ => rfl), rfl⟩,
    sends_of_freeCount (marked .freeCount (by decide)) (sendMgmt_sends heardNow _ _ _ _),
    onlyParts_trans (onlyParts_mono marked (by decide)) (onlyParts_mono sent (by decide))⟩

/-! ## A MGMT message that completes (R56, R162) -/

/-- Taking a message up to its last frame and its ACK draws nothing free. -/
theorem taken_parts {s u : State} {port : Nat} {f : Frame}
    (received : (s.takeFrom .firmware port f).receive port f = (.complete, u)) :
    onlyParts (.rxs :: coreParts) s (u.ack port f.h) := by
  have counted := receive_parts (s.takeFrom .firmware port f) port f
  rw [received] at counted
  exact onlyParts_trans (onlyParts_trans (onlyParts_mono (takeFrom_parts s .firmware port f) (by decide))
    (onlyParts_mono counted (by decide))) (onlyParts_mono (ack_parts u port f.h) (by decide))

theorem mgmtIn_complete {s u : State} {port : Nat} {f : Frame} (good : tailGood f = true) (mgmt : f.h.ftype = 8#4) {kind : Nat}
    (ofKind : mgmtKind f = kind) (received : s.receive port f = (.complete, u)) (act : State → State) :
    s.mgmtIn port f kind act = act (u.ack port f.h) := by
  rw [State.mgmtIn, good, mgmt, ofKind, received]
  simp

theorem exec_stepReport {s : State} {port : Nat} {f : Frame} (free : s.queuedBehind .firmware port f = false) :
    exec (.stepReport port f) s = .next ((s.takeFrom .firmware port f).mgmtIn port f 0x41 fun s => s.reportIn f.payload) := by
  show execStepReport port f s = _
  rw [execStepReport, free, if_neg Bool.false_ne_true]

theorem exec_reportWithdraw {s : State} {port : Nat} {f : Frame} (free : s.queuedBehind .firmware port f = false) :
    exec (.reportWithdraw port f) s =
      .next ((s.takeFrom .firmware port f).mgmtIn port f 0x42 fun s => s.withdrawIn f.h.src f.payload) := by
  show execReportWithdraw port f s = _
  rw [execReportWithdraw, free, if_neg Bool.false_ne_true]

/-! ## STEP_REPORT at the step root (R129, R162) -/

/-- The step root does not commit a step of which a report is missing. -/
theorem tryCommit_missing {s : State} {id : BitVec 12} {j : Job} (job : s.job? id = some j) (step : BitVec 32) {i : Nat}
    (inside : i < j.cur.plan.releasers.length) (missing : ∀ r ∈ (j.step step).reports, r.releaser ≠ i) :
    s.tryCommit id step = s := by
  have none_ : (j.step step).reports.find? (fun r => r.releaser == i) = none :=
    List.find?_eq_none.mpr fun r hr => by simpa using missing r hr
  have fewer : ((List.range j.cur.plan.releasers.length).filterMap fun i =>
      (j.step step).reports.find? fun r => r.releaser == i).length ≠ j.cur.plan.releasers.length := by
    refine Nat.ne_of_lt (Nat.lt_of_lt_of_eq ?_ List.length_range)
    exact List.length_filterMap_lt_length_iff_exists.mpr ⟨i, List.mem_range.mpr inside, none_⟩
  rw [State.tryCommit, job]
  dsimp only
  rw [if_pos (by simp [fewer])]

/-- Nor does it commit any later step then. -/
theorem commitOn_missing {s : State} {id : BitVec 12} {j : Job} (job : s.job? id = some j) {i : Nat}
    (inside : i < j.cur.plan.releasers.length) (missing : ∀ r ∈ (j.step j.floor).reports, r.releaser ≠ i) (n : Nat) :
    s.commitOn id (n + 1) = s := by
  rw [State.commitOn, job]
  dsimp only
  rw [tryCommit_missing job j.floor inside missing, job]
  dsimp only
  rw [if_pos rfl]

/-- A report in the place of an older one of its switch. -/
def StepSt.putReport (r : ReportIn) (x : StepSt) : StepSt :=
  { x with reports := x.reports.filter (fun y => y.releaser != r.releaser) ++ [r] }

/-- A report is stored, and where another is missing nothing follows. -/
theorem putReport_missing {s : State} {id : BitVec 12} {j : Job} (job : s.job? id = some j) (waits : s.noneWait) (r : ReportIn)
    {i : Nat} (inside : i < j.cur.plan.releasers.length) (other : i ≠ r.releaser)
    (missing : ∀ r ∈ (j.step j.floor).reports, r.releaser ≠ i) :
    s.putReport id j.floor r = s.mapJob id fun k => k.mapStep j.floor (StepSt.putReport r) := by
  have stored := job?_mapStep job j.floor (StepSt.putReport r)
  have still : ∀ y ∈ ((j.mapStep j.floor (StepSt.putReport r)).step j.floor).reports, y.releaser ≠ i := by
    rw [step_mapStep_self j j.floor (StepSt.putReport r) fun _ => rfl]
    intro y hy
    rcases List.mem_append.mp hy with old | new
    · exact missing y (List.mem_filter.mp old).1
    · rw [List.mem_singleton.mp new]
      exact other.symm
  show ((s.mapJob id fun k => k.mapStep j.floor (StepSt.putReport r)).commitOn id 33).settleFree = _
  rw [commitOn_missing stored inside still]
  exact settleFree_none (waits.of_ctxs rfl)

/-- What a STEP_REPORT message says. -/
def reportSays (q : List Byte) : ReportIn :=
  { releaser := (stepMsg q).idx, flags := leAt q 10 1, chunksHere := leAt q 12 4, maxGen := leAt q 18 1, digest := sliceB q 24 64 }

/-- The step root stores a report for the step at its floor that is not an abort. -/
theorem reportIn_stores {s : State} {q : List Byte} {j : Job} (job : s.job? (stepMsg q).job = some j) (root : j.cur.isRoot = true)
    (gen : j.cur.plan.gen = (stepMsg q).gen) (step : (stepMsg q).step = j.floor) (ended : j.stepEnded j.floor = false)
    (window : j.inWindow j.floor = true) (idx : (stepMsg q).idx < j.cur.plan.releasers.length) (report : leAt q 11 1 ≠ 1) :
    s.reportIn q = s.putReport (stepMsg q).job j.floor (reportSays q) := by
  have takes : ¬ (!j.cur.isRoot || j.cur.plan.gen != (stepMsg q).gen || j.stepEnded (stepMsg q).step
      || !j.inWindow (stepMsg q).step || decide (j.cur.plan.releasers.length ≤ (stepMsg q).idx)) = true := by
    simp [root, gen, step, ended, window, idx]
  rw [State.reportIn, job]
  dsimp only
  rw [if_neg takes, if_neg report, step]
  rfl

section
variable {s u : State} {port : Nat} {f : Frame} {j : Job} (free : s.queuedBehind .firmware port f = false)
  (good : tailGood f = true) (mgmt : f.h.ftype = 8#4)
  (received : (s.takeFrom .firmware port f).receive port f = (.complete, u)) (job : s.job? (stepMsg f.payload).job = some j)
  (root : j.cur.isRoot = true)
include free good mgmt received job root

theorem stepReport_effect (waits : s.noneWait) (kind : mgmtKind f = 0x41) (gen : j.cur.plan.gen = (stepMsg f.payload).gen)
    (step : (stepMsg f.payload).step = j.floor) (ended : j.stepEnded j.floor = false) (window : j.inWindow j.floor = true)
    (idx : (stepMsg f.payload).idx < j.cur.plan.releasers.length) (report : leAt f.payload 11 1 ≠ 1) {i : Nat}
    (inside : i < j.cur.plan.releasers.length) (other : i ≠ (stepMsg f.payload).idx)
    (missing : ∀ r ∈ (j.step j.floor).reports, r.releaser ≠ i) : Completes (.stepReport port f) s fun t =>
      (∃ j', t.job? (stepMsg f.payload).job = some j' ∧ j'.stepEnded j.floor = false
          ∧ reportSays f.payload ∈ (j'.step j.floor).reports)
        ∧ onlyParts (.jobs :: controlMsgParts) s t := by
  have before := controlTaken_parts received
  have jobNow := (job?_of_jobs (before .jobs (by decide)) _).trans job
  have waitsNow := waits.of_ctxs (before .ctxs (by decide))
  refine ⟨_, exec_stepReport free, ?_⟩
  rw [mgmtIn_complete good mgmt kind received, reportIn_stores jobNow root gen step ended window idx report,
    putReport_missing jobNow waitsNow (reportSays f.payload) inside other missing]
  have kept := step_mapStep_self j j.floor (StepSt.putReport (reportSays f.payload)) fun _ => rfl
  have endedNow : (j.mapStep j.floor (StepSt.putReport (reportSays f.payload))).stepEnded j.floor = false :=
    (stepEnded_of (j := j) (k := j.mapStep j.floor (StepSt.putReport (reportSays f.payload))) rfl
      ((congrArg StepSt.ended kept).trans rfl)).trans ended
  refine ⟨⟨_, job?_mapStep jobNow _ _, endedNow, ?_⟩,
    onlyParts_trans (onlyParts_mono before (by decide)) (onlyParts_mono (mapJob_parts _ _ _) (by decide))⟩
  rw [kept]
  exact List.mem_append_right _ (List.mem_singleton_self _)

end

/-! ## REPORT_WITHDRAW (R152) -/

/-- The reports of a step without those of one releasing switch. -/
def StepSt.dropReport (i : Nat) (x : StepSt) : StepSt := { x with reports := x.reports.filter fun r => r.releaser != i }

/-- The reply to a withdrawal: COMMITTED, or else WITHDRAWN. -/
def withdrawReply (m : StepMsg) (committed : Bool) : List Byte :=
  leBytes 2 0x43 ++ leBytes 2 (jobGen m.job m.gen) ++ leBytes 4 m.step.toNat ++ leBytes 2 m.idx ++ leBytes 1 (b2n committed)
    ++ zeros 5

/-- What the step root keeps after a withdrawal: after the commit nothing changes. -/
def State.withdrawn (s : State) (m : StepMsg) (committed : Bool) : State :=
  if committed then s else s.mapJob m.job fun j => j.mapStep m.step (StepSt.dropReport m.idx)

theorem withdrawIn_eq {s : State} {q : List Byte} {j : Job} (job : s.job? (stepMsg q).job = some j) (root : j.cur.isRoot = true)
    (src : BitVec 24) : s.withdrawIn src q = (s.withdrawn (stepMsg q) (j.committed (stepMsg q).step)).sendMgmt src (stepMsg q).job
      (stepMsg q).gen (withdrawReply (stepMsg q) (j.committed (stepMsg q).step)) .plain := by
  rw [State.withdrawIn, job]
  dsimp only
  rw [root, Bool.not_true, if_neg Bool.false_ne_true]
  rfl

theorem withdrawn_effect {s : State} {m : StepMsg} {j : Job} (job : s.job? m.job = some j) (committed : Bool) :
    let t := s.withdrawn m committed
    (∃ j', t.job? m.job = some j' ∧ (committed = false → ∀ r ∈ (j'.step m.step).reports, r.releaser ≠ m.idx))
      ∧ onlyParts [.jobs] s t ∧ t.silenced (some m.job) = s.silenced (some m.job) := by
  unfold State.withdrawn
  cases committed with
  | true => exact ⟨⟨j, job, fun h => nomatch h⟩, onlyParts_refl _ s, rfl⟩
  | false =>
    refine ⟨⟨_, job?_mapStep job m.step (StepSt.dropReport m.idx), fun _ r hr => ?_⟩, mapJob_parts s _ _,
      silenced_mapJob s m.job (g := fun j => j.mapStep m.step (StepSt.dropReport m.idx)) (fun _ => rfl) (fun _ => rfl) _⟩
    rw [step_mapStep_self j m.step (StepSt.dropReport m.idx) fun _ => rfl] at hr
    simpa using (List.mem_filter.mp hr).2

theorem reportWithdraw_effect {s u : State} {port : Nat} {f : Frame} {j : Job} (free : s.queuedBehind .firmware port f = false)
    (good : tailGood f = true) (mgmt : f.h.ftype = 8#4)
    (received : (s.takeFrom .firmware port f).receive port f = (.complete, u)) (job : s.job? (stepMsg f.payload).job = some j)
    (root : j.cur.isRoot = true) (kind : mgmtKind f = 0x42) (heard : s.silenced (some (stepMsg f.payload).job) = false) :
    Completes (.reportWithdraw port f) s fun t =>
      (∃ j', t.job? (stepMsg f.payload).job = some j' ∧ (j.committed (stepMsg f.payload).step = false →
          ∀ r ∈ (j'.step (stepMsg f.payload).step).reports, r.releaser ≠ (stepMsg f.payload).idx))
        ∧ s.sends t f.h.src (withdrawReply (stepMsg f.payload) (j.committed (stepMsg f.payload).step))
        ∧ onlyParts (.jobs :: controlMsgParts) s t := by
  have before := taken_parts received
  have jobs := before .jobs (by decide)
  refine ⟨_, exec_reportWithdraw free, ?_⟩
  rw [mgmtIn_complete good mgmt kind received, withdrawIn_eq ((job?_of_jobs jobs _).trans job) root]
  obtain ⟨⟨j', found, gone⟩, parts, silent⟩ :=
    withdrawn_effect ((job?_of_jobs jobs _).trans job) (j.committed (stepMsg f.payload).step)
  have heardNow := silent.trans ((silenced_of_jobs jobs _).trans heard)
  have upTo := onlyParts_trans (onlyParts_mono before (d := .jobs :: .rxs :: coreParts) (by decide)) (onlyParts_mono parts (by decide))
  generalize (u.ack port f.h).withdrawn (stepMsg f.payload) (j.committed (stepMsg f.payload).step) = w at *
  have sent := sendMgmt_parts w f.h.src (stepMsg f.payload).job (stepMsg f.payload).gen
    (withdrawReply (stepMsg f.payload) (j.committed (stepMsg f.payload).step)) .plain
  exact ⟨⟨j', (job?_of_jobs (sent .jobs (by decide)) _).trans found, gone⟩,
    sends_of_freeCount (upTo .freeCount (by decide)) (sendMgmt_sends heardNow _ _ _ _),
    onlyParts_trans (onlyParts_mono upTo (by decide)) (onlyParts_mono sent (by decide))⟩

/-! ## O18 -/

/-- Settles O18: the report is sent under the job's own key, and while a report is missing the step root only stores what it hears;
the commit order of R162 does not move then. -/
theorem stepReports : Obligations.StepReports := by
  unfold Obligations.StepReports
  refine ⟨fun s id st j job may below heard => ?_, fun s u port f j free good mgmt waits received job root =>
    ⟨fun kind gen step ended window idx report ⟨i, inside, other, missing⟩ => ?_, fun kind heard => ?_⟩⟩
  · obtain ⟨t, ran, marked, sent, parts⟩ := stepReportSend_effect job may below heard
    exact ⟨t, ran, marked, sent, parts .ctxs (by decide), keepsParts_of_onlyParts parts (by decide),
      keepsParts_of_onlyParts parts (by decide)⟩
  · obtain ⟨t, ran, ⟨j', found, open_, stored⟩, parts⟩ := stepReport_effect free good mgmt received job root waits kind gen step
      ended window idx report inside other missing
    exact ⟨t, ran, ⟨j', found, open_, _, stored, rfl, rfl, rfl, rfl⟩, parts .ctxs (by decide),
      keepsParts_of_onlyParts parts (by decide), keepsParts_of_onlyParts parts (by decide)⟩
  · obtain ⟨t, ran, gone, sent, parts⟩ := reportWithdraw_effect free good mgmt received job root kind heard
    exact ⟨t, ran, gone, sent, parts .ctxs (by decide), keepsParts_of_onlyParts parts (by decide),
      keepsParts_of_onlyParts parts (by decide)⟩

end Sys2Proof.Machine

/-! PROOFS. A RESULT at a lower tier (spec/04_reduction_contexts.md R119, in part): its last frame, and the messages that carry it to
every receiver. -/
namespace Sys2Proof.Machine

open Sys2Proof

/-! ## Messages sent together (R55, R203) -/

/-- A fold whose turns leave the messages as they are leaves them so. -/
theorem sameOuts_foldl {β : Type} (f : State → β → State) (h : ∀ s b, sameOuts s (f s b)) (l : List β) (s : State) :
    sameOuts s (l.foldl f s) :=
  List.foldlRecOn (motive := fun t => sameOuts s t) l f (sameOuts_refl s) fun t before b _ => before.trans (h t b)

theorem sameOuts_foldl₂ {α β : Type} (f : α × State → β → α × State) (h : ∀ a b, sameOuts a.2 (f a b).2) (l : List β)
    (a : α × State) : sameOuts a.2 (l.foldl f a).2 :=
  List.foldlRecOn (motive := fun t => sameOuts a.2 t.2) l f (sameOuts_refl a.2) fun t before b _ => before.trans (h t b)

/-- Copies of a frame leave the switch's messages as they are, but for how many frames have left. -/
theorem emitCopies_sameOuts (s : State) (xs : List (Hop × Frame × Option Nat)) : sameOuts s (s.emitCopies xs) := by
  unfold State.emitCopies
  dsimp only
  refine outsAre.trans (sameOuts_foldl₂ _ (fun a x => ?_) xs ([], s)) (sameOuts_foldl _ (fun t d => ?_) _ _)
  · have placed := sameOuts_of_parts (place_parts a.2 a.1.length x.1 x.2.1) (by decide)
    split
    · rename_i e
      rw [e] at placed
      exact placed
    · rename_i e
      rw [e] at placed
      exact placed.trans (msgSent_sameOuts _ _)
  · split
    · exact sameOuts_refl t
    · exact (takeLocal_moves t d _ _).outs

/-- One of several messages opened: its hop, frames and key, and its record. -/
def openNext (job : Option (BitVec 12)) (a : List (Hop × List Frame × Nat) × State)
    (x : Hop × List Frame × Option Nat × Purpose) : List (Hop × List Frame × Nat) × State :=
  let (k, fs, s) := a.2.open_ x.1 x.2.1 job x.2.2.1 x.2.2.2
  (a.1 ++ [(x.1, fs, k)], s)

theorem openNext_outs (job : Option (BitVec 12)) (a : List (Hop × List Frame × Nat) × State)
    (x : Hop × List Frame × Option Nat × Purpose) :
    (openNext job a x).2.outs = a.2.outs ++ [a.2.sentOut x.1 x.2.1 job x.2.2.1 x.2.2.2] := rfl

/-- Every message opened has a record of its purpose, and no record is lost. -/
theorem openNext_foldl (job : Option (BitVec 12)) : ∀ (xs : List (Hop × List Frame × Option Nat × Purpose))
    (a : List (Hop × List Frame × Nat) × State), (∀ o ∈ a.2.outs, o ∈ (xs.foldl (openNext job) a).2.outs)
      ∧ ∀ x ∈ xs, ∃ o ∈ (xs.foldl (openNext job) a).2.outs, o.purpose = x.2.2.2
  | [], a => ⟨fun _ h => h, fun _ h => nomatch h⟩
  | x :: xs, a => by
    obtain ⟨kept, opened⟩ := openNext_foldl job xs (openNext job a x)
    rw [openNext_outs] at kept
    refine ⟨fun o h => kept o (List.mem_append_left _ h), fun y hy => ?_⟩
    rcases List.mem_cons.mp hy with rfl | later
    · exact ⟨_, kept _ (List.mem_append_right _ (List.mem_singleton_self _)), rfl⟩
    · exact opened y later

/-- Each of several messages sent together is one of the switch's messages then. -/
theorem sendMany_outs {s : State} {job : Option (BitVec 12)} (heard : s.silenced job = false)
    (xs : List (Hop × List Frame × Option Nat × Purpose)) :
    ∀ x ∈ xs, ∃ o ∈ (s.sendMany job xs).outs, o.purpose = x.2.2.2 := by
  intro x hx
  obtain ⟨o, mem, purpose⟩ := (openNext_foldl job xs ([], s)).2 x hx
  have left : sameOuts (xs.foldl (openNext job) ([], s)).2 (s.sendMany job xs) := by
    rw [State.sendMany, heard, if_neg Bool.false_ne_true]
    exact sameOuts_foldl _ (fun t i => emitCopies_sameOuts t _) _ _
  obtain ⟨o', mem', same⟩ := outsAre.mem left mem
  exact ⟨o', mem', (fields_of_still same).2.1.trans purpose⟩

/-! ## A RESULT at the tier that forwarded its partial (R119) -/

theorem sendResult_parts (s : State) (d : Nat) (l : Layout) (b : PlanBucket) (g : PlanGroup) (c : Ctx) (x : RedExt)
    (frames : List (Nat × List Byte)) (rcv : List SlotId) : onlyParts sendParts s (s.sendResult d l b g c x frames rcv) :=
  (sendMany_touches s _ _).parts

theorem insertBy_length {α : Type} (key : α → Nat) (x : α) : ∀ xs : List α, (insertBy key x xs).length = xs.length + 1
  | [] => rfl
  | y :: xs => by
    rw [insertBy]
    split
    · rfl
    · exact congrArg (· + 1) (insertBy_length key x xs)

/-- The frames of the RESULT of a context, with its last. -/
def Ctx.resultWith (c : Ctx) (f : Frame) : List (Nat × Nat × List Byte) :=
  insertBy (fun q => q.1) ((redOf f).frameIdx.toNat, (redOf f).elemOffset.toNat, f.payload) c.resultParts

/-- A context that its RESULT has released, which awaits the receivers. -/
def Ctx.resulted (c : Ctx) (f : Frame) (port : Nat) (rcv : List SlotId) : Ctx :=
  { c.freed with state := .released, resultParts := [], awaiting := rcv, parentMsg := some (f.h, port),
                 result := some (resultInfoOf (redOf f) c) }

theorem exec_resultReceived {s : State} {port : Nat} {f : Frame} (free : s.queuedBehind .firmware port f = false)
    (good : tailGood f = true) (reduction : f.h.ftype = 4#4) (code : (redOf f).code = codeResult) :
    exec (.resultReceived port f) s = .next ((s.takeFrom .firmware port f).resultIn port f) := by
  show execResultReceived port f s = _
  rw [execResultReceived, free, if_neg Bool.false_ne_true]
  simp [good, reduction, code]

section
variable {s : State} {port d : Nat} {f : Frame} {c : Ctx} {l : Layout}

/-- A RESULT frame for the context that forwarded its chunk at its generation. -/
theorem resultIn_forwarded {j : Job} (job : s.job? f.h.jobId = some j) (layout : j.layout f.h.layoutGen = some l)
    (window : j.inWindow (redOf f).step = true) (desc : l.desc (redOf f).step (redOf f).chunkId.toNat = d)
    (found : s.ctx? d = some c) (ofJob : c.job = f.h.jobId) (ofStep : c.step = (redOf f).step)
    (ofChunk : c.chunk = (redOf f).chunkId) (now : c.generation = (redOf f).generation.toNat) (forwarded : c.state = .forwarded) :
    s.resultIn port f = s.resultHere port f d c l := by
  have own : ¬ (c.job != f.h.jobId || c.step != (redOf f).step || c.chunk != (redOf f).chunkId) = true := by
    simp [ofJob, ofStep, ofChunk]
  rw [State.resultIn, job, Option.bind_some, layout, Option.map_some]
  dsimp only
  rw [window, desc, found]
  dsimp only
  rw [if_neg own, now, if_neg (Nat.lt_irrefl _), if_neg (Nat.lt_irrefl _), forwarded]
  rfl

variable {b : PlanBucket} {g : PlanGroup} (bucket : l.bucketOf c = some (b, g))
  (last : c.resultParts.length = (redOf f).frameCnt.toNat)
  (another : ∀ q ∈ c.resultParts, q.1 ≠ (redOf f).frameIdx.toNat) {rcv : List SlotId}
  (receivers : s.receivers l b g c.chunk.toNat = rcv) (some_ : rcv ≠ [])
include bucket last another receivers some_

/-- The last frame of the RESULT releases the context and sends the RESULT on to the receivers. -/
theorem resultHere_last : s.resultHere port f d c l =
    ((s.setCtx d (c.resulted f port rcv)).dropPartials d).sendResult d l b g (c.resulted f port rcv)
      { redOf f with tier := 0 } ((c.resultWith f).map (·.2)) rcv := by
  have fresh : (c.resultParts.any fun q => q.1 == (redOf f).frameIdx.toNat) = false :=
    List.any_eq_false.mpr fun q hq => by simpa using another q hq
  have whole : ¬ (c.resultWith f).length < (redOf f).frameCnt.toNat + 1 := by
    rw [Ctx.resultWith, insertBy_length, last]
    exact Nat.lt_irrefl _
  rw [State.resultHere, bucket]
  dsimp only
  rw [fresh, if_neg Bool.false_ne_true, receivers]
  refine (if_neg whole).trans ?_
  refine maybeFinal_awaits _ d (c.resulted f port rcv) ?_ some_
  refine (ctx?_of_ctxs ((sendResult_parts _ d l b g _ _ _ rcv) .ctxs (by decide)) d).trans ?_
  refine (ctx?_of_ctxs (dropOuts_parts _ _ .ctxs (by decide)) d).trans (setCtx_ctx?_self s d _)

/-- What releasing by a RESULT leaves: the context written, and to each receiver a message of its own. -/
theorem resultHere_effect (heard : s.silenced (some l.plan.job) = false) :
    onlyParts controlMsgParts (s.setCtx d (c.resulted f port rcv)) (s.resultHere port f d c l)
      ∧ ∀ w ∈ rcv, ∃ o ∈ (s.resultHere port f d c l).outs, o.purpose = .result d c.generation w := by
  have dropped : onlyParts [.outs, .ended] (s.setCtx d (c.resulted f port rcv))
    ((s.setCtx d (c.resulted f port rcv)).dropPartials d) := dropOuts_parts _ _
  rw [resultHere_last bucket last another receivers some_]
  refine ⟨onlyParts_trans (onlyParts_mono dropped (by decide)) (onlyParts_mono (sendResult_parts _ d l b g _ _ _ rcv) (by decide)),
    fun w hw => ?_⟩
  have heardNow : ((s.setCtx d (c.resulted f port rcv)).dropPartials d).silenced (some l.plan.job) = false := by
    rw [silenced_of_jobs (dropped .jobs (by decide)), silenced_of_jobs (setCtx_parts s d _ .jobs (by decide)), heard]
  exact sendMany_outs heardNow _ _ (List.mem_map_of_mem hw)

end

/-! ## O14 -/

/-- Settles O14: the context is written once, and each receiver's message is opened before any frame leaves. -/
theorem resultIsReplicated : Obligations.ResultIsReplicated := by
  unfold Obligations.ResultIsReplicated
  rintro s u port d f j l b g c free heard rfl good reduction code job layout window rfl found ofJob ofStep ofChunk now forwarded
    last another bucket some_
  have taken := onlyParts_mono (d := controlMsgParts) (takeFrom_parts s .firmware port f) (by decide)
  have jobNow := (job?_of_jobs (taken .jobs (by decide)) f.h.jobId).trans job
  have foundNow := (ctx?_of_ctxs (taken .ctxs (by decide)) _).trans found
  have heardNow := (silenced_of_jobs (taken .jobs (by decide)) (some l.plan.job)).trans heard
  obtain ⟨after, sent⟩ := resultHere_effect (s := s.takeFrom .firmware port f) (port := port)
    (d := l.desc (redOf f).step (redOf f).chunkId.toNat) bucket last another rfl some_ heardNow
  obtain ⟨written, others⟩ := rewritten_ctx? taken after (by decide)
  have parts := rewritten_parts taken after
  refine ⟨_, exec_resultReceived free good reduction code, ?_⟩
  rw [resultIn_forwarded jobNow layout window rfl foundNow ofJob ofStep ofChunk now forwarded]
  exact ⟨⟨_, written, rfl, rfl, rfl, rfl, rfl, rfl⟩, sent, others, keepsParts_of_onlyParts parts (by decide),
    keepsParts_of_onlyParts parts (by decide), rewritten_bytes taken (after .mem (by decide))⟩

end Sys2Proof.Machine

/-! PROOFS. Frames at row 12 of R108 (spec/04_reduction_contexts.md R108, R110, R115, R123): a contribution and a partial folded into
an OPEN context that holds its granules. -/
namespace Sys2Proof.Machine

open Sys2Proof

/-! ## A mill's frame is taken (R23) -/

theorem takeMill_moves (s : State) (p : Nat) (f : Frame) : Moves bufferRegs s (s.takeMill p f) :=
  Moves.foldl _ _ _ fun s d _ => takeFrom_moves s (.mill d) p f

theorem exec_contribFrame {s : State} {p : Nat} {f : Frame} (free : s.millBehind p f = false) (good : tailGood f = true)
    (flt : MillFault) : exec (.contribFrame p f flt) s = .next ((s.takeMill p f).contrib p f flt) := by
  show execContribFrame p f flt s = _
  rw [execContribFrame, free, if_neg Bool.false_ne_true]
  dsimp only
  rw [good, if_pos rfl]

theorem exec_partialFrame {s : State} {p : Nat} {f : Frame} (free : s.millBehind p f = false) (good : tailGood f = true)
    (flt : MillFault) : exec (.partialFrame p f flt) s = .next ((s.takeMill p f).partialIn p f flt) := by
  show execPartialFrame p f flt s = _
  rw [execPartialFrame, free, if_neg Bool.false_ne_true]
  dsimp only
  rw [good, if_pos rfl]

/-! ## Slots (R109) -/

theorem slot_mapSlot {c : Ctx} {w : SlotId} (g : Slot → Slot) (keeps : ∀ y, (g y).who = y.who)
    (listed : ∃ y ∈ c.slots, y.who = w) : (c.mapSlot w g).slot w = g (c.slot w) := by
  have same : ((fun y : Slot => y.who == w) ∘ fun y => if y.who = w then g y else y) = fun y => y.who == w := by
    funext y
    rw [Function.comp_apply]
    split
    · rw [keeps]
    · rfl
  rw [Ctx.slot, Ctx.mapSlot, List.find?_map, same, Ctx.slot]
  cases found : c.slots.find? fun y => y.who == w with
  | none =>
    obtain ⟨y, mem, who⟩ := listed
    exact absurd who (by simpa using List.find?_eq_none.mp found y mem)
  | some y =>
    have who : y.who = w := by simpa using List.find?_some found
    rw [Option.map_some, if_pos who]
    rfl

theorem listed_mapSlot {c : Ctx} {w : SlotId} (g : Slot → Slot) (keeps : ∀ y, (g y).who = y.who)
    (listed : ∃ y ∈ c.slots, y.who = w) : ∃ y ∈ (c.mapSlot w g).slots, y.who = w := by
  obtain ⟨y, mem, who⟩ := listed
  refine ⟨_, List.mem_map_of_mem mem, ?_⟩
  rw [if_pos who, keeps, who]

/-- One frame of a chunk of more than one does not fill a slot's mask. -/
theorem maskFull_one {i n : Nat} (small : i < 16) (more : 0 < n) : maskFull (BitVec.ofNat 16 (2 ^ i)) (n + 1) = false := by
  refine decide_eq_false fun full => ?_
  have bit (k : Nat) (hk : k < n + 1) : i = k := by
    have set : ((2 ^ i % 2 ^ 16) % 2 ^ (n + 1)).testBit k = true := by
      rw [show 2 ^ i % 2 ^ 16 % 2 ^ (n + 1) = 2 ^ (n + 1) - 1 from full, Nat.testBit_two_pow_sub_one]
      exact decide_eq_true hk
    rw [Nat.mod_eq_of_lt (Nat.pow_lt_pow_right (by omega) small), Nat.testBit_mod_two_pow, Nat.testBit_two_pow] at set
    simpa [hk] using set
  have zero := bit 0 (by omega)
  have one := bit 1 (by omega)
  omega

/-! ## A context rewritten, once or more, for a frame (R107) -/

/-- What folding a frame touches. -/
abbrev foldParts : List Part := [.ctxs, .descCache, .mem, .memory, .rxs, .regs, .core, .outs, .freeCount]

/-- The context of a descriptor has been written, at one mill, and the frame answered: no other context changes, the die's cache
has nothing new but the descriptor, and no byte outside the cached descriptors changes. -/
structure WritesCtx (d die : Nat) (c : Ctx) (u t : State) : Prop where
  here : t.ctx? d = some c
  others : ∀ e, e ≠ d → t.ctx? e = u.ctx? e
  parts : onlyParts foldParts u t
  bytes : keepsBytes u t
  cached : ∀ x ∈ t.descCache, x ≠ (die, d) → x ∈ u.descCache
  waits : t.noneWait
  outs : sameOuts u t

/-- The descriptor that a context's write touches is not itself evicted. -/
theorem setCtx_mem_recached (s : State) (d : Nat) (c : Ctx) :
    (({ s with descCache := s.descCache.filter (· != (c.mill / 32, d)) } : State).setCtx d c).mem = (s.setCtx d c).mem := by
  unfold State.setCtx State.touchDesc
  simp only [List.filter_filter, Bool.and_self]
  split
  · rfl
  · split
    · rfl
    · rfl

theorem setCtx_bytes_others (s : State) (d : Nat) (c : Ctx) (a : Nat)
    (free : ∀ x ∈ s.descCache, x ≠ (c.mill / 32, d) → a / 32 ≠ x.2) : (s.setCtx d c).readMem a 1 = s.readMem a 1 := by
  have kept := setCtx_bytes { s with descCache := s.descCache.filter (· != (c.mill / 32, d)) } d c a fun x hx => by
    obtain ⟨mem, other⟩ := List.mem_filter.mp hx
    exact free x mem (bne_iff_ne.mp other)
  rw [State.readMem, setCtx_mem_recached] at kept
  exact kept

/-- The cache entries of a die after a touch: those from before, and the one touched. -/
theorem touchDesc_newest {s : State} {die d : Nat} {y : Nat × Nat} (h : y ∈ (s.touchDesc die d).descCache) (other : y ≠ (die, d)) :
    y ∈ s.descCache := by
  unfold State.touchDesc at h
  dsimp only at h
  split at h
  · exact (List.mem_filter.mp ((List.mem_cons.mp h).resolve_left other)).1
  · split at h
    · exact (List.mem_filter.mp (List.mem_filter.mp ((List.mem_cons.mp h).resolve_left other)).1).1
    · exact h

section
variable {d die : Nat} {c c' : Ctx} {u t v : State}

theorem WritesCtx.refl (here : u.ctx? d = some c) (waits : u.noneWait) (die : Nat) : WritesCtx d die c u u :=
  ⟨here, fun _ _ => rfl, onlyParts_refl _ u, fun _ _ => rfl, fun _ h _ => h, waits, sameOuts_refl u⟩

/-- The context is written again. -/
theorem WritesCtx.setCtx (a : WritesCtx d die c u t) (mill : c'.mill / 32 = die) (wait : c'.commitWait = false) :
    WritesCtx d die c' u (t.setCtx d c') where
  here := setCtx_ctx?_self t d c'
  others e he := (setCtx_ctx?_ne t c' he).trans (a.others e he)
  parts := onlyParts_trans a.parts (onlyParts_mono (setCtx_parts t d c') (by decide))
  bytes x free := (setCtx_bytes_others t d c' x fun y hy other => free y (a.cached y hy (mill ▸ other))).trans (a.bytes x free)
  cached x hx other := a.cached x (touchDesc_newest (s := { t with ctxs := sput d c' t.ctxs }) hx (mill ▸ other)) other
  waits := a.waits.setCtx d wait
  outs := a.outs.trans (sameOuts_of_parts (setCtx_parts t d c') (by decide))

/-- An operation on the packet buffer, on registers or on what is answered leaves the context as it was written. -/
theorem WritesCtx.after (a : WritesCtx d die c u t) {parts : List Part} (b : onlyParts parts t v) (outs : sameOuts t v)
    (small : ∀ p ∈ parts, p ∈ foldParts) (apart : ∀ p ∈ [Part.ctxs, .descCache, .mem], p ∉ parts) : WritesCtx d die c u v where
  here := (ctx?_of_ctxs (b .ctxs (apart _ (by decide))) d).trans a.here
  others e he := (ctx?_of_ctxs (b .ctxs (apart _ (by decide))) e).trans (a.others e he)
  parts := onlyParts_trans a.parts (onlyParts_mono b small)
  bytes x free := by rw [← a.bytes x free, State.readMem, b .mem (apart _ (by decide)), State.readMem]
  cached x hx other := a.cached x ((b .descCache (apart _ (by decide))) ▸ hx) other
  waits := a.waits.of_ctxs (b .ctxs (apart _ (by decide)))
  outs := a.outs.trans outs

theorem WritesCtx.bumpBy (a : WritesCtx d die c u t) (f : Fld) (i k : Nat) : WritesCtx d die c u (t.bumpBy f i k) :=
  a.after (bumpBy_parts t f i k) (sameOuts_refl t) (by decide) (by decide)

theorem WritesCtx.answers (a : WritesCtx d die c u t) (b : Answers t v) : WritesCtx d die c u v :=
  a.after b.parts b.outs (by decide) (by decide)

theorem WritesCtx.ack (a : WritesCtx d die c u t) (p : Nat) (h : BaseHdr) : WritesCtx d die c u (t.ack p h) :=
  a.answers (emit_answers t _ _ _)

end

/-! ## What follows a frame at row 12 -/

/-- A chunk that awaits more slots is not finished. -/
theorem tryFinish_awaits {t : State} {d : Nat} {c : Ctx} (here : t.ctx? d = some c) (more : c.done + 1 ≤ c.expect) (dup : Bool) :
    t.tryFinish d dup = t := by
  have short : (c.state != .openS || c.held || c.expect = 0 || c.done != c.expect || c.withdrawing) = true := by
    have ne : (c.done != c.expect) = true := bne_iff_ne.mpr (by omega)
    simp [ne]
  rw [State.tryFinish, here]
  exact if_pos short

theorem takeHeldFail_none {t : State} {d : Nat} {c : Ctx} (here : t.ctx? d = some c)
    (none_ : ∀ k, t.job? c.job = some k → (k.step c.step).heldFails = []) (l : Layout) (g : PlanGroup) : t.takeHeldFail l g d = t := by
  have held : ((t.job? c.job).bind fun j => (j.step c.step).heldFails.find? fun x => x.1 == c.chunk.toNat) = none :=
    Option.bind_eq_none_iff.mpr fun k job => by rw [none_ k job, List.find?_nil]
  rw [State.takeHeldFail, here]
  dsimp only
  rw [held]

/-- Where every group that the switch releases has survivors enough, no step aborts. -/
theorem minSurvivors_enough {t : State} {l : Layout} (enough : ∀ q ∈ l.plan.groups, l.releases q = true →
    q.minSurvivors ≤ (t.curBank.survivors l.plan.job q).length) : t.minSurvivors l = t := by
  have short : (l.plan.groups.filter fun g =>
      l.releases g && decide ((t.curBank.survivors l.plan.job g).length < g.minSurvivors)) = [] := by
    refine List.filter_eq_nil_iff.mpr fun q hq => ?_
    rw [Bool.and_eq_true, decide_eq_true_eq, not_and, Nat.not_lt]
    exact enough q hq
  rw [State.minSurvivors, short, List.filter_eq_nil_iff.mpr]
  · rfl
  · intro x _
    cases l.bucketOf x.2 <;> simp

section
variable {d die : Nat} {c c' : Ctx} {u t : State} {l : Layout} (noFails : ∀ k, u.job? c.job = some k → (k.step c.step).heldFails = [])
  (enough : ∀ q ∈ l.plan.groups, l.releases q = true → q.minSurvivors ≤ (u.curBank.survivors l.plan.job q).length)
include noFails enough

/-- A frame that was only folded has no consequence beyond its context. -/
theorem WritesCtx.settled (a : WritesCtx d die c' u t) (job : c'.job = c.job) (step : c'.step = c.step) (g : PlanGroup) :
    ((t.takeHeldFail l g d).minSurvivors l).settleFree = t := by
  have bank : t.curBank = u.curBank :=
    curBank_of (a.parts .epoch (by decide)) (a.parts .bank0 (by decide)) (a.parts .bank1 (by decide))
  have fails : ∀ k, t.job? c'.job = some k → (k.step c'.step).heldFails = [] := by
    rw [job, step, job?_of_jobs (a.parts .jobs (by decide))]
    exact noFails
  rw [takeHeldFail_none a.here fails, minSurvivors_enough (bank ▸ enough), settleFree_none a.waits]

end

/-- A context that holds its granules asks for none. -/
theorem takePool_holds {c : Ctx} (holds : c.gclass ≠ 0) (s : State) (b : PlanBucket) (d p : Nat) (f : Frame) :
    s.takePool b d c p f = .ok c s := by
  rw [State.takePool, if_pos (bne_iff_ne.mpr holds)]


/-! ## A contribution (R108, R110, R115) -/

/-- A slot that has recorded an exponent (R97). -/
def Slot.sees (e : Int) (y : Slot) : Slot := { y with exp := max y.exp e, expHeld := true }

/-- A slot with the bit of a contribution's frame set, from the message that brought it (R41, R110). -/
def Slot.marked (f : Frame) (z : Slot) : Slot :=
  { z with mask := z.mask ||| BitVec.ofNat 16 (2 ^ (redOf f).frameIdx.toNat), msgId := some f.h.msgId,
           ext := if z.msgId = some f.h.msgId then z.ext else some (redOf f) }

/-- A complete slot holds no frames. -/
def Slot.completed (y : Slot) : Slot := { y with complete := true, parts := [] }

/-- The tally of a tile's elements (R246). -/
def tileTally (b : PlanBucket) (c : Ctx) (t : Tile) : Nat × Nat := if b.tally then tallySum (b.tallyShift c.anchor) t.vals else (0, 0)

/-- A context with a frame of a contribution folded: its elements added, its bit of the mask set, its exponent recorded. -/
def Ctx.folded (c : Ctx) (b : PlanBucket) (f : Frame) (w : SlotId) : Ctx :=
  let x := redOf f
  let t := contribTile b x f.payload
  let c1 := ((c.addTile t.off t.vals t.sps).mapSlot w (Slot.sees (max x.maxExp.toInt t.maxExp))).mapSlot w (Slot.marked f)
  { c1 with maxExp := max c1.maxExp x.maxExp.toInt, flushed := c1.flushed || t.flushes != 0,
            tallyIn := c1.tallyIn + (tileTally b c t).1, tallyClamped := c1.tallyClamped + (tileTally b c t).2 }

section
variable {c : Ctx} {w : SlotId} (listed : ∃ y ∈ c.slots, y.who = w)
include listed

theorem folded_slot (b : PlanBucket) (f : Frame) :
    (c.folded b f w).slot w = ((c.slot w).sees (max (redOf f).maxExp.toInt (contribTile b (redOf f) f.payload).maxExp)).marked f := by
  have whole : (c.folded b f w).slot w = ((c.mapSlot w (Slot.sees (max (redOf f).maxExp.toInt
    (contribTile b (redOf f) f.payload).maxExp))).mapSlot w (Slot.marked f)).slot w := rfl
  rw [whole, slot_mapSlot (Slot.marked f) (fun _ => rfl) (listed_mapSlot (Slot.sees _) (fun _ => rfl) listed),
    slot_mapSlot (Slot.sees _) (fun _ => rfl) listed]

theorem folded_listed (b : PlanBucket) (f : Frame) : ∃ y ∈ (c.folded b f w).slots, y.who = w :=
  listed_mapSlot (c := c.mapSlot w (Slot.sees (max (redOf f).maxExp.toInt (contribTile b (redOf f) f.payload).maxExp)))
    (Slot.marked f) (fun _ => rfl) (listed_mapSlot (Slot.sees _) (fun _ => rfl) listed)

theorem complete_slot (x : RedExt) (n : Nat) : ((c.complete w x n).slot w).complete = true := by
  have whole : (c.complete w x n).slot w = (c.mapSlot w Slot.completed).slot w := rfl
  rw [whole, slot_mapSlot Slot.completed (fun _ => rfl) listed]
  rfl

end

/-- What the tile of a contribution counts: its flushes and the clamps of its tally. -/
def State.countTile (s : State) (c : Ctx) (b : PlanBucket) (t : Tile) : State :=
  (s.bumpBy F.ARITH_FLUSHES_INPUT_FLUSHES c.mill t.flushes).bumpBy F.TALLY_EVENTS_TALLY_CLAMPS (c.mill / 32) (tileTally b c t).2

section
variable {s : State} {p d : Nat} {f : Frame} {b : PlanBucket} {w : SlotId} {c : Ctx} (open_ : (c.slot w).complete = false)
  (new : (c.slot w).ext = none) (checked : (redOf f).sumCheck.toNat < checkP)
include open_ new checked

/-- A contribution that is new to its slot and does not breach the anchor is folded: it completes the slot, or the mask holds it. -/
theorem foldContrib_folds (mask : (c.slot w).mask = 0#16) (within : (contribTile b (redOf f) f.payload).breach = false) :
    s.foldContrib p f noFault b d w c =
      if maskFull ((c.folded b f w).slot w).mask ((redOf f).frameCnt.toNat + 1) then
        ((((s.setCtx d c).countTile c b (contribTile b (redOf f) f.payload)).setCtx d ((c.folded b f w).complete w (redOf f) 1)).ack
          p f.h).tryFinish d false
      else ((s.setCtx d c).countTile c b (contribTile b (redOf f) f.payload)).setCtx d (c.folded b f w) := by
  have bit : ((c.slot w).mask.getLsbD (redOf f).frameIdx.toNat) = false := by
    rw [mask]
    exact BitVec.getLsbD_zero
  have lanes : c.laneFault noFault (contribTile b (redOf f) f.payload).off (contribTile b (redOf f) f.payload).vals = none :=
    residueMiss_none c _ _
  have clean : (s.setCtx d c).sramRead (c.mill / 32) blkMill c.mill noFault.word = (false, s.setCtx d c) := rfl
  rw [State.foldContrib]
  dsimp only
  rw [if_neg (show ¬ noFault.tagBad = true from Bool.false_ne_true), open_, if_neg Bool.false_ne_true, new]
  dsimp only
  rw [if_neg (by simp [checked]), within, if_neg Bool.false_ne_true, bit, if_neg Bool.false_ne_true, clean]
  dsimp only
  rw [lanes]
  rfl

end

/-- The same chunk of the same step, in the same state and at the same generation. -/
structure Ctx.SameChunk (c c' : Ctx) : Prop where
  state : c'.state = c.state
  anchor : c'.anchor = c.anchor
  generation : c'.generation = c.generation
  job : c'.job = c.job
  step : c'.step = c.step
  mill : c'.mill = c.mill
  expect : c'.expect = c.expect
  wait : c'.commitWait = c.commitWait

theorem Ctx.SameChunk.trans {c c' c'' : Ctx} (h : c.SameChunk c') (h' : c'.SameChunk c'') : c.SameChunk c'' where
  state := h'.state.trans h.state
  anchor := h'.anchor.trans h.anchor
  generation := h'.generation.trans h.generation
  job := h'.job.trans h.job
  step := h'.step.trans h.step
  mill := h'.mill.trans h.mill
  expect := h'.expect.trans h.expect
  wait := h'.wait.trans h.wait

theorem sameChunk_folded (c : Ctx) (b : PlanBucket) (f : Frame) (w : SlotId) : c.SameChunk (c.folded b f w) := by
  constructor <;> simp only [Ctx.folded, Ctx.mapSlot, Ctx.addTile]

theorem sameChunk_complete (c : Ctx) (w : SlotId) (x : RedExt) (n : Nat) : c.SameChunk (c.complete w x n) := by
  constructor <;> simp only [Ctx.complete, Ctx.mapSlot]

@[simp] theorem folded_done (c : Ctx) (b : PlanBucket) (f : Frame) (w : SlotId) : (c.folded b f w).done = c.done := by
  simp only [Ctx.folded, Ctx.mapSlot, Ctx.addTile]

@[simp] theorem folded_runCheck (c : Ctx) (b : PlanBucket) (f : Frame) (w : SlotId) : (c.folded b f w).runCheck = c.runCheck := by
  simp only [Ctx.folded, Ctx.mapSlot, Ctx.addTile]

@[simp] theorem folded_contributions (c : Ctx) (b : PlanBucket) (f : Frame) (w : SlotId) :
    (c.folded b f w).contributions = c.contributions := by
  simp only [Ctx.folded, Ctx.mapSlot, Ctx.addTile]

theorem folded_acc (c : Ctx) (b : PlanBucket) (f : Frame) (w : SlotId) : (c.folded b f w).acc =
    (c.addTile (contribTile b (redOf f) f.payload).off (contribTile b (redOf f) f.payload).vals
      (contribTile b (redOf f) f.payload).sps).acc := by
  simp only [Ctx.folded, Ctx.mapSlot]

section
variable (c : Ctx) (w : SlotId) (x : RedExt) (n : Nat)

@[simp] theorem complete_done : (c.complete w x n).done = c.done + 1 := rfl

@[simp] theorem complete_runCheck : (c.complete w x n).runCheck = (c.runCheck + x.sumCheck.toNat) % checkP := rfl

@[simp] theorem complete_contributions : (c.complete w x n).contributions = c.contributions + n := rfl


end

/-- What the fold of a contribution makes of its context: the elements added, and the slot complete or still awaited. -/
structure Ctx.TookFrame (c : Ctx) (b : PlanBucket) (f : Frame) (w : SlotId) (c' : Ctx) : Prop extends c.SameChunk c' where
  acc : c'.acc = (c.addTile (contribTile b (redOf f) f.payload).off (contribTile b (redOf f) f.payload).vals
    (contribTile b (redOf f) f.payload).sps).acc
  more : (redOf f).frameCnt ≠ 0#4 → c'.done = c.done ∧ c'.runCheck = c.runCheck
    ∧ (c'.slot w).mask = BitVec.ofNat 16 (2 ^ (redOf f).frameIdx.toNat) ∧ (c'.slot w).complete = false
  last : (redOf f).frameCnt = 0#4 ∧ (redOf f).frameIdx = 0#4 → c'.done = c.done + 1 ∧ (c'.slot w).complete = true
    ∧ c'.runCheck = (c.runCheck + (redOf f).sumCheck.toNat) % checkP ∧ c'.contributions = c.contributions + 1

section
variable {c : Ctx} {w : SlotId} (listed : ∃ y ∈ c.slots, y.who = w) {b : PlanBucket} {f : Frame}
  (mask : (c.slot w).mask = 0#16) (open_ : (c.slot w).complete = false)
include listed mask

theorem folded_mask : ((c.folded b f w).slot w).mask = BitVec.ofNat 16 (2 ^ (redOf f).frameIdx.toNat) := by
  rw [folded_slot listed]
  show (c.slot w).mask ||| _ = _
  rw [mask, BitVec.zero_or]

include open_

/-- A frame that does not fill the mask: no frame of a chunk of one is left out so. -/
theorem tookFrame_more (part : maskFull ((c.folded b f w).slot w).mask ((redOf f).frameCnt.toNat + 1) = false) :
    c.TookFrame b f w (c.folded b f w) where
  toSameChunk := sameChunk_folded c b f w
  acc := folded_acc c b f w
  more _ := ⟨folded_done c b f w, folded_runCheck c b f w, folded_mask listed mask, by rw [folded_slot listed]; exact open_⟩
  last one := by
    rw [folded_mask listed mask, one.1, one.2] at part
    exact absurd part (by decide)

omit open_ in
/-- A frame that fills the mask is the only one of its chunk. -/
theorem tookFrame_last (full : maskFull ((c.folded b f w).slot w).mask ((redOf f).frameCnt.toNat + 1) = true) :
    c.TookFrame b f w ((c.folded b f w).complete w (redOf f) 1) where
  toSameChunk := (sameChunk_folded c b f w).trans (sameChunk_complete _ w _ 1)
  acc := folded_acc c b f w
  more several := by
    have count : 0 < (redOf f).frameCnt.toNat := Nat.pos_of_ne_zero fun zero => several (BitVec.eq_of_toNat_eq zero)
    rw [folded_mask listed mask, maskFull_one (redOf f).frameIdx.isLt count] at full
    exact absurd full Bool.false_ne_true
  last _ := ⟨by rw [complete_done, folded_done], complete_slot (folded_listed listed b f) _ _,
    by rw [complete_runCheck, folded_runCheck], by rw [complete_contributions, folded_contributions]⟩

end

section
variable {u : State} {p d : Nat} {f : Frame} {b : PlanBucket} {w : SlotId} {c c' : Ctx} (here : u.ctx? d = some c') (waits : u.noneWait)
  (wait : c.commitWait = false) (more : c.done + 1 < c.expect) (listed : ∃ y ∈ c.slots, y.who = w)
  (open_ : (c.slot w).complete = false) (new : (c.slot w).ext = none) (checked : (redOf f).sumCheck.toNat < checkP)
include here waits wait more listed open_ new checked

/-- The fold of a contribution writes its context and nothing else. -/
theorem foldContrib_writes (mask : (c.slot w).mask = 0#16) (within : (contribTile b (redOf f) f.payload).breach = false) :
    ∃ c₁, WritesCtx d (c.mill / 32) c₁ u (u.foldContrib p f noFault b d w c) ∧ c.TookFrame b f w c₁ := by
  have counted : WritesCtx d (c.mill / 32) c u ((u.setCtx d c).countTile c b (contribTile b (redOf f) f.payload)) :=
    (((WritesCtx.refl here waits (c.mill / 32)).setCtx rfl wait).bumpBy _ _ _).bumpBy _ _ _
  rw [foldContrib_folds open_ new checked mask within]
  split
  · rename_i full
    have took := tookFrame_last listed mask full
    have written := (counted.setCtx (congrArg (· / 32) took.mill) (took.wait.trans wait)).ack p f.h
    have awaits : ((c.folded b f w).complete w (redOf f) 1).done + 1 ≤ ((c.folded b f w).complete w (redOf f) 1).expect := by
      rw [took.expect, complete_done, folded_done]
      exact more
    rw [tryFinish_awaits written.here awaits]
    exact ⟨_, written, took⟩
  · rename_i part
    have took := tookFrame_more listed mask open_ (Bool.eq_false_iff.mpr part)
    exact ⟨_, counted.setCtx (congrArg (· / 32) took.mill) (took.wait.trans wait), took⟩

end

/-! ## A frame taken at row 12 -/

section
variable {u : State} {p d : Nat} {f : Frame} {l : Layout} {b : PlanBucket} {g : PlanGroup} {w : SlotId} {c : Ctx}

theorem contrib_pass (pass : u.classify p f false = .pass l b g d w) : u.contrib p f noFault =
    (((u.runContrib p f noFault l b g d w).takeHeldFail l g d).minSurvivors l).settleFree := by
  rw [State.contrib, pass]
  rfl

theorem partialIn_pass (plain : isRequest (redOf f) = false) (pass : u.classify p f true = .pass l b g d w) :
    u.partialIn p f noFault = (((u.runPartial p f noFault l b g d w).takeHeldFail l g d).minSurvivors l).settleFree := by
  rw [State.partialIn, plain, Bool.false_and, if_neg Bool.false_ne_true, pass]
  rfl

section
variable (here : u.ctx? d = some c) (state : c.state = .openS) (held : c.held = false) (holds : c.gclass ≠ 0)
  (fresh : u.refused p f.h = false)
include here state held holds fresh

/-- Row 12 for a contribution in an OPEN context that holds its granules. -/
theorem runContrib_open (flt : MillFault) :
    u.runContrib p f flt l b g d w = u.foldContrib p f flt b d w (c.countFrames (redOf f)) := by
  simp [State.runContrib, here, state, held, fresh, takePool_holds holds]

/-- Row 12 for a partial there. -/
theorem runPartial_open (plain : isRequest (redOf f) = false) (flt : MillFault) :
    u.runPartial p f flt l b g d w = u.foldPartial p f flt b d w c := by
  simp [State.runPartial, here, state, held, fresh, takePool_holds holds, plain]

variable (waits : u.noneWait) (more : c.done + 1 < c.expect) (listed : ∃ y ∈ c.slots, y.who = w)
  (open_ : (c.slot w).complete = false) (new : (c.slot w).ext = none) (checked : (redOf f).sumCheck.toNat < checkP)
  (noFails : ∀ k, u.job? c.job = some k → (k.step c.step).heldFails = [])
  (enough : ∀ q ∈ l.plan.groups, l.releases q = true → q.minSurvivors ≤ (u.curBank.survivors l.plan.job q).length)
include waits more listed open_ new checked noFails enough

/-- A contribution at row 12 is folded into its context, and has no further consequence. -/
theorem contrib_folds (pass : u.classify p f false = .pass l b g d w) (mask : (c.slot w).mask = 0#16)
    (within : (contribTile b (redOf f) f.payload).breach = false) : ∃ c₁, WritesCtx d (c.mill / 32) c₁ u (u.contrib p f noFault)
      ∧ (c.countFrames (redOf f)).TookFrame b f w c₁ := by
  have wait : c.commitWait = false := waits.ctx here
  obtain ⟨c₁, written, took⟩ := foldContrib_writes (p := p) (c := c.countFrames (redOf f)) here waits wait more listed open_ new
    checked mask within
  rw [contrib_pass pass, runContrib_open here state held holds fresh, written.settled noFails enough took.job took.step g]
  exact ⟨c₁, written, took⟩

end

end

/-! ## A partial (R123) -/

/-- A slot that holds the one frame of its partial, where its frames were of another message before (R41, R123). -/
def Slot.holding (f : Frame) (before : Option (BitVec 16)) (q : PartFrame) (z : Slot) : Slot :=
  { z with msgId := some f.h.msgId, ext := if before = some f.h.msgId then z.ext else some (redOf f), parts := [q] }

/-- A slot with every frame of its partial in its mask. -/
def Slot.masked (x : RedExt) (z : Slot) : Slot := { z with mask := BitVec.ofNat 16 (2 ^ (x.frameCnt.toNat + 1) - 1) }

/-- A slot whose partial is refused holds nothing of it. -/
def Slot.dropped (z : Slot) : Slot := { z with msgId := none, ext := none, parts := [] }

/-- The frame of a partial of one frame. -/
def partOf (f : Frame) (t : Tile) : PartFrame := ⟨(redOf f).frameIdx.toNat, t.off, t.vals, t.sps⟩

/-- A context with a partial of one frame folded, which completes its slot. -/
def Ctx.joined (c : Ctx) (f : Frame) (t : Tile) (w : SlotId) : Ctx :=
  let x := redOf f
  let v := joinParts c.elems [partOf f t]
  let c1 := ((((c.mapSlot w (Slot.holding f (c.slot w).msgId (partOf f t))).addTile 0 v.1 v.2).mapSlot w
    (Slot.sees x.maxExp.toInt)).complete w x (x.memberRank.toNat + 1))
  ({ c1 with maxExp := max c1.maxExp x.maxExp.toInt, flushed := c1.flushed || x.flushed, fastIn := c1.fastIn || x.fast } : Ctx).mapSlot
    w (Slot.masked x)

section
variable {s : State} {p d : Nat} {f : Frame} {b : PlanBucket} {w : SlotId} {c : Ctx} {t : Tile}
  (open_ : (c.slot w).complete = false) (new : (c.slot w).ext = none) (first : (c.slot w).msgId = none)
  (checked : (redOf f).sumCheck.toNat < checkP) (one : (redOf f).frameCnt = 0#4)
  (tile : partialTile b (b.compress && s.isThin p) (redOf f) f.payload = some t)
include open_ new first checked one tile

/-- A partial of one frame whose check is wrong is dropped and refused; one whose check is right completes its slot. -/
theorem foldPartial_one : s.foldPartial p f noFault b d w c =
    if b.check c.step c.chunk (joinParts c.elems [partOf f t]).1 != (redOf f).sumCheck.toNat then
      ((s.setCtx d (c.mapSlot w Slot.dropped)).bump F.CHECK_EVENTS_PARTIAL_FAILS c.mill).nack p f.h
        (nackRed nackCheckFail (redOf f) c.generation)
    else (((s.setCtx d c).setCtx d (c.joined f t w)).ack p f.h).tryFinish d false := by
  have single : ¬ [partOf f t].length < (redOf f).frameCnt.toNat + 1 := by
    rw [one]
    exact Nat.lt_irrefl 1
  have lanes (c : Ctx) (vs : List Int) : c.laneFault noFault 0 vs = none := residueMiss_none c 0 vs
  have clean : (s.setCtx d c).sramRead (c.mill / 32) blkMill c.mill noFault.word = (false, s.setCtx d c) := rfl
  rw [State.foldPartial]
  dsimp only
  rw [if_neg (show ¬ noFault.tagBad = true from Bool.false_ne_true), open_, if_neg Bool.false_ne_true, new]
  dsimp only
  rw [if_neg (by simp [checked]), tile]
  dsimp only
  rw [if_neg (show ¬ (c.slot w).msgId = some f.h.msgId by rw [first]; exact nofun), List.nil_append]
  rw [if_neg (show ¬ List.any [] (fun q : PartFrame => q.idx == (redOf f).frameIdx.toNat) = true from Bool.false_ne_true)]
  rw [clean]
  refine (if_neg single).trans (if_congr Iff.rfl rfl ?_)
  dsimp only
  rw [lanes]
  rfl

end

theorem sameChunk_joined (c : Ctx) (f : Frame) (t : Tile) (w : SlotId) : c.SameChunk (c.joined f t w) := by
  constructor <;> simp only [Ctx.joined, Ctx.complete, Ctx.mapSlot, Ctx.addTile]

theorem sameChunk_mapSlot (c : Ctx) (w : SlotId) (g : Slot → Slot) : c.SameChunk (c.mapSlot w g) :=
  ⟨rfl, rfl, rfl, rfl, rfl, rfl, rfl, rfl⟩

theorem joined_done (c : Ctx) (f : Frame) (t : Tile) (w : SlotId) : (c.joined f t w).done = c.done + 1 := by
  simp only [Ctx.joined, Ctx.complete, Ctx.mapSlot, Ctx.addTile]

theorem joined_runCheck (c : Ctx) (f : Frame) (t : Tile) (w : SlotId) :
    (c.joined f t w).runCheck = (c.runCheck + (redOf f).sumCheck.toNat) % checkP := by
  simp only [Ctx.joined, Ctx.complete, Ctx.mapSlot, Ctx.addTile]

theorem joined_contributions (c : Ctx) (f : Frame) (t : Tile) (w : SlotId) :
    (c.joined f t w).contributions = c.contributions + ((redOf f).memberRank.toNat + 1) := by
  simp only [Ctx.joined, Ctx.complete, Ctx.mapSlot, Ctx.addTile]

/-- A slot's mask does not say whether it is complete. -/
theorem masked_complete {c : Ctx} {w : SlotId} (listed : ∃ y ∈ c.slots, y.who = w) (x : RedExt) :
    ((c.mapSlot w (Slot.masked x)).slot w).complete = (c.slot w).complete := by
  rw [slot_mapSlot (Slot.masked x) (fun _ => rfl) listed]
  rfl

theorem slot_of_slots {c c' : Ctx} {w : SlotId} (h : c'.slots = c.slots) : c'.slot w = c.slot w := by
  rw [Ctx.slot, h, Ctx.slot]

theorem joined_complete {c : Ctx} {w : SlotId} (listed : ∃ y ∈ c.slots, y.who = w) (f : Frame) (t : Tile) :
    ((c.joined f t w).slot w).complete = true := by
  have held := listed_mapSlot (Slot.holding f (c.slot w).msgId (partOf f t)) (fun _ => rfl) listed
  have seen := listed_mapSlot (Slot.sees (redOf f).maxExp.toInt) (fun _ => rfl) held
  have filled := listed_mapSlot Slot.completed (fun _ => rfl) seen
  have slots : (c.joined f t w).slots = ((((c.mapSlot w (Slot.holding f (c.slot w).msgId (partOf f t))).mapSlot w
      (Slot.sees (redOf f).maxExp.toInt)).mapSlot w Slot.completed).mapSlot w (Slot.masked (redOf f))).slots := by
    simp only [Ctx.joined, Ctx.complete, Ctx.mapSlot, Ctx.addTile]
    rfl
  rw [slot_of_slots slots, masked_complete filled, slot_mapSlot Slot.completed (fun _ => rfl) seen]
  rfl

/-! ### Registers of a mill that an answer leaves alone -/

theorem regAddr_checkEvents (m : Nat) : regAddr .CHECK_EVENTS m = 0x11000820 + m / 32 * 0x4000000 + m % 32 * 0x10000 := by
  simp [regAddr, regRow, row_CHECK_EVENTS]

theorem checkEvents_not_send (m : Nat) : ¬ sendAddr (regAddr .CHECK_EVENTS m) := fun h => by
  have address := sendAddr_mod h
  rw [regAddr_checkEvents] at address
  omega

/-- What a partial of one frame makes of its context: complete where its check is right, and otherwise as it was. -/
structure Ctx.TookPartial (c : Ctx) (b : PlanBucket) (f : Frame) (t : Tile) (w : SlotId) (c' : Ctx) : Prop extends c.SameChunk c' where
  right : b.check c.step c.chunk (joinParts c.elems [partOf f t]).1 = (redOf f).sumCheck.toNat → c'.done = c.done + 1
    ∧ (c'.slot w).complete = true ∧ c'.runCheck = (c.runCheck + (redOf f).sumCheck.toNat) % checkP
    ∧ c'.contributions = c.contributions + ((redOf f).memberRank.toNat + 1)
  wrong : b.check c.step c.chunk (joinParts c.elems [partOf f t]).1 ≠ (redOf f).sumCheck.toNat → c'.done = c.done ∧ c'.acc = c.acc
    ∧ c'.runCheck = c.runCheck ∧ (c'.slot w).complete = false

section
variable {u : State} {p d : Nat} {f : Frame} {b : PlanBucket} {w : SlotId} {c c' : Ctx} {t : Tile} (here : u.ctx? d = some c')
  (waits : u.noneWait) (wait : c.commitWait = false) (more : c.done + 1 < c.expect) (listed : ∃ y ∈ c.slots, y.who = w)
  (open_ : (c.slot w).complete = false) (new : (c.slot w).ext = none) (first : (c.slot w).msgId = none)
  (checked : (redOf f).sumCheck.toNat < checkP) (one : (redOf f).frameCnt = 0#4)
  (tile : partialTile b (b.compress && u.isThin p) (redOf f) f.payload = some t)
include here waits wait more listed open_ new first checked one tile

/-- A partial of one frame writes its context; refused, it is counted. -/
theorem foldPartial_writes : ∃ c₁, WritesCtx d (c.mill / 32) c₁ u (u.foldPartial p f noFault b d w c) ∧ c.TookPartial b f t w c₁
    ∧ (b.check c.step c.chunk (joinParts c.elems [partOf f t]).1 ≠ (redOf f).sumCheck.toNat →
      (u.foldPartial p f noFault b d w c).fld F.CHECK_EVENTS_PARTIAL_FAILS c.mill
        = satAdd 16 (u.fld F.CHECK_EVENTS_PARTIAL_FAILS c.mill) 1) := by
  have written := WritesCtx.refl here waits (c.mill / 32)
  rw [foldPartial_one open_ new first checked one tile]
  by_cases right : b.check c.step c.chunk (joinParts c.elems [partOf f t]).1 = (redOf f).sumCheck.toNat
  · have same := sameChunk_joined c f t w
    have folded := ((written.setCtx rfl wait).setCtx (congrArg (· / 32) same.mill) (same.wait.trans wait)).ack p f.h
    have awaits : (c.joined f t w).done + 1 ≤ (c.joined f t w).expect := by
      rw [joined_done, same.expect]
      exact more
    rw [if_neg (by simp [right]), tryFinish_awaits folded.here awaits]
    exact ⟨_, folded, ⟨same, fun _ => ⟨joined_done c f t w, joined_complete listed f t, joined_runCheck c f t w,
      joined_contributions c f t w⟩, fun wrong => absurd right wrong⟩, fun wrong => absurd right wrong⟩
  · have refused := nack_answers ((u.setCtx d (c.mapSlot w Slot.dropped)).bump F.CHECK_EVENTS_PARTIAL_FAILS c.mill) p f.h
      (nackRed nackCheckFail (redOf f) c.generation)
    have closed : ((c.mapSlot w Slot.dropped).slot w).complete = false := by
      rw [slot_mapSlot Slot.dropped (fun _ => rfl) listed]
      exact open_
    have before : (u.setCtx d (c.mapSlot w Slot.dropped)).fld F.CHECK_EVENTS_PARTIAL_FAILS c.mill =
        u.fld F.CHECK_EVENTS_PARTIAL_FAILS c.mill :=
      fld_of_reg _ (reg_of_regs (setCtx_parts _ _ _ .regs (by decide)) _ _)
    rw [if_pos (bne_iff_ne.mpr right)]
    have dropped := written.setCtx (c' := c.mapSlot w Slot.dropped) rfl wait
    refine ⟨c.mapSlot w Slot.dropped, (dropped.bumpBy F.CHECK_EVENTS_PARTIAL_FAILS c.mill 1).answers refused,
      ⟨sameChunk_mapSlot c w Slot.dropped, fun h => absurd h right, fun _ => ⟨rfl, rfl, rfl, closed⟩⟩, fun _ => ?_⟩
    rw [refused.regs.fld _ _ (checkEvents_not_send _), fld_bump _ _ _ (by decide), before]
    rfl

end

/-! ## O12 -/

section
variable {s u : State} {d die : Nat} {c : Ctx} {p : Nat} {f : Frame} {t : State}

/-- What a written context leaves alone, over the taking of the frame. -/
theorem WritesCtx.frame (a : WritesCtx d die c (s.takeMill p f) t) : (∀ e, e ≠ d → t.ctx? e = (s.takeMill p f).ctx? e)
    ∧ keepsParts controlParts s t ∧ keepsParts [.jobs, .wt] (s.takeMill p f) t ∧ keepsBytes (s.takeMill p f) t
    ∧ sameOuts (s.takeMill p f) t :=
  ⟨a.others, keepsParts_of_onlyParts (c := coreParts ++ foldParts)
    (onlyParts_trans (onlyParts_mono (takeMill_moves s p f).parts fun _ => List.mem_append_left _)
      (onlyParts_mono a.parts fun _ => List.mem_append_right _)) (by decide),
    keepsParts_of_onlyParts a.parts (by decide), a.bytes, a.outs⟩

end

/-- Settles O12: a frame at row 12 writes its context, once or twice, and is answered; the slot it completes is not the last. -/
theorem contributionsFold : Obligations.ContributionsFold := by
  unfold Obligations.ContributionsFold
  constructor
  · rintro s u p d m f l b g w c free rfl good pass here state held holds rfl - fresh listed open_ new mask checked within more waits
      noFails enough
    obtain ⟨c₁, written, took⟩ := contrib_folds here state held holds fresh waits more listed open_ new checked noFails enough pass
      mask within
    have acc : c₁.acc = (c.addTile (contribTile b (redOf f) f.payload).off (contribTile b (redOf f) f.payload).vals
        (contribTile b (redOf f) f.payload).sps).acc := took.acc
    exact ⟨_, exec_contribFrame free good noFault, ⟨c₁, written.here, took.state.trans state, took.anchor, took.generation, acc,
      took.more, took.last⟩, written.frame⟩
  · rintro s u p d m f l b g w c t free rfl good plain pass here state held holds rfl - fresh listed open_ new first one checked tile
      more waits noFails enough
    obtain ⟨c₁, written, took, counts⟩ := foldPartial_writes here waits (State.noneWait.ctx waits here) more listed open_ new first
      checked one tile
    have ran : (s.takeMill p f).partialIn p f noFault = (s.takeMill p f).foldPartial p f noFault b d w c := by
      rw [partialIn_pass plain pass, runPartial_open here state held holds fresh plain,
        written.settled noFails enough took.job took.step g]
    refine ⟨_, exec_partialFrame free good noFault, ?_⟩
    rw [ran]
    refine ⟨⟨c₁, written.here, took.state.trans state, took.anchor, took.generation, took.right, fun wrong => ?_⟩, written.frame⟩
    obtain ⟨done, acc, check, closed⟩ := took.wrong wrong
    exact ⟨done, acc, check, closed, counts wrong⟩

end Sys2Proof.Machine

/-! PROOFS. The end of a step at a switch (spec/04_reduction_contexts.md R105, R129; 05_result_checking.md R153; 09_belfry_and_time.md
R267): what the job keeps of the step, the contexts that the end leaves, and what of the control half it touches. -/
namespace Sys2Proof.Machine

open Sys2Proof

/-! ## A job changed at one step (R105) -/

/-- A job changed in what it keeps of one step: its floor, the loaded layout and every other step are as they were. -/
structure Job.OnlyStep (st : BitVec 32) (j k : Job) : Prop where
  floor : k.floor = j.floor
  next : k.next = j.next
  others : k.steps.filter (fun x => x.step != st) = j.steps.filter fun x => x.step != st

theorem Job.OnlyStep.refl (st : BitVec 32) (j : Job) : j.OnlyStep st j := ⟨rfl, rfl, rfl⟩

theorem Job.OnlyStep.trans {st : BitVec 32} {j k l : Job} (a : j.OnlyStep st k) (b : k.OnlyStep st l) : j.OnlyStep st l :=
  ⟨b.floor.trans a.floor, b.next.trans a.next, b.others.trans a.others⟩

theorem onlyStep_mapStep (j : Job) (st : BitVec 32) (g : StepSt → StepSt) (keeps : ∀ x, (g x).step = x.step) :
    j.OnlyStep st (j.mapStep st g) := by
  refine ⟨rfl, rfl, ?_⟩
  have own : [g (j.step st)].filter (fun x => x.step != st) = [] := by simp [keeps]
  rw [Job.mapStep, List.filter_append, List.filter_filter, own, List.append_nil]
  exact List.filter_congr fun x _ => Bool.and_self _

/-! ## The floor as a step ends (R105, R244) -/

/-- A step that has ended is among those the job keeps. -/
theorem ended_listed {j : Job} {st : BitVec 32} (ended : (j.step st).ended.isSome = true) : ∃ x ∈ j.steps, x.step = st := by
  cases found : j.steps.find? fun x => x.step == st with
  | none =>
    rw [Job.step, found] at ended
    exact absurd ended Bool.false_ne_true
  | some x => exact ⟨x, List.mem_of_find?_eq_some found, by simpa using List.find?_some found⟩

/-- The floor advances over steps that have ended. -/
theorem floorAfter_run (j : Job) : ∀ (n : Nat) (f : BitVec 32), ∃ k, j.floorAfter n f = f + BitVec.ofNat 32 k
    ∧ ∀ i < k, (j.step (f + BitVec.ofNat 32 i)).ended.isSome = true
  | 0, f => ⟨0, (BitVec.add_zero f).symm, fun i h => absurd h (Nat.not_lt_zero i)⟩
  | n + 1, f => by
    rw [Job.floorAfter]
    split
    · exact ⟨0, (BitVec.add_zero f).symm, fun i h => absurd h (Nat.not_lt_zero i)⟩
    · split
      · rename_i ended
        obtain ⟨k, reached, run⟩ := floorAfter_run j n (f + 1)
        have next (i : Nat) : f + 1 + BitVec.ofNat 32 i = f + BitVec.ofNat 32 (i + 1) := by
          rw [BitVec.add_assoc, BitVec.add_comm 1, BitVec.ofNat_add]
          rfl
        refine ⟨k + 1, reached.trans (next k), fun i h => ?_⟩
        cases i with
        | zero => rwa [show f + BitVec.ofNat 32 0 = f from BitVec.add_zero f]
        | succ i => exact next i ▸ run i (Nat.lt_of_succ_lt_succ h)
      · exact ⟨0, (BitVec.add_zero f).symm, fun i h => absurd h (Nat.not_lt_zero i)⟩

theorem ahead_floor_add (j : Job) {i : Nat} (small : i < 2 ^ 32) : j.ahead (j.floor + BitVec.ofNat 32 i) = i := by
  unfold Job.ahead
  rw [BitVec.add_comm, BitVec.add_sub_cancel, BitVec.toNat_ofNat, Nat.mod_eq_of_lt small]

/-- The steps a job keeps above its floor. -/
def Job.above (j : Job) : List StepSt := j.steps.filter fun x => decide (j.ahead x.step < 2 ^ 31)

/-- A run of ended steps from the floor is no longer than what the job keeps above the floor. -/
theorem run_le {j : Job} {k : Nat} (run : ∀ i < k, (j.step (j.floor + BitVec.ofNat 32 i)).ended.isSome = true)
    (few : j.above.length ≤ keepSteps) : k ≤ keepSteps := by
  by_contra more
  have first : keepSteps < k := Nat.lt_of_not_le more
  have size : keepSteps = 64 := rfl
  have distinct : ((List.range (keepSteps + 1)).map fun i => j.floor + BitVec.ofNat 32 i).Nodup := by
    refine List.Nodup.map_on (fun a ha b hb e => ?_) List.nodup_range
    rw [List.mem_range] at ha hb
    have same := congrArg j.ahead e
    rwa [ahead_floor_add j (by omega), ahead_floor_add j (by omega)] at same
  have listed : ((List.range (keepSteps + 1)).map fun i => j.floor + BitVec.ofNat 32 i) ⊆ j.above.map (·.step) := by
    intro st hst
    obtain ⟨i, hi, rfl⟩ := List.mem_map.mp hst
    rw [List.mem_range] at hi
    obtain ⟨x, mem, step⟩ := ended_listed (run i (by omega))
    refine List.mem_map.mpr ⟨x, List.mem_filter.mpr ⟨mem, decide_eq_true ?_⟩, step⟩
    rw [step, ahead_floor_add j (by omega)]
    omega
  have length := (List.subperm_of_subset distinct listed).length_le
  rw [List.length_map, List.length_map, List.length_range] at length
  omega

/-! ## What a job keeps of a step that ends (R105) -/

/-- A step that has ended, whose timer runs no more. -/
def StepSt.endedAs (how : StepEnd) (x : StepSt) : StepSt := { x with ended := some how, timerOn := false }

/-- A job at whose switch a step has ended: the floor advances, and steps far behind it are forgotten. -/
def Job.stepEnds (j : Job) (st : BitVec 32) (how : StepEnd) : Job :=
  let j := j.mapStep st (StepSt.endedAs how)
  let j := { j with floor := j.floorAfter (j.steps.length + 1) j.floor }
  { j with steps := j.steps.filter fun x => decide ((j.floor - x.step).toNat ≤ keepSteps) || decide (j.ahead x.step < 2 ^ 31) }

/-- Steps that are forgotten take nothing of another step with them. -/
theorem step_filter {j : Job} {st : BitVec 32} {q : StepSt → Bool} (keeps : ∀ x : StepSt, x.step = st → q x = true) :
    ({ j with steps := j.steps.filter q } : Job).step st = j.step st := by
  have same : (fun x : StepSt => decide (q x = true ∧ (x.step == st) = true)) = fun x => x.step == st := by
    funext x
    by_cases h : x.step = st
    · simp [h, keeps x h]
    · simp [h]
  rw [Job.step, List.find?_filter, same, Job.step]

/-- A step in the window of which the layout in force disposes, with few ended steps above it (R105, R244). -/
structure Job.OwnStep (j : Job) (st : BitVec 32) : Prop where
  near : j.ahead st < 2 ^ 31
  own : ∀ n, j.next = some n → j.ahead st < j.ahead n.plan.firstStep
  few : ((j.steps.filter fun x => x.step != st).filter fun x => decide (j.ahead x.step < 2 ^ 31)).length < keepSteps

theorem ownStep_of {j : Job} {st : BitVec 32} (h : j.ownStep st) (open_ : j.stepEnded st = false) : j.OwnStep st := by
  obtain ⟨-, own, few⟩ := h
  rw [Job.stepEnded, Bool.or_eq_false_iff, decide_eq_false_iff_not, Nat.not_le] at open_
  refine ⟨open_.1, own, Nat.lt_of_le_of_lt ?_ few⟩
  exact (List.filter_sublist.filter _).length_le

theorem Job.OwnStep.of_only {j k : Job} {st : BitVec 32} (h : j.OwnStep st) (a : j.OnlyStep st k) : k.OwnStep st := by
  have ahead : k.ahead = j.ahead := funext fun x => by rw [Job.ahead, a.floor, Job.ahead]
  exact ⟨ahead ▸ h.near, by rw [ahead, a.next]; exact h.own, by rw [ahead, a.others]; exact h.few⟩

section
variable {j : Job} {st : BitVec 32} (h : j.OwnStep st) (how : StepEnd)
include h

theorem stepEnds_floor : ∃ k ≤ keepSteps, (j.stepEnds st how).floor = j.floor + BitVec.ofNat 32 k := by
  obtain ⟨k, reached, run⟩ := floorAfter_run (j.mapStep st (StepSt.endedAs how)) ((j.mapStep st (StepSt.endedAs how)).steps.length + 1)
    j.floor
  refine ⟨k, run_le (j := j.mapStep st (StepSt.endedAs how)) run ?_, reached⟩
  have above : (j.mapStep st (StepSt.endedAs how)).above.length ≤
      ((j.steps.filter fun x => x.step != st).filter fun x => decide (j.ahead x.step < 2 ^ 31)).length + 1 := by
    show (List.filter _ (j.steps.filter (fun x => x.step != st) ++ [_])).length ≤ _
    rw [List.filter_append, List.length_append]
    exact Nat.add_le_add_left (List.length_filter_le _ _) _
  exact Nat.le_trans above h.few

/-- The job still knows how the step ended. -/
theorem stepEnds_step : (j.stepEnds st how).step st = (j.step st).endedAs how := by
  obtain ⟨k, small, floor⟩ := stepEnds_floor h how
  have size : keepSteps = 64 := rfl
  have near := h.near
  refine (step_filter (j := { j.mapStep st (StepSt.endedAs how) with floor := (j.stepEnds st how).floor }) fun x hx => ?_).trans
    (step_mapStep_self j st (StepSt.endedAs how) fun _ => rfl)
  rw [Bool.or_eq_true, decide_eq_true_eq, decide_eq_true_eq, hx]
  show ((j.stepEnds st how).floor - st).toNat ≤ keepSteps ∨ (st - (j.stepEnds st how).floor).toNat < 2 ^ 31
  rw [floor]
  unfold Job.ahead at near
  rw [size] at small ⊢
  bv_omega

/-- Where the floor has reached a loaded layout, the step lies behind it. -/
theorem stepEnds_past {n : Layout} (loaded : j.next = some n) (reached : (j.stepEnds st how).floor = n.plan.firstStep) :
    2 ^ 31 ≤ (j.stepEnds st how).ahead st := by
  obtain ⟨k, small, floor⟩ := stepEnds_floor h how
  have size : keepSteps = 64 := rfl
  have before := h.own n loaded
  rw [← reached, floor, ahead_floor_add j (by omega)] at before
  unfold Job.ahead at before ⊢
  rw [floor]
  bv_omega

end

/-! ## A job whose steps are as they were -/

/-- What a job keeps of its steps, its floor and its loaded layout are as they were. -/
structure Job.SameSteps (j k : Job) : Prop where
  id : k.id = j.id
  steps : k.steps = j.steps
  floor : k.floor = j.floor
  next : k.next = j.next
  aborted : k.aborted = j.aborted

theorem Job.SameSteps.refl (j : Job) : j.SameSteps j := ⟨rfl, rfl, rfl, rfl, rfl⟩

theorem Job.SameSteps.trans {j k l : Job} (a : j.SameSteps k) (b : k.SameSteps l) : j.SameSteps l :=
  ⟨b.id.trans a.id, b.steps.trans a.steps, b.floor.trans a.floor, b.next.trans a.next, b.aborted.trans a.aborted⟩

theorem Job.SameSteps.onlyStep {j k : Job} (a : j.SameSteps k) (st : BitVec 32) : j.OnlyStep st k :=
  ⟨a.floor, a.next, by rw [a.steps]⟩

theorem Job.SameSteps.step {j k : Job} (a : j.SameSteps k) : k.step = j.step := funext fun st => by
  rw [Job.step, a.steps, Job.step]

theorem Job.SameSteps.ahead {j k : Job} (a : j.SameSteps k) : k.ahead = j.ahead := funext fun st => by
  rw [Job.ahead, a.floor, Job.ahead]

/-- A job at whose switch a step has ended, and which a loaded layout takes over only behind the step (R105, R155, R244). -/
structure Job.Ended (st : BitVec 32) (how : StepEnd) (k : Job) : Prop where
  ended : (k.step st).ended = some how
  timer : (k.step st).timerOn = false
  aborted : how = .aborted → st ∈ k.aborted
  past : ∀ n, k.next = some n → k.floor = n.plan.firstStep → 2 ^ 31 ≤ k.ahead st

theorem Job.Ended.of_same {st : BitVec 32} {how : StepEnd} {j k : Job} (h : j.Ended st how) (a : j.SameSteps k) : k.Ended st how where
  ended := a.step ▸ h.ended
  timer := a.step ▸ h.timer
  aborted e := a.aborted ▸ h.aborted e
  past n := by rw [a.next, a.floor, a.ahead]; exact h.past n

/-- A step that ends has ended then. -/
theorem stepEnds_ended {j : Job} {st : BitVec 32} (h : j.OwnStep st) (how : StepEnd) (aborted : how = .aborted → st ∈ j.aborted) :
    (j.stepEnds st how).Ended st how where
  ended := by rw [stepEnds_step h how]; rfl
  timer := by rw [stepEnds_step h how]; rfl
  aborted := aborted
  past n loaded reached := stepEnds_past h how loaded reached

/-- The cutover forgets only steps of the loaded layout. -/
theorem Job.Ended.cutover {st : BitVec 32} {how : StepEnd} {k : Job} (h : k.Ended st how) : k.cutover.Ended st how := by
  unfold Job.cutover
  split
  · exact h
  · rename_i n loaded
    split
    · rename_i reached
      have behind := h.past n loaded reached
      have kept : ({ k with steps := k.steps.filter fun x => decide (2 ^ 31 ≤ k.ahead x.step) } : Job).step st = k.step st :=
        step_filter fun x hx => decide_eq_true (hx ▸ behind)
      exact ⟨(congrArg StepSt.ended kept).trans h.ended, (congrArg StepSt.timerOn kept).trans h.timer,
        fun e => List.mem_filter.mpr ⟨h.aborted e, decide_eq_true behind⟩, fun _ none_ => nomatch none_⟩
    · exact h

/-! ## Jobs of a state -/

/-- Where every job of an identity stays one of it, the first is the first still. -/
theorem job?_mapJob_own {s : State} {id : BitVec 12} {g : Job → Job} (keeps : ∀ j, j.id = id → (g j).id = id) :
    (s.mapJob id g).job? id = (s.job? id).map g := by
  have test : ((fun j : Job => j.id == id) ∘ fun j => if j.id = id then g j else j) = fun j => j.id == id := by
    funext j
    rw [Function.comp_apply]
    split
    · rename_i own
      rw [keeps j own, own]
    · rfl
  rw [State.job?, State.mapJob, List.find?_map, test, State.job?]
  cases found : s.jobs.find? fun j => j.id == id with
  | none => rfl
  | some j =>
    have here : j.id = id := by simpa using List.find?_some found
    simp [here]

/-- A job in a state satisfies a property. -/
def State.jobHas (s : State) (id : BitVec 12) (P : Job → Prop) : Prop := ∃ k, s.job? id = some k ∧ P k

section
variable {s t : State} {id : BitVec 12} {P : Job → Prop}

theorem State.jobHas.of_jobs (a : s.jobHas id P) (h : t.jobs = s.jobs) : t.jobHas id P := by
  obtain ⟨k, job, has⟩ := a
  exact ⟨k, (job?_of_jobs h id).trans job, has⟩

/-- A change of some job that keeps the property where it held. -/
theorem State.jobHas.mapJob (a : s.jobHas id P) (i : BitVec 12) (g : Job → Job) (keeps : ∀ j, (g j).id = j.id)
    (h : ∀ k, P k → P (g k)) : (s.mapJob i g).jobHas id P := by
  obtain ⟨k, job, has⟩ := a
  by_cases own : i = id
  · subst own
    exact ⟨g k, by rw [job?_mapJob s i g keeps, job, Option.map_some], h k has⟩
  · refine ⟨k, ?_, has⟩
    have test : ((fun j : Job => j.id == id) ∘ fun j => if j.id = i then g j else j) = fun j => j.id == id := by
      funext j
      rw [Function.comp_apply]
      split
      · rw [keeps]
      · rfl
    have other : ¬ k.id = i := fun e => own (e.symm.trans (job?_id job))
    rw [State.job?] at job
    rw [State.job?, State.mapJob, List.find?_map, test, job, Option.map_some, if_neg other]

theorem State.jobHas.foldl {β : Type} {f : State → β → State} (h : ∀ s b, s.jobHas id P → (f s b).jobHas id P) :
    ∀ (l : List β) {s : State}, s.jobHas id P → (l.foldl f s).jobHas id P
  | [], _, a => a
  | b :: l, _, a => State.jobHas.foldl h l (h _ b a)

theorem State.jobHas.imp {Q : Job → Prop} (a : s.jobHas id P) (h : ∀ k, P k → Q k) : s.jobHas id Q := by
  obtain ⟨k, job, has⟩ := a
  exact ⟨k, job, h k has⟩

end

/-! ## Contexts that go to IDLE (R119, R129) -/

/-- What a context's going to IDLE touches. -/
abbrev idleParts : List Part := [.ctxs, .descCache, .mem, .memory]

theorem idleCtx_parts (s : State) (d : Nat) : onlyParts idleParts s (s.idleCtx d) := by
  have frame := idleCtx_frame s d
  intro p hp
  cases p
  case ctxs => exact absurd (by decide) hp
  case descCache => exact absurd (by decide) hp
  case mem => exact absurd (by decide) hp
  case memory => exact absurd (by decide) hp
  all_goals simp only [Part.same, frame]

theorem sget_of_mem {α : Type} {k : Nat} {v : α} : ∀ {l : List (Nat × α)}, srising l = true → (k, v) ∈ l → sget k l = some v
  | (j, w) :: l, rising, h => by
    rw [sget]
    obtain ⟨low, rest⟩ := (srising_cons j w l).mp rising
    rcases List.mem_cons.mp h with e | later
    · obtain ⟨rfl, rfl⟩ := Prod.mk.inj e
      rw [if_pos rfl]
    · have above := List.rel_of_pairwise_cons (srising_pairwise rising) (List.mem_map_of_mem (f := (·.1)) later)
      rw [if_neg (Nat.ne_of_lt above)]
      exact sget_of_mem rest later

theorem sget_none_of_not_mem {α : Type} {k : Nat} : ∀ {l : List (Nat × α)}, sget k l = none → ∀ x ∈ l, x.1 ≠ k
  | (j, w) :: l, h, x, hx => by
    rw [sget] at h
    by_cases e : j = k
    · rw [if_pos e] at h
      exact nomatch h
    · rw [if_neg e] at h
      rcases List.mem_cons.mp hx with rfl | later
      · exact e
      · exact sget_none_of_not_mem h x later

theorem mem_sdel_ne {α : Type} {k : Nat} {l : List (Nat × α)} {x : Nat × α} (h : x ∈ sdel k l) : x.1 ≠ k := by
  have gone : sget k (sdel k l) = none := by rw [sget_sdel, if_pos rfl]
  exact sget_none_of_not_mem gone x h

/-- The contexts that are left as one goes to IDLE. -/
theorem idleCtx_mem {s : State} {d : Nat} {x : Nat × Ctx} (h : x ∈ (s.idleCtx d).ctxs) : x ∈ s.ctxs ∧ x.1 ≠ d := by
  unfold State.idleCtx at h
  split at h
  · rename_i c found
    have left : x ∈ sdel d s.ctxs := by simpa using h
    exact ⟨mem_sdel d s.ctxs x left, mem_sdel_ne left⟩
  · rename_i none_
    exact ⟨h, sget_none_of_not_mem none_ x h⟩

theorem idleCtxs_mem {x : Nat × Ctx} : ∀ (ds : List Nat) {s : State}, x ∈ (ds.foldl State.idleCtx s).ctxs → x ∈ s.ctxs ∧ x.1 ∉ ds
  | [], _, h => ⟨h, List.not_mem_nil⟩
  | d :: ds, s, h => by
    obtain ⟨mem, others⟩ := idleCtxs_mem ds h
    obtain ⟨old, other⟩ := idleCtx_mem mem
    exact ⟨old, fun hx => (List.mem_cons.mp hx).elim other others⟩

theorem idleCtxs_parts (ds : List Nat) (s : State) : onlyParts idleParts s (ds.foldl State.idleCtx s) :=
  onlyParts_foldl _ idleCtx_parts ds s

/-! ## What a step's end touches -/

/-- What a step's end may touch, but for the banks where a loaded layout takes over. -/
abbrev stepParts : List Part := [.regs, .core, .ctxs, .descCache, .mem, .memory, .jobs, .landings, .outs, .ended, .rxs, .host,
  .ringQueue, .freeCount]

/-- A step has ended at a switch of a job: the control half is kept, and the banks too where no layout is loaded. -/
structure EndsStep (j : Job) (s t : State) : Prop where
  parts : onlyParts (.bank0 :: .bank1 :: stepParts) s t
  banks : j.next = none → onlyParts stepParts s t

theorem EndsStep.of_parts {j : Job} {s t : State} {c : List Part} (a : onlyParts c s t) (h : ∀ p ∈ c, p ∈ stepParts) :
    EndsStep j s t :=
  ⟨onlyParts_mono a fun p hp => List.mem_cons_of_mem _ (List.mem_cons_of_mem _ (h p hp)), fun _ => onlyParts_mono a h⟩

theorem EndsStep.trans {j : Job} {s t u : State} (a : EndsStep j s t) (b : EndsStep j t u) : EndsStep j s u :=
  ⟨onlyParts_trans a.parts b.parts, fun none_ => onlyParts_trans (a.banks none_) (b.banks none_)⟩

theorem EndsStep.keepsControl {j : Job} {s t : State} (a : EndsStep j s t) : keepsControl j s t := by
  refine ⟨fun p hp not0 not1 => a.parts p fun listed => ?_, fun none_ => keepsParts_of_onlyParts (a.banks none_) (by decide)⟩
  have small : ∀ p ∈ controlParts, p ∈ (Part.bank0 :: Part.bank1 :: stepParts) → p = .bank0 ∨ p = .bank1 := by decide
  exact (small p hp listed).elim not0 not1

/-! ### The pieces of a step's end (R133, R135, R165, R181, R244) -/

theorem copyRings_parts (s : State) (id : BitVec 12) (bs : List PlanBucket) : onlyParts [.mem, .memory] s (s.copyRings id bs) := by
  unfold State.copyRings
  split
  · exact onlyParts_refl _ s
  · refine onlyParts_foldl _ (fun s b => ?_) _ s
    split
    · exact writeMem_parts s _ _
    · exact onlyParts_refl _ s

theorem syncLedger_parts (s : State) (id : BitVec 12) (st : BitVec 32) : onlyParts [.mem, .memory] s (s.syncLedger id st) := by
  unfold State.syncLedger
  split
  · exact onlyParts_refl _ s
  · rename_i j _
    dsimp only
    cases j.records.find? (fun r => r.step == st) <;> cases j.entryArrays.find? (fun a => a.step == st)
    · exact onlyParts_refl _ s
    · exact writePart_parts s _ _ _ _
    · exact writePart_parts s _ _ _ _
    · exact onlyParts_trans (writePart_parts s _ _ _ _) (writePart_parts _ _ _ _ _)

theorem startErrs_parts (s : State) (id : BitVec 12) : onlyParts [.mem, .memory] s (s.startErrs id) := by
  unfold State.startErrs
  split
  · exact onlyParts_refl _ s
  · exact onlyParts_trans (onlyParts_foldl _ (fun s r => zeroMem_parts s _ _) _ s) (syncErrs_parts _ _ _)

theorem ringInit_parts (s : State) (r : RingRef) : onlyParts [.mem, .memory, .host] s (s.ringInit r) :=
  onlyParts_mono (onlyParts_trans (writeMem_parts s _ _) (writeMem_parts _ _ _)) (by decide)

theorem initRings_parts (s : State) (r : JobRings) : onlyParts [.mem, .memory, .host] s (s.initRings r) :=
  onlyParts_trans (windowZero_parts s _ _)
    (onlyParts_trans (ringInit_parts _ _) (onlyParts_trans (ringInit_parts _ _) (ringInit_parts _ _)))

theorem directory_parts (s : State) (id : BitVec 12) (e : Option (BitVec 4 × JobRings)) :
    onlyParts [.mem, .memory, .host] s (s.directory id e) := windowWrite_parts s _ _

theorem dropFences_parts (s : State) (id : BitVec 12) (gen : Option (BitVec 4)) :
    onlyParts [.bank0, .bank1] s (s.dropFences id gen) := fun p hp => by
  cases p
  case bank0 => exact absurd (by decide) hp
  case bank1 => exact absurd (by decide) hp
  all_goals rfl

/-- Landing takes a new capacity. -/
def State.fitLandings (s : State) (id : BitVec 12) (n : Layout) : State :=
  { s with landings := s.landings.map fun (x : Landing) => if x.job = id then x.fit n else x }

theorem fitLandings_parts (s : State) (id : BitVec 12) (n : Layout) : onlyParts [.landings] s (s.fitLandings id n) := fun p hp => by
  cases p
  case landings => exact absurd (by decide) hp
  all_goals rfl

/-! ### The cutover (R244) -/

/-- What the cutover touches. -/
abbrev cutParts : List Part := [.ctxs, .descCache, .mem, .memory, .jobs, .bank0, .bank1, .host, .landings]

/-- The contexts of a job go to IDLE. -/
def State.idleJob (s : State) (id : BitVec 12) : State :=
  ((s.ctxs.filter fun x => x.2.job == id).map (·.1)).foldl State.idleCtx s

theorem idleJob_parts (s : State) (id : BitVec 12) : onlyParts idleParts s (s.idleJob id) := idleCtxs_parts _ s

/-- A cutover, once the job's contexts are IDLE and the job has gone over. -/
theorem cutover_rest {s : State} {id : BitVec 12} {k : Job} {n : Layout} (job : s.job? id = some k) (loaded : k.next = some n)
    (reached : k.floor = n.plan.firstStep) : onlyParts [.bank0, .bank1, .mem, .memory, .host, .landings]
      ((s.idleJob id).mapJob id Job.cutover) (s.cutover id) := by
  rw [State.cutover, job]
  dsimp only
  rw [loaded]
  dsimp only
  rw [if_pos reached]
  change onlyParts _ ((s.idleJob id).mapJob id Job.cutover) (State.directory (State.fitLandings
    (if n.jrings = k.jrings then (((s.idleJob id).mapJob id Job.cutover).dropFences id (some n.plan.gen)).startErrs id
      else ((((s.idleJob id).mapJob id Job.cutover).dropFences id (some n.plan.gen)).startErrs id).initRings n.jrings) id n) id
    (some (n.plan.gen, n.jrings)))
  generalize (s.idleJob id).mapJob id Job.cutover = v
  have fences := dropFences_parts v id (some n.plan.gen)
  have errs := startErrs_parts (v.dropFences id (some n.plan.gen)) id
  generalize (v.dropFences id (some n.plan.gen)).startErrs id = w at *
  have rings : onlyParts [.mem, .memory, .host] w (if n.jrings = k.jrings then w else w.initRings n.jrings) := by
    split
    · exact onlyParts_refl _ w
    · exact initRings_parts w _
  have landings := fitLandings_parts (if n.jrings = k.jrings then w else w.initRings n.jrings) id n
  have entry := directory_parts ((if n.jrings = k.jrings then w else w.initRings n.jrings).fitLandings id n) id
    (some (n.plan.gen, n.jrings))
  refine onlyParts_trans (onlyParts_mono fences (by decide)) (onlyParts_trans (onlyParts_mono errs (by decide)) ?_)
  exact onlyParts_trans (onlyParts_mono rings (by decide))
    (onlyParts_trans (onlyParts_mono landings (by decide)) (onlyParts_mono entry (by decide)))

/-- The contexts of t are among those of s. -/
def State.fewerCtxs (s t : State) : Prop := ∀ x ∈ t.ctxs, x ∈ s.ctxs

theorem State.fewerCtxs.of_ctxs {s t : State} (h : t.ctxs = s.ctxs) : s.fewerCtxs t := fun _ hx => h ▸ hx

theorem State.fewerCtxs.trans {s t u : State} (a : s.fewerCtxs t) (b : t.fewerCtxs u) : s.fewerCtxs u := fun x hx => a x (b x hx)

theorem idleCtxs_fewer (ds : List Nat) (s : State) : s.fewerCtxs (ds.foldl State.idleCtx s) := fun _ hx => (idleCtxs_mem ds hx).1

theorem cutover_id (k : Job) : k.cutover.id = k.id := by
  unfold Job.cutover
  split
  · rfl
  · split
    · rfl
    · rfl

section
variable {s : State} {id : BitVec 12} {st : BitVec 32} {how : StepEnd}

/-- The cutover, where it comes, keeps how a step ended. -/
theorem cutover_ended (h : s.jobHas id (Job.Ended st how)) : (s.cutover id).jobHas id (Job.Ended st how) := by
  obtain ⟨k, job, ended⟩ := h
  cases loaded : k.next with
  | none =>
    refine ⟨k, ?_, ended⟩
    rw [State.cutover, job]
    dsimp only
    rw [loaded, job]
  | some n =>
    by_cases reached : k.floor = n.plan.firstStep
    · refine State.jobHas.of_jobs ⟨k.cutover, ?_, ended.cutover⟩ (cutover_rest job loaded reached .jobs (by decide))
      rw [job?_mapJob _ id Job.cutover cutover_id, job?_of_jobs (idleJob_parts s id .jobs (by decide)), job, Option.map_some]
    · refine ⟨k, ?_, ended⟩
      rw [State.cutover, job]
      dsimp only
      rw [loaded]
      dsimp only
      rw [if_neg reached, job]

/-- The cutover touches the banks only where a layout is loaded. -/
theorem cutover_endsStep {k j : Job} (job : s.job? id = some k) (next : k.next = j.next) :
    EndsStep j s (s.cutover id) ∧ s.fewerCtxs (s.cutover id) := by
  cases loaded : k.next with
  | none =>
    have same : s.cutover id = s := by
      rw [State.cutover, job]
      dsimp only
      rw [loaded]
    rw [same]
    exact ⟨.of_parts (onlyParts_refl [] s) (by decide), .of_ctxs rfl⟩
  | some n =>
    by_cases reached : k.floor = n.plan.firstStep
    · have moved := mapJob_parts (s.idleJob id) id Job.cutover
      have rest := cutover_rest job loaded reached
      have fewer : s.fewerCtxs (s.idleJob id) := idleCtxs_fewer _ s
      refine ⟨⟨onlyParts_trans (onlyParts_mono (idleJob_parts s id) (by decide)) (onlyParts_trans (onlyParts_mono moved (by decide))
        (onlyParts_mono rest (by decide))), fun none_ => ?_⟩, fewer.trans (.of_ctxs ?_)⟩
      · rw [← next, loaded] at none_
        exact nomatch none_
      · exact (rest .ctxs (by decide)).trans (moved .ctxs (by decide))
    · have same : s.cutover id = s := by
        rw [State.cutover, job]
        dsimp only
        rw [loaded]
        dsimp only
        rw [if_neg reached]
      rw [same]
      exact ⟨.of_parts (onlyParts_refl [] s) (by decide), .of_ctxs rfl⟩

theorem sweepAborted_idles (s : State) (id : BitVec 12) :
    ∃ ds : List Nat, s.sweepAborted id = ds.foldl State.idleCtx s := by
  unfold State.sweepAborted
  split
  · exact ⟨[], rfl⟩
  · exact ⟨_, rfl⟩

end

/-! ### The end of a step (R105, R133, R135, R181, R244) -/

theorem sameSteps_foldl {β : Type} {f : Job → β → Job} (h : ∀ (j : Job) b, j.SameSteps (f j b)) : ∀ (l : List β) (j : Job),
    j.SameSteps (l.foldl f j)
  | [], j => .refl j
  | b :: l, j => (h j b).trans (sameSteps_foldl h l (f j b))

theorem sameSteps_commitErrs (j : Job) (st : BitVec 32) : j.SameSteps (j.commitErrs st) := by
  have kept : j.SameSteps (j.keepEntries st) := by
    unfold Job.keepEntries
    dsimp only
    split
    · exact .refl j
    · exact ⟨rfl, rfl, rfl, rfl, rfl⟩
  exact kept.trans ⟨rfl, rfl, rfl, rfl, rfl⟩

/-- A job as its step ends, before the step has ended: of its steps only the list of the aborted ones may have changed. -/
structure Job.Ending (st : BitVec 32) (how : StepEnd) (j k : Job) : Prop where
  id : k.id = j.id
  only : j.OnlyStep st k
  aborted : how = .aborted → st ∈ k.aborted

/-- A job with its rings and residual banks at the end of a step (R133, R181). -/
def Job.beforeEnd (j : Job) (bs : List PlanBucket) (st : BitVec 32) (how : StepEnd) (cs : List (Nat × Ctx)) : Job :=
  let j := bs.foldl (fun j b => if b.fmt.isInt then j else
    j.addRing b.id st (if how = .committed then ringEntry cs b else noExp)) j
  if how = .committed then j.commitErrs st else { j.abortErrs st with aborted := j.aborted ++ [st] }

theorem beforeEnd_ending (j : Job) (bs : List PlanBucket) (st : BitVec 32) (how : StepEnd) (cs : List (Nat × Ctx)) :
    j.Ending st how (j.beforeEnd bs st how cs) := by
  have rings : j.SameSteps (bs.foldl (fun j b => if b.fmt.isInt then j else
      j.addRing b.id st (if how = .committed then ringEntry cs b else noExp)) j) := by
    refine sameSteps_foldl (fun j b => ?_) bs j
    split
    · exact .refl j
    · exact ⟨rfl, rfl, rfl, rfl, rfl⟩
  unfold Job.beforeEnd
  generalize bs.foldl _ j = k at *
  cases how with
  | committed =>
    have swapped := rings.trans (sameSteps_commitErrs k st)
    exact ⟨swapped.id, swapped.onlyStep st, fun e => nomatch e⟩
  | aborted =>
    exact ⟨rings.id, ⟨rings.floor, rings.next, (rings.onlyStep st).others⟩,
      fun _ => List.mem_append_right _ (List.mem_singleton_self st)⟩

/-- The buckets that a switch releases. -/
def Layout.releasedBuckets (l : Layout) : List PlanBucket :=
  l.plan.buckets.filter fun b => match l.plan.group? b.group with | some g => l.releases g | none => false

/-- A bucket's proposal for a step is sent, and recorded with the bucket's ring (R135). -/
def State.propose (s : State) (id : BitVec 12) (j : Job) (l : Layout) (st t : BitVec 32) (b : PlanBucket) : State :=
  match l.plan.group? b.group with
  | none => s
  | some g =>
    let ring := ((j.rings.find? fun r => r.bucket == b.id).map (·.ring)).getD []
    (s.sendProposal l b g t (proposalOf b ring st)).mapJob id fun j => { j with rings := j.rings.map fun r =>
      if r.bucket = b.id then { r with proposals := (t, (proposalOf b ring st).1) :: r.proposals.take 31 } else r }

/-- The state in which a step has ended, before the cutover that may follow. -/
def State.stepDone (s : State) (id : BitVec 12) (st : BitVec 32) (how : StepEnd) (l : Layout) (k : Job) : State :=
  let u := (s.mapErrs id fun _ => k).copyRings id l.releasedBuckets
  l.releasedBuckets.foldl (fun s b => s.propose id k l st (st + BitVec.ofNat 32 (l.plan.depth + 1)) b)
    (if how = .committed then u.syncLedger id st else u)

theorem endStep_eq {s : State} {id : BitVec 12} {j : Job} (job : s.job? id = some j) (st : BitVec 32) (how : StepEnd)
    (cs : List (Nat × Ctx)) : s.endStep id st how cs = ((s.stepDone id st how j.cur
      ((j.beforeEnd j.cur.releasedBuckets st how cs).stepEnds st how)).cutover id).sweepAborted id := by
  rw [State.endStep, job]
  rfl

/-- What the end of a step touches before a cutover. -/
abbrev doneParts : List Part := .mem :: .memory :: .jobs :: sendParts

theorem propose_parts (s : State) (id : BitVec 12) (j : Job) (l : Layout) (st t : BitVec 32) (b : PlanBucket) :
    onlyParts (.jobs :: sendParts) s (s.propose id j l st t b) := by
  unfold State.propose
  split
  · exact onlyParts_refl _ s
  · exact onlyParts_trans (onlyParts_mono (sendMany_touches _ _ _).parts (by decide)) (onlyParts_mono (mapJob_parts _ _ _) (by decide))

theorem propose_jobHas {s : State} {id : BitVec 12} {P : Job → Prop} (closed : ∀ j k, j.SameSteps k → P j → P k)
    (has : s.jobHas id P) (j : Job) (l : Layout) (st t : BitVec 32) (b : PlanBucket) : (s.propose id j l st t b).jobHas id P := by
  unfold State.propose
  split
  · exact has
  · exact (has.of_jobs ((sendMany_touches _ _ _).parts .jobs (by decide))).mapJob id _ (fun _ => rfl)
      fun k => closed k _ ⟨rfl, rfl, rfl, rfl, rfl⟩

section
variable {s : State} {id : BitVec 12} {j k : Job} (job : s.job? id = some j) (st : BitVec 32) (how : StepEnd) (l : Layout)

theorem stepDone_parts : onlyParts doneParts s (s.stepDone id st how l k) := by
  have changed := onlyParts_trans (onlyParts_mono (d := [.jobs, .mem, .memory]) (mapErrs_parts s id fun _ => k) (by decide))
    (onlyParts_mono (copyRings_parts _ id l.releasedBuckets) (by decide))
  unfold State.stepDone
  dsimp only
  refine onlyParts_trans ?_ (onlyParts_foldl _ (fun s b => onlyParts_mono (propose_parts s id k l st _ b) (by decide)) _ _)
  split
  · exact onlyParts_trans (onlyParts_mono changed (by decide)) (onlyParts_mono (syncLedger_parts _ id st) (by decide))
  · exact onlyParts_mono changed (by decide)

include job

theorem mapErrs_const (own : k.id = id) : (s.mapErrs id fun _ => k).job? id = some k := by
  rw [State.mapErrs, job]
  dsimp only
  rw [job?_of_jobs (syncErrs_parts _ _ _ .jobs (by decide)), job?_mapJob_own fun _ _ => own, job, Option.map_some]

theorem stepDone_jobHas {P : Job → Prop} (closed : ∀ j k, j.SameSteps k → P j → P k) (own : k.id = id) (has : P k) :
    (s.stepDone id st how l k).jobHas id P := by
  have written : (s.mapErrs id fun _ => k).jobHas id P := ⟨k, mapErrs_const job own, has⟩
  have copied := written.of_jobs (copyRings_parts _ id l.releasedBuckets .jobs (by decide))
  unfold State.stepDone
  dsimp only
  refine State.jobHas.foldl (fun s b h => propose_jobHas closed h k l st _ b) _ ?_
  split
  · exact copied.of_jobs (syncLedger_parts _ id st .jobs (by decide))
  · exact copied

end

/-- The end of a step: the job knows how it ended, the control half is kept, and no context is new. -/
theorem endStep_ends {s : State} {id : BitVec 12} {j₀ j : Job} {st : BitVec 32} (job : s.job? id = some j) (only : j₀.OnlyStep st j)
    (own : j₀.OwnStep st) (how : StepEnd) (cs : List (Nat × Ctx)) : (s.endStep id st how cs).jobHas id (Job.Ended st how)
      ∧ EndsStep j₀ s (s.endStep id st how cs) ∧ s.fewerCtxs (s.endStep id st how cs) := by
  have before := beforeEnd_ending j j.cur.releasedBuckets st how cs
  have ended := stepEnds_ended (own.of_only (only.trans before.only)) how before.aborted
  have has := stepDone_jobHas (k := (j.beforeEnd j.cur.releasedBuckets st how cs).stepEnds st how) job st how j.cur
    (P := fun k => k.Ended st how ∧ k.next = j₀.next) (fun _ _ same h => ⟨h.1.of_same same, same.next.trans h.2⟩)
    (before.id.trans (job?_id job))
    ⟨ended, (only.trans before.only).next⟩
  have parts := stepDone_parts (s := s) (id := id) (k := (j.beforeEnd j.cur.releasedBuckets st how cs).stepEnds st how) st how j.cur
  rw [endStep_eq job]
  generalize s.stepDone id st how j.cur ((j.beforeEnd j.cur.releasedBuckets st how cs).stepEnds st how) = u at *
  have knows := cutover_ended (has.imp fun _ h => h.1)
  obtain ⟨k, found, -, next⟩ := has
  obtain ⟨control, fewer⟩ := cutover_endsStep found next
  obtain ⟨ds, sweep⟩ := sweepAborted_idles (u.cutover id) id
  have idle := idleCtxs_parts ds (u.cutover id)
  have left := idleCtxs_fewer ds (u.cutover id)
  rw [sweep]
  exact ⟨knows.of_jobs (idle .jobs (by decide)),
    ((EndsStep.of_parts parts (by decide)).trans control).trans (.of_parts idle (by decide)),
    ((State.fewerCtxs.of_ctxs (parts .ctxs (by decide))).trans fewer).trans left⟩

/-! ## STEP_COMMIT at a switch (R129, R247) -/

/-- What taking the tallies of a step touches. -/
abbrev tallyParts : List Part := [.jobs, .mem, .memory, .host, .regs, .core, .ringQueue, .outs, .freeCount]

theorem onlyStep_addTotal (j : Job) (gen : BitVec 4) (t : TallyStep) (st : BitVec 32) : j.OnlyStep st (j.addTotal gen t) := by
  unfold Job.addTotal
  split
  · exact ⟨rfl, rfl, rfl⟩
  · exact ⟨rfl, rfl, rfl⟩

theorem addTotal_id (j : Job) (gen : BitVec 4) (t : TallyStep) : (j.addTotal gen t).id = j.id := by
  unfold Job.addTotal
  split
  · rfl
  · rfl

section
variable {s : State} {id : BitVec 12} {j₀ : Job} {st : BitVec 32} (has : s.jobHas id (j₀.OnlyStep st))

theorem tallyTry_parts (s : State) (l : Layout) (b : PlanBucket) (g : PlanGroup) (st : BitVec 32) :
    onlyParts tallyParts s (s.tallyTry l b g st) := by
  unfold State.tallyTry
  split
  · exact onlyParts_refl _ s
  · dsimp only
    split
    · exact onlyParts_refl _ s
    · exact onlyParts_trans (onlyParts_mono (ringPut_parts s _ _ _) (by decide)) (onlyParts_mono (mapJob_parts _ _ _) (by decide))

theorem tallyAdd_parts (s : State) (l : Layout) (b : PlanBucket) (g : PlanGroup) (st : BitVec 32) (t : TallyStep) :
    onlyParts tallyParts s (s.tallyAdd l b g st t) :=
  onlyParts_trans (onlyParts_mono (mapJob_parts s _ _) (by decide)) (tallyTry_parts _ l b g st)

theorem tallyCommit_parts (s : State) (l : Layout) (st : BitVec 32) (cs : List (Nat × Ctx)) :
    onlyParts tallyParts s (s.tallyCommit l st cs) := by
  refine onlyParts_foldl _ (fun s b => ?_) _ s
  split
  · exact onlyParts_refl _ s
  · dsimp only
    split
    · exact tallyAdd_parts s l b _ st _
    · split
      · exact onlyParts_refl _ s
      · split
        · exact onlyParts_refl _ s
        · exact onlyParts_mono (sendMgmt_parts s _ _ _ _ _) (by decide)

/-- A change of some job at the step alone. -/
theorem State.jobHas.mapStep {s : State} (has : s.jobHas id (j₀.OnlyStep st)) (i : BitVec 12) (g : StepSt → StepSt)
    (keeps : ∀ x, (g x).step = x.step) : (s.mapJob i fun j => j.mapStep st g).jobHas id (j₀.OnlyStep st) :=
  has.mapJob i _ (fun _ => rfl) fun k h => h.trans (onlyStep_mapStep k st g keeps)

include has

theorem tallyTry_jobHas (l : Layout) (b : PlanBucket) (g : PlanGroup) : (s.tallyTry l b g st).jobHas id (j₀.OnlyStep st) := by
  unfold State.tallyTry
  split
  · exact has
  · dsimp only
    split
    · exact has
    · refine (has.of_jobs (ringPut_parts s _ _ _ .jobs (by decide))).mapJob _ _ (fun j => addTotal_id j _ _) fun k h => ?_
      exact h.trans ((onlyStep_addTotal k _ _ st).trans (onlyStep_mapStep _ st _ fun _ => rfl))

theorem tallyAdd_jobHas (l : Layout) (b : PlanBucket) (g : PlanGroup) (t : TallyStep) :
    (s.tallyAdd l b g st t).jobHas id (j₀.OnlyStep st) :=
  tallyTry_jobHas (has.mapStep _ (fun x => x.putTally ((x.tallyOf b.id).add t)) fun _ => rfl) l b g

theorem tallyCommit_jobHas (l : Layout) (cs : List (Nat × Ctx)) : (s.tallyCommit l st cs).jobHas id (j₀.OnlyStep st) := by
  refine State.jobHas.foldl (fun s b has => ?_) _ has
  split
  · exact has
  · dsimp only
    split
    · exact tallyAdd_jobHas has l b _ _
    · split
      · exact has
      · split
        · exact has
        · exact has.of_jobs (sendMgmt_parts s _ _ _ _ _ .jobs (by decide))

end

/-- Where no context waits none goes on. -/
theorem settle_none {s : State} (h : s.noneWait) (dup : Bool) : s.settle dup = s := by
  have empty : s.ctxs.filter (fun x => x.2.commitWait) = [] :=
    List.filter_eq_nil_iff.mpr fun x hx => by rw [h x hx]; exact Bool.false_ne_true
  rw [State.settle, empty]
  rfl

theorem State.noneWait.of_fewer {s t : State} (a : s.noneWait) (h : s.fewerCtxs t) : t.noneWait := fun x hx => a x (h x hx)

/-- What a step's commit leaves: its FINAL contexts are gone, and the job knows how it ended. -/
theorem commitStep_ends {s : State} {id : BitVec 12} {st : BitVec 32} {j : Job} (job : s.job? id = some j)
    (open_ : j.stepEnded st = false) (own : j.ownStep st) (gen : BitVec 8) (tag : BitVec 64) :
    (s.commitStep id st gen tag).jobHas id (Job.Ended st .committed) ∧ EndsStep j s (s.commitStep id st gen tag)
      ∧ s.fewerCtxs (s.commitStep id st gen tag)
      ∧ ∀ x ∈ (s.commitStep id st gen tag).ctxs, ¬ (x.2.job = id ∧ x.2.step = st ∧ x.2.state = .final) := by
  rw [State.commitStep, job]
  dsimp only
  rw [open_, if_neg Bool.false_ne_true]
  generalize finals : ((s.stepCtxs id st).filter fun x => x.2.state == .final) = cs
  generalize ((cs.filter (·.2.withdrawing)).map fun x => (x.2.mill, x.2.chunk.toNat)) = late
  have told : onlyParts sendParts s (s.sendSlots j.cur (s.downSlots j.cur) (commitFrame j.cur st gen tag) fun _ => .plain) :=
    (sendMany_touches _ _ _).parts
  generalize s.sendSlots j.cur (s.downSlots j.cur) (commitFrame j.cur st gen tag) (fun _ => .plain) = u at *
  have tallied := tallyCommit_parts u j.cur st cs
  have start : u.jobHas id (j.OnlyStep st) := State.jobHas.of_jobs ⟨j, job, .refl st j⟩ (told .jobs (by decide))
  have knows := tallyCommit_jobHas start j.cur cs
  generalize u.tallyCommit j.cur st cs = v at *
  have marked := mapJob_parts v id fun j => j.mapStep st fun x => { x with lateCauses := x.lateCauses ++ late }
  have knowsNow := knows.mapStep id (fun x => { x with lateCauses := x.lateCauses ++ late }) fun _ => rfl
  generalize (v.mapJob id fun j => j.mapStep st fun x => { x with lateCauses := x.lateCauses ++ late }) = w at *
  have before : onlyParts tallyParts s w := onlyParts_trans (onlyParts_mono told (by decide))
    (onlyParts_trans tallied (onlyParts_mono marked (by decide)))
  have idle := idleCtxs_parts (cs.map (·.1)) w
  have left (x : Nat × Ctx) (hx : x ∈ ((cs.map (·.1)).foldl State.idleCtx w).ctxs) : x ∈ s.ctxs ∧ x.1 ∉ cs.map (·.1) := by
    obtain ⟨mem, other⟩ := idleCtxs_mem _ hx
    exact ⟨before .ctxs (by decide) ▸ mem, other⟩
  obtain ⟨k, found, only⟩ := knowsNow.of_jobs (idle .jobs (by decide))
  generalize (cs.map (·.1)).foldl State.idleCtx w = r at *
  obtain ⟨ended, control, fewer⟩ := endStep_ends found only (ownStep_of own open_) .committed cs
  refine ⟨ended, ((EndsStep.of_parts before (by decide)).trans (.of_parts idle (by decide))).trans control,
    fun x hx => (left x (fewer x hx)).1, fun x hx ⟨ofJob, ofStep, final⟩ => ?_⟩
  obtain ⟨mem, other⟩ := left x (fewer x hx)
  refine other (List.mem_map_of_mem ?_)
  rw [← finals]
  exact List.mem_filter.mpr ⟨List.mem_filter.mpr ⟨mem, by simp [ofJob, ofStep]⟩, by simp [final]⟩

/-! ## STEP_ABORT at a switch (R153, R267) -/

/-- A context whose step aborts. -/
def Ctx.stepAborted (c : Ctx) : Ctx := { c.cleared.freed with state := .aborted, withdrawing := false }

/-- A context goes to ABORTED, and its partial is forgotten. -/
def State.abortCtx (s : State) (x : Nat × Ctx) : State := (s.setCtx x.1 x.2.stepAborted).dropPartials x.1

theorem abortCtx_ctxs (s : State) (x : Nat × Ctx) : (s.abortCtx x).ctxs = sput x.1 x.2.stepAborted s.ctxs :=
  (dropOuts_parts _ _ .ctxs (by decide)).trans (setCtx_ctxs s x.1 x.2.stepAborted)

/-- What the contexts' going to ABORTED touches. -/
abbrev abortParts : List Part := [.ctxs, .descCache, .mem, .memory, .outs, .ended]

theorem abortCtxs_parts (cs : List (Nat × Ctx)) (s : State) : onlyParts abortParts s (cs.foldl State.abortCtx s) :=
  onlyParts_foldl _ (fun s x => onlyParts_trans (onlyParts_mono (setCtx_parts s x.1 x.2.stepAborted) (by decide))
    (onlyParts_mono (dropOuts_parts _ _) (by decide))) cs s

/-- The contexts that are left once some have gone to ABORTED: those, and the others. -/
theorem abortCtxs_mem {x : Nat × Ctx} : ∀ (cs : List (Nat × Ctx)) {s : State}, srising s.ctxs = true →
    x ∈ (cs.foldl State.abortCtx s).ctxs → (∃ c ∈ cs, x.2 = c.2.stepAborted) ∨ x ∈ s.ctxs ∧ x.1 ∉ cs.map (·.1)
  | [], _, _, h => .inr ⟨h, List.not_mem_nil⟩
  | c :: cs, s, rising, h => by
    have risen : srising (s.abortCtx c).ctxs = true := abortCtx_ctxs s c ▸ srising_sput _ _ _ rising
    rcases abortCtxs_mem cs risen h with ⟨y, hy, e⟩ | ⟨mem, others⟩
    · exact .inl ⟨y, List.mem_cons_of_mem _ hy, e⟩
    · have found : sget x.1 (s.abortCtx c).ctxs = some x.2 := sget_of_mem risen mem
      rw [abortCtx_ctxs, sget_sput] at found
      by_cases own : c.1 = x.1
      · rw [if_pos own, Option.some_inj] at found
        exact .inl ⟨c, List.mem_cons_self, found.symm⟩
      · rw [if_neg own] at found
        exact .inr ⟨mem_of_sget found, fun hx => (List.mem_cons.mp hx).elim (fun e => own e.symm) others⟩

theorem abortRecord_parts (s : State) (j : Job) (st : BitVec 32) (reason : Nat) (cause : Option (Nat × Nat)) :
    onlyParts [.mem, .memory, .host, .regs, .core, .ringQueue] s (s.abortRecord j st reason cause) := ringPut_parts s _ _ _

/-- The contexts after an abort: those of the step are ABORTED, and none waits. -/
theorem abortCtxs_step {s : State} {id : BitVec 12} {st : BitVec 32} (rising : srising s.ctxs = true) (waits : s.noneWait) :
    ((s.stepCtxs id st).foldl State.abortCtx s).noneWait
      ∧ ∀ x ∈ ((s.stepCtxs id st).foldl State.abortCtx s).ctxs, x.2.job = id → x.2.step = st → x.2.state = .aborted := by
  refine ⟨fun x hx => ?_, fun x hx ofJob ofStep => ?_⟩
  · rcases abortCtxs_mem _ rising hx with ⟨c, mem, e⟩ | ⟨mem, -⟩
    · rw [e]
      simp [Ctx.stepAborted, Ctx.cleared, Ctx.freed]
    · exact waits x mem
  · rcases abortCtxs_mem _ rising hx with ⟨c, -, e⟩ | ⟨mem, other⟩
    · rw [e]
      rfl
    · exact absurd (List.mem_map_of_mem (List.mem_filter.mpr ⟨mem, by simp [ofJob, ofStep]⟩)) other

/-- What a step's abort sends and records before the step ends. -/
abbrev tellParts : List Part := [.mem, .memory, .host, .regs, .core, .ringQueue, .outs, .freeCount]

section
variable (s : State) (j : Job) (st : BitVec 32) (reason : Nat) (cause : Option (Nat × Nat)) (src : AbortFrom)

/-- A switch tells the slots below it, and those above where the abort is its own. -/
def State.sendAbort : State :=
  let send (s : State) (xs : List SlotId) (c : Option (Nat × Nat)) : State :=
    s.sendSlots j.cur xs (abortFrame j.cur st reason c) (fun _ => .plain)
  let own := s.ownSlots j.cur
  let down := s.downSlots j.cur
  match src with
  | .received => send s down cause
  | .unload => send s (down.filter fun x => x.rank?.isSome) none
  | .report => send s down none
  | .own => if j.cur.isRoot then send (send s own cause) (down.filter fun x => !own.contains x) none else send s own cause

/-- Does a switch release any group of its layout? -/
def Layout.releasing (l : Layout) : Bool := !(l.plan.groups.filter l.releases).isEmpty

/-- A releasing switch records the abort (R132). -/
def State.recordAbort : State := if j.cur.releasing then s.abortRecord j st reason cause else s

/-- A releasing switch reports an abort of its own to the step root (R162). -/
def State.reportAbort (id : BitVec 12) : State :=
  if src = .own && j.cur.releasing && !j.cur.isRoot then
    s.sendMgmt j.cur.rootFlat id j.cur.plan.gen
      (reportBytes id j.cur.plan.gen st (j.cur.plan.releaserIndex j.cur.self)
        { releaser := j.cur.self, flags := orAll ((j.step st).entries.map (·.flags)), chunksHere := j.cur.chunksHere.length,
          maxGen := 0, digest := [] } (some reason)) (.stepReport st)
  else s

/-- What a switch tells of an abort, and its record. -/
def State.tellAbort (id : BitVec 12) : State :=
  ((s.sendAbort j st reason cause src).recordAbort j st reason cause).reportAbort j st reason src id

theorem sendAbort_parts : onlyParts sendParts s (s.sendAbort j st reason cause src) := by
  have told (s : State) (xs : List SlotId) (c : Option (Nat × Nat)) : onlyParts sendParts s
      (s.sendSlots j.cur xs (abortFrame j.cur st reason c) fun _ => .plain) := (sendMany_touches _ _ _).parts
  cases src with
  | received => exact told _ _ _
  | unload => exact told _ _ _
  | report => exact told _ _ _
  | own =>
    unfold State.sendAbort
    dsimp only
    split
    · exact onlyParts_trans (told _ _ _) (told _ _ _)
    · exact told _ _ _

theorem recordAbort_parts : onlyParts tellParts s (s.recordAbort j st reason cause) := by
  unfold State.recordAbort
  split
  · exact onlyParts_mono (abortRecord_parts s j st reason cause) (by decide)
  · exact onlyParts_refl _ s

theorem reportAbort_parts (id : BitVec 12) : onlyParts sendParts s (s.reportAbort j st reason src id) := by
  unfold State.reportAbort
  split
  · exact sendMgmt_parts _ _ _ _ _ _
  · exact onlyParts_refl _ s

theorem tellAbort_parts (id : BitVec 12) : onlyParts tellParts s (s.tellAbort j st reason cause src id) :=
  onlyParts_trans (onlyParts_trans (onlyParts_mono (sendAbort_parts s j st reason cause src) (by decide))
    (recordAbort_parts _ j st reason cause)) (onlyParts_mono (reportAbort_parts _ j st reason src id) (by decide))

end

section
variable {s : State} {id : BitVec 12} {st : BitVec 32} {j : Job} (job : s.job? id = some j) (open_ : j.stepEnded st = false)
  (reason : Nat) (cause : Option (Nat × Nat)) {src : AbortFrom} (loaded : src ≠ .unload)
include job open_ loaded

/-- An abort, but at an unload: the contexts go to ABORTED, it is told and recorded, and the step ends. -/
theorem abortStep_eq : s.abortStep id st reason cause src =
    ((((s.stepCtxs id st).foldl State.abortCtx s).tellAbort j st reason cause src id).mapJob id
      fun j => j.mapStep st fun x => { x with entries := [], reports := [] }).endStep id st .aborted (s.stepCtxs id st) := by
  rw [State.abortStep, job]
  dsimp only
  rw [open_, if_neg Bool.false_ne_true, if_neg loaded]
  rfl

/-- What a step's abort leaves: its contexts are ABORTED, and the job knows how it ended. -/
theorem abortStep_ends (own : j.ownStep st) (rising : srising s.ctxs = true) (waits : s.noneWait) :
    (s.abortStep id st reason cause src).jobHas id (Job.Ended st .aborted) ∧ EndsStep j s (s.abortStep id st reason cause src)
      ∧ (s.abortStep id st reason cause src).noneWait
      ∧ ∀ x ∈ (s.abortStep id st reason cause src).ctxs, x.2.job = id → x.2.step = st → x.2.state = .aborted := by
  obtain ⟨waits', aborted⟩ := abortCtxs_step (id := id) (st := st) rising waits
  have moved := abortCtxs_parts (s.stepCtxs id st) s
  rw [abortStep_eq job open_ reason cause loaded]
  generalize (s.stepCtxs id st).foldl State.abortCtx s = u at *
  have told := tellAbort_parts u j st reason cause src id
  generalize u.tellAbort j st reason cause src id = v at *
  have cleared := mapJob_parts v id fun j => j.mapStep st fun x => { x with entries := [], reports := [] }
  have start : v.jobHas id (j.OnlyStep st) :=
    (State.jobHas.of_jobs ⟨j, job, .refl st j⟩ (moved .jobs (by decide))).of_jobs (told .jobs (by decide))
  obtain ⟨k, found, only⟩ := start.mapStep id (fun x => { x with entries := [], reports := [] }) fun _ => rfl
  generalize (v.mapJob id fun j => j.mapStep st fun x => { x with entries := [], reports := [] }) = w at *
  have ctxs : w.ctxs = u.ctxs := (cleared .ctxs (by decide)).trans (told .ctxs (by decide))
  obtain ⟨ended, control, fewer⟩ := endStep_ends found only (ownStep_of own open_) .aborted (s.stepCtxs id st)
  have before : EndsStep j s w := ((EndsStep.of_parts moved (by decide)).trans (.of_parts told (by decide))).trans
    (.of_parts cleared (by decide))
  exact ⟨ended, before.trans control, (waits'.of_ctxs ctxs).of_fewer fewer, fun x hx => aborted x (ctxs ▸ fewer x hx)⟩

end

/-! ## O15 -/

section
variable {s : State} {port : Nat} {f : Frame} (free : s.queuedBehind .firmware port f = false) (flt : MillFault)
include free

theorem exec_stepCommitReceived : exec (.stepCommitReceived port f flt) s = .next ((s.takeFrom .firmware port f).control port f
    codeCommit fun s => (s.commitStep f.h.jobId (redOf f).step (redOf f).generation (redOf f).sumCheck).settle flt.dupDiff) := by
  show execStepCommitReceived port f flt s = _
  rw [execStepCommitReceived, free, if_neg Bool.false_ne_true]

theorem exec_stepAbortReceived : exec (.stepAbortReceived port f flt) s = .next ((s.takeFrom .firmware port f).control port f
    codeAbort fun s => (s.abortStep f.h.jobId (redOf f).step (redOf f).anchor.toNat
      (if (redOf f).noChunk then none else some ((redOf f).chunkId.toNat, (redOf f).generation.toNat)) .received).settle
        flt.dupDiff) := by
  show execStepAbortReceived port f flt s = _
  rw [execStepAbortReceived, free, if_neg Bool.false_ne_true]

end

theorem exec_stepTimerExpiry {s : State} {id : BitVec 12} {st : BitVec 32} {j : Job} (job : s.job? id = some j)
    (runs : (j.step st).timerOn = true) (open_ : j.stepEnded st = false) :
    exec (.stepTimerExpiry id st) s = .next ((s.abortStep id st 1 none .own).settleFree) := by
  show execStepTimerExpiry id st s = _
  rw [execStepTimerExpiry, job]
  dsimp only
  rw [runs, open_]
  rfl

/-- Settles O15: before any cutover the floor moves over at most 64 ended steps, so that the job still knows how the step ended, and
a layout that takes over takes no step as near the floor as this one. -/
theorem stepsEnd : Obligations.StepsEnd := by
  unfold Obligations.StepsEnd
  refine ⟨fun s u port f flt j free good reduction code received job open_ own waits => ?_,
    fun s id st j job open_ own waits rising =>
      ⟨fun runs => ?_, fun u port f flt free good reduction code ofJob ofStep received => ?_⟩⟩
  · have before := controlTaken_parts received
    have jobNow := (job?_of_jobs (before .jobs (by decide)) f.h.jobId).trans job
    have waitsNow := State.noneWait.of_ctxs waits (before .ctxs (by decide))
    obtain ⟨⟨k, found, ended⟩, control, fewer, gone⟩ := commitStep_ends jobNow open_ own (redOf f).generation (redOf f).sumCheck
    refine ⟨_, exec_stepCommitReceived free flt, ?_⟩
    rw [control_complete good reduction code received, settle_none (waitsNow.of_fewer fewer)]
    exact ⟨gone, ⟨k, found, ended.ended, ended.timer⟩, ((EndsStep.of_parts before (by decide)).trans control).keepsControl⟩
  · obtain ⟨⟨k, found, ended⟩, control, waits', aborted⟩ := abortStep_ends job open_ 1 none (src := .own) nofun own rising waits
    refine ⟨_, exec_stepTimerExpiry job runs open_, ?_⟩
    rw [settleFree_none waits']
    exact ⟨aborted, ⟨k, found, ended.ended, ended.aborted rfl⟩, control.keepsControl⟩
  · subst ofJob
    subst ofStep
    have before := controlTaken_parts received
    have ctxs := before .ctxs (by decide)
    have jobNow := (job?_of_jobs (before .jobs (by decide)) f.h.jobId).trans job
    obtain ⟨⟨k, found, ended⟩, control, waits', aborted⟩ := abortStep_ends jobNow open_ (redOf f).anchor.toNat (if (redOf f).noChunk then none else some ((redOf f).chunkId.toNat, (redOf f).generation.toNat))
      (src := .received) nofun own (ctxs.symm ▸ rising) (State.noneWait.of_ctxs waits ctxs)
    refine ⟨_, exec_stepAbortReceived free flt, ?_⟩
    rw [control_complete good reduction code received, settle_none waits']
    exact ⟨aborted, ⟨k, found, ended.ended, ended.aborted rfl⟩, ((EndsStep.of_parts before (by decide)).trans control).keepsControl⟩

end Sys2Proof.Machine

/-! PROOFS. Replies to a withdrawal and shares of a tally (spec/05_result_checking.md R152; 08_job_plans.md R247): what the switch
that asked does about the chunk that waited, and what the releasing switch adds up. -/
namespace Sys2Proof.Machine

open Sys2Proof

/-! ## WITHDRAW_REPLY (R152) -/

theorem exec_withdrawReply {s : State} {port : Nat} {f : Frame} (free : s.queuedBehind .firmware port f = false) :
    exec (.withdrawReply port f) s =
      .next ((s.takeFrom .firmware port f).mgmtIn port f 0x43 fun s => s.replyIn f.payload) := by
  show execWithdrawReply port f s = _
  rw [execWithdrawReply, free, if_neg Bool.false_ne_true]

/-- A step whose report has been taken back. -/
def StepSt.reopened (x : StepSt) : StepSt := { x with withdrawn := false, reported := false }

/-- A step whose report could not be taken back: the commit stands. -/
def StepSt.kept (x : StepSt) : StepSt := { x with withdrawn := false, lateCauses := [] }

/-- POST_COMMIT for chunks that retired while they waited for the reply. -/
def State.lateFaults (s : State) (m : StepMsg) (late : List (Nat × Nat)) : State :=
  late.foldl (fun s x => s.millFault x.1 0x24 m.job m.step x.2 0) s

/-- The one chunk that waits stays as it is, but that it waits no more, and POST_COMMIT is raised for it. -/
def State.postCommit (s : State) (m : StepMsg) (d : Nat) (c : Ctx) : State :=
  (s.setCtx d { c with withdrawing := false }).millFault c.mill 0x24 m.job m.step c.chunk.toNat 0

section
variable {s : State} {q : List Byte} {j : Job} {d : Nat} {c : Ctx} (job : s.job? (stepMsg q).job = some j)
  (asked : (j.step (stepMsg q).step).withdrawn = true)
  (waiting : (s.stepCtxs (stepMsg q).job (stepMsg q).step).filter (·.2.withdrawing) = [(d, c)])
include job asked waiting

/-- WITHDRAWN supersedes the one chunk that waits. -/
theorem replyIn_withdrawn (answer : leAt q 10 1 = 0) : s.replyIn q =
    ((s.mapJob (stepMsg q).job fun j => j.mapStep (stepMsg q).step StepSt.reopened).supersedeTo d (c.generation + 1) none).bump
      F.SUPERSEDE_EVENTS_SUPERSESSIONS c.mill := by
  rw [State.replyIn, job]
  dsimp only
  rw [asked, Bool.not_true, if_neg Bool.false_ne_true, waiting, if_pos answer]
  rfl

/-- COMMITTED raises POST_COMMIT for it. -/
theorem replyIn_committed (answer : leAt q 10 1 ≠ 0) : s.replyIn q =
    ((s.mapJob (stepMsg q).job fun j => j.mapStep (stepMsg q).step StepSt.kept).lateFaults (stepMsg q)
      (j.step (stepMsg q).step).lateCauses).postCommit (stepMsg q) d c := by
  rw [State.replyIn, job]
  dsimp only
  rw [asked, Bool.not_true, if_neg Bool.false_ne_true, waiting, if_neg answer]
  rfl

end

theorem lateFaults_parts (s : State) (m : StepMsg) (late : List (Nat × Nat)) : onlyParts [.regs, .wt] s (s.lateFaults m late) :=
  onlyParts_foldl (fun s x => s.millFault x.1 0x24 m.job m.step x.2 0)
    (fun s x => (millFault_touches s x.1 0x24 m.job m.step x.2 0).parts) late s

/-- A job's residuals may be staged anew without a change of its steps. -/
theorem State.jobHas.mapErrs {s : State} {id : BitVec 12} {P : Job → Prop} (a : s.jobHas id P) (i : BitVec 12) {g : Job → Job}
    (keeps : ∀ j, (g j).id = j.id) (h : ∀ k, P k → P (g k)) : (s.mapErrs i g).jobHas id P := by
  unfold State.mapErrs
  split
  · exact a
  · exact (a.mapJob i g keeps h).of_jobs (syncErrs_parts _ _ _ .jobs (by decide))

/-- What a supersession does besides its context keeps a property of a job that staging residuals anew keeps. -/
theorem State.jobHas.supersede_sends {s : State} {id : BitVec 12} {P : Job → Prop} (a : s.jobHas id P) (d : Nat) (job : BitVec 12)
    {g : Job → Job} (keeps : ∀ j, (g j).id = j.id) (h : ∀ k, P k → P (g k)) (l : Layout) (xs : List SlotId)
    (mk : BitVec 24 → Frame) (why : SlotId → Purpose) :
    ((((s.dropPartials d).dropRescales d).mapErrs job g).sendSlots l xs mk why).jobHas id P :=
  have dropped : onlyParts [.outs, .ended] s ((s.dropPartials d).dropRescales d) :=
    onlyParts_trans (dropOuts_parts s _) (dropOuts_parts _ _)
  ((a.of_jobs (dropped .jobs (by decide))).mapErrs job keeps h).of_jobs ((sendMany_touches _ _ _).parts .jobs (by decide))

/-- A chunk that has been superseded waits for no reply to a withdrawal any more. -/
structure Ctx.Reopened (g : Nat) (c' : Ctx) : Prop where
  state : c'.state = .openS
  generation : c'.generation = g
  withdrawing : c'.withdrawing = false

theorem supersedeTo_reopens {s : State} {d : Nat} {c : Ctx} {j : Job} {l : Layout} {b : PlanBucket} {grp : PlanGroup} (g : Nat)
    (here : s.ctx? d = some c) (layout : s.layoutOf c = some (j, l)) (bucket : l.bucketOf c = some (b, grp)) :
    ∃ c' xs mk why, c'.Reopened g ∧ s.supersedeTo d g none = ((((s.setCtx d c').dropPartials d).dropRescales d).mapErrs
      c.job fun j => j.unstage b.id (c.chunk.toNat - b.first) c.step).sendSlots l xs mk why := by
  rw [State.supersedeTo, here]
  dsimp only
  rw [layout]
  dsimp only
  rw [bucket]
  exact ⟨_, _, _, _, ⟨rfl, rfl, rfl⟩, rfl⟩

/-- What a reply to a withdrawal touches, once it has been taken. -/
abbrev replyParts : List Part := [.ctxs, .descCache, .mem, .memory, .regs, .core, .outs, .ended, .freeCount, .jobs, .wt]

/-- The withdrawal of a step is over: one context is written, and no other. -/
structure ReplyTaken (m : StepMsg) (d : Nat) (c' : Ctx) (s t : State) : Prop where
  ctx : t.ctx? d = some c'
  others : ∀ e, e ≠ d → t.ctx? e = s.ctx? e
  settled : t.jobHas m.job fun k => (k.step m.step).withdrawn = false
  parts : onlyParts replyParts s t

/-- A context written in a state where the withdrawal is over, and what leaves contexts and the job's steps alone after it. -/
theorem replyTaken_of {m : StepMsg} {d : Nat} {c' : Ctx} {s u t : State} (before : onlyParts [.jobs, .regs, .wt] s u)
    {parts : List Part} (after : onlyParts parts (u.setCtx d c') t) (ctxs : Part.ctxs ∉ parts)
    (small : ∀ p ∈ parts, p ∈ replyParts) (settled : t.jobHas m.job fun k => (k.step m.step).withdrawn = false) :
    ReplyTaken m d c' s t where
  ctx := (ctx?_of_ctxs (after .ctxs ctxs) d).trans (setCtx_ctx?_self u d c')
  others e he := by
    rw [ctx?_of_ctxs (after .ctxs ctxs), setCtx_ctx?_ne u c' he, ctx?_of_ctxs (before .ctxs (by decide))]
  settled := settled
  parts := onlyParts_trans (onlyParts_trans (onlyParts_mono before (by decide)) (onlyParts_mono (setCtx_parts u d c') (by decide)))
    (onlyParts_mono after small)

section
variable {s : State} {q : List Byte} {j : Job} {d : Nat} {c : Ctx} (job : s.job? (stepMsg q).job = some j)
  (asked : (j.step (stepMsg q).step).withdrawn = true)
  (waiting : (s.stepCtxs (stepMsg q).job (stepMsg q).step).filter (·.2.withdrawing) = [(d, c)])
include job

/-- A change of the step that ends the withdrawal. -/
theorem mapStep_settled (g : StepSt → StepSt) (keeps : ∀ x, (g x).step = x.step) (ends : ∀ x, (g x).withdrawn = false) :
    (s.mapJob (stepMsg q).job fun j => j.mapStep (stepMsg q).step g).jobHas (stepMsg q).job fun k =>
      (k.step (stepMsg q).step).withdrawn = false :=
  ⟨_, job?_mapStep job _ g, (congrArg StepSt.withdrawn (step_mapStep_self j _ g keeps)).trans (ends _)⟩

include asked waiting

theorem replyIn_withdrawn_effect {l : Layout} {b : PlanBucket} {g : PlanGroup} (here : s.ctx? d = some c)
    (layout : s.layoutOf c = some (j, l)) (bucket : l.bucketOf c = some (b, g)) (answer : leAt q 10 1 = 0) :
    ∃ c', c'.Reopened (c.generation + 1) ∧ ReplyTaken (stepMsg q) d c' s (s.replyIn q) := by
  obtain ⟨ofCtx, lay⟩ := layoutOf_inv layout
  have own : c.job = (stepMsg q).job := (job?_id ofCtx).symm.trans (job?_id job)
  rw [replyIn_withdrawn job asked waiting answer]
  have mapped := mapJob_parts s (stepMsg q).job fun j => j.mapStep (stepMsg q).step StepSt.reopened
  have found := job?_mapStep job (stepMsg q).step StepSt.reopened
  have settled := mapStep_settled job StepSt.reopened (fun _ => rfl) fun _ => rfl
  generalize s.mapJob (stepMsg q).job (fun j => j.mapStep (stepMsg q).step StepSt.reopened) = u at *
  have layoutNow : u.layoutOf c = some (j.mapStep (stepMsg q).step StepSt.reopened, l) := layoutOf_eq (own.symm ▸ found) lay
  obtain ⟨c', xs, mk, why, reopened, stages⟩ := supersedeTo_reopens (c.generation + 1)
    ((ctx?_of_ctxs (mapped .ctxs (by decide)) d).trans here) layoutNow bucket
  have told := (supersede_sends (u.setCtx d c') d c.job (fun j => j.unstage b.id (c.chunk.toNat - b.first) c.step) l xs mk
    why).parts
  have still := (settled.of_jobs (setCtx_parts u d c' .jobs (by decide))).supersede_sends d c.job
    (g := fun j => j.unstage b.id (c.chunk.toNat - b.first) c.step) (fun _ => rfl) (fun _ => id) l xs mk why
  rw [← stages] at told still
  generalize u.supersedeTo d (c.generation + 1) none = w at *
  have counted := bump_parts w F.SUPERSEDE_EVENTS_SUPERSESSIONS c.mill
  exact ⟨c', reopened, replyTaken_of (onlyParts_mono mapped (by decide))
    (onlyParts_trans (onlyParts_mono told (d := supersedeParts) (by decide)) (onlyParts_mono counted (by decide))) (by decide)
    (by decide) (still.of_jobs (counted .jobs (by decide)))⟩

theorem replyIn_committed_effect (low : c.mill < 128) (answer : leAt q 10 1 ≠ 0) :
    ReplyTaken (stepMsg q) d { c with withdrawing := false } s (s.replyIn q) ∧ (s.replyIn q).reports (c.mill / 32) 0x11 0x24 := by
  rw [replyIn_committed job asked waiting answer]
  have mapped := mapJob_parts s (stepMsg q).job fun j => j.mapStep (stepMsg q).step StepSt.kept
  have settled := mapStep_settled job StepSt.kept (fun _ => rfl) fun _ => rfl
  generalize s.mapJob (stepMsg q).job (fun j => j.mapStep (stepMsg q).step StepSt.kept) = u at *
  have late := lateFaults_parts u (stepMsg q) (j.step (stepMsg q).step).lateCauses
  have raised := (millFault_touches ((u.lateFaults (stepMsg q) (j.step (stepMsg q).step).lateCauses).setCtx d
    { c with withdrawing := false }) c.mill 0x24 (stepMsg q).job (stepMsg q).step c.chunk.toNat 0).parts
  refine ⟨replyTaken_of (onlyParts_trans (onlyParts_mono mapped (by decide)) (onlyParts_mono late (by decide))) raised (by decide)
    (by decide) ?_, millFault_reports _ _ _ _ _ _ _ low (by decide)⟩
  exact ((settled.of_jobs (late .jobs (by decide))).of_jobs (setCtx_parts _ d _ .jobs (by decide))).of_jobs
    (raised .jobs (by decide))

end

theorem stepCtxs_of_ctxs {s t : State} (h : t.ctxs = s.ctxs) (job : BitVec 12) (step : BitVec 32) :
    t.stepCtxs job step = s.stepCtxs job step := by rw [State.stepCtxs, h, State.stepCtxs]

/-- The reply ends the withdrawal, and the chunk that waited is superseded or reported, as the reply says. -/
theorem withdrawReply_effect {s u : State} {port d : Nat} {f : Frame} {j : Job} {l : Layout} {b : PlanBucket} {g : PlanGroup}
    {c : Ctx} (free : s.queuedBehind .firmware port f = false) (good : tailGood f = true) (mgmt : f.h.ftype = 8#4)
    (kind : mgmtKind f = 0x43)
    (received : (s.takeFrom .firmware port f).receive port f = (.complete, u)) (job : s.job? (stepMsg f.payload).job = some j)
    (asked : (j.step (stepMsg f.payload).step).withdrawn = true)
    (waiting : (s.stepCtxs (stepMsg f.payload).job (stepMsg f.payload).step).filter (·.2.withdrawing) = [(d, c)])
    (here : s.ctx? d = some c) (layout : s.layoutOf c = some (j, l)) (bucket : l.bucketOf c = some (b, g)) (low : c.mill < 128) :
    Completes (.withdrawReply port f) s fun t => ∃ c', ReplyTaken (stepMsg f.payload) d c' (u.ack port f.h) t
      ∧ (leAt f.payload 10 1 = 0 → c'.Reopened (c.generation + 1))
      ∧ (leAt f.payload 10 1 ≠ 0 → c' = { c with withdrawing := false } ∧ t.reports (c.mill / 32) 0x11 0x24) := by
  have before := taken_parts received
  have ctxs := before .ctxs (by decide)
  have jobs := before .jobs (by decide)
  have jobNow := (job?_of_jobs jobs _).trans job
  have waitingNow := (congrArg (List.filter (·.2.withdrawing)) (stepCtxs_of_ctxs ctxs _ _)).trans waiting
  refine ⟨_, exec_withdrawReply free, ?_⟩
  rw [mgmtIn_complete good mgmt kind received]
  by_cases answer : leAt f.payload 10 1 = 0
  · obtain ⟨c', reopened, taken⟩ := replyIn_withdrawn_effect jobNow asked waitingNow ((ctx?_of_ctxs ctxs d).trans here)
      ((layoutOf_of_jobs jobs c).trans layout) bucket answer
    exact ⟨c', taken, fun _ => reopened, fun other => absurd answer other⟩
  · obtain ⟨taken, reports⟩ := replyIn_committed_effect jobNow asked waitingNow low answer
    exact ⟨_, taken, fun other => absurd other answer, fun _ => ⟨rfl, reports⟩⟩

/-! ## TALLY_REPORT (R247) -/

theorem exec_tallyReport {s : State} {port : Nat} {f : Frame} (free : s.queuedBehind .firmware port f = false)
    (good : tailGood f = true) (mgmt : f.h.ftype = 8#4) (kind : mgmtKind f = 0x45) :
    exec (.tallyReport port f) s = .next ((s.takeFrom .firmware port f).tallyReport port f) := by
  show execTallyReport port f s = _
  rw [execTallyReport, free, if_neg Bool.false_ne_true]
  dsimp only
  rw [good, mgmt, kind]
  rfl

/-- The share of a bucket's tally that a report of a switch carries. -/
def tallyShare (b : PlanBucket) (w : PlanSwitch) (q : List Byte) : TallyStep :=
  { bucket := b.id, sumIn := leAt q 16 16, sumSum := 0, clamped := bitOf (leAt q 10 1) 0, n := 0, reduced := false,
    reports := [w.index], written := false }

/-- A step with a share added to a bucket's tally. -/
def StepSt.addTally (b : Nat) (t : TallyStep) (x : StepSt) : StepSt := x.putTally ((x.tallyOf b).add t)

@[simp] theorem tallyOf_bucket (x : StepSt) (b : Nat) : (x.tallyOf b).bucket = b := by
  unfold StepSt.tallyOf
  cases found : x.tally.find? fun t => t.bucket == b with
  | none => rfl
  | some t => simpa using List.find?_some found

theorem tallyOf_putTally (x : StepSt) (t : TallyStep) : (x.putTally t).tallyOf t.bucket = t := by
  have others : (x.tally.filter fun y => y.bucket != t.bucket).find? (fun y => y.bucket == t.bucket) = none :=
    List.find?_eq_none.mpr fun y hy => by simpa using (List.mem_filter.mp hy).2
  rw [StepSt.putTally, StepSt.tallyOf, List.find?_append, others]
  simp

theorem tallyOf_addTally (x : StepSt) (b : Nat) (t : TallyStep) : (x.addTally b t).tallyOf b = (x.tallyOf b).add t := by
  have own : ((x.tallyOf b).add t).bucket = b := tallyOf_bucket x b
  have put := tallyOf_putTally x ((x.tallyOf b).add t)
  rwa [own] at put

theorem tallyLayout_of {j : Job} {gen : BitVec 4} {l : Layout} (layout : j.layout gen = some l) : j.tallyLayout gen = some l := by
  rw [Job.tallyLayout, layout]

/-- No statistics record is written while the releasing switch's own totals are missing. -/
theorem tallyTry_awaits {s : State} {j : Job} {l : Layout} (job : s.job? l.plan.job = some j) (b : PlanBucket) (g : PlanGroup)
    {st : BitVec 32} (missing : ((j.step st).tallyOf b.id).reports.contains l.self = false) : s.tallyTry l b g st = s := by
  rw [State.tallyTry, job]
  dsimp only
  rw [if_pos (by rw [missing, Bool.not_false, Bool.or_true, Bool.true_or])]

theorem tallyAdd_awaits {s : State} {j : Job} {l : Layout} (job : s.job? l.plan.job = some j) (b : PlanBucket) (g : PlanGroup)
    {st : BitVec 32} {t : TallyStep} (missing : ((j.step st).tallyOf b.id).reports.contains l.self = false)
    (other : t.reports.contains l.self = false) :
    s.tallyAdd l b g st t = s.mapJob l.plan.job fun j => j.mapStep st (StepSt.addTally b.id t) := by
  refine tallyTry_awaits (job?_mapStep job st (StepSt.addTally b.id t)) b g ?_
  rw [step_mapStep_self j st (StepSt.addTally b.id t) fun _ => rfl, tallyOf_addTally]
  show ((((j.step st).tallyOf b.id).reports ++ t.reports).contains l.self) = false
  rw [List.contains_append, missing, other, Bool.or_false]

/-- The releasing switch of a bucket awaits the share that a TALLY_REPORT carries: its sender owes one and has sent none. -/
structure Job.AwaitsShare (j : Job) (f : Frame) (l : Layout) (b : PlanBucket) (g : PlanGroup) (w : PlanSwitch) : Prop where
  layout : j.layout (BitVec.ofNat 4 (leAt f.payload 2 2)) = some l
  bucket : l.plan.buckets.find? (fun b => b.id == leAt f.payload 8 2) = some b
  sender : l.plan.swByFlat f.h.src = some w
  group : l.plan.group? b.group = some g
  releases : l.releases g = true
  owes : (l.plan.tallyOwers g).contains w.index = true
  tally : b.tally = true
  first : ((j.step (BitVec.ofNat 32 (leAt f.payload 4 4))).tallyOf b.id).reports.contains w.index = false

section
variable {s u : State} {port : Nat} {f : Frame} {j : Job} {l : Layout} {b : PlanBucket} {g : PlanGroup} {w : PlanSwitch}
  (awaits : j.AwaitsShare f l b g w)
include awaits

theorem tallyReport_adds (received : s.receive port f = (.complete, u))
    (job : (u.ack port f.h).job? (BitVec.ofNat 12 (leAt f.payload 2 2 / 16)) = some j) : s.tallyReport port f =
      (u.ack port f.h).tallyAdd l b g (BitVec.ofNat 32 (leAt f.payload 4 4)) (tallyShare b w f.payload) := by
  obtain ⟨layout, bucket, sender, group, releases, owes, tally, first⟩ := awaits
  have takes : ¬ (!l.releases g || !(l.plan.tallyOwers g).contains w.index
      || ((j.step (BitVec.ofNat 32 (leAt f.payload 4 4))).tallyOf b.id).reports.contains w.index || !b.tally) = true := by
    rw [releases, owes, first, tally]
    decide
  rw [State.tallyReport, received]
  dsimp only
  rw [job, Option.bind_some, tallyLayout_of layout]
  dsimp only
  rw [bucket, sender]
  dsimp only
  rw [group]
  exact if_neg takes

/-- The releasing switch adds the share, and nothing else of the control half or of its contexts changes. -/
theorem tallyReport_effect (free : s.queuedBehind .firmware port f = false) (good : tailGood f = true) (mgmt : f.h.ftype = 8#4)
    (kind : mgmtKind f = 0x45) (received : (s.takeFrom .firmware port f).receive port f = (.complete, u))
    (job : s.job? (BitVec.ofNat 12 (leAt f.payload 2 2 / 16)) = some j)
    (own : l.plan.job = BitVec.ofNat 12 (leAt f.payload 2 2 / 16))
    (missing : ((j.step (BitVec.ofNat 32 (leAt f.payload 4 4))).tallyOf b.id).reports.contains l.self = false)
    (other : w.index ≠ l.self) : Completes (.tallyReport port f) s fun t =>
      (∃ j', t.job? (BitVec.ofNat 12 (leAt f.payload 2 2 / 16)) = some j'
          ∧ (j'.step (BitVec.ofNat 32 (leAt f.payload 4 4))).tallyOf b.id =
            ((j.step (BitVec.ofNat 32 (leAt f.payload 4 4))).tallyOf b.id).add (tallyShare b w f.payload))
        ∧ onlyParts (.jobs :: .rxs :: coreParts) s t := by
  have before := taken_parts received
  have jobNow := (job?_of_jobs (before .jobs (by decide)) _).trans job
  have others : (tallyShare b w f.payload).reports.contains l.self = false := by
    simpa [tallyShare] using other.symm
  refine ⟨_, exec_tallyReport free good mgmt kind, ?_⟩
  rw [tallyReport_adds awaits received jobNow, tallyAdd_awaits (own.symm ▸ jobNow) b g missing others, own]
  refine ⟨⟨_, job?_mapStep jobNow _ (StepSt.addTally b.id (tallyShare b w f.payload)), ?_⟩,
    onlyParts_trans (onlyParts_mono before (by decide)) (onlyParts_mono (mapJob_parts _ _ _) (by decide))⟩
  rw [step_mapStep_self j _ (StepSt.addTally b.id (tallyShare b w f.payload)) fun _ => rfl, tallyOf_addTally]

end

end Sys2Proof.Machine

/-! PROOFS. Bells of a barrier (spec/09_belfry_and_time.md R260, R261, R263): an arrival while others are awaited, the release of a
phase at a lower tier, and the statement about bells, tallies and withdrawals. -/
namespace Sys2Proof.Machine

open Sys2Proof

/-! ## A job's bells -/

theorem bell?_bell {j : Job} {b : Nat} {x : Bell} (h : j.bell? b = some x) : x.bell = b := by
  simpa using List.find?_some h

theorem bell?_setBell (j : Job) (x : Bell) {b : Nat} (own : x.bell = b) : (j.setBell x).bell? b = some x := by
  subst own
  have others : (j.bells.filter fun y => y.bell != x.bell).find? (fun y => y.bell == x.bell) = none :=
    List.find?_eq_none.mpr fun y hy => by simpa using (List.mem_filter.mp hy).2
  rw [Job.setBell, Job.bell?, List.find?_append, others]
  simp

/-- A job's bell is replaced where the job is. -/
theorem job?_setBell {s : State} {id : BitVec 12} {j : Job} (job : s.job? id = some j) (x : Bell) :
    (s.mapJob id fun j => j.setBell x).job? id = some (j.setBell x) := by
  rw [job?_mapJob s id (fun j => j.setBell x) fun _ => rfl, job, Option.map_some]

/-! ## BELL_ARRIVE (R260, R261) -/

/-- A bell in whose phase something has arrived: the first arrival opens it. -/
def Bell.openAt (x : Bell) (ns : Nat) : Bell := { x with opened := if x.begun then x.opened else ns, begun := true }

theorem openAt_eq (x : Bell) (ns : Nat) : (if x.begun then x else { x with opened := ns, begun := true }) = x.openAt ns := by
  unfold Bell.openAt
  cases x
  split
  · simp_all
  · simp_all

/-- An arrival at a barrier. -/
def Bell.arrive (x : Bell) (ns : Nat) (w : SlotId) (m : BellMsg) : Bell :=
  { x.openAt ns with lead := max x.lead m.lead, at_ := max x.at_ m.at_, arrived := x.arrived ++ [w] }

/-- Nothing follows an arrival at a barrier while others are awaited. -/
theorem bellDone_awaits {s : State} {id : BitVec 12} {b : Nat} {j : Job} {x : Bell} (job : s.job? id = some j)
    (bell : j.bell? b = some x) (more : x.arrived.length ≠ x.slots.length) : s.bellDone id b = s := by
  rw [State.bellDone, job]
  dsimp only
  rw [bell, Option.bind_some]
  split
  · rename_i y g found _
    obtain rfl : x = y := Option.some.inj found
    exact if_pos (by simp [more])
  · rfl

theorem recordBell_awaits {s : State} {j : Job} {x : Bell} {m : BellMsg} (job : s.job? m.job = some j)
    (bell : j.bell? m.bell = some x) (barrier : x.kind = .barrier) (more : x.arrived.length + 1 < x.slots.length) (l : Layout)
    (g : PlanGroup) (w : SlotId) : s.recordBell l g w m = s.mapJob m.job fun j => j.setBell (x.arrive s.ns w m) := by
  have noted : s.recordBell l g w m = (s.mapJob m.job fun j => j.setBell (x.arrive s.ns w m)).bellDone m.job m.bell := by
    rw [State.recordBell, job]
    dsimp only
    rw [State.bellFor, bell]
    dsimp only
    rw [openAt_eq]
    split
    · rfl
    · rename_i counter
      exact nomatch barrier.symm.trans counter
  have awaited : (x.arrive s.ns w m).arrived.length ≠ (x.arrive s.ns w m).slots.length := by
    show (x.arrived ++ [w]).length ≠ x.slots.length
    rw [List.length_append, List.length_singleton]
    omega
  rw [noted, bellDone_awaits (job?_setBell job (x.arrive s.ns w m)) (bell?_setBell j _ (bell?_bell bell :)) awaited]

theorem bellFrame_payload (f : Frame) : (bellFrame f).payload = f.payload := by
  unfold bellFrame
  split
  · rfl
  · rfl

/-- A BELL_ARRIVE whose word of SRAM is good is taken as its source sent it. -/
theorem exec_bellArrive {s : State} {port : Nat} {f : Frame} (free : s.queuedBehind .firmware port f = false)
    (good : tailGood f = true) :
    exec (.bellArrive port f []) s = .next ((s.takeFrom .firmware port f).bellIn port (bellFrame f)) := by
  show execBellArrive port f [] s = _
  rw [execBellArrive, free, if_neg Bool.false_ne_true]
  dsimp only
  rw [good, Bool.not_true, if_neg Bool.false_ne_true]
  rfl

theorem bellIn_records {s : State} {f : Frame} {p : Nat} {l : Layout} {g : PlanGroup} {w : SlotId}
    (new : (s.rxOf p f.h).done = false) (verdict : s.classifyBell f.h (bellMsg f.payload) = .record l g w) :
    s.bellIn p f = ((s.receive p f).2.recordBell l g w (bellMsg f.payload)).ack p f.h := by
  rw [State.bellIn, new, if_neg Bool.false_ne_true, verdict]

/-- What an arrival or a release touches. -/
abbrev bellParts : List Part := .jobs :: answerParts

/-- An arrival at a barrier that others are to reach yet is recorded and answered. -/
theorem bellArrive_effect {s : State} {port : Nat} {f : Frame} {j : Job} {l : Layout} {g : PlanGroup} {w : SlotId} {x : Bell}
    (free : s.queuedBehind .firmware port f = false) (good : tailGood f = true)
    (new : ((s.takeFrom .firmware port f).rxOf port (bellFrame f).h).done = false)
    (verdict : (s.takeFrom .firmware port f).classifyBell (bellFrame f).h (bellMsg f.payload) = .record l g w)
    (job : s.job? (bellMsg f.payload).job = some j) (bell : j.bell? (bellMsg f.payload).bell = some x) (barrier : x.kind = .barrier)
    (more : x.arrived.length + 1 < x.slots.length) : Completes (.bellArrive port f []) s fun t =>
      t.jobHas (bellMsg f.payload).job (fun k => k.bell? (bellMsg f.payload).bell = some (x.arrive s.ns w (bellMsg f.payload)))
        ∧ onlyParts bellParts s t ∧ sameOuts s t := by
  have took := takeFrom_moves s .firmware port f
  refine ⟨_, exec_bellArrive free good, ?_⟩
  generalize s.takeFrom .firmware port f = u at *
  rw [← bellFrame_payload f] at verdict job bell ⊢
  generalize bellFrame f = f' at *
  rw [bellIn_records new verdict]
  have counted := receive_parts u port f'
  generalize (u.receive port f').2 = v at *
  have ns : v.ns = s.ns := by rw [State.ns, counted .time (by decide), took.parts .time (by decide), State.ns]
  have jobNow : v.job? (bellMsg f'.payload).job = some j :=
    (job?_of_jobs ((counted .jobs (by decide)).trans (took.parts .jobs (by decide))) _).trans job
  rw [recordBell_awaits jobNow bell barrier more l g w, ns]
  have marked := mapJob_parts v (bellMsg f'.payload).job fun j => j.setBell (x.arrive s.ns w (bellMsg f'.payload))
  have found := job?_setBell jobNow (x.arrive s.ns w (bellMsg f'.payload))
  generalize v.mapJob (bellMsg f'.payload).job (fun j => j.setBell (x.arrive s.ns w (bellMsg f'.payload))) = z at *
  have acked := ack_parts z port f'.h
  refine ⟨⟨_, (job?_of_jobs (acked .jobs (by decide)) _).trans found, bell?_setBell j _ (bell?_bell bell :)⟩, ?_, ?_⟩
  · exact onlyParts_trans (onlyParts_trans (onlyParts_mono took.parts (by decide)) (onlyParts_mono counted (by decide)))
      (onlyParts_trans (onlyParts_mono marked (by decide)) (onlyParts_mono acked (by decide)))
  · exact ((took.outs.trans (sameOuts_of_parts counted (by decide))).trans (sameOuts_of_parts marked (by decide))).trans
      (emit_sameOuts z _ _ _)

/-! ## BELL_RELEASE at a lower tier (R263) -/

theorem exec_bellRelease {s : State} {port : Nat} {f : Frame} (free : s.queuedBehind .firmware port f = false)
    (good : tailGood f = true) :
    exec (.bellRelease port f) s = .next ((s.takeFrom .firmware port f).bellReleaseIn port f) := by
  show execBellRelease port f s = _
  rw [execBellRelease, free, if_neg Bool.false_ne_true, good, if_pos rfl]

/-- A record whose phase has been released. -/
def Bell.released (x : Bell) : Bell := { x.cleared with phase := x.phase + 1, passed := x.passed + 1 }

/-- A release of the bell's phase moves the record to the next phase and is passed down. -/
theorem bellReleaseIn_releases {s u : State} {port : Nat} {f : Frame} {j : Job} {g : PlanGroup} {x : Bell}
    (received : s.receive port f = (.complete, u))
    (job : (u.ack port f.h).job? (BitVec.ofNat 12 (leAt f.payload 2 2 / 16)) = some j)
    (bell : j.bell? (leAt f.payload 4 2) = some x) (group : j.cur.plan.group? x.group = some g)
    (phase : x.phase = BitVec.ofNat 16 (leAt f.payload 6 2)) :
    ∃ xs mk why, s.bellReleaseIn port f = ((u.ack port f.h).mapJob (BitVec.ofNat 12 (leAt f.payload 2 2 / 16)) fun j =>
      j.setBell x.released).sendSlots j.cur xs mk why := by
  rw [State.bellReleaseIn, received]
  dsimp only
  rw [job]
  dsimp only
  rw [bell, Option.bind_some, group]
  dsimp only
  rw [← phase, bne_self_eq_false, if_neg Bool.false_ne_true]
  exact ⟨_, _, _, rfl⟩

theorem bellRelease_effect {s u : State} {port : Nat} {f : Frame} {j : Job} {g : PlanGroup} {x : Bell}
    (free : s.queuedBehind .firmware port f = false) (good : tailGood f = true)
    (received : (s.takeFrom .firmware port f).receive port f = (.complete, u))
    (job : s.job? (BitVec.ofNat 12 (leAt f.payload 2 2 / 16)) = some j) (bell : j.bell? (leAt f.payload 4 2) = some x)
    (group : j.cur.plan.group? x.group = some g) (phase : x.phase = BitVec.ofNat 16 (leAt f.payload 6 2)) :
    Completes (.bellRelease port f) s fun t =>
      t.jobHas (BitVec.ofNat 12 (leAt f.payload 2 2 / 16)) (fun k => k.bell? (leAt f.payload 4 2) = some x.released)
        ∧ onlyParts bellParts s t := by
  have before := taken_parts received
  have jobNow := (job?_of_jobs (before .jobs (by decide)) _).trans job
  obtain ⟨xs, mk, why, released⟩ := bellReleaseIn_releases received jobNow bell group phase
  refine ⟨_, exec_bellRelease free good, ?_⟩
  rw [released]
  have marked := mapJob_parts (u.ack port f.h) (BitVec.ofNat 12 (leAt f.payload 2 2 / 16)) fun j => j.setBell x.released
  have has : State.jobHas _ _ fun k => k.bell? (leAt f.payload 4 2) = some x.released :=
    ⟨_, job?_setBell jobNow x.released, bell?_setBell j _ (bell?_bell bell :)⟩
  generalize (u.ack port f.h).mapJob (BitVec.ofNat 12 (leAt f.payload 2 2 / 16)) (fun j => j.setBell x.released) = v at *
  have sent : onlyParts sendParts v (v.sendSlots j.cur xs mk why) := onlyParts_mono (sendMany_touches _ _ _).parts (by decide)
  exact ⟨has.of_jobs (sent .jobs (by decide)),
    onlyParts_trans (onlyParts_trans (onlyParts_mono before (by decide)) (onlyParts_mono marked (by decide)))
      (onlyParts_mono sent (by decide))⟩

/-! ## O19 -/

/-- Settles O19: a reply to a withdrawal ends it and rewrites the one context that waited; a share is added to a tally that is not
due yet; an arrival and a release each replace one bell of one job. -/
theorem withdrawalsTalliesBells : Obligations.WithdrawalsTalliesBells := by
  unfold Obligations.WithdrawalsTalliesBells
  refine ⟨?_, ?_, ?_, ?_⟩
  · intro s u port d f j l b g c free good mgmt kind received job asked waiting here layout bucket low
    obtain ⟨t, ran, c', ⟨ctx, others, settled, parts⟩, withdrawn, committed⟩ :=
      withdrawReply_effect free good mgmt kind received job asked waiting here layout bucket low
    have before := taken_parts received
    have upTo : onlyParts (.rxs :: replyParts) s t :=
      onlyParts_trans (onlyParts_mono before (by decide)) (onlyParts_mono parts (by decide))
    refine ⟨t, ran, fun answer => ?_, fun answer => ?_, settled,
      fun e he => (others e he).trans (ctx?_of_ctxs (before .ctxs (by decide)) e), keepsParts_of_onlyParts upTo (by decide)⟩
    · obtain ⟨state, generation, withdrawing⟩ := withdrawn answer
      exact ⟨c', ctx, generation, state, withdrawing⟩
    · obtain ⟨rfl, reports⟩ := committed answer
      exact ⟨⟨_, ctx, rfl, rfl, rfl⟩, reports⟩
  · rintro s u port f j l b g w _ _ free good mgmt kind rfl rfl received job layout own bucket sender group releases owes tally
      first missing other
    obtain ⟨t, ran, ⟨j', found, added⟩, parts⟩ := tallyReport_effect
      ⟨layout, bucket, sender, group, releases, owes, tally, first⟩ free good mgmt kind received job own missing other
    exact ⟨t, ran, ⟨j', found, by rw [added]; rfl, by rw [added]; rfl, by rw [added]; rfl⟩, parts .ctxs (by decide),
      keepsParts_of_onlyParts parts (by decide), keepsParts_of_onlyParts parts (by decide)⟩
  · rintro s _ port f j l g w x free rfl good new verdict job bell barrier more
    obtain ⟨t, ran, ⟨j', found, arrived⟩, parts, outs⟩ := bellArrive_effect free good new verdict job bell barrier more
    exact ⟨t, ran, ⟨j', _, found, arrived, rfl, rfl, rfl, rfl, rfl, rfl⟩, parts .ctxs (by decide),
      keepsParts_of_onlyParts parts (by decide), keepsParts_of_onlyParts parts (by decide), outs⟩
  · intro s u port f j g x free good received job bell group phase
    obtain ⟨t, ran, ⟨j', found, released⟩, parts⟩ := bellRelease_effect free good received job bell group phase
    exact ⟨t, ran, ⟨j', _, found, released, rfl, rfl, rfl, rfl, rfl, rfl⟩, parts .ctxs (by decide),
      keepsParts_of_onlyParts parts (by decide), keepsParts_of_onlyParts parts (by decide)⟩

end Sys2Proof.Machine

/-! PROOFS. Signatures of step records and the attestation report (spec/05_result_checking.md R166; 21_boot_security.md R519). -/
namespace Sys2Proof.Machine

open Sys2Proof

/-! ## Small operations on the state -/

theorem setSignQueue_parts (s : State) (q : List (Option (BitVec 12 × BitVec 32))) :
    onlyParts [.signQueue] s { s with signQueue := q } := fun p hp => by
  cases p
  case signQueue => exact absurd (by decide) hp
  all_goals rfl

theorem setRetained_parts (s : State) (rs : List StepRecord) : onlyParts [.retained] s { s with retained := rs } := fun p hp => by
  cases p
  case retained => exact absurd (by decide) hp
  all_goals rfl

theorem mapBoot_parts (s : State) (g : BootSt → BootSt) : onlyParts [.boot] s (s.mapBoot g) := fun p hp => by
  cases p
  case boot => exact absurd (by decide) hp
  all_goals rfl

/-! ## Step records (R165) -/

theorem record?_of {s t : State} (jobs : t.jobs = s.jobs) (retained : t.retained = s.retained) (id : BitVec 12) (st : BitVec 32) :
    t.record? id st = s.record? id st := by
  rw [State.record?, job?_of_jobs jobs, retained, State.record?]

theorem record?_names {s : State} {id : BitVec 12} {st : BitVec 32} {r : StepRecord} (h : s.record? id st = some r) :
    r.job = id ∧ r.step = st := by
  simpa using List.find?_some h

theorem signRecord_names (r : StepRecord) (sig : List Byte) (x : StepRecord) :
    (signRecord r sig x).job = x.job ∧ (signRecord r sig x).step = x.step := by
  unfold signRecord
  split
  · exact ⟨rfl, rfl⟩
  · exact ⟨rfl, rfl⟩

theorem signRecord_signature (r : StepRecord) (sig : List Byte) : (signRecord r sig r).signature = some sig := by
  rw [signRecord, if_pos ⟨rfl, rfl⟩]

/-- Signing changes no name of a record, so each record is found where it was. -/
theorem find?_signRecord (r : StepRecord) (sig : List Byte) (id : BitVec 12) (st : BitVec 32) (xs : List StepRecord) :
    (xs.map (signRecord r sig)).find? (fun x => x.job == id && x.step == st) =
      (xs.find? fun x => x.job == id && x.step == st).map (signRecord r sig) := by
  rw [List.find?_map]
  refine congrArg (fun q => (xs.find? q).map (signRecord r sig)) (funext fun x => ?_)
  obtain ⟨job, step⟩ := signRecord_names r sig x
  rw [Function.comp_apply, job, step]

/-- The records of a job with a step's signed. -/
def Job.signed (r : StepRecord) (sig : List Byte) (j : Job) : Job := { j with records := j.records.map (signRecord r sig) }

/-- The records of a step, in its job and retained, with its signature. -/
def State.signedFor (s : State) (id : BitVec 12) (r : StepRecord) (sig : List Byte) : State :=
  let t := (s.mapJob id (Job.signed r sig)).syncLedger id r.step
  { t with retained := t.retained.map (signRecord r sig) }

theorem signedFor_parts (s : State) (id : BitVec 12) (r : StepRecord) (sig : List Byte) :
    onlyParts [.jobs, .mem, .memory, .retained] s (s.signedFor id r sig) :=
  onlyParts_trans (onlyParts_trans (onlyParts_mono (mapJob_parts s id (Job.signed r sig)) (by decide))
    (onlyParts_mono (syncLedger_parts _ id r.step) (by decide))) (onlyParts_mono (setRetained_parts _ _) (by decide))

theorem signedFor_record? {s : State} {id : BitVec 12} {st : BitVec 32} {r : StepRecord} (held : s.record? id st = some r)
    (sig : List Byte) : (s.signedFor id r sig).record? id st = some (signRecord r sig r) := by
  have synced := syncLedger_parts (s.mapJob id (Job.signed r sig)) id r.step
  have job : (s.signedFor id r sig).job? id = (s.job? id).map (Job.signed r sig) :=
    (job?_of_jobs (synced .jobs (by decide)) id).trans (job?_mapJob s id (Job.signed r sig) fun _ => rfl)
  have retained : (s.signedFor id r sig).retained = s.retained.map (signRecord r sig) :=
    congrArg (List.map (signRecord r sig)) (synced .retained (by decide))
  rw [State.record?] at held ⊢
  rw [job, retained]
  cases found : s.job? id with
  | none =>
    rw [found] at held
    exact (find?_signRecord r sig id st _).trans (congrArg (Option.map (signRecord r sig)) held)
  | some j =>
    rw [found] at held
    show ((j.records.map (signRecord r sig)) ++ s.retained.map (signRecord r sig)).find? _ = _
    rw [← List.map_append]
    exact (find?_signRecord r sig id st _).trans (congrArg (Option.map (signRecord r sig)) held)

/-! ## LEDGER_SIGN_STEP (R166) -/

theorem exec_ledgerSignStep {s : State} (core : s.power.core = true) (st : BitVec 32) :
    exec (.ledgerSignStep st) s = .next (s.signRequest st) := by
  show execLedgerSignStep st s = _
  rw [execLedgerSignStep, if_pos core]

/-- A step that the switch holds no record of sets SIGN_ERR. -/
theorem signRequest_unknown {s : State} {st : BitVec 32}
    (unknown : s.record? (BitVec.ofNat 12 (s.fld F.LEDGER_CONTROL_SIGN_JOB 0)) st = none) :
    s.signRequest st = s.setFlag F.LEDGER_STATUS_SIGN_ERR 0 true := by
  rw [State.signRequest, unknown, Option.isSome_none, if_neg Bool.false_ne_true]

/-- Another is queued for the engine. -/
theorem signRequest_held {s : State} {st : BitVec 32}
    (held : (s.record? (BitVec.ofNat 12 (s.fld F.LEDGER_CONTROL_SIGN_JOB 0)) st).isSome = true) :
    s.signRequest st =
      { s with signQueue := s.signQueue ++ [some (BitVec.ofNat 12 (s.fld F.LEDGER_CONTROL_SIGN_JOB 0), st)] } := by
  rw [State.signRequest, if_pos held]
  rfl

theorem setFlag_signErr (s : State) : (s.setFlag F.LEDGER_STATUS_SIGN_ERR 0 true).flag F.LEDGER_STATUS_SIGN_ERR 0 = true :=
  flag_setFlag s _ _ _ (by decide)

/-! ## LEDGER_SIGNATURE_DONE (R166, R519) -/

section
variable {s : State} {id : BitVec 12} {st : BitVec 32} {rest : List (Option (BitVec 12 × BitVec 32))}
  (head : s.signQueue = some (id, st) :: rest) (fw : s.power.fw = true)
include head fw

/-- A record that is no longer held cannot be signed. -/
theorem exec_ledgerSignatureDone_gone (gone : s.record? id st = none) : exec .ledgerSignatureDone s =
    .next (({ s with signQueue := rest } : State).setFlag F.LEDGER_STATUS_SIGN_ERR 0 true) := by
  have goneNow : ({ s with signQueue := rest } : State).record? id st = none := gone
  show execLedgerSignatureDone s = _
  rw [execLedgerSignatureDone, head]
  dsimp only
  rw [fw, Bool.not_true, if_neg Bool.false_ne_true, goneNow]

theorem exec_ledgerSignatureDone_held {r : StepRecord} (held : s.record? id st = some r) : exec .ledgerSignatureDone s =
    .next ((({ s with signQueue := rest } : State).draw1.2.signedFor id r (signature s.freeCount (ledgerMessage r))).bump
      F.LEDGER_STATUS_SIGNATURES 0) := by
  have heldNow : ({ s with signQueue := rest } : State).record? id st = some r := held
  show execLedgerSignatureDone s = _
  rw [execLedgerSignatureDone, head]
  dsimp only
  rw [fw, Bool.not_true, if_neg Bool.false_ne_true, heldNow]
  rfl

/-- The head of the queue is signed, wherever its record is held, and counted. -/
theorem ledgerSignatureDone_signs {r : StepRecord} (held : s.record? id st = some r) :
    Completes .ledgerSignatureDone s fun t =>
      t.signQueue = rest ∧ t.record? id st = some (signRecord r (signature s.freeCount (ledgerMessage r)) r)
        ∧ t.fld F.LEDGER_STATUS_SIGNATURES 0 = satAdd F.LEDGER_STATUS_SIGNATURES.width (s.fld F.LEDGER_STATUS_SIGNATURES 0) 1
        ∧ onlyParts [.regs, .mem, .memory, .jobs, .retained, .signQueue, .freeCount] s t := by
  refine ⟨_, exec_ledgerSignatureDone_held head fw held, ?_⟩
  have drawn := onlyParts_trans (onlyParts_mono (setSignQueue_parts s rest) (d := [.signQueue, .freeCount]) (by decide))
    (onlyParts_mono (draw1_parts _) (by decide))
  have queue : ({ s with signQueue := rest } : State).draw1.2.signQueue = rest := rfl
  have heldNow : ({ s with signQueue := rest } : State).draw1.2.record? id st = some r := held
  generalize ({ s with signQueue := rest } : State).draw1.2 = u at *
  have signed := signedFor_parts u id r (signature s.freeCount (ledgerMessage r))
  have found := signedFor_record? heldNow (signature s.freeCount (ledgerMessage r))
  generalize u.signedFor id r (signature s.freeCount (ledgerMessage r)) = v at *
  have counted := bump_parts v F.LEDGER_STATUS_SIGNATURES 0
  refine ⟨(signed .signQueue (by decide)).trans queue, found, ?_, ?_⟩
  · rw [fld_bump v _ _ (by decide),
      fld_of_reg F.LEDGER_STATUS_SIGNATURES (reg_of_regs ((signed .regs (by decide)).trans (drawn .regs (by decide))) _ _)]
  · exact onlyParts_trans (onlyParts_trans (onlyParts_mono drawn (by decide)) (onlyParts_mono signed (by decide)))
      (onlyParts_mono counted (by decide))

end

/-! ## ATTEST_GO and ATTEST_REPORT_DONE (R519) -/

/-- The report is made and queued for its signature. -/
theorem exec_attestGo {s : State} (core : s.power.core = true) (idle : s.attestBusy = false) (identity : s.hasIdentity = true) :
    exec .attestGo s =
      .next { s.mapBoot fun b => { b with report := s.attestReport } with signQueue := s.signQueue ++ [none] } := by
  show execAttestGo s = _
  rw [execAttestGo, if_pos core, State.attestRequest, idle, identity, Bool.not_true, Bool.or_false, if_neg Bool.false_ne_true]

/-- While a report is being signed, or without an identity, the write is ignored. -/
theorem exec_attestGo_ignored {s : State} (h : s.attestBusy = true ∨ s.hasIdentity = false) : exec .attestGo s = .next s := by
  have ignored : s.attestRequest = s := if_pos (by rcases h with busy | unknown <;> simp [*])
  show execAttestGo s = _
  rw [execAttestGo, ignored, ite_self]

theorem exec_attestReportDone {s : State} {rest : List (Option (BitVec 12 × BitVec 32))} (head : s.signQueue = none :: rest)
    (fw : s.power.fw = true) : exec .attestReportDone s = .next ((({ s with signQueue := rest } : State).draw1.2.mapBoot fun b =>
      { b with report := b.report ++ signature s.freeCount b.report }).bump F.ATTEST_STATUS_REPORTS 0) := by
  show execAttestReportDone s = _
  rw [execAttestReportDone, head]
  dsimp only
  rw [fw, Bool.not_true, if_neg Bool.false_ne_true]
  rfl

/-- The signature follows the report, and the report is counted. -/
theorem attestReportDone_signs {s : State} {rest : List (Option (BitVec 12 × BitVec 32))} (head : s.signQueue = none :: rest)
    (fw : s.power.fw = true) : Completes .attestReportDone s fun t =>
      t.signQueue = rest ∧ t.boot.report = s.boot.report ++ signature s.freeCount s.boot.report
        ∧ t.fld F.ATTEST_STATUS_REPORTS 0 = satAdd F.ATTEST_STATUS_REPORTS.width (s.fld F.ATTEST_STATUS_REPORTS 0) 1
        ∧ onlyParts [.regs, .boot, .signQueue, .freeCount] s t := by
  refine ⟨_, exec_attestReportDone head fw, rfl, rfl, fld_bump _ F.ATTEST_STATUS_REPORTS 0 (by decide), ?_⟩
  exact onlyParts_trans (onlyParts_trans (onlyParts_mono (setSignQueue_parts s rest) (by decide))
      (onlyParts_mono (draw1_parts _) (by decide)))
    (onlyParts_trans (onlyParts_mono (mapBoot_parts _ _) (by decide)) (onlyParts_mono (bump_parts _ _ _) (by decide)))

/-! ## O49 -/

/-- Settles O49: a request is queued or flagged by whether the record is held, and the engine signs the head of its queue, be it a
record, found again under its own name, or the report. -/
theorem signaturesAndAttestation : Obligations.SignaturesAndAttestation := by
  unfold Obligations.SignaturesAndAttestation
  refine fun s => ⟨?_, ?_, ?_, ?_, fun core idle identity => ?_, fun ignored => ⟨s, exec_attestGo_ignored ignored, rfl⟩,
    fun rest head fw => attestReportDone_signs head fw⟩
  · rintro st _ core rfl unknown
    refine ⟨_, exec_ledgerSignStep core st, ?_⟩
    rw [signRequest_unknown unknown]
    exact ⟨setFlag_signErr s, setFlag_signQueue s _ _ _, setFld_parts s _ _ _⟩
  · rintro st _ core rfl held
    refine ⟨_, exec_ledgerSignStep core st, ?_⟩
    rw [signRequest_held held]
    exact ⟨rfl, setSignQueue_parts s _⟩
  · intro id st rest head fw gone
    exact ⟨_, exec_ledgerSignatureDone_gone head fw gone, rfl, setFlag_signErr _,
      onlyParts_trans (onlyParts_mono (setSignQueue_parts s rest) (by decide))
        (onlyParts_mono (setFld_parts _ _ _ _) (by decide))⟩
  · intro id st rest r head fw held
    obtain ⟨t, ran, queue, found, counted, parts⟩ := ledgerSignatureDone_signs head fw held
    exact ⟨t, ran, queue, ⟨_, found, signRecord_signature r _⟩, counted, parts⟩
  · exact ⟨_, exec_attestGo core idle identity, rfl, rfl,
      onlyParts_trans (onlyParts_mono (mapBoot_parts s _) (by decide)) (onlyParts_mono (setSignQueue_parts _ _) (by decide))⟩

end Sys2Proof.Machine

/-! PROOFS. Fences that software asks for by register, and the error memory at run time (spec/14_failure_survival.md R360;
06_compression.md R186). -/
namespace Sys2Proof.Machine

open Sys2Proof

/-! ## The time root (R251) -/

/-- Which switches are in the fabric is judged by the banks, the image and the ports that carry frames. -/
theorem present_of {c : List Part} {s t : State} (a : Touches c offPorts s t)
    (h : ∀ p ∈ [Part.ports, .image, .epoch, .bank0, .bank1], p ∉ c) : t.present = s.present := by
  have kept (p : Part) (hp : p ∈ [Part.ports, .image, .epoch, .bank0, .bank1]) : p.same s t := a.parts p (h p hp)
  have image : t.image = s.image := kept .image (by decide)
  have cur := curBank_of (kept .epoch (by decide)) (kept .bank0 (by decide)) (kept .bank1 (by decide))
  have newest := newest_of (kept .epoch (by decide)) (kept .bank0 (by decide)) (kept .bank1 (by decide))
  have carries := carries_of a (h .ports (by decide))
  funext flat
  unfold State.present State.absent State.relayLeaf State.usable
  rw [newest, image, route_of image carries, cur, carries]

theorem timeRoot_of {c : List Part} {s t : State} (a : Touches c offPorts s t)
    (h : ∀ p ∈ [Part.ports, .image, .epoch, .bank0, .bank1], p ∉ c) (tiers : t.knownTiers = s.knownTiers) :
    t.timeRoot = s.timeRoot := by
  have image : t.image = s.image := a.parts .image (h .image (by decide))
  rw [State.timeRoot, present_of a h, tiers, image, State.timeRoot]

/-! ## Messages of an epoch change (R29, R282, R283) -/

/-- A message of at most 510 items is one frame. -/
theorem epochFrames_single (s : State) (dest : BitVec 24) {payload : List Byte} (short : payload.length ≤ 4092) :
    s.epochFrames dest payload = [mgmtFrame true dest s.image.ownFlat 0 0 payload] := by
  have single : ceilDiv (payload.length - 4092) 4096 = 0 := by
    unfold ceilDiv
    omega
  rw [State.epochFrames, single, chunksOf, List.take_of_length_le short, List.map_singleton]

/-- A MGMT message of one frame that is sent is among the switch's messages, under a key that was free. -/
theorem sendFrame_sends {s : State} {job : Option (BitVec 12)} {f : Frame} (heard : s.silenced job = false)
    (mgmt : f.h.ftype = 8#4) (hop : Hop) (rank : Option Nat) (why : Purpose) :
    s.sends (s.send hop [f] job rank why) f.h.dest f.payload := by
  obtain ⟨o, mem, same⟩ := (send_outs s hop [f] job rank why heard).mem
    (List.mem_append_right _ (List.mem_singleton_self _))
  obtain ⟨key, -, -, -, frames⟩ := fields_of_still same
  obtain ⟨g, numbered, ftype, dest, payload⟩ := numberFrames_single (s.freshId hop [f]) 0 f
  exact ⟨o, mem, Nat.le_of_eq key.symm, g, (frames.trans numbered) ▸ List.mem_singleton_self g,
    ftype.trans mgmt, dest, payload⟩

theorem epochSend_sends (s : State) (dest : BitVec 24) (kind : Nat) (num : BitVec 32) {rest : List Byte}
    (short : rest.length ≤ 4084) :
    s.sends (s.epochSend dest kind num rest) dest (leBytes 2 kind ++ zeros 2 ++ leBytes 4 num.toNat ++ rest) := by
  have fits : (leBytes 2 kind ++ zeros 2 ++ leBytes 4 num.toNat ++ rest).length ≤ 4092 := by
    simp only [List.length_append, length_leBytes, zeros, List.length_replicate]
    omega
  rw [State.epochSend, epochFrames_single s dest fits]
  exact sendFrame_sends (f := mgmtFrame true dest s.image.ownFlat 0 0 _) rfl rfl .routed none .plain

/-- A switch that is not the time root sends the item to it in EPOCH_REQUEST. -/
theorem ask_sends {s : State} (root : s.isTimeRoot = false) (i : EpochItem) :
    s.sends (s.ask [i]) s.timeRoot (leBytes 2 0x70 ++ zeros 2 ++ leBytes 4 s.epoch.num.toNat ++ itemBytes [i]) := by
  have short : (itemBytes [i]).length ≤ 4084 := by simp [itemBytes, EpochItem.bytes]
  rw [State.ask, List.isEmpty_cons, if_neg Bool.false_ne_true, root, if_neg Bool.false_ne_true]
  exact epochSend_sends s s.timeRoot 0x70 s.epoch.num short

/-! ## FENCE_REQUEST_RANK (R360) -/

theorem exec_fenceRequestRank (rank : BitVec 18) (s : State) :
    exec (.fenceRequestRank rank) s = .next (s.fenceByWrite rank.toNat) := rfl

theorem fenceByWrite_member {s : State} {id : BitVec 12} {j : Job} {rank : Nat}
    (named : id = BitVec.ofNat 12 (s.fld F.FENCE_REQUEST_JOB_JOB 0)) (job : s.job? id = some j)
    (member : rank < j.cur.plan.members.length) : s.fenceByWrite rank = (s.requestFence id rank 0 0 0).coordGo := by
  rw [State.fenceByWrite, ← named, job]
  exact if_pos member

theorem fenceByWrite_noJob {s : State} (job : s.job? (BitVec.ofNat 12 (s.fld F.FENCE_REQUEST_JOB_JOB 0)) = none) (rank : Nat) :
    s.fenceByWrite rank = s.reservedWrite (regAddr .FENCE_REQUEST_RANK 0) rank := by
  rw [State.fenceByWrite, job]

section
variable {s : State} {id : BitVec 12} {j : Job} (job : s.job? id = some j) (r : Nat) (step : BitVec 32) (object waited : Nat)
include job

/-- A fence is requested once: not again here, nor where a bank shows it. -/
theorem requestFence_again (again : j.fenceReqs.contains r = true ∨ s.newest.1.fenced id r = true) :
    s.requestFence id r step object waited = s := by
  rw [State.requestFence, job]
  exact if_pos (Bool.or_eq_true_iff.mpr again)

/-- A new request goes to the time root, which the count and the record of it leave as it was. -/
theorem requestFence_sends (first : r ∉ j.fenceReqs) (alive : s.newest.1.fenced id r = false) (root : s.isTimeRoot = false) :
    let t := s.requestFence id r step object waited
    s.sends t s.timeRoot (leBytes 2 0x70 ++ zeros 2 ++ leBytes 4 s.epoch.num.toNat ++ itemBytes [itemFence id r])
      ∧ onlyParts (.jobs :: eventParts ++ sendParts) s t := by
  obtain ⟨noted, -, tiers, -⟩ := fenceAsked_effect job r step object waited
  rw [requestFence_eq job r step object waited first alive]
  generalize s.fenceAsked j r step object waited = u at *
  have rootU : u.isTimeRoot = false := (isTimeRoot_of noted (by decide) tiers).trans root
  have count : u.freeCount = s.freeCount := noted.parts .freeCount (by decide)
  have epoch : u.epoch = s.epoch := noted.parts .epoch (by decide)
  have sent := ask_sends rootU (itemFence id r)
  rw [timeRoot_of noted (by decide) tiers, epoch] at sent
  exact ⟨sends_of_freeCount count sent, onlyParts_trans (onlyParts_mono noted.parts (by decide))
    (onlyParts_mono (ask_below rootU (itemFence id r) []).parts (by decide))⟩

end

/-! ## O32 -/

/-- Settles O32: a fence already asked for leaves everything to a coordinator with nothing to do; a new one is noted, counted and
sent, and the coordinator here still has nothing to do; without a job the write is a reserved one. -/
theorem fencesByWriteAndErrorMemory : Obligations.FencesByWriteAndErrorMemory := by
  unfold Obligations.FencesByWriteAndErrorMemory
  refine ⟨?_, ?_, fun s _ _ => ⟨s, rfl, rfl⟩⟩
  · intro s rank id j named job member root idle _
    have quiet := idle.quiet
    refine ⟨_, (exec_fenceRequestRank rank s).trans (congrArg _ (fenceByWrite_member named job member)), fun again => ?_,
      fun new alive => ?_⟩
    · rw [requestFence_again job rank.toNat 0 0 0 again]
      exact coordGo_quiet quiet
    · have first : rank.toNat ∉ j.fenceReqs := by simpa using new
      obtain ⟨noted, counted, ctxs⟩ := requestFence_effect job rank.toNat 0 0 0 first alive root idle.2.1
      obtain ⟨sent, parts⟩ := requestFence_sends job rank.toNat 0 0 0 first alive root
      have still := coordGo_quiet (quiet.of_epoch (parts .epoch (by decide)))
      exact ⟨counted, noted, still.symm ▸ sent, ctxs, still.symm ▸ keepsParts_of_onlyParts parts (by decide)⟩
  · intro s rank job
    exact ⟨_, (exec_fenceRequestRank rank s).trans (congrArg _ (fenceByWrite_noJob job rank.toNat)),
      reservedWrite_reports s _ _, reservedWrite_parts s _ _⟩

end Sys2Proof.Machine

/-! PROOFS. Multicast records that time out, and the grants and ENDs of dispatch (spec/07_collectives.md R205, R212, R215). -/
namespace Sys2Proof.Machine

open Sys2Proof

/-! ## Numbers in bytes, and entries replaced in a list -/

theorem ofLe_lt : ∀ l : List Byte, ofLe l < 256 ^ l.length
  | [] => Nat.one_pos
  | b :: bs => by
    have low := b.isLt
    have high := ofLe_lt bs
    rw [ofLe, List.length_cons, pow_succ']
    omega

theorem leAt_lt (bs : List Byte) (off n : Nat) : leAt bs off n < 256 ^ n := by
  have whole : (sliceB bs off n).length = n := by simp [sliceB]
  exact lt_of_lt_of_eq (ofLe_lt (sliceB bs off n)) (by rw [whole])

/-- Where every entry that passes a test has gone, a new one that passes it is the one found. -/
theorem find?_filter_append {α : Type} {test kept : α → Bool} (gone : ∀ y, test y = true → kept y = false) (l : List α) {x : α}
    (new : test x = true) : (l.filter kept ++ [x]).find? test = some x := by
  have others : (l.filter kept).find? test = none := by
    refine List.find?_eq_none.mpr fun y hy passes => ?_
    exact Bool.false_ne_true ((gone y passes).symm.trans (List.mem_filter.mp hy).2)
  rw [List.find?_append, others, Option.none_or, List.find?_singleton, if_pos new]

theorem nth_map_range (g : Nat → Nat) {n e : Nat} (low : e < n) (d : Nat) : nth ((List.range n).map g) e d = g e := by
  simp [nth, low]

/-! ## MC_RECORD_TIMEOUT (R205) -/

theorem mc_key {s : State} {die : Nat} {src : BitVec 24} {m : BitVec 16} {r : McRecord}
    (found : s.mcs.find? (fun r => r.die == die && r.src == src && r.msgId == m) = some r) :
    r.die = die ∧ r.src = src ∧ r.msgId = m := by
  simpa [and_assoc] using List.find?_some found

theorem exec_mcRecordTimeout {s : State} {die : Nat} {src : BitVec 24} {m : BitVec 16} {r : McRecord}
    (found : s.mcs.find? (fun r => r.die == die && r.src == src && r.msgId == m) = some r) :
    exec (.mcRecordTimeout die src m) s = .next ((s.freeMc r).setFlag F.SPIRE_RECORDS_RECORD_TIMEOUT r.die true) := by
  show execMcRecordTimeout die src m s = _
  rw [execMcRecordTimeout, found]

theorem freeMc_parts (s : State) (r : McRecord) : onlyParts [.mcs] s (s.freeMc r) := fun p hp => by
  cases p
  case mcs => exact absurd (by decide) hp
  all_goals rfl

theorem not_mem_freeMc (s : State) (r : McRecord) : ∀ x ∈ (s.freeMc r).mcs, ¬(x.src = r.src ∧ x.msgId = r.msgId) := by
  intro x hx
  refine not_and_or.mpr ?_
  simpa using (List.mem_filter.mp hx).2

/-- A flag that is set changes its own bit and no more. -/
theorem setFlag_effect (s : State) (f : Fld) (i : Nat) (ok : f.ok = true) (bit : 1 % 2 ^ f.width = 1) :
    fieldSet f i 1 s (s.setFlag f i true) ∧ onlyRegs [(f.reg, i)] s (s.setFlag f i true)
      ∧ onlyParts [.regs] s (s.setFlag f i true) :=
  ⟨⟨(fld_setFld s f i _ ok).trans bit, onlyField_setFld s f i _ ok⟩, setReg_onlyRegs s _ _ _, setFld_parts s f i _⟩

/-! ## DISPATCH_GRANT (R215) -/

theorem exec_dispatchGrant (port : Nat) {f : Frame} (good : tailGood f = true) (mgmt : f.h.ftype = 8#4) (kind : mgmtKind f = 0x44)
    (s : State) : exec (.dispatchGrant port f) s = .next (s.grantIn f) := by
  show execDispatchGrant port f s = _
  simp [execDispatchGrant, good, mgmt, kind]

theorem grantIn_records {s : State} {f : Frame} {j : Job} {d : PlanDispatch} {w : PlanSwitch} {src rank : Nat}
    (job : s.job? f.h.jobId = some j) (set : j.cur.plan.dset? (leAt f.payload 2 2 % 4096) = some d)
    (source : d.sourceAt j.cur.plan f.h.dest = some src) (member : d.sources[src]? = some rank)
    (leaf : j.cur.plan.leafSw rank = some w) (here : w.index = j.cur.self) :
    s.grantIn f = s.mapJob f.h.jobId fun j => j.putGrant (grantRec d src f.payload) := by
  rw [State.grantIn, job]
  dsimp only
  rw [set]
  dsimp only
  rw [source]
  dsimp only
  rw [member, Option.bind_some, leaf, job?_id job]
  exact if_pos (beq_iff_eq.mpr here)

/-- A grant recorded is the one found for its source, its destination and its INST. -/
theorem grantOf_putGrant (j : Job) (g : GrantRec) {inst : BitVec 8} (own : g.inst = inst.toNat) (e : Nat) :
    (j.putGrant g).grantOf g.set inst g.source g.dest e = nth g.grants e 0 := by
  have found : (j.putGrant g).grants.find? (fun x => x.set == g.set && x.inst == inst.toNat && x.source == g.source
      && x.dest == g.dest) = some g :=
    find?_filter_append (fun y passes => by simp_all) j.grants (by simp [own])
  rw [Job.grantOf, found]

/-- The grants of a DISPATCH_GRANT are those its payload carries (R215). -/
theorem grantOf_grantRec (j : Job) (d : PlanDispatch) (src : Nat) (q : List Byte) {e : Nat} (low : e < d.experts) :
    (j.putGrant (grantRec d src q)).grantOf d.id (BitVec.ofNat 8 (leAt q 4 1)) src (leAt q 8 2) e = leAt q (16 + 2 * e) 2 := by
  have own : (grantRec d src q).inst = (BitVec.ofNat 8 (leAt q 4 1)).toNat := by
    exact (Nat.mod_eq_of_lt (leAt_lt q 4 1)).symm
  exact (grantOf_putGrant j _ own e).trans (nth_map_range _ low 0)

/-! ## A job's dispatch records -/

theorem inst?_key {j : Job} {set dest : Nat} {inst : BitVec 8} {x : DispInst} (h : j.inst? set inst dest = some x) :
    x.set = set ∧ x.inst = inst ∧ x.dest = dest := by
  simpa [and_assoc] using List.find?_some h

theorem inst?_setInst (j : Job) (x : DispInst) : (j.setInst x).inst? x.set x.inst x.dest = some x :=
  find?_filter_append (fun _ passes => by rw [passes]; rfl) j.insts (by simp)

/-- A job's dispatch record is replaced where the job is. -/
theorem job?_setInst {s : State} {id : BitVec 12} {j : Job} (job : s.job? id = some j) (x : DispInst) :
    (s.mapJob id fun j => j.setInst x).job? id = some (j.setInst x) := by
  rw [job?_mapJob s id (fun j => j.setInst x) fun _ => rfl, job, Option.map_some]

/-- A source's END of a round as its payload gives it (R212). -/
def endRec (d : PlanDispatch) (src round : Nat) (q : List Byte) : EndRec :=
  ⟨src, round, (List.range d.experts).map fun e => leAt q (8 + 2 * e) 2⟩

/-- A dispatch record that has heard one more END. -/
def DispInst.hears (x : DispInst) (r : EndRec) : DispInst := { x with ends := x.ends ++ [r] }

theorem inst?_hears {j : Job} {set dest : Nat} {inst : BitVec 8} {x : DispInst} (here : j.inst? set inst dest = some x)
    (r : EndRec) : (j.setInst (x.hears r)).inst? set inst dest = some (x.hears r) := by
  obtain ⟨rfl, rfl, rfl⟩ := inst?_key here
  exact inst?_setInst j (x.hears r)

/-- A first END of a source and round is the one found for them. -/
theorem endOf_hears_own {x : DispInst} {r : EndRec} (first : x.endOf r.source r.round = none) :
    (x.hears r).endOf r.source r.round = some r := by
  rw [DispInst.endOf] at first
  rw [DispInst.endOf, DispInst.hears, List.find?_append, first]
  simp

theorem endOf_hears_other (x : DispInst) (r : EndRec) {src : Nat} (other : src ≠ r.source) (round : Nat) :
    (x.hears r).endOf src round = x.endOf src round := by
  rw [DispInst.endOf, DispInst.hears, List.find?_append, DispInst.endOf]
  simp [other.symm]

/-- The counts of an END are those its payload carries (R212). -/
theorem count_hears {x : DispInst} {d : PlanDispatch} {src round : Nat} (first : x.endOf src round = none) (q : List Byte) {e : Nat}
    (low : e < d.experts) : (x.hears (endRec d src round q)).count src round e = leAt q (8 + 2 * e) 2 := by
  have own : (x.hears (endRec d src round q)).endOf src round = some (endRec d src round q) := endOf_hears_own first
  rw [DispInst.count, own]
  exact nth_map_range _ low 0

/-! ## DISPATCH_END (R212) -/

/-- A dispatch does not go on while the END of a source of the first round is awaited (R214). -/
theorem dispatchGo_awaits {s : State} {l : Layout} {d : PlanDispatch} {inst : BitVec 8} {dest other : Nat} {j : Job} {x : DispInst}
    (job : s.job? l.plan.job = some j) (here : j.inst? d.id inst dest = some x) (collecting : x.phase = .collecting)
    (alive : other ∈ s.aliveSources l.plan.job d) (missing : x.endOf other 1 = none) : s.dispatchGo l d inst dest = s := by
  have awaited : ((s.aliveSources l.plan.job d).all fun src => (x.endOf src 1).isSome) = false :=
    List.all_eq_false.mpr ⟨other, alive, by simp [missing]⟩
  rw [State.dispatchGo, job, Option.bind_some, here]
  cases d.dests[dest]? with
  | none => rfl
  | some dst =>
    dsimp only
    split
    · rfl
    · rw [collecting]
      dsimp only
      rw [awaited]
      rfl

/-- A dispatch record that has not heard a source's END of the first round, nor that of another source, which it awaits (R214). -/
structure EndAwaited (s : State) (j : Job) (d : PlanDispatch) (t : SetTag) (x : DispInst) (src other : Nat) : Prop where
  inst : j.inst? d.id t.inst t.dest = some x
  collecting : x.phase = .collecting
  first : x.endOf src 1 = none
  alive : other ∈ s.aliveSources j.cur.plan.job d
  another : other ≠ src
  missing : x.endOf other 1 = none

/-- A first END of the first round is recorded, and nothing follows while another is awaited. -/
theorem recordEnd_awaits {s : State} {j : Job} {d : PlanDispatch} {t : SetTag} {x : DispInst} {src other : Nat} {q : List Byte}
    (awaited : EndAwaited s j d t x src other) (job : s.job? j.cur.plan.job = some j) (round : leAt q 0 1 = 1) :
    s.recordEnd j.cur d t src q = s.mapJob j.cur.plan.job fun j => j.setInst (x.hears (endRec d src 1 q)) := by
  obtain ⟨inst, collecting, first, alive, another, missing⟩ := awaited
  have noted : s.recordEnd j.cur d t src q =
      (s.mapJob j.cur.plan.job fun j => j.setInst (x.hears (endRec d src 1 q))).dispatchGo j.cur d t.inst t.dest := by
    rw [State.recordEnd, job]
    dsimp only
    rw [inst, round, Option.getD_some, first]
    rfl
  rw [noted]
  exact dispatchGo_awaits (job?_setInst job _) (inst?_hears inst _) collecting alive
    ((endOf_hears_other x _ another 1).trans missing)

theorem exec_dispatchEnd {s : State} {port : Nat} {f : Frame} (free : s.queuedBehind .firmware port f = false)
    (good : tailGood f = true) (tagged : isSetTagged f.h = true) :
    exec (.dispatchEnd port f) s = .next ((s.takeFrom .firmware port f).endIn port f) := by
  show execDispatchEnd port f s = _
  rw [execDispatchEnd, free, if_neg Bool.false_ne_true]
  dsimp only
  rw [good, tagged]
  rfl

/-- An END that the egress leaf of its destination takes: of the layout in force, with neither its source nor its destination
fenced, and of an INST in the window (R212, R213, R218). -/
structure EndDue (s : State) (f : Frame) (j : Job) (d : PlanDispatch) (dst : DispatchDest) (w : PlanSwitch) (src : Nat) :
    Prop where
  gen : j.setRefusal f.h.layoutGen = none
  part : (setTag f.h.remoteAddr).part = 3
  set : j.cur.plan.dset? (setTag f.h.remoteAddr).set = some d
  dest : d.dests[(setTag f.h.remoteAddr).dest]? = some dst
  source : d.sourceAt j.cur.plan f.h.src = some src
  leaf : j.cur.plan.leafSw dst.rank = some w
  here : w.index = j.cur.self
  reached : s.curBank.fenced j.id dst.rank = false
  alive : s.sourceAlive j.id d src = true
  sent : (s.bank f.h.epoch).sourceOk j.id d src = true
  window : ((setTag f.h.remoteAddr).inst - j.winBase d.id (setTag f.h.remoteAddr).dest).toNat < min 128 d.window

section
variable {s t : State} {f : Frame} {j : Job} {d : PlanDispatch} {dst : DispatchDest} {w : PlanSwitch} {src : Nat}

/-- Whether an END is due is a question of the job and of the banks. -/
theorem EndDue.of_banks (a : EndDue s f j d dst w src) (epoch : t.epoch = s.epoch) (bank0 : t.bank0 = s.bank0)
    (bank1 : t.bank1 = s.bank1) : EndDue t f j d dst w src :=
  { a with
    reached := (curBank_of epoch bank0 bank1).symm ▸ a.reached
    alive := by rw [State.sourceAlive, curBank_of epoch bank0 bank1]; exact a.alive
    sent := by rw [State.bank, bank0, bank1]; exact a.sent }

theorem endIn_records {u : State} {port : Nat} (due : EndDue s f j d dst w src) (job : s.job? f.h.jobId = some j)
    (received : s.receive port f = (.complete, u)) :
    s.endIn port f = (u.recordEnd j.cur d (setTag f.h.remoteAddr) src f.payload).ack port f.h := by
  obtain ⟨gen, part, set, dest, source, leaf, here, reached, alive, sent, window⟩ := due
  obtain ⟨behind, ahead⟩ := lt_min_iff.mp window
  rw [State.endIn, job]
  dsimp only
  rw [gen, part, set]
  dsimp only
  rw [dest, source]
  dsimp only
  rw [leaf, reached, alive, sent, received]
  simp [here, Nat.not_le.mpr behind, Nat.not_le.mpr ahead, -BitVec.toNat_sub]

/-- The surviving sources are read from the current bank. -/
theorem aliveSources_of (epoch : t.epoch = s.epoch) (bank0 : t.bank0 = s.bank0) (bank1 : t.bank1 = s.bank1) (job : BitVec 12)
    (d : PlanDispatch) : t.aliveSources job d = s.aliveSources job d := by
  have alive : t.sourceAlive job d = s.sourceAlive job d := by
    funext src
    rw [State.sourceAlive, curBank_of epoch bank0 bank1, State.sourceAlive]
  rw [State.aliveSources, alive, State.aliveSources]

/-- The END of the other source is awaited still where the banks are as they were. -/
theorem EndAwaited.of_banks {g : SetTag} {x : DispInst} {other : Nat} (a : EndAwaited s j d g x src other)
    (epoch : t.epoch = s.epoch) (bank0 : t.bank0 = s.bank0) (bank1 : t.bank1 = s.bank1) : EndAwaited t j d g x src other :=
  { a with alive := aliveSources_of epoch bank0 bank1 _ d ▸ a.alive }

/-- A first END of the first round, with another awaited, is recorded and answered. -/
theorem dispatchEnd_effect {u : State} {port other : Nat} {x : DispInst} (due : EndDue s f j d dst w src)
    (awaited : EndAwaited s j d (setTag f.h.remoteAddr) x src other) (free : s.queuedBehind .firmware port f = false)
    (good : tailGood f = true) (tagged : isSetTagged f.h = true)
    (received : (s.takeFrom .firmware port f).receive port f = (.complete, u)) (job : s.job? f.h.jobId = some j)
    (own : j.cur.plan.job = f.h.jobId) (round : leAt f.payload 0 1 = 1) : Completes (.dispatchEnd port f) s fun t =>
      t.jobHas f.h.jobId (fun k => k.inst? d.id (setTag f.h.remoteAddr).inst (setTag f.h.remoteAddr).dest =
        some (x.hears (endRec d src 1 f.payload))) ∧ onlyParts (.jobs :: answerParts) s t ∧ sameOuts s t := by
  have took := takeFrom_moves s .firmware port f
  refine ⟨_, exec_dispatchEnd free good tagged, ?_⟩
  generalize s.takeFrom .firmware port f = v at *
  have dueNow := due.of_banks (took.parts .epoch (by decide)) (took.parts .bank0 (by decide)) (took.parts .bank1 (by decide))
  rw [endIn_records dueNow ((job?_of_jobs (took.parts .jobs (by decide)) _).trans job) received]
  have counted := receive_parts v port f
  rw [received] at counted
  dsimp only at counted
  have upTo : onlyParts (.rxs :: coreParts) s u :=
    onlyParts_trans (onlyParts_mono took.parts (by decide)) (onlyParts_mono counted (by decide))
  have jobNow : u.job? f.h.jobId = some j := (job?_of_jobs (upTo .jobs (by decide)) _).trans job
  have still := awaited.of_banks (upTo .epoch (by decide)) (upTo .bank0 (by decide)) (upTo .bank1 (by decide))
  rw [recordEnd_awaits still (own.symm ▸ jobNow) round, own]
  have marked := mapJob_parts u f.h.jobId fun j => j.setInst (x.hears (endRec d src 1 f.payload))
  have found := job?_setInst jobNow (x.hears (endRec d src 1 f.payload))
  generalize u.mapJob f.h.jobId (fun j => j.setInst (x.hears (endRec d src 1 f.payload))) = z at *
  have acked := ack_parts z port f.h
  refine ⟨⟨_, (job?_of_jobs (acked .jobs (by decide)) _).trans found, inst?_hears awaited.inst _⟩, ?_, ?_⟩
  · exact onlyParts_trans (onlyParts_mono upTo (by decide))
      (onlyParts_trans (onlyParts_mono marked (by decide)) (onlyParts_mono acked (by decide)))
  · exact ((took.outs.trans (sameOuts_of_parts counted (by decide))).trans (sameOuts_of_parts marked (by decide))).trans
      (emit_sameOuts z _ _ _)

end

/-! ## O20 -/

/-- Settles O20: a record that times out is freed and a flag set; a grant at the source's leaf is the one found afterwards; an END
with another awaited replaces one dispatch record of one job. -/
theorem multicastAndDispatch : Obligations.MulticastAndDispatch := by
  unfold Obligations.MulticastAndDispatch
  refine ⟨⟨?_, ?_⟩, ?_⟩
  · intro s die src m r _ found
    obtain ⟨rfl, rfl, rfl⟩ := mc_key found
    obtain ⟨flag, regs, parts⟩ := setFlag_effect (s.freeMc r) F.SPIRE_RECORDS_RECORD_TIMEOUT r.die (by decide) (by decide)
    exact ⟨_, exec_mcRecordTimeout found, not_mem_freeMc s r, flag, regs,
      onlyParts_trans (onlyParts_mono (freeMc_parts s r) (by decide)) (onlyParts_mono parts (by decide))⟩
  · intro s port src f j d w rank good mgmt kind job set source member leaf here
    refine ⟨_, exec_dispatchGrant port good mgmt kind s, ?_⟩
    rw [grantIn_records job set source member leaf here]
    exact ⟨⟨_, (job?_mapJob s _ (fun j => j.putGrant (grantRec d src f.payload)) fun _ => rfl).trans (congrArg _ job),
      fun e low => grantOf_grantRec j d src f.payload low⟩, mapJob_parts _ _ _⟩
  · intro s u port src other f j d dst w x free good tagged received job own gen part set dest source leaf here reached alive sent
      window round inst collecting first otherAlive another missing
    obtain ⟨t, ran, ⟨j', found, heard⟩, parts, outs⟩ := dispatchEnd_effect
      ⟨gen, part, set, dest, source, leaf, here, reached, alive, sent, window⟩
      ⟨inst, collecting, first, own.symm ▸ otherAlive, another, missing⟩ free good tagged received job own round
    exact ⟨t, ran, ⟨j', _, found, heard, collecting, fun e low => count_hears first f.payload low⟩, parts .ctxs (by decide),
      keepsParts_of_onlyParts parts (by decide), keepsParts_of_onlyParts parts (by decide), outs⟩

end Sys2Proof.Machine

/-! PROOFS. The command ring and the reply ring (spec/22_companion_link.md R535, R539 to R543): which bytes of memory an operation
touches, what leaves the rings as they are, the reply to a command, and the ring's coming to rest. -/
namespace Sys2Proof.Machine

open Sys2Proof

/-! ## Bytes of memory -/

/-- The byte of memory at an address. -/
def State.byte (s : State) (a : Nat) : Byte := (sget a s.mem).getD memDefault

/-- A run reads in two states alike where each of its bytes does. -/
theorem readMem_congr {s t : State} {ma n : Nat} (h : ∀ a, ma ≤ a → a < ma + n → t.byte a = s.byte a) :
    t.readMem ma n = s.readMem ma n := by
  refine List.ext_getElem? fun i => ?_
  rw [State.readMem, State.readMem, getElem?_sgetRun, getElem?_sgetRun]
  split
  · exact congrArg some (h (ma + i) (by omega) (by omega))
  · rfl

theorem byte_writeMem (s : State) (ma : Nat) (bs : List Byte) (a : Nat) : (s.writeMem ma bs).byte a =
    if ma ≤ a ∧ a < ma + bs.length then bs.getD (a - ma) memDefault else s.byte a := sget_ssetRun memDefault a bs ma s.mem

/-- A run reads as what was written to it. -/
theorem readMem_writeMem (s : State) (ma : Nat) (bs : List Byte) : (s.writeMem ma bs).readMem ma bs.length = bs := by
  refine List.ext_getElem? fun i => ?_
  rw [State.readMem, getElem?_sgetRun]
  split
  · rename_i inside
    have here := byte_writeMem s ma bs (ma + i)
    rw [if_pos (by omega), Nat.add_sub_cancel_left] at here
    rw [List.getElem?_eq_getElem inside, ← List.getD_eq_getElem bs memDefault inside]
    exact congrArg some here
  · rename_i outside
    exact (List.getElem?_eq_none (by omega)).symm

theorem memLe_congr {s t : State} {ma n : Nat} (h : ∀ a, ma ≤ a → a < ma + n → t.byte a = s.byte a) :
    t.memLe ma n = s.memLe ma n := congrArg ofLe (readMem_congr h)

/-- Bytes of memory change at addresses that satisfy Q, and at no others. -/
def bytesAt (Q : Nat → Prop) (s t : State) : Prop := ∀ a, ¬ Q a → t.byte a = s.byte a

section
variable {Q : Nat → Prop} {s t u : State}

theorem bytesAt_of_mem (h : t.mem = s.mem) : bytesAt Q s t := fun a _ => by rw [State.byte, h, State.byte]

theorem bytesAt_refl (Q : Nat → Prop) (s : State) : bytesAt Q s s := fun _ _ => rfl

theorem bytesAt_trans (a : bytesAt Q s t) (b : bytesAt Q t u) : bytesAt Q s u := fun k h => (b k h).trans (a k h)

theorem bytesAt_of_parts {c : List Part} (a : onlyParts c s t) (h : Part.mem ∉ c) : bytesAt Q s t := bytesAt_of_mem (a .mem h)

theorem bytesAt_foldl {β : Type} (f : State → β → State) : ∀ (l : List β) (s : State),
    (∀ s, ∀ b ∈ l, bytesAt Q s (f s b)) → bytesAt Q s (l.foldl f s)
  | [], s, _ => bytesAt_refl Q s
  | b :: l, s, h => bytesAt_trans (h s b List.mem_cons_self) (bytesAt_foldl f l (f s b) fun s x hx => h s x (List.mem_cons_of_mem _ hx))

theorem writeMem_bytes (s : State) {ma : Nat} {bs : List Byte} (h : ∀ a, ma ≤ a → a < ma + bs.length → Q a) :
    bytesAt Q s (s.writeMem ma bs) := fun a other => by
  rw [byte_writeMem, if_neg fun inside => other (h a inside.1 inside.2)]

theorem zeroMem_bytes (s : State) {ma n : Nat} (h : ∀ a, ma ≤ a → a < ma + n → Q a) : bytesAt Q s (s.zeroMem ma n) :=
  fun a other => by
  have kept := sget_filter (fun k => !(decide (ma ≤ k) && decide (k < ma + n))) a s.mem
  have out : ¬(ma ≤ a ∧ a < ma + n) := fun inside => other (h a inside.1 inside.2)
  rw [if_pos (by simpa using by omega)] at kept
  exact congrArg (·.getD memDefault) kept

end

/-! ## Lines that the companion does not hold (R533, R535) -/

section
variable {s : State} (empty : s.host.filter = [])
include empty

theorem snoop_uncached (line : Nat) (inv : Bool) : s.snoop line inv = s := by
  rw [State.snoop, State.tracked, empty]
  rfl

theorem snoops_uncached {β : Type} (line : β → Nat) (inv : Bool) : ∀ ls : List β, ls.foldl (fun s l => s.snoop (line l) inv) s = s
  | [] => rfl
  | l :: ls => by
    rw [List.foldl_cons, snoop_uncached empty]
    exact snoops_uncached line inv ls

theorem windowWrite_uncached (ma : Nat) (bs : List Byte) : s.windowWrite ma bs = s.writeMem ma bs :=
  congrArg (State.writeMem · ma bs) (snoops_uncached empty (windowLine ma + ·) true _)

theorem windowZero_uncached (ma n : Nat) : s.windowZero ma n = s.zeroMem ma n :=
  congrArg (State.zeroMem · ma n) (snoops_uncached empty (fun l => l) true _)

variable (still : s.host.snoops = [])
include still

theorem shareRun_uncached (ma n : Nat) : s.shareRun ma n = (true, s) := by
  simp [State.shareRun, State.ownedIn, State.snoopingIn, empty, still]

theorem clearRun_uncached (ma n : Nat) : s.clearRun ma n = (true, s) := by
  simp [State.clearRun, State.snoopingIn, empty, still]

end

/-! ## What leaves the rings as they are -/

/-- What the snoop filter holds, the snoops in flight, and where the command ring stands. -/
def HostSt.ring (h : HostSt) : List (Nat × Bool) × List Snoop × Nat × List Byte × CmdPhase :=
  (h.filter, h.snoops, h.produced, h.cmd, h.phase)

theorem spend_ring (h : HostSt) (c : DclClass) (n : Nat) : (h.spend c n).ring = h.ring := by cases c <;> rfl

/-- A message goes out, or waits for its turn (R531). -/
def HostSt.pumpOne (h : HostSt) (m : DclMsg) : HostSt :=
  if m.slots ≤ h.credit m.cls ∧ h.replay.length < 512 ∧ !(h.queue.any fun x => x.cls = m.cls) then
    { h.spend m.cls m.slots with replay := h.replay ++ [(h.nextSeq, m)], nextSeq := (h.nextSeq + 1) % 1024 }
  else { h with queue := h.queue ++ [m] }

theorem pumpOne_ring (h : HostSt) (m : DclMsg) : (h.pumpOne m).ring = h.ring := by
  unfold HostSt.pumpOne
  split
  · exact spend_ring h m.cls m.slots
  · rfl

theorem foldl_ring {β : Type} {f : HostSt → β → HostSt} (keeps : ∀ h b, (f h b).ring = h.ring) :
    ∀ (l : List β) (h : HostSt), (l.foldl f h).ring = h.ring
  | [], _ => rfl
  | b :: l, h => (foldl_ring keeps l (f h b)).trans (keeps h b)

theorem pump_ring (h : HostSt) : h.pump.ring = h.ring := foldl_ring pumpOne_ring h.queue { h with queue := [] }

theorem sendFlit_ring (h : HostSt) (w type seq : Nat) (slots : List Byte) : (h.sendFlit w type seq slots).ring = h.ring := by
  rw [HostSt.sendFlit, HostSt.ring, HostSt.ring]

theorem pumpOut_ring (h : HostSt) (w : Nat) : (h.pumpOut w).ring = h.ring := by
  rw [HostSt.pumpOut, HostSt.sendFlits, foldl_ring fun h x => sendFlit_ring h w 1 _ _]
  exact pump_ring h

theorem post_ring (s : State) (m : DclMsg) : (s.post m).host.ring = s.host.ring := by
  unfold State.post State.pumpLink
  split
  · split
    · exact pumpOut_ring _ _
    · rfl
  · rfl

theorem sendIntr_ring (s : State) (bit : Nat) : (s.sendIntr bit).host.ring = s.host.ring := by
  unfold State.sendIntr
  dsimp only
  split
  · rfl
  · split
    · exact post_ring s _
    · exact post_ring s _

theorem raiseInt_ring (s : State) (bit : Nat) : (s.raiseInt bit).host.ring = s.host.ring := by
  unfold State.raiseInt
  dsimp only
  split
  · rfl
  · split
    · exact sendIntr_ring _ bit
    · rfl

/-- A register below those of the stacks. -/
def belowStacks (k : Nat) : Prop := k < 0x30000000

theorem belowStacks_of_event {k : Nat} (h : eventAddr k) : belowStacks k := by
  rcases h with rfl | rfl
  · exact (by decide : regAddr .HOST_INT_STATUS 0 < 0x30000000)
  · exact (by decide : regAddr .TALLY_EVENTS 0 < 0x30000000)

/-- Whether the window is usable is told by the start and by the registers of the stacks. -/
theorem windowReady_of {s t : State} (boot : t.boot = s.boot) (regs : regsAt belowStacks s t) : t.windowReady = s.windowReady := by
  have each (i : Nat) : t.stackReady i = s.stackReady i := by
    have above : ¬ belowStacks (regAddr .MEM_STATUS i) := Nat.not_lt.mpr (base_le_regAddr .MEM_STATUS i)
    rw [State.stackReady, regs.fld F.MEM_STATUS_STATE i above, State.stackReady]
  rw [State.windowReady, State.booted, boot, funext each, State.windowReady, State.booted]

/-- A byte that is neither of a header nor of an entry of the two rings, nor between them. -/
def offRings (a : Nat) : Prop := a < ringsBase + 0x10000 ∨ ringsBase + stagingStart ≤ a

/-- The command ring stands where it stood, and the bytes of both rings are what they were. -/
structure KeepsRings (s t : State) : Prop where
  ring : t.host.ring = s.host.ring
  bytes : bytesAt offRings s t
  ready : t.windowReady = s.windowReady

section
variable {s t u : State} {c : List Part}

theorem KeepsRings.refl (s : State) : KeepsRings s s := ⟨rfl, bytesAt_refl _ s, rfl⟩

theorem KeepsRings.trans (a : KeepsRings s t) (b : KeepsRings t u) : KeepsRings s u :=
  ⟨b.ring.trans a.ring, bytesAt_trans a.bytes b.bytes, b.ready.trans a.ready⟩

theorem KeepsRings.of_touches (a : Touches c belowStacks s t) (boot : Part.boot ∉ c) (ring : t.host.ring = s.host.ring)
    (bytes : bytesAt offRings s t) : KeepsRings s t := ⟨ring, bytes, windowReady_of (a.parts .boot boot) a.regs⟩

theorem KeepsRings.of_parts (a : onlyParts c s t) (h : ∀ p ∈ [Part.boot, .regs, .host, .mem], p ∉ c) : KeepsRings s t :=
  .of_touches (.of_parts a (h .regs (by decide))) (h .boot (by decide))
    (congrArg HostSt.ring (a .host (h .host (by decide)))) (bytesAt_of_parts a (h .mem (by decide)))

theorem KeepsRings.of_regs (a : Touches [.regs] belowStacks s t) : KeepsRings s t :=
  .of_touches a (by decide) (congrArg HostSt.ring (a.parts .host (by decide))) (bytesAt_of_parts a.parts (by decide))

theorem KeepsRings.of_bytes (a : onlyParts [.mem, .memory] s t) (bytes : bytesAt offRings s t) : KeepsRings s t :=
  .of_touches (.of_parts a (by decide)) (by decide) (congrArg HostSt.ring (a .host (by decide))) bytes

theorem KeepsRings.filter (a : KeepsRings s t) : t.host.filter = s.host.filter := congrArg (·.1) a.ring
theorem KeepsRings.snoops (a : KeepsRings s t) : t.host.snoops = s.host.snoops := congrArg (·.2.1) a.ring
theorem KeepsRings.produced (a : KeepsRings s t) : t.host.produced = s.host.produced := congrArg (·.2.2.1) a.ring
theorem KeepsRings.cmd (a : KeepsRings s t) : t.host.cmd = s.host.cmd := congrArg (·.2.2.2.1) a.ring

/-- A number in the headers of the rings reads as before. -/
theorem KeepsRings.memLe (a : KeepsRings s t) {ma n : Nat} (low : ringsBase + 0x10000 ≤ ma) (high : ma + n ≤ ringsBase + stagingStart) :
    t.memLe ma n = s.memLe ma n := memLe_congr fun k h₁ h₂ => a.bytes k fun out => by rcases out with h | h <;> omega

theorem KeepsRings.consumer (a : KeepsRings s t) : t.ringConsumer commandRing = s.ringConsumer commandRing :=
  a.memLe (by decide) (by decide)

theorem KeepsRings.replyProducer (a : KeepsRings s t) : t.ringProducer replyRing.ref = s.ringProducer replyRing.ref :=
  a.memLe (by decide) (by decide)

theorem KeepsRings.room (a : KeepsRings s t) (bs : List Byte) : t.ringFull replyRing.ref bs = s.ringFull replyRing.ref bs := by
  have consumer : t.ringConsumer replyRing.ref = s.ringConsumer replyRing.ref := a.memLe (by decide) (by decide)
  rw [State.ringFull, State.ringHeld, a.replyProducer, consumer, State.ringFull, State.ringHeld]

theorem KeepsRings.quiet (a : KeepsRings s t) (h : s.ringQuiet) : t.ringQuiet := by
  obtain ⟨ready, filter, snoops, taken, room⟩ := h
  exact ⟨a.ready.trans ready, a.filter.trans filter, a.snoops.trans snoops, a.consumer.trans (taken.trans a.produced.symm),
    (a.room _).trans room⟩

theorem State.ringQuiet.empty (h : s.ringQuiet) : s.host.filter = [] := h.2.1

/-- A reply given after an operation that leaves the rings alone is the reply to the command that was held before it. -/
theorem KeepsRings.replies (a : KeepsRings s u) {status : Nat} {detail : List Byte} (h : u.repliesWith t status detail) :
    s.repliesWith t status detail := by
  rw [State.repliesWith, a.replyProducer, a.cmd] at h
  exact h

/-- A fold of operations that leave the rings alone while the companion holds no line. -/
theorem KeepsRings.foldl {β : Type} (f : State → β → State) : ∀ (l : List β) {s : State}, s.host.filter = [] →
    (∀ s, ∀ b ∈ l, s.host.filter = [] → KeepsRings s (f s b)) → KeepsRings s (l.foldl f s)
  | [], s, _, _ => .refl s
  | b :: l, s, empty, h =>
    have turn := h s b List.mem_cons_self empty
    turn.trans (KeepsRings.foldl f l (turn.filter.trans empty) fun s x hx => h s x (List.mem_cons_of_mem _ hx))

end

/-! ## Writes outside the two rings -/

theorem offRings_of_far {ma a : Nat} (far : ringsBase + stagingStart ≤ ma) (h : ma ≤ a) : offRings a := .inr (far.trans h)

theorem writeMem_keeps (s : State) {ma : Nat} {bs : List Byte} (h : ∀ a, ma ≤ a → a < ma + bs.length → offRings a) :
    KeepsRings s (s.writeMem ma bs) := .of_bytes (writeMem_parts s ma bs) (writeMem_bytes s h)

theorem writeMem_far (s : State) {ma : Nat} (bs : List Byte) (far : ringsBase + stagingStart ≤ ma) : KeepsRings s (s.writeMem ma bs) :=
  writeMem_keeps s fun _ low _ => offRings_of_far far low

theorem zeroMem_far (s : State) {ma : Nat} (n : Nat) (far : ringsBase + stagingStart ≤ ma) : KeepsRings s (s.zeroMem ma n) :=
  .of_bytes (zeroMem_parts s ma n) (zeroMem_bytes s fun _ low _ => offRings_of_far far low)

theorem raiseInt_keeps (s : State) (bit : Nat) : KeepsRings s (s.raiseInt bit) :=
  .of_touches ((raiseInt_touches s bit).mono (fun _ => id) fun _ => belowStacks_of_event) (by decide) (raiseInt_ring s bit)
    (bytesAt_of_parts (raiseInt_parts s bit) (by decide))

section
variable {s : State} (empty : s.host.filter = [])
include empty

theorem windowWrite_far {ma : Nat} (bs : List Byte) (far : ringsBase + stagingStart ≤ ma) : KeepsRings s (s.windowWrite ma bs) := by
  rw [windowWrite_uncached empty]
  exact writeMem_far s bs far

/-- A record of another ring, which lies behind the two, leaves them as they are. -/
theorem ringPutNow_far {r : RingAt} (plain : r.tele = none) (header : ringsBase + stagingStart ≤ r.ref.base)
    (data : ringsBase + stagingStart ≤ r.data) (rec : List Byte) (irq : Nat) : KeepsRings s (s.ringPutNow r rec irq) := by
  unfold State.ringPutNow
  split
  · rw [State.ringDrop, plain]
    exact windowWrite_far empty _ (header.trans (Nat.le_add_right _ _))
  · dsimp only
    have entries (p : Nat) (rec : List Byte) : KeepsRings s (s.ringWrite r p rec) :=
      KeepsRings.foldl _ _ empty fun s i _ empty => windowWrite_far empty _ (data.trans (Nat.le_add_right _ _))
    have written := entries (s.ringProducer r.ref) (s.ringRecord r rec)
    have counted := written.trans (windowWrite_far (written.filter.trans empty)
      (leBytes 4 ((s.ringProducer r.ref + ringUnits r.ref rec) % (2 * r.ref.entries))) header)
    have wrote (u : State) : KeepsRings u (u.ringWrote r) := by
      rw [State.ringWrote, plain]
      dsimp only
      split
      · exact .of_regs (setFld_touches u F.TALLY_EVENTS_TALLY_RECORDS 0 _ (by decide : regAddr .TALLY_EVENTS 0 < 0x30000000))
      · exact .refl u
    exact (counted.trans (wrote _)).trans (raiseInt_keeps _ irq)

theorem ringPut_far {r : RingAt} (plain : r.tele = none) (header : ringsBase + stagingStart ≤ r.ref.base)
    (data : ringsBase + stagingStart ≤ r.data) (rec : List Byte) (irq : Nat) : KeepsRings s (s.ringPut r rec irq) := by
  have waits (q) : KeepsRings s { s with ringQueue := q } := ⟨rfl, bytesAt_refl _ s, rfl⟩
  unfold State.ringPut
  dsimp only
  split
  · exact waits _
  · split
    · rw [snoop_uncached empty]
      exact waits _
    · exact ringPutNow_far empty plain header data rec irq

end

/-! ## The moves of the command ring (R540, R542) -/

theorem cmdRun_step {s t : State} (h : s.cmdStep = some t) (n : Nat) : s.cmdRun (n + 1) = t.cmdRun n := by
  rw [State.cmdRun, h]

/-- While a command is carried out, or none is asked for, the command ring stands. -/
theorem cmdRun_stands {s : State} (n : Nat) (h : s.host.phase = .idle ∨ s.host.phase = .taken) : s.cmdRun n = s := by
  cases n with
  | zero => rfl
  | succ n =>
    rcases h with h | h <;> rw [State.cmdRun, State.cmdStep, h, State.cmdAsk, h]

/-- The command ring comes to rest. -/
def State.restRing (s : State) : State := s.mapHost fun h => { h with phase := .idle }

/-- PRODUCER of the command ring has been read. -/
def State.readRing (s : State) : State := s.mapHost fun h => { h with produced := s.ringProducer commandRing, phase := .entry }

section
variable {s : State}

theorem cmdStep_rests (entry : s.host.phase = .entry) (taken : s.ringConsumer commandRing = s.host.produced) :
    s.cmdStep = some s.restRing := by
  rw [State.cmdStep, entry]
  exact if_pos taken

variable (empty : s.host.filter = []) (still : s.host.snoops = [])
include empty still

theorem cmdStep_reads (producer : s.host.phase = .producer) : s.cmdStep = some s.readRing := by
  rw [State.cmdStep, producer]
  dsimp only
  rw [shareRun_uncached empty still, if_pos rfl, State.readProducer, State.readRing]
  simp [State.mapHost, producer]

theorem cmdStep_takes (entry : s.host.phase = .entry) (more : s.ringConsumer commandRing ≠ s.host.produced)
    (room : s.ringFull replyRing.ref (zeros 32) = false) : s.cmdStep = some s.takeEntry := by
  rw [State.cmdStep, entry]
  dsimp only
  rw [if_neg more, room, if_neg Bool.false_ne_true, shareRun_uncached empty still, if_pos rfl]

end

/-- With every entry taken, the command ring comes to rest. -/
theorem cmdGo_rests {s : State} (ready : s.windowReady = true) (entry : s.host.phase = .entry)
    (taken : s.ringConsumer commandRing = s.host.produced) : s.cmdGo = s.restRing := by
  rw [State.cmdGo, ready, if_pos rfl, cmdRun_step (cmdStep_rests entry taken) 8199, cmdRun_stands 8199 (.inl rfl)]

/-! ## The reply to a command (R542, R543) -/

@[simp] theorem length_sliceB (bs : List Byte) (off n : Nat) : (sliceB bs off n).length = n := by
  simp only [sliceB, List.length_append, List.length_take, List.length_drop, List.length_replicate]
  omega

theorem sliceB_self (bs : List Byte) : sliceB bs 0 bs.length = bs := by simp [sliceB]

/-- The bytes of the reply to the command that is held. -/
def State.replyBytes (s : State) (status : Nat) (detail : List Byte) : List Byte :=
  sliceB s.host.cmd 4 4 ++ sliceB s.host.cmd 0 2 ++ leBytes 2 status ++ sliceB detail 0 24

theorem length_replyBytes (s : State) (status : Nat) (detail : List Byte) : (s.replyBytes status detail).length = 32 := by
  simp [State.replyBytes]

/-- Where the next reply goes. -/
def State.replyPlace (s : State) : Nat := replyRing.data + (s.ringProducer replyRing.ref % 4096) * 32

/-- The reply is in its ring, and PRODUCER covers it. -/
def State.putReply (s : State) (status : Nat) (detail : List Byte) : State :=
  (s.writeMem s.replyPlace (s.replyBytes status detail)).writeMem replyRing.ref.base
    (leBytes 4 ((s.ringProducer replyRing.ref + 1) % 8192))

theorem putReply_parts (s : State) (status : Nat) (detail : List Byte) :
    onlyParts [.mem, .memory] s (s.putReply status detail) :=
  onlyParts_trans (writeMem_parts s _ _) (writeMem_parts _ _ _)

/-- The reply as it is read back. -/
theorem readMem_putReply (s : State) (status : Nat) (detail : List Byte) :
    (s.putReply status detail).readMem s.replyPlace 32 = s.replyBytes status detail
      ∧ (s.putReply status detail).readMem replyRing.ref.base 4 = leBytes 4 ((s.ringProducer replyRing.ref + 1) % 8192) := by
  have header := readMem_writeMem (s.writeMem s.replyPlace (s.replyBytes status detail)) replyRing.ref.base
    (leBytes 4 ((s.ringProducer replyRing.ref + 1) % 8192))
  have entry := readMem_writeMem s s.replyPlace (s.replyBytes status detail)
  rw [length_leBytes] at header
  rw [length_replyBytes] at entry
  refine ⟨(readMem_congr fun a low _ => ?_).trans entry, header⟩
  have behind : replyRing.ref.base + 4 ≤ replyRing.data := by decide
  rw [State.replyPlace] at low
  rw [State.putReply, byte_writeMem, length_leBytes, if_neg (by omega)]

/-- CONSUMER of the command ring is not touched by a reply. -/
theorem putReply_consumer (s : State) (status : Nat) (detail : List Byte) :
    (s.putReply status detail).ringConsumer commandRing = s.ringConsumer commandRing := memLe_congr fun a _ high => by
  have before : commandRing.base + 64 + 4 ≤ replyRing.ref.base ∧ commandRing.base + 64 + 4 ≤ replyRing.data := by decide
  have place : replyRing.data ≤ s.replyPlace := Nat.le_add_right _ _
  rw [State.putReply, byte_writeMem, if_neg (by omega), byte_writeMem, if_neg (by omega)]

/-- The reply with its interrupt (R546); the firmware waits for the next doorbell. -/
def State.giveReply (s : State) (status : Nat) (detail : List Byte) : State :=
  ((s.putReply status detail).raiseInt 1).mapHost fun h => { h with phase := .idle, cmd := [] }

/-- What a reply touches. -/
abbrev giveParts : List Part := [.mem, .memory, .host, .regs]

theorem giveReply_touches (s : State) (status : Nat) (detail : List Byte) :
    Touches giveParts eventAddr s (s.giveReply status detail) :=
  have put := (Touches.of_parts (Q := eventAddr) (putReply_parts s status detail) (by decide)).mono (d := giveParts) (by decide)
    fun _ => id
  (put.trans ((raiseInt_touches _ 1).mono (by decide) fun _ => id)).trans
    ((Touches.of_parts (mapHost_parts _ _) (by decide)).mono (by decide) fun _ => id)

theorem giveReply_replies (s : State) (status : Nat) (detail : List Byte) :
    s.repliesWith (s.giveReply status detail) status detail := by
  have same : ((s.putReply status detail).raiseInt 1).mem = (s.putReply status detail).mem := raiseInt_parts _ 1 .mem (by decide)
  have bytes (ma n : Nat) : (s.giveReply status detail).readMem ma n = (s.putReply status detail).readMem ma n :=
    congrArg (sgetRun memDefault ma n) same
  obtain ⟨entry, header⟩ := readMem_putReply s status detail
  exact ⟨(bytes _ _).trans entry, (bytes _ _).trans header, rfl⟩

/-- Where no line is held by the companion and the reply ring has room, the reply is written at once. -/
theorem replyTo_eq {s : State} (empty : s.host.filter = []) (room : s.ringFull replyRing.ref (zeros 32) = false) (status : Nat)
    (detail : List Byte) : s.replyTo status detail =
      ((s.putReply status detail).raiseInt 1).mapHost fun h => { h with phase := .entry, cmd := [] } := by
  have units (bs : List Byte) (h : bs.length = 32) : ringUnits replyRing.ref bs = 1 := by rw [ringUnits, h]; decide
  have length := length_replyBytes s status detail
  have fits : s.ringFull replyRing.ref (s.replyBytes status detail) = false := by
    rw [State.ringFull, units _ length, ← units (zeros 32) List.length_replicate]
    exact room
  have whole : sliceB (s.replyBytes status detail) (0 * 32) 32 = s.replyBytes status detail := by
    have := sliceB_self (s.replyBytes status detail)
    rwa [length] at this
  have entry : s.ringWrite replyRing (s.ringProducer replyRing.ref) (s.replyBytes status detail) =
      s.writeMem s.replyPlace (s.replyBytes status detail) := by
    have sizes : replyRing.ref.entries = 4096 ∧ replyRing.ref.entryBytes = 32 := ⟨rfl, rfl⟩
    rw [State.ringWrite, units _ length, List.range_one]
    simp only [List.foldl_cons, List.foldl_nil, sizes, whole, Nat.add_zero]
    exact windowWrite_uncached empty _ _
  have put : s.ringPutNow replyRing (s.replyBytes status detail) 1 = (s.putReply status detail).raiseInt 1 := by
    have record : s.ringRecord replyRing (s.replyBytes status detail) = s.replyBytes status detail := rfl
    have wrote (u : State) : u.ringWrote replyRing = u := by
      rw [State.ringWrote]
      exact if_neg (by decide)
    have turns : 2 * replyRing.ref.entries = 8192 := by decide
    rw [State.ringPutNow, fits, if_neg Bool.false_ne_true]
    dsimp only
    rw [record, entry, units _ length, turns, windowWrite_uncached (s := s.writeMem _ _) empty, wrote, State.putReply]
  exact congrArg (State.mapHost · fun h => { h with phase := .entry, cmd := [] }) put

/-- The command held is replied to, and the ring comes to rest. -/
theorem finish_eq {s : State} (quiet : s.ringQuiet) (status : Nat) (detail : List Byte) :
    s.finish status detail = s.giveReply status detail := by
  obtain ⟨ready, empty, -, taken, room⟩ := quiet
  have raised := raiseInt_keeps (s.putReply status detail) 1
  have put := putReply_parts s status detail
  rw [State.finish, replyTo_eq empty room]
  refine (cmdGo_rests ?_ rfl ?_).trans rfl
  · exact (raised.ready.trans (windowReady_of (put .boot (by decide)) (regsAt_of_parts put (by decide)))).trans ready
  · exact (raised.consumer.trans (putReply_consumer s status detail)).trans
      (taken.trans ((congrArg HostSt.produced (put .host (by decide))).symm.trans raised.produced.symm))

/-- A reply changes bytes of the two rings alone. -/
theorem finish_bytes {s : State} (quiet : s.ringQuiet) (status : Nat) (detail : List Byte) :
    bytesAt (fun a => ¬ offRings a) s (s.finish status detail) := by
  have raised : ((s.putReply status detail).raiseInt 1).mem = (s.putReply status detail).mem := raiseInt_parts _ 1 .mem (by decide)
  have place : replyRing.data ≤ s.replyPlace ∧ s.replyPlace + 32 ≤ replyRing.data + 4096 * 32 := by
    rw [State.replyPlace]
    omega
  have within : ringsBase + 0x10000 ≤ replyRing.data ∧ replyRing.data + 4096 * 32 ≤ ringsBase + stagingStart
      ∧ ringsBase + 0x10000 ≤ replyRing.ref.base ∧ replyRing.ref.base + 4 ≤ ringsBase + stagingStart := by decide
  rw [finish_eq quiet]
  refine bytesAt_trans (bytesAt_trans (writeMem_bytes s fun a low high out => ?_) (writeMem_bytes _ fun a low high out => ?_))
    (bytesAt_of_mem raised)
  · rw [length_replyBytes] at high
    rcases out with out | out <;> omega
  · rw [length_leBytes] at high
    rcases out with out | out <;> omega

/-- An operation that leaves the rings alone, then the reply: what the reply says, and what it touches. -/
theorem finish_after {s u : State} (kept : KeepsRings s u) (quiet : s.ringQuiet) (status : Nat) (detail : List Byte) :
    s.repliesWith (u.finish status detail) status detail ∧ Touches giveParts eventAddr u (u.finish status detail) := by
  rw [finish_eq (kept.quiet quiet)]
  exact ⟨kept.replies (giveReply_replies u status detail), giveReply_touches u status detail⟩

end Sys2Proof.Machine

/-! PROOFS. The commands about a live job (spec/08_job_plans.md R240; 14_failure_survival.md R375, R378; 22_companion_link.md R543 to
R545): what each does before its reply, and that it leaves the two rings alone. -/
namespace Sys2Proof.Machine

open Sys2Proof

/-! ## What the reply leaves of registers and jobs -/

section
variable {s t : State} (a : Touches giveParts eventAddr s t)
include a

theorem saveStatus_of_reply (f : Fld) (own : f.reg = .SAVE_STATUS) : t.fld f 0 = s.fld f 0 :=
  a.regs.fld f 0 (own ▸ fun h => by revert h; unfold eventAddr; decide)

theorem jobs_of_reply : t.jobs = s.jobs := a.parts .jobs (by decide)

theorem landings_of_reply : t.landings = s.landings := a.parts .landings (by decide)

end

/-- A field of SAVE_STATUS lies in a register below those of the stacks. -/
theorem setSave_keeps (s : State) (f : Fld) (v : Nat) (own : f.reg = .SAVE_STATUS) : KeepsRings s (s.setFld f 0 v) :=
  .of_regs (setFld_touches s f 0 v (own ▸ (by decide : regAddr .SAVE_STATUS 0 < 0x30000000)))

theorem mapJob_keeps (s : State) (id : BitVec 12) (g : Job → Job) : KeepsRings s (s.mapJob id g) :=
  .of_parts (mapJob_parts s id g) (by decide)

/-! ## A job that is not live, and a save that runs (R375, R543) -/

/-- A command about a job that is not live is answered NO_JOB, but for an UNLOAD that finds a landing kept. -/
theorem exec_noJob {s : State} {c : Instr} {op : Nat}
    (which : (c = .unload ∧ op = 2) ∨ (c = .save ∧ op = 3) ∨ (c = .restore ∧ op = 4) ∨ (c = .landingWrite ∧ op = 5))
    (held : s.holds op = true) (gone : s.job? s.cmdJob = none)
    (none_ : c = .unload → s.cmdKeep = true ∨ s.keepsLanding s.cmdJob = false) : exec c s = .next (s.finish 5 []) := by
  rcases which with ⟨rfl, rfl⟩ | ⟨rfl, rfl⟩ | ⟨rfl, rfl⟩ | ⟨rfl, rfl⟩
  · have other : (!s.cmdKeep && s.keepsLanding s.cmdJob) = false := by
      rcases none_ rfl with h | h <;> simp [h]
    change execUnload s = _
    simp [execUnload, held, gone, other]
  · change execSave s = _
    simp [execSave, held, gone]
  · change execRestore s = _
    simp [execRestore, held, gone]
  · change execLandingWrite s = _
    simp [execLandingWrite, held, gone]

theorem exec_busy {s : State} {c : Instr} {op : Nat} {j : Job} (which : (c = .save ∧ op = 3) ∨ (c = .restore ∧ op = 4))
    (held : s.holds op = true) (job : s.job? s.cmdJob = some j) (later : c = .restore → j.restoring = false)
    (busy : s.saveBusy = true) : exec c s = .next (s.finish 4 []) := by
  rcases which with ⟨rfl, rfl⟩ | ⟨rfl, rfl⟩
  · change execSave s = _
    simp [execSave, held, job, busy]
  · change execRestore s = _
    simp [execRestore, held, job, busy, later rfl]

/-! ## UNLOAD (R240, R374) -/

theorem exec_unload_kept {s : State} (held : s.holds 2 = true) (gone : s.job? s.cmdJob = none) (frees : s.cmdKeep = false)
    (kept : s.keepsLanding s.cmdJob = true) : exec .unload s = .next ((s.dropKept s.cmdJob).finish 0 []) := by
  change execUnload s = _
  simp [execUnload, held, gone, frees, kept]

theorem dropKept_keeps (s : State) (id : BitVec 12) : KeepsRings s (s.dropKept id) := ⟨rfl, bytesAt_refl _ s, rfl⟩

theorem keepsLanding_dropKept (s : State) (id : BitVec 12) : (s.dropKept id).keepsLanding id = false := by
  rw [State.keepsLanding, List.any_eq_false]
  intro x hx
  have test := (List.mem_filter.mp hx).2
  rw [Bool.not_eq_true'] at test
  rw [test]
  exact Bool.false_ne_true

theorem mem_dropKept {s : State} {id : BitVec 12} {x : Landing} (h : x ∈ s.landings) (other : x.job ≠ id ∨ x.kept = false) :
    x ∈ (s.dropKept id).landings := List.mem_filter.mpr ⟨h, by rcases other with h | h <;> simp [h]⟩

theorem keepsLanding_of_landings {s t : State} (h : t.landings = s.landings) (id : BitVec 12) :
    t.keepsLanding id = s.keepsLanding id := by
  rw [State.keepsLanding, h, State.keepsLanding]

theorem exec_unload_live {s : State} {j : Job} (held : s.holds 2 = true) (job : s.job? s.cmdJob = some j) :
    exec .unload s = .next ((s.unloadJob j.id s.cmdKeep).mapHost fun h => { h with phase := .unloading }) := by
  change execUnload s = _
  simp [execUnload, held, job]

/-- The state of an unload in which every step has aborted and every context of the job has gone to IDLE. -/
def State.unloadIdle (s : State) (id : BitVec 12) (j : Job) : State :=
  ((List.range j.depth).foldl (fun s i => s.abortStep id (j.floor + BitVec.ofNat 32 i) 0x0003 none .unload) s).idleJob id

theorem unloadIdle_ctxs (s : State) (id : BitVec 12) (j : Job) : ∀ x ∈ (s.unloadIdle id j).ctxs, x.2.job ≠ id := fun x hx ofJob => by
  unfold State.unloadIdle State.idleJob at hx
  obtain ⟨mem, other⟩ := idleCtxs_mem _ hx
  exact other (List.mem_map_of_mem (List.mem_filter.mpr ⟨mem, by simp [ofJob]⟩))

theorem endSave_parts (s : State) (id : BitVec 12) (code : Nat) : onlyParts [.jobs, .regs] s (s.endSave id code) :=
  onlyParts_trans (onlyParts_mono (mapJob_parts s id _) (by decide)) (onlyParts_trans (onlyParts_mono (setFld_parts _ _ _ _) (by decide))
    (onlyParts_trans (onlyParts_mono (setFld_parts _ _ _ _) (by decide)) (onlyParts_mono (setFld_parts _ _ _ _) (by decide))))

/-- A save that waits or runs is stopped by the unload (R379). -/
def State.stopSave (s : State) (id : BitVec 12) (j : Job) : State :=
  match j.save with
  | some v => (s.event j 6 v.p 0 0 6 0).endSave id 6
  | none => s

theorem stopSave_ctxs (s : State) (id : BitVec 12) (j : Job) : (s.stopSave id j).ctxs = s.ctxs := by
  unfold State.stopSave
  split
  · exact (endSave_parts _ id 6 .ctxs (by decide)).trans ((event_touches s j _ _ _ _ _ _).parts .ctxs (by decide))
  · rfl

/-- A job that is being unloaded. -/
def Job.unloads (keep : Bool) (j : Job) : Job := { j with unloading := some (b2n keep), bells := [] }

theorem unloadJob_eq {s : State} {id : BitVec 12} {j : Job} (job : s.job? id = some j) (keep : Bool) : s.unloadJob id keep =
    ((s.unloadIdle id j).stopSave id j).mapJob id (Job.unloads keep) := by
  rw [State.unloadJob, job]
  rfl

/-- An unload leaves no context of the job, and marks it. -/
theorem unloadJob_effect {s : State} {id : BitVec 12} {j : Job} (job : s.job? id = some j) (keep : Bool) :
    (∀ x ∈ (s.unloadJob id keep).ctxs, x.2.job ≠ id)
      ∧ ∀ k, (s.unloadJob id keep).job? id = some k → k.unloading = some (b2n keep) ∧ k.bells = [] := by
  rw [unloadJob_eq job]
  refine ⟨fun x hx => unloadIdle_ctxs s id j x (stopSave_ctxs _ id j ▸ hx), fun k found => ?_⟩
  rw [job?_mapJob _ id (Job.unloads keep) fun _ => rfl] at found
  obtain ⟨k, -, rfl⟩ := Option.map_eq_some_iff.mp found
  exact ⟨rfl, rfl⟩

/-! ## UNLOAD_FREE (R240) -/

theorem exec_unloadFree {s : State} {id : BitVec 12} {j : Job} {keep : Nat} (job : s.job? id = some j)
    (unloading : j.unloading = some keep) (fw : s.power.fw = true) (phase : s.host.phase = .unloading)
    (idle : (s.ctxs.any fun x => x.2.job == id) = false) (out : s.recordsWait j = false) :
    exec (.unloadFree id) s = .next ((s.freeJob id (keep == 1)).finish 0 []) := by
  change execUnloadFree id s = _
  simp [execUnloadFree, job, unloading, fw, phase, idle, out]

/-- A job and its landing are gone from the lists, and with the job its multicast records, messages and signatures. -/
def State.dropJob (s : State) (id : BitVec 12) (keep : Bool) : State :=
  { s with
    jobs := s.jobs.filter fun j => j.id != id
    mcs := s.mcs.filter fun m => m.job != id
    outs := s.outs.filter fun o => !(o.failed && o.job == some id)
    signQueue := s.signQueue.filter fun x => match x with | some y => y.1 != id | none => true
    landings := if keep then s.landings.map fun (x : Landing) => if x.job = id then x.keep else x
      else s.landings.filter fun x => x.job != id }

theorem dropJob_keeps (s : State) (id : BitVec 12) (keep : Bool) : KeepsRings s (s.dropJob id keep) := ⟨rfl, bytesAt_refl _ s, rfl⟩

theorem freeJob_eq (s : State) (id : BitVec 12) (keep : Bool) :
    s.freeJob id keep = (((s.dropJob id keep).clearShapers id).dropFences id none).directory id none := rfl

theorem setArr_parts (s : State) (a : Nat) (v : BitVec 32) : onlyParts [.arrays] s (s.setArr a v) := fun p hp => by
  cases p
  case arrays => exact absurd (by decide) hp
  all_goals rfl

theorem clearShapers_parts (s : State) (id : BitVec 12) : onlyParts [.arrays] s (s.clearShapers id) := by
  refine onlyParts_foldl _ (fun s d => onlyParts_foldl _ (fun s i => ?_) _ s) _ s
  split
  · exact setArr_parts s _ _
  · exact onlyParts_refl _ s

/-- The directory lies below the rings (R538). -/
theorem directory_keeps {s : State} (empty : s.host.filter = []) (id : BitVec 12) (e : Option (BitVec 4 × JobRings)) :
    KeepsRings s (s.directory id e) := by
  have low : id.toNat < 4096 := id.isLt
  have written {bs : List Byte} (h : bs.length = 16) : KeepsRings s (s.windowWrite (ringsBase + id.toNat * 16) bs) := by
    rw [windowWrite_uncached empty]
    exact writeMem_keeps s fun a _ high => .inl (by omega)
  cases e with
  | none => exact written (by simp [zeros])
  | some e => exact written (by simp [zeros])

theorem freeJob_keeps {s : State} (empty : s.host.filter = []) (id : BitVec 12) (keep : Bool) : KeepsRings s (s.freeJob id keep) := by
  rw [freeJob_eq]
  have dropped := dropJob_keeps s id keep
  have shapers := dropped.trans (.of_parts (clearShapers_parts _ id) (by decide))
  have fences := shapers.trans (.of_parts (dropFences_parts _ id none) (by decide))
  exact fences.trans (directory_keeps (fences.filter.trans empty) id none)

theorem freeJob_lists (s : State) (id : BitVec 12) (keep : Bool) :
    (s.freeJob id keep).jobs = (s.dropJob id keep).jobs ∧ (s.freeJob id keep).landings = (s.dropJob id keep).landings := by
  rw [freeJob_eq]
  have after : onlyParts [.arrays, .bank0, .bank1, .mem, .memory, .host] (s.dropJob id keep)
      ((((s.dropJob id keep).clearShapers id).dropFences id none).directory id none) :=
    onlyParts_trans (onlyParts_mono (clearShapers_parts _ id) (by decide))
      (onlyParts_trans (onlyParts_mono (dropFences_parts _ id none) (by decide)) (onlyParts_mono (directory_parts _ id none) (by decide)))
  exact ⟨after .jobs (by decide), after .landings (by decide)⟩

theorem job?_dropJob (s : State) (id : BitVec 12) (keep : Bool) : (s.dropJob id keep).job? id = none := by
  simp [State.job?, State.dropJob]

theorem job?_dropJob_ne (s : State) {id e : BitVec 12} (other : e ≠ id) (keep : Bool) : (s.dropJob id keep).job? e = s.job? e := by
  rw [State.job?, State.dropJob, List.find?_filter, State.job?]
  congr 1
  funext j
  by_cases own : j.id = e
  · simp [own, other]
  · simp [own]

theorem landing?_dropJob (s : State) (id : BitVec 12) : (s.dropJob id false).landing? id = none := by
  simp [State.landing?, State.dropJob]

theorem landing?_dropJob_kept {s : State} {id : BitVec 12} {x : Landing} (here : s.landing? id = some x) :
    (s.dropJob id true).landing? id = some x.keep := by
  have test : ((fun y : Landing => y.job == id) ∘ fun y => if y.job = id then y.keep else y) = fun y => y.job == id := by
    funext y
    rw [Function.comp_apply]
    split <;> rfl
  have own : x.job = id := by simpa using List.find?_some here
  rw [State.landing?] at here
  rw [State.landing?, State.dropJob, if_pos rfl, List.find?_map, test, here, Option.map_some, if_pos own]

theorem landing?_of_landings {s t : State} (h : t.landings = s.landings) (id : BitVec 12) : t.landing? id = s.landing? id := by
  rw [State.landing?, h, State.landing?]

/-! ## SAVE (R375) -/

theorem exec_save {s : State} {j : Job} (held : s.holds 3 = true) (job : s.job? s.cmdJob = some j) (idle : s.saveBusy = false) :
    exec .save s = .next ((s.acceptSave j).finish 1 []) := by
  change execSave s = _
  simp [execSave, held, job, idle]

/-- What a save that is accepted keeps of the request. -/
def State.saveAsked (s : State) : SaveReq :=
  { memBad := false, p := s.cmdStepNum, dataPos := s.cmdDataPos, slot := s.cmdSlot, running := false }

/-- A job whose save has been accepted. -/
def Job.saves (v : SaveReq) (j : Job) : Job := { j with save := some v }

/-- The status of a save that has been accepted. -/
def State.saveStarted (s : State) (id : BitVec 12) : State :=
  (s.setFlag F.SAVE_STATUS_SAVE_BUSY 0 true).setFld F.SAVE_STATUS_LAST_JOB 0 id.toNat

theorem acceptSave_eq (s : State) (j : Job) :
    s.acceptSave j = (s.mapJob j.id (Job.saves s.saveAsked)).saveStarted j.id := rfl

theorem saveStarted_keeps (s : State) (id : BitVec 12) : KeepsRings s (s.saveStarted id) :=
  (setSave_keeps s F.SAVE_STATUS_SAVE_BUSY _ rfl).trans (setSave_keeps _ F.SAVE_STATUS_LAST_JOB _ rfl)

theorem saveStarted_parts (s : State) (id : BitVec 12) : onlyParts [.regs] s (s.saveStarted id) :=
  onlyParts_trans (setFld_parts s _ _ _) (setFld_parts _ _ _ _)

theorem acceptSave_keeps (s : State) (j : Job) : KeepsRings s (s.acceptSave j) :=
  (mapJob_keeps s j.id _).trans (saveStarted_keeps _ j.id)

theorem acceptSave_job {s : State} {j : Job} (job : s.job? j.id = some j) :
    (s.acceptSave j).job? j.id = some (j.saves s.saveAsked) := by
  rw [acceptSave_eq, job?_of_jobs (saveStarted_parts _ j.id .jobs (by decide)), job?_mapJob s j.id (Job.saves s.saveAsked) fun _ => rfl,
    job, Option.map_some]

/-- A JOB_ID fits its field. -/
theorem fld_lastJob (s : State) (id : BitVec 12) : (s.setFld F.SAVE_STATUS_LAST_JOB 0 id.toNat).fld F.SAVE_STATUS_LAST_JOB 0 = id.toNat :=
  (fld_setFld s F.SAVE_STATUS_LAST_JOB 0 _ (by decide)).trans (Nat.mod_eq_of_lt (id.isLt.trans_le (by decide)))

theorem saveStarted_status (s : State) (id : BitVec 12) : (s.saveStarted id).flag F.SAVE_STATUS_SAVE_BUSY 0 = true
    ∧ (s.saveStarted id).fld F.SAVE_STATUS_LAST_JOB 0 = id.toNat := by
  refine ⟨?_, fld_lastJob _ id⟩
  rw [State.saveStarted, State.flag, fld_setFld_apart _ _ _ _ _ (by decide)]
  exact flag_setFlag _ _ _ _ (by decide)

/-! ## RESTORE (R378, R379) -/

theorem exec_restore {s : State} {j : Job} (held : s.holds 4 = true) (job : s.job? s.cmdJob = some j)
    (own : s.saveBusy = false ∨ j.restoring = true) :
    exec .restore s = .next ((s.restore j s.cmdSlot s.cmdGen s.cmdStepNum s.cmdDataPos).finish 1 []) := by
  have goes : (s.saveBusy && !j.restoring) = false := by rcases own with h | h <;> simp [h]
  change execRestore s = _
  simp only [execRestore, held, Bool.not_true, Bool.false_eq_true, if_false, job, goes]

theorem restoreCode_le (s : State) (j : Job) (y : Option Shard) (gen : BitVec 4) (p : BitVec 32) (pos : List Byte) :
    s.restoreCode j y gen p pos ≤ 5 := by
  unfold State.restoreCode
  cases y with
  | none => exact (by decide : 1 ≤ 5)
  | some y =>
    dsimp only
    repeat' split
    all_goals omega

/-- A job whose restore has been carried out. -/
def Job.restored (j : Job) : Job := { j with restoring := false }

/-- The status of a restore that has been carried out. -/
def State.restoreEnded (s : State) (j : Job) (code : Nat) : State :=
  ((s.setFlag F.SAVE_STATUS_RESTORE_BUSY 0 (s.flag F.SAVE_STATUS_RESTORE_BUSY 0 && !j.restoring)).setFld F.SAVE_STATUS_LAST_CODE 0
    code).setFld F.SAVE_STATUS_LAST_JOB 0 j.id.toNat

/-- A restore that fails a check ends with its record. -/
theorem restore_fails {s : State} {j : Job} {slot code : Nat} {gen : BitVec 4} {p : BitVec 32} {pos : List Byte}
    (fails : s.restoreCode j ((s.landing? j.id).bind fun x => x.own? slot) gen p pos = code) (bad : code ≠ 0) :
    s.restore j slot gen p pos = ((s.mapJob j.id Job.restored).restoreEnded j code).saveEvent j.id 8 p code := by
  rw [State.restore, fails]
  exact if_neg bad

theorem restoreEnded_keeps (s : State) (j : Job) (code : Nat) : KeepsRings s (s.restoreEnded j code) :=
  ((setSave_keeps s F.SAVE_STATUS_RESTORE_BUSY _ rfl).trans (setSave_keeps _ F.SAVE_STATUS_LAST_CODE _ rfl)).trans
    (setSave_keeps _ F.SAVE_STATUS_LAST_JOB _ rfl)

theorem restoreEnded_parts (s : State) (j : Job) (code : Nat) : onlyParts [.regs] s (s.restoreEnded j code) :=
  onlyParts_trans (onlyParts_trans (setFld_parts s _ _ _) (setFld_parts _ _ _ _)) (setFld_parts _ _ _ _)

theorem restoreEnded_status (s : State) (j : Job) {code : Nat} (small : code ≤ 5) :
    (s.restoreEnded j code).fld F.SAVE_STATUS_LAST_CODE 0 = code ∧ (s.restoreEnded j code).fld F.SAVE_STATUS_LAST_JOB 0 = j.id.toNat
      ∧ (j.restoring = true → (s.restoreEnded j code).flag F.SAVE_STATUS_RESTORE_BUSY 0 = false) := by
  refine ⟨?_, fld_lastJob _ j.id, fun restoring => ?_⟩
  · rw [State.restoreEnded, fld_setFld_apart _ _ _ _ _ (by decide), fld_setFld _ _ _ _ (by decide)]
    exact Nat.mod_eq_of_lt (Nat.lt_of_le_of_lt small (by decide))
  · rw [State.restoreEnded, State.flag, fld_setFld_apart _ _ _ _ _ (by decide), fld_setFld_apart _ _ _ _ _ (by decide)]
    refine (flag_setFlag _ _ _ _ (by decide)).trans ?_
    rw [restoring, Bool.not_true, Bool.and_false]

theorem saveEvent_touches (s : State) (id : BitVec 12) (kind : Nat) (step : BitVec 32) (code : Nat) :
    Touches eventParts eventAddr s (s.saveEvent id kind step code) := by
  unfold State.saveEvent
  split
  · exact event_touches s _ _ _ _ _ _ _
  · exact .refl _ _ s

/-- What a job holds apart is behind the two rings. -/
theorem far_of_apart {ma : Nat} (h : ringsBase + 2 ^ 31 ≤ ma) : ringsBase + stagingStart ≤ ma := by
  have below : stagingStart ≤ 2 ^ 31 := by decide
  exact (Nat.add_le_add_left below ringsBase).trans h

theorem saveEvent_keeps {s : State} {id : BitVec 12} {k : Job} (empty : s.host.filter = []) (job : s.job? id = some k)
    (header : ringsBase + stagingStart ≤ k.jrings.events.base) (data : ringsBase + stagingStart ≤ k.jrings.eventsAt.data) (kind : Nat)
    (step : BitVec 32) (code : Nat) : KeepsRings s (s.saveEvent id kind step code) := by
  rw [State.saveEvent, job]
  exact ringPut_far empty rfl header data _ _

/-- A restore that fails a check: its code and its job in SAVE_STATUS, and no job changed but for the end of the restore. -/
theorem restore_fails_effect {s : State} {j : Job} {slot code : Nat} {gen : BitVec 4} {p : BitVec 32} {pos : List Byte}
    (empty : s.host.filter = []) (job : s.job? j.id = some j) (apart : s.apart j)
    (fails : s.restoreCode j ((s.landing? j.id).bind fun x => x.own? slot) gen p pos = code) (bad : code ≠ 0) :
    KeepsRings s (s.restore j slot gen p pos) ∧ Touches eventParts eventAddr ((s.mapJob j.id Job.restored).restoreEnded j code)
      (s.restore j slot gen p pos) := by
  rw [restore_fails fails bad]
  obtain ⟨header, data, -, -⟩ := apart
  have ended := (mapJob_keeps s j.id Job.restored).trans (restoreEnded_keeps _ j code)
  have found : ((s.mapJob j.id Job.restored).restoreEnded j code).job? j.id = some j.restored := by
    rw [job?_of_jobs (restoreEnded_parts _ j code .jobs (by decide)), job?_mapJob s j.id Job.restored fun _ => rfl, job, Option.map_some]
  exact ⟨ended.trans (saveEvent_keeps (ended.filter.trans empty) found (far_of_apart header) (far_of_apart data) 8 p code),
    saveEvent_touches _ j.id 8 p code⟩

/-! ## LANDING_WRITE (R544) -/

theorem exec_landingWrite {s : State} {j : Job} (held : s.holds 5 = true) (job : s.job? s.cmdJob = some j) :
    exec .landingWrite s = .next (s.withBuffer fun s bs => s.landPart j bs) := by
  change execLandingWrite s = _
  simp [execLandingWrite, held, job]

theorem withBuffer_bad {s : State} (bad : s.bufferOk = false) (act : State → List Byte → State) :
    s.withBuffer act = s.finish 3 [] := by
  rw [State.withBuffer, bad]
  rfl

/-- With no line of the window at the companion, the bytes of the buffer are the newest. -/
theorem withBuffer_good {s : State} (quiet : s.ringQuiet) (good : s.bufferOk = true) (act : State → List Byte → State) :
    s.withBuffer act = act s (s.readMem s.bufferMa s.cmdBytes) := by
  obtain ⟨-, empty, still, -, -⟩ := quiet
  rw [State.withBuffer, good, shareRun_uncached empty still]
  rfl

theorem landPart_taken {s t : State} {j : Job} {bs : List Byte}
    (taken : s.imagePart j s.cmdSlot s.cmdImageOff s.cmdImageBytes bs = (0, t)) : s.landPart j bs = t.finish 0 [] := by
  rw [State.landPart, taken]
  rfl

/-- Every landing lies behind the rings. -/
def State.landingsFar (s : State) : Prop := ∀ x ∈ s.landings, ringsBase + stagingStart ≤ x.base

/-- What the writing of an image may touch. -/
abbrev imageParts : List Part := [.mem, .memory, .landings, .host, .freeCount]

/-- Landings have changed, and bytes of theirs: the two rings are as they were. -/
structure Lands (s t : State) : Prop where
  rings : KeepsRings s t
  parts : onlyParts imageParts s t
  far : t.landingsFar

section
variable {s t u : State}

theorem Lands.trans (a : Lands s t) (b : Lands t u) : Lands s u :=
  ⟨a.rings.trans b.rings, onlyParts_trans a.parts b.parts, b.far⟩

variable (far : s.landingsFar)
include far

theorem Lands.refl : Lands s s := ⟨.refl s, onlyParts_refl _ s, far⟩

theorem mapLanding_lands (id : BitVec 12) {g : Landing → Landing}
    (base : ∀ x, ringsBase + stagingStart ≤ x.base → ringsBase + stagingStart ≤ (g x).base) : Lands s (s.mapLanding id g) := by
  refine ⟨⟨rfl, bytesAt_refl _ s, rfl⟩, fun p hp => ?_, fun x hx => ?_⟩
  · cases p
    case landings => exact absurd (by decide) hp
    all_goals rfl
  · obtain ⟨y, hy, rfl⟩ := List.mem_map.mp hx
    split
    · exact base y (far y hy)
    · exact far y hy

/-- How far an image has been written. -/
def State.noteImage (s : State) (v : Option (BitVec 12 × BitVec 4 × Nat × Nat)) : State :=
  { s with host := { s.host with landing := v } }

theorem noteImage_lands (v : Option (BitVec 12 × BitVec 4 × Nat × Nat)) : Lands s (s.noteImage v) := by
  refine ⟨⟨rfl, bytesAt_refl _ s, rfl⟩, fun p hp => ?_, far⟩
  cases p
  case host => exact absurd (by decide) hp
  all_goals rfl

theorem draw1_lands : Lands s s.draw1.2 := by
  refine ⟨⟨rfl, bytesAt_refl _ s, rfl⟩, fun p hp => ?_, far⟩
  cases p
  case freeCount => exact absurd (by decide) hp
  all_goals rfl

theorem landing?_far {id : BitVec 12} {x : Landing} (here : s.landing? id = some x) : ringsBase + stagingStart ≤ x.base :=
  far x (List.mem_of_find?_eq_some here)

theorem storeShard_lands (id : BitVec 12) (owner : Nat) (gen : BitVec 4) (slot off : Nat) (bs : List Byte) :
    Lands s (s.storeShard id owner gen slot off bs) := by
  unfold State.storeShard
  split
  · exact .refl far
  · rename_i x here
    split
    · exact .refl far
    · rename_i y _
      have place : ringsBase + stagingStart ≤ x.base + y.base + off :=
        (landing?_far far here).trans ((Nat.le_add_right _ _).trans (Nat.le_add_right _ _))
      have written : Lands s (s.writeMem (x.base + y.base + off) bs) :=
        ⟨writeMem_far s bs place, onlyParts_mono (writeMem_parts s _ bs) (by decide), far⟩
      exact written.trans (mapLanding_lands written.far id fun _ h => h)

theorem imageWhole_lands (id : BitVec 12) (slot : Nat) : Lands s (s.imageWhole id slot).2 := by
  unfold State.imageWhole
  split
  · exact .refl far
  · dsimp only
    split
    · exact mapLanding_lands far id fun _ h => h
    · exact .refl far

end

theorem openOwn_base {x y : Landing} {gen : BitVec 4} {slot bytes draw : Nat} {step : BitVec 32}
    (h : x.openOwn gen slot bytes step draw = some y) : y.base = x.base := by
  obtain ⟨a, -, rfl⟩ := Option.map_eq_some_iff.mp h
  rfl

/-- A part of an image is written to the landing of its job, whatever comes of it. -/
theorem imagePart_lands {s : State} (far : s.landingsFar) (j : Job) (slot off total : Nat) (bs : List Byte) :
    Lands s (s.imagePart j slot off total bs).2 := by
  unfold State.imagePart
  dsimp only
  split
  · exact .refl far
  · rename_i u opened
    have start : Lands s u := by
      split at opened
      · obtain ⟨x, found, rfl⟩ := Option.map_eq_some_iff.mp opened
        obtain ⟨y, here, own⟩ := Option.bind_eq_some_iff.mp found
        have drawn := draw1_lands far
        have placed := drawn.trans (mapLanding_lands drawn.far j.id (g := fun _ => x) fun _ _ =>
          openOwn_base own ▸ landing?_far far here)
        exact placed.trans (noteImage_lands placed.far _)
      · obtain rfl := Option.some.inj opened
        exact .refl far
    refine start.trans ?_
    clear opened
    split
    · rename_i job y _ n y' _ _
      split
      · exact .refl start.far
      · have stored := storeShard_lands start.far j.id switchOwner y'.gen slot off bs
        have noted := stored.trans (noteImage_lands stored.far (some (j.id, j.cur.plan.gen, slot, off + bs.length)))
        split
        · have ended := noted.trans (noteImage_lands noted.far none)
          exact ended.trans (imageWhole_lands ended.far j.id slot)
        · exact noted
    · exact .refl start.far

/-! ## LEDGER_READ (R545) -/

theorem exec_ledgerRead_none {s : State} (held : s.holds 6 = true) (none_ : s.ledgerData = none) :
    exec .ledgerRead s = .next (s.finish 6 []) := by
  change execLedgerRead s = _
  simp [execLedgerRead, held, none_]

theorem exec_ledgerRead {s : State} {bs : List Byte} (quiet : s.ringQuiet) (held : s.holds 6 = true) (data : s.ledgerData = some bs)
    (good : s.bufferOk = true) (fits : bs.length ≤ s.cmdBytes) :
    exec .ledgerRead s = .next ((s.writeMem s.bufferMa bs).finish 0 []) := by
  obtain ⟨-, empty, still, -, -⟩ := quiet
  have written : s.ledgerWrite bs = (s.writeMem s.bufferMa bs).finish 0 [] := by
    rw [State.ledgerWrite, good, decide_eq_false (Nat.not_lt.mpr fits), clearRun_uncached empty still]
    rfl
  change execLedgerRead s = _
  simp [execLedgerRead, held, data, written]

/-- A buffer within staging is behind the rings. -/
theorem bufferMa_far {s : State} (good : s.bufferOk = true) : ringsBase + stagingStart ≤ s.bufferMa := by
  simp only [State.bufferOk, Bool.and_eq_true, decide_eq_true_eq] at good
  exact Nat.add_le_add_left good.1 _

/-- The answer of a LEDGER_READ is in the buffer after the reply. -/
theorem readMem_finish {s : State} (quiet : s.ringQuiet) {ma : Nat} (far : ringsBase + stagingStart ≤ ma) (bs : List Byte)
    (status : Nat) (detail : List Byte) : ((s.writeMem ma bs).finish status detail).readMem ma bs.length = bs :=
  (readMem_congr fun a low _ => finish_bytes ((writeMem_far s bs far).quiet quiet) status detail a
    (not_not_intro (offRings_of_far far low))).trans (readMem_writeMem s ma bs)

/-! ## O53 -/

/-- Settles O53: each command leaves the two rings alone until its reply, which then stands in the reply ring, and the command ring
comes to rest; what the command did is still there after the reply. -/
theorem hostCommands : Obligations.HostCommands := by
  intro s quiet
  have replies {u : State} (kept : KeepsRings s u) (status : Nat) (detail : List Byte) := finish_after kept quiet status detail
  have here (status : Nat) (detail : List Byte) := replies (.refl s) status detail
  refine ⟨?_, ?_, ?_, ?_, ?_, ?_, ?_, ?_, ?_, ?_, ?_⟩
  · intro c op which held gone none_
    obtain ⟨reply, kept⟩ := here 5 []
    exact ⟨_, exec_noJob which held gone none_, reply, jobs_of_reply kept⟩
  · intro held gone frees kept
    obtain ⟨reply, after⟩ := replies (dropKept_keeps s s.cmdJob) 0 []
    have landings := landings_of_reply after
    exact ⟨_, exec_unload_kept held gone frees kept, reply,
      (keepsLanding_of_landings landings _).trans (keepsLanding_dropKept s s.cmdJob), fun x hx other => landings ▸ mem_dropKept hx other,
      (jobs_of_reply after).trans rfl⟩
  · intro c op j which held job later busy
    obtain ⟨reply, kept⟩ := here 4 []
    exact ⟨_, exec_busy which held job later busy, reply, jobs_of_reply kept⟩
  · intro j held job
    obtain ⟨ctxs, jobs⟩ := unloadJob_effect ((job?_id job).symm ▸ job) s.cmdKeep
    exact ⟨_, exec_unload_live held job, rfl, ctxs, jobs⟩
  · intro id j keep job unloading fw phase idle out
    obtain ⟨reply, after⟩ := replies (freeJob_keeps quiet.empty id (keep == 1)) 0 []
    obtain ⟨jobs, landings⟩ := freeJob_lists s id (keep == 1)
    have jobsNow := (jobs_of_reply after).trans jobs
    have landingsNow := (landings_of_reply after).trans landings
    refine ⟨_, exec_unloadFree job unloading fw phase idle out, reply, (job?_of_jobs jobsNow id).trans (job?_dropJob s id _),
      fun e other => (job?_of_jobs jobsNow e).trans (job?_dropJob_ne s other _), fun frees => ?_, fun kept x found => ?_⟩
    · rw [landing?_of_landings landingsNow, beq_false_of_ne frees, landing?_dropJob]
    · rw [landing?_of_landings landingsNow, kept]
      exact landing?_dropJob_kept found
  · intro j held job idle
    obtain ⟨reply, after⟩ := replies (acceptSave_keeps s j) 1 []
    obtain ⟨busy, last⟩ := saveStarted_status (s.mapJob j.id (Job.saves s.saveAsked)) j.id
    refine ⟨_, exec_save held job idle, reply, ?_, (saveStatus_of_reply after F.SAVE_STATUS_LAST_JOB rfl).trans last, _, s.saveAsked,
      (job?_of_jobs (jobs_of_reply after) j.id).trans (acceptSave_job ((job?_id job).symm ▸ job)), rfl, rfl, rfl, rfl, rfl⟩
    rw [State.flag, saveStatus_of_reply after F.SAVE_STATUS_SAVE_BUSY rfl]
    exact busy
  · intro j y code held job own apart shard fails bad
    subst shard
    have found : s.job? j.id = some j := (job?_id job).symm ▸ job
    obtain ⟨rings, recorded⟩ := restore_fails_effect quiet.empty found apart fails.symm bad
    obtain ⟨reply, after⟩ := replies rings 1 []
    have ended := restoreEnded_parts (s.mapJob j.id Job.restored) j code
    obtain ⟨last, lastJob, busy⟩ := restoreEnded_status (s.mapJob j.id Job.restored) j (fails ▸ restoreCode_le s j _ _ _ _)
    have still (f : Fld) (of : f.reg = .SAVE_STATUS) := (saveStatus_of_reply after f of).trans
      (recorded.regs.fld f 0 (of ▸ fun h => by revert h; unfold eventAddr; decide))
    refine ⟨_, exec_restore held job own, (still F.SAVE_STATUS_LAST_CODE rfl).trans last,
      (still F.SAVE_STATUS_LAST_JOB rfl).trans lastJob, ?_, ?_, fun restoring => ?_⟩
    · exact (jobs_of_reply after).trans ((recorded.parts .jobs (by decide)).trans (ended .jobs (by decide)))
    · exact (landings_of_reply after).trans ((recorded.parts .landings (by decide)).trans (ended .landings (by decide)))
    · rw [State.flag, still F.SAVE_STATUS_RESTORE_BUSY rfl]
      exact busy restoring
  · intro j held job bad
    obtain ⟨reply, kept⟩ := here 3 []
    exact ⟨_, (exec_landingWrite held job).trans (congrArg _ (withBuffer_bad bad _)), reply, landings_of_reply kept⟩
  · intro j t' held job apart good taken
    obtain ⟨-, -, -, landings⟩ := apart
    have lands := imagePart_lands (fun x hx => far_of_apart (landings x hx)) j s.cmdSlot s.cmdImageOff s.cmdImageBytes
      (s.readMem s.bufferMa s.cmdBytes)
    rw [taken] at lands
    obtain ⟨reply, after⟩ := replies lands.rings 0 []
    exact ⟨_, (exec_landingWrite held job).trans (congrArg _ ((withBuffer_good quiet good _).trans (landPart_taken taken))), reply,
      landings_of_reply after, (jobs_of_reply after).trans (lands.parts .jobs (by decide))⟩
  · intro held none_
    exact ⟨_, exec_ledgerRead_none held none_, (here 6 []).1⟩
  · intro bs held data good fits
    have far := bufferMa_far good
    obtain ⟨reply, after⟩ := replies (writeMem_far s bs far) 0 []
    exact ⟨_, exec_ledgerRead quiet held data good fits, readMem_finish quiet far bs 0 [], reply,
      (jobs_of_reply after).trans (writeMem_parts s _ bs .jobs (by decide))⟩

end Sys2Proof.Machine

/-! PROOFS. The doorbell and the loading of a plan (spec/08_job_plans.md R236, R237, R242; 11_switch_core.md R312; 14_failure_survival.md
R380; 22_companion_link.md R540, R542): how the command ring goes on from rest, and where an admitted plan is laid. -/
namespace Sys2Proof.Machine

open Sys2Proof

/-! ## HOST_DOORBELL (R540, R542) -/

/-- PRODUCER is to be read. -/
def State.askRing (s : State) : State := s.mapHost fun h => { h with phase := .producer }

theorem exec_hostDoorbell {s : State} (core : s.power.core = true) (ready : s.windowReady = true) (idle : s.host.phase = .idle) :
    exec .hostDoorbell s = .next s.askRing.cmdGo := by
  change execHostDoorbell s = _
  simp [execHostDoorbell, core, ready, State.doorbell, idle, State.askRing]

/-- The entry at CONSUMER. -/
def State.ringEntry (s : State) : List Byte :=
  s.readMem (ringsBase + 0x20000 + (s.ringConsumer commandRing % 4096) * 128) 128

/-- The entry at CONSUMER is taken, and CONSUMER advances. -/
def State.takeCommand (s : State) : State :=
  (s.writeMem (commandRing.base + 64) (leBytes 4 ((s.ringConsumer commandRing + 1) % 8192))).mapHost
    fun h => { h with phase := .taken, cmd := s.ringEntry }

theorem takeCommand_parts (s : State) : onlyParts [.mem, .memory, .host] s s.takeCommand :=
  onlyParts_trans (onlyParts_mono (writeMem_parts s _ _) (by decide)) (onlyParts_mono (mapHost_parts _ _) (by decide))

/-- CONSUMER as it is read back. -/
theorem readMem_takeCommand (s : State) :
    s.takeCommand.readMem (commandRing.base + 64) 4 = leBytes 4 ((s.ringConsumer commandRing + 1) % 8192) := by
  have written := readMem_writeMem s (commandRing.base + 64) (leBytes 4 ((s.ringConsumer commandRing + 1) % 8192))
  rwa [length_leBytes] at written

section
variable {s : State}

/-- A job as its restore begins. -/
def Job.restores (j : Job) : Job := { j with restoring := true }

/-- A restore begins: the job's frames draw NACK BUSY (R380). -/
def State.restoreStarted (s : State) (id : BitVec 12) : State :=
  (s.mapJob id Job.restores).setFlag F.SAVE_STATUS_RESTORE_BUSY 0 true

theorem restoreBegins_not {id : BitVec 12} (h : s.saveBusy = true ∨ s.job? id = none) : s.restoreBegins id = s := by
  rcases h with h | h
  · rw [State.saveBusy, Bool.or_eq_true] at h
    rcases h with h | h <;> simp [State.restoreBegins, h]
  · simp [State.restoreBegins, h]

theorem restoreBegins_live {id : BitVec 12} {j : Job} (idle : s.saveBusy = false) (job : s.job? id = some j) :
    s.restoreBegins id = s.restoreStarted id := by
  rw [State.saveBusy, Bool.or_eq_false_iff] at idle
  rw [State.restoreBegins, job, idle.1, idle.2]
  rfl

theorem restoreStarted_parts (s : State) (id : BitVec 12) : onlyParts [.jobs, .regs] s (s.restoreStarted id) :=
  onlyParts_trans (onlyParts_mono (mapJob_parts s id _) (by decide)) (onlyParts_mono (setFld_parts _ _ _ _) (by decide))

theorem restoreStarted_busy (s : State) (id : BitVec 12) : (s.restoreStarted id).flag F.SAVE_STATUS_RESTORE_BUSY 0 = true :=
  flag_setFlag _ _ _ _ (by decide)

theorem restoreStarted_job {j : Job} (job : s.job? j.id = some j) : (s.restoreStarted j.id).job? j.id = some j.restores := by
  have jobs : (s.restoreStarted j.id).jobs = (s.mapJob j.id Job.restores).jobs := setFld_parts _ _ _ _ .jobs (by decide)
  rw [job?_of_jobs jobs, job?_mapJob s j.id Job.restores fun _ => rfl, job, Option.map_some]

variable (empty : s.host.filter = [])
include empty

/-- Taking an entry, in its two steps. -/
theorem takeEntry_eq (low : 1 ≤ leAt s.ringEntry 0 2) (high : leAt s.ringEntry 0 2 ≤ 6) : s.takeEntry =
    if leAt s.ringEntry 0 2 = 4 then s.takeCommand.restoreBegins (BitVec.ofNat 12 (leAt s.ringEntry 2 2 / 16)) else s.takeCommand := by
  have taken : s.takeCommand = (s.windowWrite (commandRing.base + 64) (leBytes 4 ((s.ringConsumer commandRing + 1) % 8192))).mapHost
      fun h => { h with phase := .taken, cmd := s.ringEntry } := by
    rw [windowWrite_uncached empty, State.takeCommand]
  rw [taken]
  unfold State.takeEntry
  exact ite_congr rfl (fun _ => rfl) fun _ => if_pos ⟨low, high⟩

/-- An entry that begins no restore. -/
theorem takeEntry_plain (low : 1 ≤ leAt s.ringEntry 0 2) (high : leAt s.ringEntry 0 2 ≤ 6)
    (plain : leAt s.ringEntry 0 2 = 4 → s.saveBusy = true ∨ s.job? (BitVec.ofNat 12 (leAt s.ringEntry 2 2 / 16)) = none) :
    s.takeEntry = s.takeCommand := by
  rw [takeEntry_eq empty low high]
  split
  · rename_i restore
    exact restoreBegins_not (s := s.takeCommand) (plain restore)
  · rfl

/-- An entry that begins the restore of a live job. -/
theorem takeEntry_restore {j : Job} (op : leAt s.ringEntry 0 2 = 4) (idle : s.saveBusy = false)
    (job : s.job? (BitVec.ofNat 12 (leAt s.ringEntry 2 2 / 16)) = some j) : s.takeEntry = s.takeCommand.restoreStarted j.id := by
  rw [takeEntry_eq empty (by omega) (by omega), if_pos op, job?_id job]
  exact restoreBegins_live (s := s.takeCommand) idle job

variable (ready : s.windowReady = true) (still : s.host.snoops = [])
include ready still

theorem cmdGo_asked : s.askRing.cmdGo = s.askRing.readRing.cmdRun 8199 := by
  rw [State.cmdGo]
  exact (if_pos ready).trans (cmdRun_step (cmdStep_reads (s := s.askRing) empty still rfl) 8199)

/-- With nothing new the ring rests again. -/
theorem cmdGo_asked_rests (same : s.ringConsumer commandRing = s.ringProducer commandRing) :
    s.askRing.cmdGo = s.askRing.readRing.restRing := by
  rw [cmdGo_asked empty ready still, cmdRun_step (cmdStep_rests (s := s.askRing.readRing) rfl same) 8198]
  exact cmdRun_stands 8198 (.inl rfl)

/-- With a new entry and room for its reply, the entry is taken. -/
theorem cmdGo_asked_takes (more : s.ringConsumer commandRing ≠ s.ringProducer commandRing)
    (room : s.ringFull replyRing.ref (zeros 32) = false) {t : State} (taken : s.askRing.readRing.takeEntry = t)
    (phase : t.host.phase = .taken) : s.askRing.cmdGo = t := by
  rw [cmdGo_asked empty ready still, cmdRun_step (cmdStep_takes (s := s.askRing.readRing) empty still rfl more room) 8198, taken]
  exact cmdRun_stands 8198 (.inr phase)

end

theorem readRing_parts (s : State) : onlyParts [.host] s s.askRing.readRing :=
  onlyParts_trans (mapHost_parts s _) (mapHost_parts _ _)

/-! ## Admission replies (R237, R312) -/

/-- A register of the admission unit. -/
def admitReg (n : RegName) : Bool := n == .ADMIT_STATUS || n == .ADMIT_LAST_REFUSAL || n == .ADMIT_COUNTS

theorem belowStacks_of_admit {n : RegName} (h : admitReg n = true) : belowStacks (regAddr n 0) := by
  simp only [admitReg, Bool.or_eq_true, beq_iff_eq] at h
  rcases h with (rfl | rfl) | rfl
  · exact (by decide : regAddr .ADMIT_STATUS 0 < 0x30000000)
  · exact (by decide : regAddr .ADMIT_LAST_REFUSAL 0 < 0x30000000)
  · exact (by decide : regAddr .ADMIT_COUNTS 0 < 0x30000000)

theorem setAdmit_touches (s : State) {f : Fld} (v : Nat) (h : admitReg f.reg = true) :
    Touches [.regs] belowStacks s (s.setFld f 0 v) := setFld_touches s f 0 v (belowStacks_of_admit h)

theorem countAdmission_touches (s : State) (id : BitVec 12) (code : Nat) :
    Touches [.regs] belowStacks s (s.countAdmission id code) := by
  have status := setAdmit_touches s (f := F.ADMIT_STATUS_LAST_CODE) code rfl
  unfold State.countAdmission
  dsimp only
  split
  · exact status.trans (setAdmit_touches _ _ rfl)
  · exact ((status.trans (setAdmit_touches _ _ rfl)).trans (setAdmit_touches _ _ rfl)).trans (setAdmit_touches _ _ rfl)

/-- An admission is counted under code 0. -/
theorem countAdmission_admits (s : State) (id : BitVec 12) : (s.countAdmission id 0).fld F.ADMIT_STATUS_LAST_CODE 0 = 0
    ∧ (s.countAdmission id 0).fld F.ADMIT_COUNTS_ADMISSIONS 0
      = satAdd F.ADMIT_COUNTS_ADMISSIONS.width (s.fld F.ADMIT_COUNTS_ADMISSIONS 0) 1 := by
  have e : s.countAdmission id 0 = (s.setFld F.ADMIT_STATUS_LAST_CODE 0 0).bump F.ADMIT_COUNTS_ADMISSIONS 0 := rfl
  rw [e, fld_bump _ _ _ (by decide), fld_setFld_ne _ _ _ _ _ _ (by decide)]
  refine ⟨?_, rfl⟩
  rw [State.bump, State.bumpBy, fld_setFld_ne _ _ _ _ _ _ (by decide), fld_setFld _ _ _ _ (by decide), Nat.zero_mod]

/-- A refusal is counted. -/
theorem countAdmission_refuses (s : State) (id : BitVec 12) {code : Nat} (bad : code ≠ 0) :
    (s.countAdmission id code).fld F.ADMIT_COUNTS_REFUSALS 0
      = satAdd F.ADMIT_COUNTS_REFUSALS.width (s.fld F.ADMIT_COUNTS_REFUSALS 0) 1 := by
  rw [State.countAdmission, if_neg bad, fld_bump _ _ _ (by decide), fld_setFld_ne _ _ _ _ _ _ (by decide),
    fld_setFld_ne _ _ _ _ _ _ (by decide), fld_setFld_ne _ _ _ _ _ _ (by decide)]

/-- The admission registers are not those that a reply touches. -/
theorem admit_of_reply {s t : State} (a : Touches giveParts eventAddr s t) (f : Fld) (own : admitReg f.reg = true) :
    t.fld f 0 = s.fld f 0 := by
  refine a.regs.fld f 0 fun h => ?_
  simp only [admitReg, Bool.or_eq_true, beq_iff_eq] at own
  rcases own with (e | e) | e <;> rw [e] at h <;> revert h <;> unfold eventAddr <;> decide

/-- A job that has been admitted. -/
def Job.admits (j : Job) : Job := { j with admitted := true }

/-- This switch's index in the layout that a load brought. -/
def Job.loadedSelf (j : Job) : Nat := match j.next with | some n => n.self | none => j.cur.self

/-- A job is admitted, and counted. -/
def State.admitJob (s : State) (j : Job) : State := (s.mapJob j.id Job.admits).countAdmission j.id 0

theorem admitJob_keeps (s : State) (j : Job) : KeepsRings s (s.admitJob j) :=
  (mapJob_keeps s j.id _).trans (.of_regs (countAdmission_touches _ j.id 0))

theorem admitJob_parts (s : State) (j : Job) : onlyParts [.jobs, .regs] s (s.admitJob j) :=
  onlyParts_trans (onlyParts_mono (mapJob_parts s j.id _) (by decide)) (onlyParts_mono (countAdmission_touches _ j.id 0).parts (by decide))

theorem admitJob_jobs (s : State) (j : Job) : (s.admitJob j).jobs = (s.mapJob j.id Job.admits).jobs :=
  (countAdmission_touches _ j.id 0).parts .jobs (by decide)

section
variable {s : State} {id : BitVec 12} {j : Job} (job : s.job? id = some j)
include job

theorem tryAdmitted_waits (short : s.quotasCovered = false) : s.tryAdmitted id = s := by
  simp [State.tryAdmitted, job, short]

/-- ADMITTED is replied once the quotas are covered. -/
theorem tryAdmitted_covered (waits : j.admitted = false) (covered : s.quotasCovered = true) :
    s.tryAdmitted id = (s.admitJob j).finish 0 (admissionBytes 0 j.loadedSelf 0 0 0) := by
  rw [State.tryAdmitted, job]
  exact if_pos (by rw [waits, covered]; rfl)

theorem admitJob_job : (s.admitJob j).job? id = some j.admits := by
  have own := job?_id job
  subst own
  rw [job?_of_jobs (admitJob_jobs s j), job?_mapJob s j.id Job.admits fun _ => rfl, job, Option.map_some]

end

/-! ## LOAD and ADMISSION_REPLY_DEFERRED (R236, R312) -/

theorem exec_load {s : State} (held : s.holds 1 = true) (settled : s.replyOwed = false) (work : s.workStops = false) :
    exec .load s = .next (s.withBuffer State.loadPlan) := by
  change execLoad s = _
  simp [execLoad, held, settled, work]

theorem exec_admissionReplyDeferred {s : State} (held : s.holds 1 = true) (id : BitVec 12) :
    exec (.admissionReplyDeferred id) s = .next (s.tryAdmitted id) := by
  change execAdmissionReplyDeferred id s = _
  simp [execAdmissionReplyDeferred, held]

theorem loadPlan_refused {s : State} {bs : List Byte} {sw : Nat} {r : Refuse} (verdict : s.judgePlan bs = .refused sw r) :
    s.loadPlan bs = (s.countAdmission (parsePlan bs).job r.code).finish 0 (admissionBytes r.code sw r.detail r.needed r.available) := by
  rw [State.loadPlan, verdict]

theorem loadPlan_passed {s : State} {bs : List Byte} {p : Plan} {self : Nat} (verdict : s.judgePlan bs = .passed p self) :
    s.loadPlan bs = (s.admitPlan p self).tryAdmitted p.job := by
  rw [State.loadPlan, verdict]

/-- A change of one job leaves the others. -/
theorem job?_mapJob_ne {s : State} {id e : BitVec 12} {g : Job → Job} (keeps : ∀ j, (g j).id = j.id) (other : e ≠ id) :
    (s.mapJob id g).job? e = s.job? e := by
  have test : ((fun j : Job => j.id == e) ∘ fun j => if j.id = id then g j else j) = fun j => j.id == e := by
    funext j
    rw [Function.comp_apply]
    split
    · rw [keeps]
    · rfl
  rw [State.job?, State.mapJob, List.find?_map, test, ← State.job?]
  cases job : s.job? e with
  | none => rfl
  | some j => rw [Option.map_some, if_neg fun own => other ((job?_id job).symm.trans own)]

/-- A job whose load waits for its reply is admitted where the quotas are covered; the rest is as it was. -/
theorem tryAdmitted_effect {s u : State} (kept : KeepsRings s u) (quiet : s.ringQuiet) {id : BitVec 12} {j : Job}
    (job : u.job? id = some j) (waits : j.admitted = false) :
    (u.tryAdmitted id).job? id = some { j with admitted := u.quotasCovered }
      ∧ (∀ e, e ≠ id → (u.tryAdmitted id).job? e = u.job? e) ∧ (u.tryAdmitted id).landings = u.landings
      ∧ (u.tryAdmitted id).ctxs = u.ctxs := by
  cases covered : u.quotasCovered with
  | false =>
    rw [tryAdmitted_waits job covered, ← waits]
    exact ⟨job, fun _ _ => rfl, rfl, rfl⟩
  | true =>
    rw [tryAdmitted_covered job waits covered]
    have admitted := admitJob_parts u j
    obtain ⟨-, after⟩ := finish_after (kept.trans (admitJob_keeps u j)) quiet 0 (admissionBytes 0 j.loadedSelf 0 0 0)
    have jobs (e : BitVec 12) := job?_of_jobs (jobs_of_reply after) e
    refine ⟨(jobs id).trans (admitJob_job job), fun e other => ?_, (landings_of_reply after).trans (admitted .landings (by decide)),
      (after.parts .ctxs (by decide)).trans (admitted .ctxs (by decide))⟩
    exact (jobs e).trans ((job?_of_jobs (admitJob_jobs u j) e).trans
      (job?_mapJob_ne (g := Job.admits) (fun _ => rfl) (job?_id job ▸ other)))

/-! ## Where an admitted plan is laid (R235, R236, R429) -/

/-- A plan that passes has a place for its ring region. -/
theorem placeRings_of_passed {s : State} {bs : List Byte} {p : Plan} {self : Nat} (verdict : s.judgePlan bs = .passed p self) :
    (s.placeRings p.job (s.needsOf p self).completion).isSome = true := by
  have fits : s.resRefusal p (s.needsOf p self) (s.quotasOf p self) = none := by
    unfold State.judgePlan at verdict
    dsimp only at verdict
    repeat' split at verdict
    all_goals cases verdict
    assumption
  have check : ∃ c ∈ s.resChecks p (s.needsOf p self) (s.quotasOf p self), c.code = 0x020C :=
    ⟨_, List.mem_append_right _ (List.mem_of_getElem? (i := 7) rfl), rfl⟩
  obtain ⟨c, mem, code⟩ := check
  rw [State.resRefusal, Option.map_eq_none_iff, List.find?_eq_none] at fits
  have placed : s.placeable p (s.needsOf p self) c = true := by
    have kept := fits c mem
    simp only [Bool.or_eq_true, Bool.not_eq_true', not_or, Bool.not_eq_false] at kept
    exact kept.2
  simpa only [State.placeable, code] using placed

theorem placeRings_far {s : State} {id : BitVec 12} {n : Nat} (h : (s.placeRings id n).isSome = true) :
    ringsBase + stagingStart ≤ (s.placeRings id n).getD 0 := by
  obtain ⟨a, placed⟩ := Option.isSome_iff_exists.mp h
  rw [placed, Option.getD_some]
  obtain ⟨b, -, rfl⟩ := Option.map_eq_some_iff.mp placed
  exact Nat.le_add_right_of_le (Nat.add_le_add_left (by decide) ringsBase)

/-- The partitions of the ledger and of error memory lie behind the rings of a window of 4 GiB or more. -/
theorem takeRegions_far {s : State} (gib : 4 ≤ s.image.ringsGib) {part : Nat} (which : part = 4 ∨ part = 5) (need : Nat) :
    ∀ r ∈ s.takeRegions part need, ringsBase + stagingStart ≤ r.base := by
  have base : 6272 + 4096 ≤ s.partBase part := by
    rcases which with rfl | rfl <;> simp [State.partBase, State.partSizes, sumN] <;> omega
  have below : ringsBase + stagingStart ≤ (6272 + 4096) * 2 ^ 20 := by decide
  intro r hr
  obtain ⟨g, -, rfl⟩ := List.mem_map.mp hr
  exact Nat.le_add_right_of_le (below.trans (Nat.mul_le_mul_right _ base))

theorem sumN_cons (n : Nat) (l : List Nat) : sumN (n :: l) = n + sumN l := by
  rw [sumN, sumN, ← List.sum_eq_foldl, ← List.sum_eq_foldl, List.sum_cons]

/-- A place within the space of a partition lies in one of its runs. -/
theorem partByte_far {part lo : Nat} : ∀ {rs : List MemRegion} {i : Nat}, (∀ r ∈ rs, r.part = part → lo ≤ r.base) →
    i < partBytes part rs → lo ≤ partByte part rs i
  | [], i, _, inside => absurd inside (by simp [partBytes, sumN])
  | r :: rs, i, far, inside => by
    have rest (k : Nat) (h : k < partBytes part rs) : lo ≤ partByte part rs k :=
      partByte_far (fun x hx => far x (List.mem_cons_of_mem _ hx)) h
    rw [partByte]
    by_cases own : r.part = part
    · have bytes : partBytes part (r :: rs) = r.bytes + partBytes part rs := by
        rw [partBytes, partBytes, List.filter_cons_of_pos (by simpa using own), List.map_cons, sumN_cons]
      simp only [own, bne_self_eq_false, Bool.false_eq_true, if_false]
      split
      · exact Nat.le_add_right_of_le (far r List.mem_cons_self own)
      · exact rest _ (by omega)
    · have bytes : partBytes part (r :: rs) = partBytes part rs := by simp [partBytes, own]
      simp only [own, bne_iff_ne, ne_eq, not_false_eq_true, if_true]
      exact rest i (bytes ▸ inside)

/-- The rings of a region behind a place. -/
def JobRings.behind (r : JobRings) (lo : Nat) : Prop := lo ≤ r.completion.base ∧ lo ≤ r.statistics.base ∧ lo ≤ r.events.base

theorem ofRegion_from {lo base : Nat} (h : lo ≤ base) (entries : Nat) : (JobRings.ofRegion base entries).behind lo :=
  ⟨h, h.trans (Nat.le_add_right _ _), h.trans (Nat.le_add_right _ _)⟩

/-- The ring region of a plan that passes for a new job. -/
theorem layoutFor_rings {s : State} {bs : List Byte} {p : Plan} {self : Nat} (verdict : s.judgePlan bs = .passed p self)
    (gone : s.job? p.job = none) : (s.layoutFor p self).jrings.behind (ringsBase + stagingStart) := by
  have placed := placeRings_far (placeRings_of_passed verdict)
  have rings : (s.layoutFor p self).jrings =
      JobRings.ofRegion ((s.placeRings p.job (s.needsOf p self).completion).getD 0) (p.reserveAt self).completion := by
    simp [State.layoutFor, gone]
  exact rings ▸ ofRegion_from placed _

/-! ## What the reserving of a plan leaves alone (R188, R430, R538) -/

theorem ringInit_far (s : State) {r : RingRef} (far : ringsBase + stagingStart ≤ r.base) : KeepsRings s (s.ringInit r) :=
  (writeMem_far s _ far).trans (writeMem_far _ _ (Nat.le_add_right_of_le far))

section
variable {s : State} (empty : s.host.filter = [])
include empty

theorem zeroRegions_keeps {rs : List MemRegion} (far : ∀ r ∈ rs, ringsBase + stagingStart ≤ r.base) :
    KeepsRings s (rs.foldl (fun s r => s.zeroMem r.base r.bytes) s) :=
  KeepsRings.foldl _ rs empty fun s r hr _ => zeroMem_far s r.bytes (far r hr)

theorem initRings_keeps {r : JobRings} (far : r.behind (ringsBase + stagingStart)) : KeepsRings s (s.initRings r) := by
  obtain ⟨completion, statistics, events⟩ := far
  have zeroed : KeepsRings s (s.windowZero r.completion.base (ringRegionBytes r.completion.entries)) := by
    rw [windowZero_uncached empty]
    exact zeroMem_far s _ completion
  have first := zeroed.trans (ringInit_far _ completion)
  have second := first.trans (ringInit_far _ statistics)
  exact second.trans (ringInit_far _ events)

theorem writePart_keeps {part : Nat} {rs : List MemRegion} (far : ∀ r ∈ rs, r.part = part → ringsBase + stagingStart ≤ r.base)
    (off : Nat) (bs : List Byte) : KeepsRings s (s.writePart part rs off bs) := by
  refine KeepsRings.foldl _ _ empty fun s i _ _ => ?_
  split
  · rename_i inside
    exact writeMem_far s _ (partByte_far far inside)
  · exact .refl s

variable {id : BitVec 12} {j : Job} (job : s.job? id = some j)
  (far : ∀ r ∈ j.regions, r.part = 5 → ringsBase + stagingStart ≤ r.base)
include job far

theorem syncErrs_keeps (old : List ErrRegion) : KeepsRings s (s.syncErrs id old) := by
  rw [State.syncErrs, job]
  exact KeepsRings.foldl _ _ empty fun s r _ empty => KeepsRings.foldl _ _ empty fun s x _ empty => writePart_keeps empty far _ _

theorem startErrs_keeps : KeepsRings s (s.startErrs id) := by
  have zeroed := zeroRegions_keeps (rs := j.regions.filter (·.part == 5)) empty fun r hr => by
    obtain ⟨mem, part⟩ := List.mem_filter.mp hr
    exact far r mem (by simpa using part)
  have parts : onlyParts [.mem, .memory] s ((j.regions.filter (·.part == 5)).foldl (fun s r => s.zeroMem r.base r.bytes) s) :=
    onlyParts_foldl _ (fun s r => zeroMem_parts s _ _) _ s
  rw [State.startErrs, job]
  exact zeroed.trans (syncErrs_keeps (zeroed.filter.trans empty) ((job?_of_jobs (parts .jobs (by decide)) id).trans job) far [])

end

/-- What is reserved of the partitions for a new job: its ring region, and runs behind the rings. -/
theorem reserveParts_effect {s : State} (empty : s.host.filter = []) (gib : 4 ≤ s.image.ringsGib) (l : Layout) (held : Needs) :
    KeepsRings s (s.reserveParts l held []).2 ∧ onlyParts [.mem, .memory] s (s.reserveParts l held []).2
      ∧ ∀ r ∈ (s.reserveParts l held []).1, r.part = 5 → ringsBase + stagingStart ≤ r.base := by
  have ledger := takeRegions_far gib (.inl rfl) (l.needs.ledger - held.ledger)
  have errors := takeRegions_far gib (.inr rfl) (l.needs.errCap - held.errCap)
  refine ⟨zeroRegions_keeps empty fun r hr => (List.mem_append.mp hr).elim (ledger r) (errors r),
    onlyParts_foldl _ (fun s r => zeroMem_parts s _ _) _ s, fun r hr part => ?_⟩
  rcases List.mem_append.mp hr with hr | hr
  · rcases List.mem_append.mp hr with hr | hr
    · have ring : r.part = 3 := by
        rw [Layout.withRing] at hr
        simp only [List.filter_nil, List.nil_append, List.mem_singleton] at hr
        rw [hr]
      omega
    · exact ledger r hr
  · exact errors r hr

theorem reserveLanding_parts (s : State) (l : Layout) (reshard : Bool) : onlyParts [.landings] s (s.reserveLanding l reshard) := by
  unfold State.reserveLanding
  dsimp only
  split
  · exact fun p hp => by
      cases p
      case landings => exact absurd (by decide) hp
      all_goals rfl
  · exact fun p hp => by
      cases p
      case landings => exact absurd (by decide) hp
      all_goals rfl

theorem landing?_job {s : State} {id : BitVec 12} {x : Landing} (here : s.landing? id = some x) : x.job = id := by
  simpa using List.find?_some here

/-- A landing that is replaced by one of its job is there still. -/
theorem landing?_mapLanding {s : State} {id : BitVec 12} {x : Landing} (here : s.landing? id = some x) {g : Landing → Landing}
    (own : (g x).job = id) : ((s.mapLanding id g).landing? id).isSome = true := by
  rw [State.landing?, List.find?_isSome]
  exact ⟨g x, List.mem_map.mpr ⟨x, List.mem_of_find?_eq_some here, if_pos (landing?_job here)⟩, beq_iff_eq.mpr own⟩

/-- The job has a landing. -/
theorem landing?_reserveLanding (s : State) (l : Layout) (reshard : Bool) :
    ((s.reserveLanding l reshard).landing? l.plan.job).isSome = true := by
  unfold State.reserveLanding
  dsimp only
  split
  · rename_i x here
    have own := landing?_job here
    exact landing?_mapLanding here own
  · rw [State.landing?, List.find?_isSome]
    exact ⟨_, List.mem_append_right _ (List.mem_singleton_self _), beq_self_eq_true _⟩

/-! ## The plan of a new job is admitted (R235) -/

/-- A job joins the list. -/
def State.addJob (s : State) (j : Job) : State := { s with jobs := s.jobs ++ [j] }

theorem addJob_parts (s : State) (j : Job) : onlyParts [.jobs] s (s.addJob j) := fun p hp => by
  cases p
  case jobs => exact absurd (by decide) hp
  all_goals rfl

theorem job?_addJob {s : State} {j : Job} (gone : s.job? j.id = none) : (s.addJob j).job? j.id = some j := by
  rw [State.job?] at gone
  simp [State.job?, State.addJob, List.find?_append, gone]

theorem job?_addJob_ne (s : State) {j : Job} {id : BitVec 12} (other : id ≠ j.id) : (s.addJob j).job? id = s.job? id := by
  simp [State.job?, State.addJob, List.find?_append, other.symm]

/-- The job that the load of a plan makes. -/
def State.newJob (s : State) (p : Plan) (self : Nat) : Job :=
  Job.fresh (s.layoutFor p self) (s.reserveParts (s.layoutFor p self) (Layout.bare p self).needs []).1

/-- The state with what a new job is given in the partitions and in landing. -/
def State.newSpace (s : State) (p : Plan) (self : Nat) : State :=
  (s.reserveParts (s.layoutFor p self) (Layout.bare p self).needs []).2.reserveLanding (s.layoutFor p self) false

section
variable {s : State} {p : Plan} {self : Nat} (gone : s.job? p.job = none)
include gone

/-- A new job's load: what it is given, then its error memory, its rings and its entry of the directory. -/
theorem admitPlan_eq : s.admitPlan p self =
    ((((s.newSpace p self).addJob (s.newJob p self)).startErrs p.job).initRings (s.layoutFor p self).jrings).directory p.job
      (some (p.gen, (s.layoutFor p self).jrings)) := by
  rw [State.admitPlan, gone]
  rfl

theorem admitPlan_written : onlyParts [.mem, .memory, .host] ((s.newSpace p self).addJob (s.newJob p self)) (s.admitPlan p self) := by
  rw [admitPlan_eq gone]
  exact onlyParts_trans (onlyParts_trans (onlyParts_mono (startErrs_parts _ _) (by decide)) (initRings_parts _ _))
    (directory_parts _ _ _)

omit gone in
/-- What a new job is given: its landing; the rings are left alone. -/
theorem newSpace_effect (empty : s.host.filter = []) (gib : 4 ≤ s.image.ringsGib) : KeepsRings s (s.newSpace p self)
    ∧ onlyParts [.mem, .memory, .landings] s (s.newSpace p self) ∧ ((s.newSpace p self).landing? p.job).isSome = true
    ∧ ∀ r ∈ (s.newJob p self).regions, r.part = 5 → ringsBase + stagingStart ≤ r.base := by
  obtain ⟨zeroed, parts, far⟩ := reserveParts_effect empty gib (s.layoutFor p self) (Layout.bare p self).needs
  have landed := reserveLanding_parts (s.reserveParts (s.layoutFor p self) (Layout.bare p self).needs []).2 (s.layoutFor p self) false
  exact ⟨zeroed.trans (.of_parts landed (by decide)),
    onlyParts_trans (onlyParts_mono parts (by decide)) (onlyParts_mono landed (by decide)),
    landing?_reserveLanding _ (s.layoutFor p self) false, far⟩

/-- The load of a new job's plan: the job, its landing, the others and the contexts as they were; the rings are left alone. -/
theorem admitPlan_effect (empty : s.host.filter = []) (gib : 4 ≤ s.image.ringsGib)
    (rings : (s.layoutFor p self).jrings.behind (ringsBase + stagingStart)) :
    KeepsRings s (s.admitPlan p self) ∧ (s.admitPlan p self).job? p.job = some (s.newJob p self)
      ∧ (∀ id, id ≠ p.job → (s.admitPlan p self).job? id = s.job? id) ∧ ((s.admitPlan p self).landing? p.job).isSome = true
      ∧ (s.admitPlan p self).ctxs = s.ctxs := by
  obtain ⟨given, parts, landing, far⟩ := newSpace_effect empty gib (p := p) (self := self)
  have written := admitPlan_written gone (self := self)
  rw [admitPlan_eq gone] at written ⊢
  generalize s.newSpace p self = u at *
  have own : (s.newJob p self).id = p.job := rfl
  have before (id : BitVec 12) := job?_of_jobs (parts .jobs (by decide)) id
  have job : (u.addJob (s.newJob p self)).job? p.job = some (s.newJob p self) :=
    own ▸ job?_addJob ((before _).trans (own ▸ gone))
  have others (id : BitVec 12) (other : id ≠ p.job) : (u.addJob (s.newJob p self)).job? id = s.job? id :=
    (job?_addJob_ne u (own.symm ▸ other)).trans (before id)
  have added := given.trans (.of_parts (addJob_parts u (s.newJob p self)) (by decide))
  have started := added.trans (startErrs_keeps (added.filter.trans empty) job far)
  have headed := started.trans (initRings_keeps (started.filter.trans empty) rings)
  have jobs (id : BitVec 12) := job?_of_jobs (written .jobs (by decide)) id
  exact ⟨headed.trans (directory_keeps (headed.filter.trans empty) p.job _), (jobs p.job).trans job,
    fun id other => (jobs id).trans (others id other),
    (congrArg Option.isSome (landing?_of_landings (written .landings (by decide)) p.job)).trans landing,
    (written .ctxs (by decide)).trans (parts .ctxs (by decide))⟩

end

/-! ## O52 -/

/-- Settles O52: the command ring goes from rest through PRODUCER to the entry that is taken; a load leaves the two rings alone, so
that its reply is in the reply ring and no further entry is taken. -/
theorem commandRingAndPlans : Obligations.CommandRingAndPlans := by
  refine ⟨?_, ?_⟩
  · intro s c core ready idle empty still here entry
    subst here
    have asked := exec_hostDoorbell core ready idle
    refine ⟨fun same => ?_, fun more room low high plain => ?_, fun j more room op free job => ?_⟩
    · exact ⟨_, asked.trans (congrArg _ (cmdGo_asked_rests empty ready still same)), rfl, rfl,
        onlyParts_trans (readRing_parts s) (mapHost_parts _ _)⟩
    · have taken : s.askRing.readRing.takeEntry = s.askRing.readRing.takeCommand :=
        takeEntry_plain (s := s.askRing.readRing) empty low high plain
      exact ⟨_, asked.trans (congrArg _ (cmdGo_asked_takes empty ready still more room taken rfl)), rfl, rfl,
        readMem_takeCommand s.askRing.readRing,
        onlyParts_trans (onlyParts_mono (readRing_parts s) (by decide)) (takeCommand_parts _)⟩
    · have taken := takeEntry_restore (s := s.askRing.readRing) empty op free job
      have begun := restoreStarted_parts s.askRing.readRing.takeCommand j.id
      have before : s.askRing.readRing.takeCommand.job? j.id = some j := (job?_id job).symm ▸ job
      have host : (s.askRing.readRing.takeCommand.restoreStarted j.id).host = s.askRing.readRing.takeCommand.host :=
        begun .host (by decide)
      have cmd : s.askRing.readRing.takeCommand.host.cmd = entry := rfl
      have phase : (s.askRing.readRing.takeCommand.restoreStarted j.id).host.phase = .taken := congrArg HostSt.phase host
      exact ⟨_, asked.trans (congrArg _ (cmdGo_asked_takes empty ready still more room taken phase)), phase,
        (congrArg HostSt.cmd host).trans cmd, restoreStarted_busy _ j.id, ⟨_, restoreStarted_job before, rfl⟩,
        onlyParts_trans (onlyParts_mono (readRing_parts s) (by decide))
          (onlyParts_trans (onlyParts_mono (takeCommand_parts _) (by decide)) (onlyParts_mono begun (by decide)))⟩
  · intro s held work quiet gib
    have replies {u : State} (kept : KeepsRings s u) (status : Nat) (detail : List Byte) := finish_after kept quiet status detail
    refine ⟨fun settled bad => ?_, fun sw r settled good verdict => ?_, fun p self settled good verdict gone => ?_,
      fun id j job waits => ⟨fun short => ?_, fun covered => ?_⟩⟩
    · obtain ⟨reply, kept⟩ := replies (.refl s) 3 []
      exact ⟨_, (exec_load held settled work).trans (congrArg _ (withBuffer_bad bad _)), reply, jobs_of_reply kept⟩
    · have counted := countAdmission_touches s (parsePlan (s.readMem s.bufferMa s.cmdBytes)).job r.code
      obtain ⟨reply, after⟩ := replies (.of_regs counted) 0 (admissionBytes r.code sw r.detail r.needed r.available)
      exact ⟨_, (exec_load held settled work).trans (congrArg _ ((withBuffer_good quiet good _).trans (loadPlan_refused verdict))),
        reply, (jobs_of_reply after).trans (counted.parts .jobs (by decide)),
        (landings_of_reply after).trans (counted.parts .landings (by decide)),
        (after.parts .ctxs (by decide)).trans (counted.parts .ctxs (by decide)), fun bad =>
        (admit_of_reply after F.ADMIT_COUNTS_REFUSALS rfl).trans (countAdmission_refuses s _ bad)⟩
    · obtain ⟨kept, job, others, landing, ctxs⟩ := admitPlan_effect gone quiet.empty gib (layoutFor_rings verdict gone)
      have loaded := (exec_load held settled work).trans
        (congrArg _ ((withBuffer_good quiet good _).trans (loadPlan_passed verdict)))
      obtain ⟨jobNow, othersNow, landingsNow, ctxsNow⟩ := tryAdmitted_effect kept quiet job rfl
      refine ⟨_, loaded, ⟨_, jobNow, rfl, rfl, rfl, rfl, rfl⟩, ?_, fun id other => (othersNow id other).trans (others id other),
        ctxsNow.trans ctxs⟩
      rw [landing?_of_landings landingsNow]
      exact Option.isSome_iff_exists.mp landing
    · exact ⟨_, (exec_admissionReplyDeferred held id).trans (congrArg _ (tryAdmitted_waits job short)), rfl⟩
    · obtain ⟨reply, after⟩ := replies (admitJob_keeps s j) 0 (admissionBytes 0 j.loadedSelf 0 0 0)
      obtain ⟨code, count⟩ := countAdmission_admits (s.mapJob j.id Job.admits) j.id
      exact ⟨_, (exec_admissionReplyDeferred held id).trans (congrArg _ (tryAdmitted_covered job waits covered)),
        ⟨_, (job?_of_jobs (jobs_of_reply after) id).trans (admitJob_job job), rfl, rfl⟩,
        (admit_of_reply after F.ADMIT_STATUS_LAST_CODE rfl).trans code,
        (admit_of_reply after F.ADMIT_COUNTS_ADMISSIONS rfl).trans count, reply⟩

end Sys2Proof.Machine

/-! PROOFS. Copies that leave the packet buffer, and pauses (spec/09_belfry_and_time.md R267; 11_switch_core.md R296, R314;
16_serial_lanes.md R406): what a discarded copy leaves in the queues, the return of a frame from an extension ring, and the
PAUSE blocks of a port. -/
namespace Sys2Proof.Machine

open Sys2Proof

/-! ## Copies leave, and others come from where they wait (R294, R306) -/

/-- Nothing is queued that was not queued or waiting, nothing comes to wait, and the count of R267 stays. -/
structure NoNewCopies (s t : State) : Prop where
  drops : t.core.dwellDrops = s.core.dwellDrops
  came : ∀ y ∈ t.core.copies, ∃ x ∈ s.allCopies, x.cid = y.cid ∧ x.fid = y.fid
  waits : ∀ y ∈ t.waitingCopies, y ∈ s.waitingCopies

section
variable {s t u : State}

theorem NoNewCopies.of_eq (drops : t.core.dwellDrops = s.core.dwellDrops) (copies : t.core.copies = s.core.copies)
    (backlog : t.core.backlog = s.core.backlog) : NoNewCopies s t where
  drops := drops
  came := fun y hy => ⟨y, List.mem_append_left _ (copies ▸ hy), rfl, rfl⟩
  waits := fun y hy => by rwa [State.waitingCopies, backlog] at hy

theorem NoNewCopies.of_core (h : t.core = s.core) : NoNewCopies s t := .of_eq (by rw [h]) (by rw [h]) (by rw [h])

theorem NoNewCopies.refl (s : State) : NoNewCopies s s := .of_core rfl

theorem NoNewCopies.trans (a : NoNewCopies s t) (b : NoNewCopies t u) : NoNewCopies s u where
  drops := b.drops.trans a.drops
  came := fun z hz => by
    obtain ⟨y, hy, cid, fid⟩ := b.came z hz
    rcases List.mem_append.mp hy with queued | waiting
    · obtain ⟨x, hx, cid', fid'⟩ := a.came y queued
      exact ⟨x, hx, cid'.trans cid, fid'.trans fid⟩
    · exact ⟨y, List.mem_append_right _ (a.waits y waiting), cid, fid⟩
  waits := fun z hz => a.waits z (b.waits z hz)

theorem HeadsOf.noNewCopies (a : HeadsOf s t) : NoNewCopies s t where
  drops := by rw [a.core]
  came := fun y hy => by
    obtain ⟨x, hx, since, rfl⟩ := a.came y hy
    exact ⟨x, List.mem_append_left _ hx, rfl, rfl⟩
  waits := fun y hy => by rwa [State.waitingCopies, a.core] at hy

theorem SamePackets.noNewCopies (a : SamePackets s t) : NoNewCopies s t := .of_eq (by rw [a.core]) (by rw [a.core]) (by rw [a.core])

end

theorem freeHeld_noNewCopies (s : State) (fid : Nat) : NoNewCopies s (s.freeHeld fid) := by
  unfold State.freeHeld
  split
  · exact .refl s
  · exact .of_eq rfl rfl rfl

/-- A frame that waited takes local cells, or waits on. -/
theorem admitLocal_noNewCopies {s t : State} (a : NoNewCopies s t) {x : Held × List Copy} (hx : x ∈ s.core.backlog) :
    NoNewCopies s (t.admitLocal x.1 x.2) := by
  have heads := (admitLocal_headsOf t x.1 x.2).noNewCopies
  refine ⟨heads.drops.trans a.drops, fun y hy => ?_, fun y hy => a.waits y (heads.waits y hy)⟩
  obtain ⟨z, hz, cid, fid⟩ := heads.came y hy
  rcases List.mem_append.mp hz with queued | waiting
  · rcases List.mem_append.mp queued with old | new
    · obtain ⟨w, hw, cid', fid'⟩ := a.came z old
      exact ⟨w, hw, cid'.trans cid, fid'.trans fid⟩
    · obtain ⟨c, hc, rfl⟩ := List.mem_map.mp new
      exact ⟨c, List.mem_append_right _ (List.mem_flatten.mpr ⟨x.2, List.mem_map_of_mem hx, hc⟩), cid, fid⟩
  · exact ⟨z, List.mem_append_right _ (a.waits z waiting), cid, fid⟩

theorem drainLocal_noNewCopies (s : State) (d : Nat) : NoNewCopies s (s.drainLocal d) := by
  unfold State.drainLocal
  refine List.foldlRecOn (motive := fun t : State => NoNewCopies s t) _ _ ⟨rfl, ?_, fun y hy => nomatch hy⟩ fun t ht x hx => ?_
  · exact fun y hy => ⟨y, List.mem_append_left _ hy, rfl, rfl⟩
  · split
    · refine ⟨ht.drops, ht.came, fun y hy => ?_⟩
      obtain ⟨cs, hcs, mem⟩ := List.mem_flatten.mp hy
      obtain ⟨w, hw, rfl⟩ := List.mem_map.mp hcs
      rcases List.mem_append.mp hw with old | new
      · exact ht.waits y (List.mem_flatten.mpr ⟨w.2, List.mem_map_of_mem old, mem⟩)
      · rw [List.mem_singleton.mp new] at mem
        exact List.mem_flatten.mpr ⟨x.2, List.mem_map_of_mem hx, mem⟩
    · exact admitLocal_noNewCopies ht hx

/-- The packet buffer without the copies of an identifier. -/
def State.withoutCopy (s : State) (cid : Nat) : State :=
  s.mapCore fun k => { k with copies := k.copies.filter fun x => x.cid != cid }

theorem releaseCopy_noNewCopies {s : State} {cid : Nat} {c : Copy} (found : s.copy? cid = some c) :
    NoNewCopies (s.withoutCopy cid) (s.releaseCopy cid) := by
  have marked : NoNewCopies (s.withoutCopy cid)
      ((s.mapCore fun k => { k with copies := k.copies.filter fun x => x.cid != cid }).markHead c.die c.src c.dest c.vc) :=
    (markHead_headsOf _ _ _ _ _).noNewCopies
  rw [State.releaseCopy, found]
  dsimp only
  generalize State.markHead _ c.die c.src c.dest c.vc = t at marked ⊢
  split
  · exact marked
  · refine marked.trans (.trans ?_ ((drainLocal_noNewCopies _ _).trans (refreshDie_samePackets _ _).noNewCopies))
    repeat' split
    · exact freeHeld_noNewCopies _ _
    · exact .refl _
    · exact freeHeld_noNewCopies _ _
    · exact .of_eq rfl rfl rfl

/-- A discarded copy is gone; what else is queued was queued or waiting. -/
theorem dropCopy_noNewCopies (s : State) (cid : Nat) : NoNewCopies (s.withoutCopy cid) (s.dropCopy cid) := by
  unfold State.dropCopy
  split
  · rename_i none_
    have kept : s.core.copies.filter (fun x => x.cid != cid) = s.core.copies :=
      List.filter_eq_self.mpr fun x hx => by simpa using List.find?_eq_none.mp none_ x hx
    exact .of_eq rfl kept.symm rfl
  · rename_i c found
    exact (releaseCopy_noNewCopies found).trans (.of_core (msgSent_core _ _))

/-- An identifier is gone that no frame waiting for local cells has. -/
theorem dropCopy_gone {s : State} {cid : Nat} (waits : ∀ y ∈ s.waitingCopies, y.cid ≠ cid) :
    (s.dropCopy cid).copy? cid = none := by
  refine List.find?_eq_none.mpr fun y hy => ?_
  obtain ⟨x, hx, same, -⟩ := (dropCopy_noNewCopies s cid).came y hy
  rw [← same]
  rcases List.mem_append.mp hx with queued | waiting
  · simpa using (List.mem_filter.mp queued).2
  · simpa using waits x waiting

/-- With fresh identifiers no frame that waits has the identifier of a queued copy. -/
theorem waiting_cid_ne {s : State} {c : Copy} (fresh : s.idsFresh = true) (hc : c ∈ s.core.copies) :
    ∀ y ∈ s.waitingCopies, y.cid ≠ c.cid := by
  intro y hy same
  simp only [State.idsFresh, Bool.and_eq_true, List.all_eq_true] at fresh
  obtain ⟨⟨⟨-, waits⟩, -⟩, -⟩ := fresh
  obtain ⟨cs, hcs, mem⟩ := List.mem_flatten.mp hy
  obtain ⟨x, hx, rfl⟩ := List.mem_map.mp hcs
  have alone := ((waits x hx).2 y mem).2
  rw [Bool.not_eq_true', List.any_eq_false] at alone
  exact alone c hc (beq_iff_eq.mpr same.symm)

/-! ## Every copy of a frame is discarded -/

/-- Once every copy of a frame that is queued has been discarded in turn, none is left where none waits. -/
theorem dropEach_gone (fid : Nat) : ∀ (cids : List Nat) (s : State), (∀ x ∈ s.core.copies, x.fid = fid → x.cid ∈ cids) →
    (∀ x ∈ s.waitingCopies, x.fid ≠ fid) → ∀ x ∈ (cids.foldl State.dropCopy s).core.copies, x.fid ≠ fid
  | [], s, listed, _ => fun x hx own => nomatch listed x hx own
  | cid :: cids, s, listed, waits => by
    have dropped := dropCopy_noNewCopies s cid
    refine dropEach_gone fid cids (s.dropCopy cid) (fun y hy own => ?_) fun y hy => waits y (dropped.waits y hy)
    obtain ⟨x, hx, sameCid, sameFid⟩ := dropped.came y hy
    rw [← sameCid]
    rcases List.mem_append.mp hx with queued | waiting
    · obtain ⟨mem, other⟩ := List.mem_filter.mp queued
      exact (List.mem_cons.mp (listed x mem (sameFid.trans own))).resolve_left (bne_iff_ne.mp other)
    · exact absurd (sameFid.trans own) (waits x waiting)

theorem dropWaiting_core (s : State) (q : Copy → Bool) : ∃ kept, (s.dropWaiting q).core = { s.core with backlog := kept }
    ∧ ∀ x ∈ kept, ∀ c ∈ x.2, q c = false := by
  refine ⟨_, List.foldlRecOn (motive := fun t : State => t.core = { s.core with backlog := (s.core.backlog.map fun x =>
      ({ x.1 with refcount := (x.2.filter fun c => !q c).length }, x.2.filter fun c => !q c)).filter fun x => !x.2.isEmpty })
      _ _ rfl fun t ht c _ => (msgSent_core t c.msg).trans ht, fun x hx c hc => ?_⟩
  obtain ⟨y, -, rfl⟩ := List.mem_map.mp (List.mem_filter.mp hx).1
  simpa using (List.mem_filter.mp hc).2

theorem dropCopies_gone (s : State) (fid : Nat) : ∀ x ∈ (s.dropCopies fun x => x.fid == fid).core.copies, x.fid ≠ fid := by
  obtain ⟨kept, core, gone⟩ := dropWaiting_core s fun x => x.fid == fid
  refine dropEach_gone fid _ _ (fun x hx own => ?_) fun x hx => ?_
  · rw [core] at hx
    exact List.mem_map.mpr ⟨x, List.mem_filter.mpr ⟨hx, beq_iff_eq.mpr own⟩, rfl⟩
  · rw [State.waitingCopies, core] at hx
    obtain ⟨cs, hcs, mem⟩ := List.mem_flatten.mp hx
    obtain ⟨y, hy, rfl⟩ := List.mem_map.mp hcs
    exact beq_eq_false_iff_ne.mp (gone y hy x mem)

/-! ## QUEUE_HEAD_DWELL_EXPIRY (R267) -/

/-- One more copy has stood too long at the head of its VOQ (log entry 80). -/
def State.dwellCounted (s : State) : State := s.mapCore fun k => { k with dwellDrops := k.dwellDrops + 1 }

/-- The port that the fault of a copy that stands too long names: its egress port, or where its frame came in (R267). -/
def Copy.portNamed (c : Copy) : Nat := match c.dest with | .port p => p | _ => 64 * c.die + c.src

section
variable {s : State} {cid : Nat} {c : Copy} (found : s.copy? cid = some c) (waits : c.started = false) (dwells : s.dwells c = true)
include found waits dwells

theorem exec_dwell_drops (vc : c.vc ∈ [1, 3, 6, 7]) :
    exec (.queueHeadDwellExpiry cid) s = .next (s.dwellCounted.dropCopy cid) := by
  have drops : [1, 3, 6, 7].contains c.vc = true := List.contains_iff_mem.mpr vc
  show execQueueHeadDwellExpiry cid s = _
  rw [execQueueHeadDwellExpiry, found]
  dsimp only
  rw [waits, dwells, drops]
  rfl

theorem exec_dwell_reports (vc : c.vc ∉ [1, 3, 6, 7]) : exec (.queueHeadDwellExpiry cid) s =
    .next (s.raise c.die blkSwitch c.portNamed 0x19 (addrP c.portNamed c.vc) 0) := by
  have stays : [1, 3, 6, 7].contains c.vc = false := by simpa using vc
  show execQueueHeadDwellExpiry cid s = _
  rw [execQueueHeadDwellExpiry, found]
  dsimp only
  rw [waits, dwells, stays]
  rfl

end

theorem dwellDrop_effect {s : State} {cid : Nat} {c : Copy} (found : s.copy? cid = some c) (fresh : s.idsFresh = true) :
    let t := s.dwellCounted.dropCopy cid
    t.copy? cid = none ∧ t.core.dwellDrops = s.core.dwellDrops + 1 ∧ onlyParts coreParts s t := by
  have isCid : c.cid = cid := by simpa using List.find?_some found
  refine ⟨dropCopy_gone ?_, (dropCopy_noNewCopies s.dwellCounted cid).drops,
    onlyParts_trans (onlyParts_mono (mapCore_parts s _) (by decide)) (dropCopy_parts _ cid)⟩
  rw [← isCid]
  exact waiting_cid_ne fresh (List.mem_of_find?_eq_some found)

/-- A kind raised by a block of a die is held for the watchtower under that die, block and kind. -/
theorem raise_reports (s : State) {die block kind : Nat} (hd : die < 8) (hb : block < 64) (hk : kind < 256)
    (inst address detail : Nat) : (s.raise die block inst kind address detail).reports die block kind := by
  have raised := (raiseMsg_raised s (faultMsg die block inst kind address detail)).reports
  simp only [faultMsg, BitVec.toNat_ofNat] at raised
  rwa [Nat.mod_eq_of_lt (by omega : die < 2 ^ 3), Nat.mod_eq_of_lt (by omega : block < 2 ^ 6),
    Nat.mod_eq_of_lt (by omega : kind < 2 ^ 8)] at raised

/-! ## EXTENSION_RETURN (R314) -/

/-- The PORT_BUFFER registers of the ports of the port map. -/
def pauseAddr (s : State) (k : Nat) : Prop := ∃ c ∈ s.ports, regAddr .PORT_BUFFER c.num = k

theorem refreshPause_regsAt (s : State) (p : Nat) : regsAt (regAddr .PORT_BUFFER p = ·) s (s.refreshPause p) := by
  unfold State.refreshPause
  dsimp only
  split
  · exact regsAt_refl _ s
  · exact regsAt_trans (regsAt_setFld s F.PORT_BUFFER_PAUSING p _ rfl)
      (regsAt_of_parts (onlyParts_trans (mapCore_parts _ _) (transmit_parts _ _ _)) (by decide))

theorem refreshDie_regsAt (s : State) (d : Nat) : regsAt (pauseAddr s) s (s.refreshDie d) :=
  regsAt_foldl _ _ s fun s' p hp => by
    obtain ⟨c, hc, rfl⟩ := List.mem_map.mp hp
    exact regsAt_mono (refreshPause_regsAt s' c.num) fun _ e => ⟨c, (List.mem_filter.mp hc).1, e⟩

theorem regsAt.onlyRegsAndPauses {s t : State} (a : regsAt (pauseAddr s) s t) : onlyRegsAndPauses [] s t :=
  fun k _ pauses => a k fun ⟨c, hc, e⟩ => pauses c hc e

/-- A held frame moves to another region. -/
def State.moveHeld (s : State) (fid : Nat) (r : Region) : State := s.mapHeld fid fun x => { x with region := r }

theorem moveHeld_held? {s : State} {fid : Nat} {h : Held} (found : s.held? fid = some h) (r : Region) :
    (s.moveHeld fid r).held? fid = some { h with region := r } := by
  have isFid : h.fid = fid := by simpa using List.find?_some found
  have same : ((fun x : Held => x.fid == fid) ∘ fun x => if x.fid = fid then { x with region := r } else x)
      = fun x => x.fid == fid := by
    funext x
    rw [Function.comp_apply]
    split <;> rfl
  show (s.core.held.map fun x => if x.fid = fid then { x with region := r } else x).find? (fun x => x.fid == fid) = _
  rw [List.find?_map, same, show s.core.held.find? (fun x => x.fid == fid) = some h from found, Option.map_some, if_pos isFid]

section
variable {s : State} {fid : Nat} {h : Held} (found : s.held? fid = some h) (ext : h.region = .extension) (good : h.tail = .good)
include found ext good

theorem exec_extensionReturn_waits (turn : s.extTurn fid = false) (bad : Bool) : exec (.extensionReturn fid bad) s = .next s := by
  show execExtensionReturn fid bad s = _
  rw [execExtensionReturn, found]
  dsimp only
  rw [ext, good, turn]
  rfl

theorem exec_extensionReturn_discards (turn : s.extTurn fid = true) : exec (.extensionReturn fid true) s =
    .next ((s.dropCopies fun x => x.fid == fid).refreshDie h.die) := by
  show execExtensionReturn fid true s = _
  rw [execExtensionReturn, found]
  dsimp only
  rw [ext, good, turn]
  rfl

theorem exec_extensionReturn_moves (turn : s.extTurn fid = true)
    (room : s.cellsHeld h.die (fun x => x.region == .guaranteed && x.src == h.src && x.vc == h.vc) + h.cells
      ≤ s.image.policies.guarCells) : exec (.extensionReturn fid false) s =
    .next ((s.moveHeld fid .guaranteed).refreshDie h.die) := by
  show execExtensionReturn fid false s = _
  rw [execExtensionReturn, found]
  dsimp only
  rw [ext, good, turn, if_pos room]
  rfl

end

theorem extensionReturn_moves_effect {s : State} {fid : Nat} {h : Held} (found : s.held? fid = some h) :
    let t := (s.moveHeld fid .guaranteed).refreshDie h.die
    t.held? fid = some { h with region := .guaranteed } ∧ t.core.copies = s.core.copies
      ∧ onlyRegsAndPauses [] s t ∧ onlyParts [.regs, .core] s t := by
  have moved := moveHeld_held? found .guaranteed
  have parts : onlyParts [.core] s (s.moveHeld fid .guaranteed) := mapHeld_parts s fid _
  have copies : (s.moveHeld fid .guaranteed).core.copies = s.core.copies := rfl
  generalize s.moveHeld fid .guaranteed = u at *
  have packets := (refreshDie_samePackets u h.die).core
  have ports : u.ports = s.ports := parts .ports (by decide)
  have regs : regsAt (pauseAddr s) u (u.refreshDie h.die) :=
    regsAt_mono (refreshDie_regsAt u h.die) fun _ ⟨c, hc, e⟩ => ⟨c, ports ▸ hc, e⟩
  refine ⟨?_, by rw [packets, copies], (regsAt_trans (regsAt_of_parts parts (by decide)) regs).onlyRegsAndPauses,
    onlyParts_trans (onlyParts_mono parts (by decide)) (refreshDie_parts u h.die)⟩
  rw [State.held?, packets]
  exact moved

theorem extensionReturn_discards_effect (s : State) (fid d : Nat) :
    let t := (s.dropCopies fun x => x.fid == fid).refreshDie d
    (∀ x ∈ t.core.copies, x.fid ≠ fid) ∧ onlyParts coreParts s t := by
  refine ⟨?_, onlyParts_trans (dropCopies_parts s _) (onlyParts_mono (refreshDie_parts _ d) (by decide))⟩
  rw [(refreshDie_samePackets _ d).core]
  exact dropCopies_gone s fid

/-! ## The transmitter of a port (R402, R406) -/

theorem deal_port (w : Nat) (t : PcsTx) (b : PcsBlock) : (t.deal w b).port = t.port := by
  unfold PcsTx.deal
  dsimp only
  repeat' split
  all_goals rfl

theorem put_port (w : Nat) (t : PcsTx) (b : PcsBlock) : (PcsTx.put w t b).port = t.port := by
  unfold PcsTx.put
  rw [deal_port]
  split
  · exact List.foldlRecOn (motive := fun u : PcsTx => u.port = t.port) _ _ rfl fun u hu i _ => (deal_port w u _).trans hu
  · rfl

theorem pause_port (w : Nat) (t : PcsTx) (m : BitVec 8) : (t.pause w m).port = t.port :=
  List.foldlRecOn (motive := fun u : PcsTx => u.port = t.port) _ _ rfl fun u hu b _ => (put_port w u b).trans hu

theorem pcs_port (s : State) (p : Nat) : (s.pcs p).port = p := by
  unfold State.pcs
  cases found : s.core.pcs.find? fun x => x.port == p with
  | none => rfl
  | some x => simpa using List.find?_some found

theorem pcs_of_pcs {s t : State} (h : t.core.pcs = s.core.pcs) (p : Nat) : t.pcs p = s.pcs p := by rw [State.pcs, h, State.pcs]

theorem transmit_pcs {s : State} {p : Nat} {c : PortCfg} (found : s.port? p = some c) (g : Nat → PcsTx → PcsTx)
    (keeps : (g c.width (s.pcs p)).port = p) : (s.transmit p g).pcs p = g c.width (s.pcs p) := by
  rw [State.transmit, found]
  show ((s.core.pcs.filter (fun x => x.port != p) ++ [g c.width (s.pcs p)]).find? fun x => x.port == p).getD _ = _
  rw [find?_filter_append (test := fun x : PcsTx => x.port == p) (fun y hy => by simpa using hy) _ (beq_iff_eq.mpr keeps),
    Option.getD_some]

theorem transmit_pcs_ne (s : State) {p q : Nat} (g : Nat → PcsTx → PcsTx) (keeps : ∀ w, (g w (s.pcs p)).port = p) (h : q ≠ p) :
    (s.transmit p g).pcs q = s.pcs q := by
  unfold State.transmit
  split
  · rfl
  · rename_i c _
    have others : (s.core.pcs.filter fun x => x.port != p).find? (fun x => x.port == q) =
        s.core.pcs.find? fun x => x.port == q := by
      rw [List.find?_filter]
      congr 1
      funext x
      by_cases e : x.port = q
      · simp [e, h]
      · simp [e]
    have own : [g c.width (s.pcs p)].find? (fun x => x.port == q) = none := by simp [keeps, h.symm]
    show ((s.core.pcs.filter (fun x => x.port != p) ++ [g c.width (s.pcs p)]).find? fun x => x.port == q).getD _ = _
    rw [List.find?_append, own, Option.or_none, others]
    rfl

theorem transmit_eq (s : State) (p : Nat) (g : Nat → PcsTx → PcsTx) :
    s.transmit p g = { s with core := { s.core with pcs := (s.transmit p g).core.pcs } } := by
  unfold State.transmit
  split <;> rfl

/-! ## PAUSE_BLOCK and PAUSE_REPEAT_TIMER (R297, R406) -/

theorem exec_pauseBlock {s : State} {port : Nat} (lock : s.pcsLock port = true) (mask : BitVec 8) :
    exec (.pauseBlock port mask) s = .next (s.setFld F.PORT_BUFFER_PAUSED port mask.toNat) := by
  show execPauseBlock port mask s = _
  rw [execPauseBlock, if_pos lock]

theorem pauseBlock_effect (s : State) (port : Nat) (mask : BitVec 8) :
    let t := s.setFld F.PORT_BUFFER_PAUSED port mask.toNat
    fieldSet F.PORT_BUFFER_PAUSED port mask.toNat s t ∧ onlyRegs [(.PORT_BUFFER, port)] s t ∧ onlyParts [.regs] s t :=
  ⟨⟨(fld_setFld s _ port _ (by decide)).trans (Nat.mod_eq_of_lt mask.isLt), onlyField_setFld s _ port _ (by decide)⟩,
    setReg_onlyRegs s _ _ _, setFld_parts s _ _ _⟩

/-- A pause state is repeated once more. -/
def PauseSt.again (p : Nat) (m : BitVec 8) (x : PauseSt) : PauseSt :=
  if x.port = p then { x with repeats := min 8 (x.repeats + 1), sent := m } else x

theorem again_port (p : Nat) (m : BitVec 8) (x : PauseSt) : (x.again p m).port = x.port := by
  unfold PauseSt.again
  split <;> rfl

/-- The pause states of a port are repeated with a mask. -/
def State.pausesAgain (s : State) (p : Nat) (m : BitVec 8) : State :=
  s.mapCore fun c => { c with pauses := c.pauses.map (PauseSt.again p m) }

theorem exec_pauseRepeatTimer_idle {s : State} {port : Nat} (idle : ∀ x ∈ s.core.pauses, x.port ≠ port) :
    exec (.pauseRepeatTimer port) s = .next s := by
  have none_ : (s.core.pauses.any fun x => x.port == port) = false :=
    List.any_eq_false.mpr fun x hx => by simpa using idle x hx
  show execPauseRepeatTimer port s = _
  rw [execPauseRepeatTimer, none_, if_neg Bool.false_ne_true]

theorem exec_pauseRepeatTimer {s : State} {port : Nat} (runs : ∃ x ∈ s.core.pauses, x.port = port) :
    exec (.pauseRepeatTimer port) s = .next ((s.pausesAgain port (BitVec.ofNat 8 (s.pausing port))).transmit port
      fun w t => t.pause w (BitVec.ofNat 8 (s.pausing port))) := by
  have some_ : (s.core.pauses.any fun x => x.port == port) = true := by simpa using runs
  show execPauseRepeatTimer port s = _
  rw [execPauseRepeatTimer, if_pos some_]
  rfl

/-- What PAUSE_REPEAT_TIMER does to the pause states and the transmitters. -/
def repeatsPause (s : State) (port : Nat) (t : State) : Prop :=
  (∀ x ∈ t.core.pauses, x.port = port → x.sent = BitVec.ofNat 8 (s.pausing port) ∧ x.repeats ≤ 8)
    ∧ t = { s with core := { s.core with pauses := t.core.pauses, pcs := t.core.pcs } }
    ∧ (∀ c, s.port? port = some c → (∃ x ∈ s.core.pauses, x.port = port) →
      t.pcs port = (s.pcs port).pause c.width (BitVec.ofNat 8 (s.pausing port)))
    ∧ (∀ p, p ≠ port → t.pcs p = s.pcs p)
    ∧ t.core.pauses.filter (fun x => x.port != port) = s.core.pauses.filter fun x => x.port != port

theorem repeatsPause_idle {s : State} {port : Nat} (idle : ∀ x ∈ s.core.pauses, x.port ≠ port) : repeatsPause s port s :=
  ⟨fun x hx own => absurd own (idle x hx), rfl, fun _ _ ⟨x, hx, own⟩ => absurd own (idle x hx), fun _ _ => rfl, rfl⟩

theorem filter_again (p : Nat) (m : BitVec 8) (l : List PauseSt) :
    (l.map (PauseSt.again p m)).filter (fun x => x.port != p) = l.filter fun x => x.port != p := by
  have test : ((fun x : PauseSt => x.port != p) ∘ PauseSt.again p m) = fun x => x.port != p :=
    funext fun x => by rw [Function.comp_apply, again_port]
  rw [List.filter_map, test]
  refine (List.map_congr_left fun x hx => ?_).trans (List.map_id _)
  exact if_neg (by simpa using (List.mem_filter.mp hx).2)

theorem repeatsPause_sent (s : State) (port : Nat) :
    repeatsPause s port ((s.pausesAgain port (BitVec.ofNat 8 (s.pausing port))).transmit port
      fun w t => t.pause w (BitVec.ofNat 8 (s.pausing port))) := by
  unfold repeatsPause
  generalize BitVec.ofNat 8 (s.pausing port) = m
  have eq := transmit_eq (s.pausesAgain port m) port fun w t => t.pause w m
  have keeps (w : Nat) : (((s.pausesAgain port m).pcs port).pause w m).port = port := (pause_port w _ m).trans (pcs_port _ port)
  have pauses : ((s.pausesAgain port m).transmit port fun w t => t.pause w m).core.pauses
      = s.core.pauses.map (PauseSt.again port m) := by rw [eq]; rfl
  rw [pauses]
  refine ⟨fun x hx own => ?_, ?_, fun c found _ => transmit_pcs (s := s.pausesAgain port m) found _ (keeps c.width),
    fun p h => transmit_pcs_ne _ _ keeps h, filter_again port m _⟩
  · obtain ⟨y, -, rfl⟩ := List.mem_map.mp hx
    rw [again_port] at own
    rw [PauseSt.again, if_pos own]
    exact ⟨rfl, Nat.min_le_left _ _⟩
  · exact eq

/-! ## O8 -/

/-- Settles O8: a discarded copy is gone because what else is queued was queued or waiting; a frame of the extension ring moves
where every copy of it is first; a PAUSE block is one field, and its repeat one more block on the port's own lanes. -/
theorem queueHeadsAndPauses : Obligations.QueueHeadsAndPauses := by
  unfold Obligations.QueueHeadsAndPauses
  refine ⟨fun s cid c found waits dwells die => ⟨fun vc fresh => ⟨_, exec_dwell_drops found waits dwells vc,
      dwellDrop_effect found fresh⟩, fun vc => ?_⟩,
    fun s fid h found ext good => ⟨fun turn b => ⟨s, exec_extensionReturn_waits found ext good turn b, rfl⟩,
      fun turn room => ⟨_, exec_extensionReturn_moves found ext good turn room, extensionReturn_moves_effect found⟩,
      fun turn => ⟨_, exec_extensionReturn_discards found ext good turn, extensionReturn_discards_effect s fid h.die⟩⟩,
    fun s port mask lock => ⟨_, exec_pauseBlock lock mask, pauseBlock_effect s port mask⟩, fun s port => ?_⟩
  · have parts := raise_parts s c.die blkSwitch c.portNamed 0x19 (addrP c.portNamed c.vc) 0
    exact ⟨_, exec_dwell_reports found waits dwells vc, parts .core (by decide),
      raise_reports s (by omega) (by decide) (by decide) _ _ _, parts⟩
  · by_cases runs : ∃ x ∈ s.core.pauses, x.port = port
    · exact ⟨_, exec_pauseRepeatTimer runs, repeatsPause_sent s port⟩
    · have idle : ∀ x ∈ s.core.pauses, x.port ≠ port := fun x hx own => runs ⟨x, hx, own⟩
      exact ⟨s, exec_pauseRepeatTimer_idle idle, repeatsPause_idle idle⟩

end Sys2Proof.Machine

/-! PROOFS. Fabric time (spec/09_belfry_and_time.md R251 to R255): the TIME_SYNC of a period and its answer on their ports, the
choice of a parent, the discipline by its replies, and HOLDOVER. -/
namespace Sys2Proof.Machine

open Sys2Proof

/-! ## Bytes laid out in a row -/

theorem sliceB_append_right {a : List Byte} (b : List Byte) {off n : Nat} (h : a.length ≤ off) :
    sliceB (a ++ b) off n = sliceB b (off - a.length) n := by
  rw [sliceB, List.drop_append, List.drop_eq_nil_of_le h, List.nil_append, sliceB]

theorem sliceB_append_left {b : List Byte} (c : List Byte) {n : Nat} (h : b.length = n) : sliceB (b ++ c) 0 n = b := by
  subst h
  simp [sliceB]

theorem leAt_append_right {a : List Byte} (b : List Byte) {off n : Nat} (h : a.length ≤ off) :
    leAt (a ++ b) off n = leAt b (off - a.length) n := by rw [leAt, sliceB_append_right b h, leAt]

theorem leAt_leBytes (n v : Nat) (rest : List Byte) : leAt (leBytes n v ++ rest) 0 n = v % 256 ^ n := by
  rw [leAt, sliceB_append_left rest (length_leBytes n v), ofLe_leBytes]

/-! ## A link-local message on its port (R252) -/

/-- Every copy that is new in the packet buffer once a frame of the switch's own has been queued is that frame's. -/
theorem queueOwn_new {s : State} (p : Nat) (f : Frame) (msg : Option Nat) (fresh : s.IdsBelow s.core.nextId) :
    ∀ c ∈ (s.queueOwn p f msg).allCopies, s.core.nextId ≤ c.cid → c.own = true ∧ c.out = f := by
  have older : ∀ c ∈ s.waitingCopies, c.cid < s.core.nextId := fun c hc => by
    obtain ⟨cs, hcs, mem⟩ := List.mem_flatten.mp hc
    obtain ⟨x, hx, rfl⟩ := List.mem_map.mp hcs
    exact (fresh.waits x hx).2 c mem
  intro c hc new
  rcases queueOwn_eq s p f msg with e | e <;> rw [e] at hc <;> rcases List.mem_append.mp hc with queued | waiting
  · obtain ⟨x, hx, _, rfl⟩ := (admitLocal_headsOf _ _ _).came c queued
    rcases List.mem_append.mp hx with before | added
    · exact absurd (fresh.copies x before) (Nat.not_lt.mpr new)
    · obtain ⟨y, hy, rfl⟩ := List.mem_map.mp added
      rw [List.mem_singleton.mp hy]
      exact ⟨rfl, rfl⟩
  · rw [State.waitingCopies, (admitLocal_headsOf _ _ _).core] at waiting
    exact absurd (older c waiting) (Nat.not_lt.mpr new)
  · exact absurd (fresh.copies c queued) (Nat.not_lt.mpr new)
  · obtain ⟨cs, hcs, mem⟩ := List.mem_flatten.mp waiting
    obtain ⟨x, hx, rfl⟩ := List.mem_map.mp hcs
    rcases List.mem_append.mp hx with before | added
    · exact absurd ((fresh.waits x before).2 c mem) (Nat.not_lt.mpr new)
    · rw [List.mem_singleton.mp added] at mem
      rw [List.mem_singleton.mp mem]
      exact ⟨rfl, rfl⟩

/-- A copy that waits is in the packet buffer, whenever it came to the head of its VOQ. -/
theorem State.holdsCopy.mem {t : State} {c : Copy} (h : t.holdsCopy c) :
    ∃ since, { c with headSince := since } ∈ t.allCopies := by
  rcases h with ⟨x, hx, hc⟩ | ⟨⟨since, queued⟩, -⟩
  · exact ⟨c.headSince, List.mem_append_right _ (List.mem_flatten.mpr ⟨x.2, List.mem_map_of_mem hx, hc⟩)⟩
  · exact ⟨since, List.mem_append_left _ queued⟩

/-- A MGMT frame of the switch's own, new since s, waits for a port with a payload. -/
def State.mgmtWaits (s t : State) (p : Nat) (payload : List Byte) : Prop :=
  ∃ c, s.core.nextId ≤ c.cid ∧ c.cid < t.core.nextId ∧ c.dest = .port p ∧ c.own = true ∧ c.out.h.ftype = 8#4
    ∧ c.out.payload = payload ∧ t.holdsCopy c

section
variable {r s t u : State} {p : Nat} {payload : List Byte}

theorem State.mgmtWaits.later {c : List Part} (a : s.mgmtWaits t p payload) (b : Sends c t u) : s.mgmtWaits u p payload := by
  obtain ⟨x, new, low, dest, own, mgmt, text, holds⟩ := a
  exact ⟨x, new, Nat.lt_of_lt_of_le low b.next, dest, own, mgmt, text, b.keeps x low holds⟩

theorem State.mgmtWaits.earlier (a : s.mgmtWaits t p payload) (h : r.core.nextId ≤ s.core.nextId) : r.mgmtWaits t p payload := by
  obtain ⟨x, new, rest⟩ := a
  exact ⟨x, Nat.le_trans h new, rest⟩

theorem State.mgmtWaits.queuesOn (a : s.mgmtWaits t p payload) :
    s.queuesOn t p fun g => g.h.ftype = 8#4 ∧ g.payload = payload := by
  obtain ⟨x, new, -, dest, -, mgmt, text, holds⟩ := a
  exact holds.queuesOn new dest ⟨mgmt, text⟩

theorem State.mgmtWaits.copy (a : s.mgmtWaits t p payload) :
    ∃ c ∈ t.allCopies, c.dest = .port p ∧ c.own = true ∧ c.out.payload = payload := by
  obtain ⟨x, -, -, dest, own, -, text, holds⟩ := a
  obtain ⟨since, mem⟩ := holds.mem
  exact ⟨_, mem, dest, own, text⟩

end

/-- What a message that is not sent again touches. -/
abbrev onceParts : List Part := [.regs, .core, .outs, .ended, .freeCount]

theorem sendOnce_touches (s : State) (p : Nat) (payload : List Byte) : Touches onceParts sendAddr s (s.sendOnce p payload) := by
  obtain ⟨d, m, e⟩ := sendOnce_eq s p payload
  have drawn : Touches onceParts sendAddr s s.draw1.2 :=
    (Touches.of_parts (draw1_parts s) (by decide)).mono (by decide) fun _ => id
  rw [e]
  exact (drawn.trans ((emit_touches _ _ _ _).mono (by decide) fun _ => id)).trans
    ((Touches.of_parts (noteEnded_parts _ _) (by decide)).mono (by decide) fun _ => id)

theorem sendOnce_sameOuts (s : State) (p : Nat) (payload : List Byte) : sameOuts s (s.sendOnce p payload) := by
  obtain ⟨d, m, e⟩ := sendOnce_eq s p payload
  have emitted : sameOuts s (s.draw1.2.emit (.onPort p) (s.onceFrame payload m) none) := emit_sameOuts s.draw1.2 _ _ _
  rw [e]
  exact emitted.trans (sameOuts_of_parts (noteEnded_parts _ _) (by decide))

theorem sendOnce_waits {s : State} {p : Nat} (payload : List Byte) (lock : s.pcsLock p = true)
    (fresh : s.IdsBelow s.core.nextId) : s.mgmtWaits (s.sendOnce p payload) p payload := by
  obtain ⟨c, new, low, dest, text, holds⟩ := (sendOnce_sent s p payload lock fresh).waits
  obtain ⟨d, m, e⟩ := sendOnce_eq s p payload
  rw [emit_onPort s.draw1.2 p (s.onceFrame payload m) none rfl lock] at e
  have added := queueOwn_new p (s.draw1.2.stamp 0 (s.onceFrame payload m)) none (s := s.draw1.2)
    (idsBelow_of_core (s := s) rfl fresh)
  obtain ⟨since, mem⟩ := holds.mem
  rw [e] at mem
  obtain ⟨own, out⟩ := added _ mem new
  have mgmt : c.out.h.ftype = 8#4 := by
    rw [show c.out = _ from out]
    rfl
  exact ⟨c, new, low, dest, own, mgmt, text, holds⟩

/-! ## TIME_SYNC_PERIOD (R252) -/

/-- The payload of a TIME_SYNC. -/
def syncBytes (sid : BitVec 16) : List Byte := leBytes 2 0x50 ++ leBytes 2 sid.toNat ++ zeros 28

theorem syncBytes_kind (sid : BitVec 16) : leAt (syncBytes sid) 0 2 = 0x50 := by
  rw [syncBytes, List.append_assoc, leAt_leBytes, Nat.mod_eq_of_lt (by decide)]

/-- A port awaits the answer to a new TIME_SYNC. -/
def State.syncNoted (s : State) (p : Nat) : State :=
  { s with time := { s.time with
      nextSync := s.time.nextSync + 1
      syncs := s.time.syncs.filter (fun x => x.port != p) ++ [⟨p, s.time.nextSync⟩] } }

theorem syncOn_eq (s : State) (p : Nat) : s.syncOn p = (s.syncNoted p).sendOnce p (syncBytes s.time.nextSync) := rfl

theorem setTime_parts (s : State) (x : TimeSt) : onlyParts [.time] s { s with time := x } := fun p hp => by
  cases p
  case time => exact absurd (by decide) hp
  all_goals rfl

/-- TIME_SYNC has been sent on the listed ports in turn, each with a SYNC_ID of its own. -/
structure Synced (ps : List Nat) (s t : State) : Prop where
  sends : Sends (.time :: onceParts) s t
  regs : regsAt sendAddr s t
  outs : sameOuts s t
  time : t.time = { s.time with nextSync := s.time.nextSync + BitVec.ofNat 16 ps.length, syncs := t.time.syncs }
  noted : ∀ p, p ∈ ps ∨ (∃ x ∈ s.time.syncs, x.port = p) → ∃ x ∈ t.time.syncs, x.port = p
  waits : s.IdsBelow s.core.nextId → ∀ p ∈ ps, s.pcsLock p = true → ∃ sid, s.mgmtWaits t p (syncBytes sid)

theorem Synced.refl (s : State) : Synced [] s s where
  sends := .refl _ s
  regs := regsAt_refl _ s
  outs := sameOuts_refl s
  time := by simp
  noted := fun _ h => h.resolve_left List.not_mem_nil
  waits := fun _ _ hp => nomatch hp

/-- PCS lock does not change without a port register. -/
theorem pcsLock_of_offPorts {s t : State} (ports : t.ports = s.ports) (regs : regsAt offPorts s t) (p : Nat) :
    t.pcsLock p = s.pcsLock p := pcsLock_of ports (fun i => regs.reg _ i (port_not_offPorts (.inl rfl) i)) p

theorem Synced.trans {ps qs : List Nat} {s t u : State} (a : Synced ps s t) (b : Synced qs t u) : Synced (ps ++ qs) s u where
  sends := a.sends.trans b.sends
  regs := regsAt_trans a.regs b.regs
  outs := a.outs.trans b.outs
  time := by
    rw [b.time, a.time, List.length_append, BitVec.ofNat_add, BitVec.add_assoc]
  noted := fun p h => b.noted p <| by
    rcases h with listed | before
    · exact (List.mem_append.mp listed).elim (fun first => .inr (a.noted p (.inl first))) .inl
    · exact .inr (a.noted p (.inr before))
  waits := fun fresh p hp lock => by
    rcases List.mem_append.mp hp with first | second
    · obtain ⟨sid, waits⟩ := a.waits fresh p first lock
      exact ⟨sid, waits.later b.sends⟩
    · have still : t.pcsLock p = true :=
        (pcsLock_of_offPorts a.sends.ports (regsAt_mono a.regs sendAddr_offPorts) p).trans lock
      obtain ⟨sid, waits⟩ := b.waits (a.sends.below fresh) p second still
      exact ⟨sid, waits.earlier a.sends.next⟩

theorem syncOn_synced (s : State) (p : Nat) : Synced [p] s (s.syncOn p) := by
  have noted : onlyParts [.time] s (s.syncNoted p) := setTime_parts s _
  have touches := sendOnce_touches (s.syncNoted p) p (syncBytes s.time.nextSync)
  have time : (s.syncOn p).time = (s.syncNoted p).time := touches.parts .time (by decide)
  rw [syncOn_eq] at time ⊢
  refine ⟨?_, ?_, ?_, ?_, fun q h => ?_, fun fresh q hq lock => ?_⟩
  · exact ((Sends.of_parts noted (by decide) (by decide) (by decide)).mono (by decide)).trans
      ((sendOnce_sends _ _ _).mono (by decide))
  · exact regsAt_trans (regsAt_of_parts noted (by decide)) touches.regs
  · exact (sameOuts_of_parts noted (by decide)).trans (sendOnce_sameOuts _ _ _)
  · rw [time]
    rfl
  · rw [time]
    by_cases own : q = p
    · exact ⟨⟨p, s.time.nextSync⟩, List.mem_append_right _ (List.mem_singleton_self _), own.symm⟩
    · obtain ⟨x, hx, port⟩ := h.resolve_left fun listed => own (List.mem_singleton.mp listed)
      have other : (x.port != p) = true := bne_iff_ne.mpr (port ▸ own)
      exact ⟨x, List.mem_append_left _ (List.mem_filter.mpr ⟨hx, other⟩), port⟩
  · rw [List.mem_singleton.mp hq] at lock ⊢
    exact ⟨_, sendOnce_waits (s := s.syncNoted p) _ lock (idsBelow_of_core (s := s) rfl fresh)⟩

theorem syncOns_synced : ∀ (ps : List Nat) (s : State), Synced ps s (ps.foldl State.syncOn s)
  | [], s => .refl s
  | p :: ps, s => (syncOn_synced s p).trans (syncOns_synced ps (s.syncOn p))

theorem exec_timeSyncPeriod (s : State) : exec .timeSyncPeriod s = .next (s.syncPorts.foldl State.syncOn s) := rfl

theorem syncPorts_lock {s : State} {p : Nat} (h : p ∈ s.syncPorts) : s.pcsLock p = true := by
  have usable := (List.mem_filter.mp h).2
  simp only [State.carries, Bool.and_eq_true] at usable
  exact usable.1.2.1.1

/-! ## A MGMT message of fabric time is taken (R56, R252) -/

theorem bufferRegs_offPorts (k : Nat) (h : bufferRegs k) : offPorts k := by
  rcases h with ⟨d, e⟩ | ⟨p, e⟩
  · rw [regAddr_refcountStatus] at e
    exact .inr (by omega)
  · rw [regAddr_portBuffer] at e
    exact .inr (by omega)

theorem takeFrom_keepsIds (s : State) (dest : Dest) (p : Nat) (f : Frame) : KeepsIds s (s.takeFrom dest p f) := by
  unfold State.takeFrom
  split
  · exact releaseCopy_keepsIds s _
  · exact .refl s

section
variable {s u : State} {port : Nat} {f : Frame} {r : Receipt}
  (received : (s.takeFrom .firmware port f).receive port f = (r, u))
include received

theorem received_parts : onlyParts [.rxs] (s.takeFrom .firmware port f) u := by
  have counted := receive_parts (s.takeFrom .firmware port f) port f
  rwa [received] at counted

/-- Taking a frame and acknowledging its message leaves the registers of the ports alone. -/
theorem acked_touches : Touches (.rxs :: coreParts) offPorts s (u.ack port f.h) :=
  (((takeFrom_moves s .firmware port f).toTouches.mono (by decide) bufferRegs_offPorts).trans
    ((Touches.of_parts (received_parts received) (by decide)).mono (by decide) fun _ => id)).trans
    ((emit_touches u _ _ none).mono (by decide) sendAddr_offPorts)

theorem acked_sameOuts : sameOuts s (u.ack port f.h) :=
  ((takeFrom_moves s .firmware port f).outs.trans (sameOuts_of_parts (received_parts received) (by decide))).trans
    (emit_sameOuts u _ _ none)

theorem acked_below (fresh : s.idsFresh = true) : (u.ack port f.h).IdsBelow (u.ack port f.h).core.nextId := by
  have core : u.core = (s.takeFrom .firmware port f).core := received_parts received .core (by decide)
  have taken := takeFrom_keepsIds s .firmware port f
  refine (emit_sends u _ _ none).below (idsBelow_of_core core ?_)
  rw [core, taken.nextId]
  exact taken.below _ (State.idsBelow_of_fresh fresh)

end

/-- A frame that is no whole MGMT message of the kind is taken, and that is all. -/
theorem mgmtIn_other {s : State} {f : Frame} {kind : Nat} (port : Nat) (act : State → State)
    (other : tailGood f = false ∨ f.h.ftype ≠ 8#4 ∨ mgmtKind f ≠ kind) : s.mgmtIn port f kind act = s := by
  rw [State.mgmtIn, if_pos]
  rcases other with bad | type | ofKind
  · simp [bad]
  · simp [type]
  · simp [ofKind]

theorem mgmtIn_again {s u : State} {port : Nat} {f : Frame} (good : tailGood f = true) (mgmt : f.h.ftype = 8#4) {kind : Nat}
    (ofKind : mgmtKind f = kind) (received : s.receive port f = (.again, u)) (act : State → State) :
    s.mgmtIn port f kind act = u.ack port f.h := by
  rw [State.mgmtIn, good, mgmt, ofKind, received]
  simp

/-- TIME_SYNC and TIME_SYNC_REPLY, with their kinds, are MGMT messages that the control firmware takes in order. -/
theorem exec_timeMessage {c : Instr} {port k : Nat} {f : Frame} {x : BitVec 80}
    (h : (c = .timeSync port f x ∧ k = 0x50) ∨ (c = .timeSyncReply port f x ∧ k = 0x51)) (s : State) :
    ∃ act, exec c s = if s.queuedBehind .firmware port f then .next s else
      .next ((s.takeFrom .firmware port f).mgmtIn port f k act) := by
  rcases h with ⟨rfl, rfl⟩ | ⟨rfl, rfl⟩
  · exact ⟨_, rfl⟩
  · exact ⟨_, rfl⟩

/-! ## TIME_SYNC (R252) -/

/-- The payload of the answer to a TIME_SYNC: its SYNC_ID and T1, and T2, with the flags and the DISTANCE of the switch. -/
def State.syncReply (s : State) (f : Frame) (t2 : BitVec 80) : List Byte :=
  leBytes 2 0x51 ++ sliceB f.payload 2 2 ++ leBytes 1 s.timeFlags ++ leBytes 1 s.distance ++ zeros 10
    ++ sliceB f.payload 16 16 ++ stampBytes t2 ++ zeros 16

theorem length_stampBytes (t : BitVec 80) : (stampBytes t).length = 16 := by simp [stampBytes, zeros]

theorem syncReply_fields (s : State) (f : Frame) (t2 : BitVec 80) : leAt (s.syncReply f t2) 0 2 = 0x51
    ∧ sliceB (s.syncReply f t2) 2 2 = sliceB f.payload 2 2 ∧ leAt (s.syncReply f t2) 5 1 = s.distance % 256
    ∧ sliceB (s.syncReply f t2) 16 16 = sliceB f.payload 16 16 ∧ sliceB (s.syncReply f t2) 32 16 = stampBytes t2 := by
  have gap : (zeros 10).length = 10 := List.length_replicate
  simp only [State.syncReply, List.append_assoc]
  refine ⟨?_, ?_, ?_, ?_, ?_⟩
  · rw [leAt_leBytes, Nat.mod_eq_of_lt (by decide)]
  · simp [sliceB_append_right, sliceB_append_left]
  · simp [leAt_append_right, leAt_leBytes]
  · simp [sliceB_append_right, sliceB_append_left, gap]
  · simp [sliceB_append_right, sliceB_append_left, gap, length_stampBytes]

theorem distance_of_time {s t : State} (h : t.time = s.time) : t.distance = s.distance := by rw [State.distance, h, State.distance]

/-- The state once a TIME_SYNC has been acknowledged and answered. -/
def State.syncAnswered (u : State) (port : Nat) (f : Frame) (t2 : BitVec 80) : State :=
  (u.ack port f.h).sendOnce port ((u.ack port f.h).syncReply f t2)

section
variable {s u : State} {port : Nat} {f : Frame} (received : (s.takeFrom .firmware port f).receive port f = (.complete, u))
  (t2 : BitVec 80)
include received

theorem exec_timeSync (free : s.queuedBehind .firmware port f = false) (good : tailGood f = true) (mgmt : f.h.ftype = 8#4)
    (kind : mgmtKind f = 0x50) : exec (.timeSync port f t2) s = .next (u.syncAnswered port f t2) := by
  show execTimeSync port f t2 s = _
  rw [execTimeSync, free, if_neg Bool.false_ne_true, mgmtIn_complete good mgmt kind received]
  rfl

theorem syncAnswered_parts : onlyParts (.rxs :: onceParts) s (u.syncAnswered port f t2) :=
  onlyParts_trans (onlyParts_mono (acked_touches received).parts (by decide))
    (onlyParts_mono (sendOnce_touches _ port _).parts (by decide))

theorem syncAnswered_waits (fresh : s.idsFresh = true) (lock : s.pcsLock port = true) : ∃ w : State, w.time = s.time
    ∧ u.mgmtWaits (u.syncAnswered port f t2) port (w.syncReply f t2) := by
  have acked := acked_touches received
  have still := (pcsLock_of_offPorts (acked.parts .ports (by decide)) acked.regs port).trans lock
  exact ⟨_, acked.parts .time (by decide),
    (sendOnce_waits _ still (acked_below received fresh)).earlier (emit_sends u _ _ none).next⟩

end

/-! ## What ends an exchange (R251, R253) -/

/-- An exchange on a port has ended: the neighbour has been heard. -/
def State.exchanged (s : State) (p : Nat) (q : List Byte) : State :=
  { s with time := { s.time.heard p (BitVec.ofNat 8 (leAt q 4 1)) (leAt q 5 1) with
      syncs := s.time.syncs.filter fun x => x.port != p } }

/-- Twice the offset that a reply on a port gives (R253). -/
def State.replyTheta (s : State) (p : Nat) (q : List Byte) (t4 : BitVec 80) : Int :=
  theta2 (stampAt q 16) (stampAt q 32) (stampAt q 48) t4 (BitVec.ofNat 32 (s.fld F.LINK_ASYM_ASYM (s.blk p)))

/-- Does the reply answer the TIME_SYNC that waits on its port? -/
def State.syncKnown (s : State) (p : Nat) (q : List Byte) : Bool := s.time.syncs.contains ⟨p, BitVec.ofNat 16 (leAt q 2 2)⟩

/-- Does a reply say that the neighbour's time is valid (R254)? -/
def replyValid (q : List Byte) : Bool := (BitVec.ofNat 8 (leAt q 4 1)).getLsbD 0

section
variable {s : State} {p : Nat} {q : List Byte}

theorem replied_unknown (unknown : s.syncKnown p q = false) (t4 : BitVec 80) : s.replied p q t4 = s := by
  rw [State.syncKnown] at unknown
  unfold State.replied
  dsimp only
  rw [unknown]
  rfl

/-- What a reply on a port does once the neighbour has been heard, by the state of fabric time (R255). -/
def State.retime (s : State) (p : Nat) (valid : Bool) (dist : Nat) (th2 : Int) : State :=
  match s.time.state with
  | .root => s
  | .unlocked | .holdover => if valid then s.adopt p th2 else s
  | .acquiring | .locked => s.discipline p valid dist th2

theorem replied_known (known : s.syncKnown p q = true) (t4 : BitVec 80) : s.replied p q t4 =
    (s.exchanged p q).retime p (replyValid q) (leAt q 5 1) (s.replyTheta p q t4) := by
  rw [State.syncKnown] at known
  unfold State.replied
  dsimp only
  rw [known]
  rfl

end

section
variable {s : State} (p : Nat) (valid : Bool) (dist : Nat) (th2 : Int)

theorem retime_root (root : s.time.state = .root) : s.retime p valid dist th2 = s := by rw [State.retime, root]

theorem retime_seeking (seeks : s.time.state = .unlocked ∨ s.time.state = .holdover) :
    s.retime p valid dist th2 = if valid then s.adopt p th2 else s := by
  rcases seeks with e | e <;> rw [State.retime, e]

theorem retime_following (follows : s.time.state = .acquiring ∨ s.time.state = .locked) :
    s.retime p valid dist th2 = s.discipline p valid dist th2 := by
  rcases follows with e | e <;> rw [State.retime, e]

end

/-! ## Correcting fabric time (R255) -/

/-- Nothing but fabric time changes, and neither the open exchanges nor the neighbours do. -/
structure Retimed (s t : State) : Prop where
  parts : onlyParts [.time] s t
  syncs : t.time.syncs = s.time.syncs
  neighbours : t.time.neighbours = s.time.neighbours

theorem Retimed.refl (s : State) : Retimed s s := ⟨onlyParts_refl _ s, rfl, rfl⟩

theorem correct_slews (t : TimeSt) (th2 : Int) {mayStep : Bool} (h : mayStep = false ∨ th2 ≤ 0) :
    t.correct th2 mayStep = { t with slew := th2 / 2 } := by
  have stays : (mayStep && decide (0 < th2 / 2)) = false := by
    rcases h with no | behind
    · rw [no, Bool.false_and]
    · rw [decide_eq_false (by omega), Bool.and_false]
  rw [TimeSt.correct, stays]
  rfl

theorem correct_steps (t : TimeSt) {th2 : Int} (ahead : 2 ≤ th2) :
    t.correct th2 true = { t with now := t.now + BitVec.ofInt 80 (th2 / 2), slew := 0 } := by
  have steps : (true && decide (0 < th2 / 2)) = true := by
    rw [decide_eq_true (by omega), Bool.and_true]
  rw [TimeSt.correct, steps]
  rfl

theorem correct_keeps (t : TimeSt) (th2 : Int) (mayStep : Bool) :
    (t.correct th2 mayStep).syncs = t.syncs ∧ (t.correct th2 mayStep).neighbours = t.neighbours := by
  unfold TimeSt.correct
  dsimp only
  split
  · exact ⟨rfl, rfl⟩
  · exact ⟨rfl, rfl⟩

theorem adopt_retimed (s : State) (p : Nat) (th2 : Int) : Retimed s (s.adopt p th2) := by
  unfold State.adopt
  split
  · exact .refl s
  · dsimp only
    split
    · exact .refl s
    · exact ⟨setTime_parts s _, (correct_keeps _ _ _).1, (correct_keeps _ _ _).2⟩

theorem discipline_retimed (s : State) (p : Nat) (valid : Bool) (dist : Nat) (th2 : Int) :
    Retimed s (s.discipline p valid dist th2) := by
  obtain ⟨syncs, neighbours⟩ := correct_keeps { s.time with parentDistance := dist } th2 false
  unfold State.discipline
  dsimp only
  split
  · exact .refl s
  · split
    · exact ⟨setTime_parts s _, rfl, rfl⟩
    · split
      · exact ⟨setTime_parts s _, syncs, neighbours⟩
      · exact ⟨setTime_parts s _, syncs, neighbours⟩

theorem retime_retimed (s : State) (p : Nat) (valid : Bool) (dist : Nat) (th2 : Int) :
    Retimed s (s.retime p valid dist th2) := by
  have seeking : Retimed s (if valid then s.adopt p th2 else s) := by
    split
    · exact adopt_retimed s p th2
    · exact .refl s
  have following : Retimed s (s.discipline p valid dist th2) := discipline_retimed s p valid dist th2
  unfold State.retime
  split
  · exact .refl s
  · exact seeking
  · exact seeking
  · exact following
  · exact following

theorem replied_parts (s : State) (p : Nat) (q : List Byte) (t4 : BitVec 80) : onlyParts [.time] s (s.replied p q t4) := by
  cases known : s.syncKnown p q with
  | false =>
    rw [replied_unknown known]
    exact onlyParts_refl _ s
  | true =>
    rw [replied_known known]
    exact onlyParts_trans (setTime_parts s _) (retime_retimed _ _ _ _ _).parts

/-! ## A parent is taken (R251) -/

theorem chooseParent_single {s : State} {n : Neighbour} (alone : s.time.neighbours = [n]) (valid : n.valid = true)
    (near : n.distance < 254) (usable : n.port ∈ s.syncPorts) : s.chooseParent = some n := by
  simp [State.chooseParent, alone, valid, near, usable]

/-- The only neighbour, valid and near enough, becomes the parent. -/
theorem adopt_single {s : State} {p d : Nat} (alone : s.time.neighbours = [⟨p, true, d⟩]) (near : d < 254)
    (usable : p ∈ s.syncPorts) (th2 : Int) : s.adopt p th2 = { s with time :=
      { s.time.correct th2 (s.time.state == .unlocked || decide (2 * 1000 * 2 ^ 16 < th2)) with
          state := .acquiring, parent := some p, parentDistance := d, good := 0 } } := by
  have chosen : s.chooseParent = some ⟨p, true, d⟩ := chooseParent_single alone rfl near usable
  rw [State.adopt, chosen]
  simp

/-! ## The parent's reply while ACQUIRING (R255) -/

/-- The good exchanges in a row after one with twice the offset θ. -/
def goodAfter (good : Nat) (th2 : Int) : Nat := if -(2 * 2 ^ 16) < th2 ∧ th2 < 2 * 2 ^ 16 then good + 1 else 0

theorem discipline_acquiring {s : State} {p : Nat} (parent : s.time.parent = some p) (acquires : s.time.state = .acquiring)
    (dist : Nat) (th2 : Int) : s.discipline p true dist th2 = { s with time := { s.time with
      parentDistance := dist, slew := th2 / 2, good := goodAfter s.time.good th2
      state := if 16 ≤ goodAfter s.time.good th2 then .locked else .acquiring } } := by
  unfold State.discipline
  dsimp only
  rw [if_neg (by simp [parent]), if_neg (by simp), correct_slews _ th2 (.inl rfl), if_pos acquires]
  rfl

/-! ## HOLDOVER (R255) -/

theorem fld_foldl_setFld (f : Fld) (v d : Nat) (ok : f.ok = true) (one : onePerDie f.reg = true) : ∀ (l : List Nat) (s : State),
    d ∈ l ∨ s.fld f d = v % 2 ^ f.width → (l.foldl (fun s e => s.setFld f e v) s).fld f d = v % 2 ^ f.width
  | [], _, h => h.resolve_left List.not_mem_nil
  | e :: l, s, h => by
    refine fld_foldl_setFld f v d ok one l _ ?_
    by_cases same : d = e
    · exact .inr (same ▸ fld_setFld s f d v ok)
    · refine h.imp (fun mem => (List.mem_cons.mp mem).resolve_left same) fun already => ?_
      have apart : regAddr f.reg e ≠ regAddr f.reg d := by
        rw [(regAddr_onePerDie one e).1, (regAddr_onePerDie one d).1]
        omega
      rw [fld_setFld_ne s f f e d v apart, already]

/-- The registers that entering HOLDOVER changes. -/
def holdoverRegs : List (RegName × Nat) :=
  [(.TIME_STATUS, 0), (.REPEAT_STATUS, 0), (.REPEAT_STATUS, 1), (.REPEAT_STATUS, 2), (.REPEAT_STATUS, 3)]

/-- The state of fabric time in HOLDOVER, with HOLDOVER_SEEN. -/
def State.holdoverSeen (s : State) : State :=
  { s with time := { s.time with state := .holdover, slew := 0, good := 0 } }.setFlag F.TIME_STATUS_HOLDOVER_SEEN 0 true

theorem intoHoldover_eq (s : State) : s.intoHoldover = s.holdoverSeen.setAll F.REPEAT_STATUS_TIME_UNLOCKED 4 1 := rfl

theorem intoHoldover_effect (s : State) : let t := s.intoHoldover
    t.time = { s.time with state := .holdover, slew := 0, good := 0 } ∧ t.flag F.TIME_STATUS_HOLDOVER_SEEN 0 = true
      ∧ (∀ d, d < 4 → t.fld F.REPEAT_STATUS_TIME_UNLOCKED d = 1)
      ∧ onlyParts [.regs, .time] s t ∧ onlyRegs holdoverRegs s t := by
  have stated := setTime_parts s { s.time with state := .holdover, slew := 0, good := 0 }
  have seen : s.holdoverSeen.flag F.TIME_STATUS_HOLDOVER_SEEN 0 = true := flag_setFlag _ _ _ _ (by decide)
  have all := setAll_parts s.holdoverSeen F.REPEAT_STATUS_TIME_UNLOCKED 4 1
  have repeats : regsAt (fun k => ∃ d < 4, k = regAddr .REPEAT_STATUS d) s.holdoverSeen s.intoHoldover :=
    regsAt_foldl _ _ _ fun s d hd => regsAt_setFld s F.REPEAT_STATUS_TIME_UNLOCKED d 1 ⟨d, List.mem_range.mp hd, rfl⟩
  have flagged : regsAt (· = regAddr .TIME_STATUS 0) s s.holdoverSeen :=
    regsAt_trans (regsAt_of_parts stated (by decide)) (regsAt_setFld _ F.TIME_STATUS_HOLDOVER_SEEN 0 _ rfl)
  have status : ¬ ∃ d < 4, regAddr .TIME_STATUS 0 = regAddr .REPEAT_STATUS d := fun ⟨d, _, e⟩ => by
    have base := base_le_regAddr .REPEAT_STATUS d
    rw [← e] at base
    exact absurd base (by decide)
  refine ⟨all .time (by decide), ?_, fun d hd => ?_, ?_,
    (regsAt_trans (regsAt_mono flagged ?_) (regsAt_mono repeats ?_)).onlyRegs⟩
  · rw [flag_of_reg F.TIME_STATUS_HOLDOVER_SEEN (repeats.reg _ 0 status), seen]
  · exact fld_foldl_setFld F.REPEAT_STATUS_TIME_UNLOCKED 1 d (by decide) (by decide) _ _ (.inl (List.mem_range.mpr hd))
  · exact onlyParts_trans (onlyParts_mono stated (by decide))
      (onlyParts_mono (onlyParts_trans (setFld_parts _ _ _ _) all) (by decide))
  · exact fun k e => ⟨(.TIME_STATUS, 0), List.mem_cons_self, e.symm⟩
  · rintro k ⟨d, hd, e⟩
    refine ⟨(.REPEAT_STATUS, d), List.mem_cons_of_mem _ ?_, e.symm⟩
    interval_cases d <;> decide

theorem exec_timeHoldoverTimeout (s : State) : exec .timeHoldoverTimeout s = .next s.holdover := rfl

theorem holdover_locked {s : State} (locked : s.time.state = .locked) : s.holdover = s.intoHoldover := if_pos locked

theorem holdover_other {s : State} (other : s.time.state ≠ .locked) : s.holdover = s := if_neg other

/-! ## TIME_SYNC_REPLY (R251 to R255) -/

/-- The ports that fabric time is exchanged on do not change without a port register. -/
theorem syncPorts_of {c : List Part} {s t : State} (a : Touches c offPorts s t)
    (h : ∀ p ∈ [Part.ports, .image, .epoch, .bank0, .bank1], p ∉ c) : t.syncPorts = s.syncPorts := by
  have kept (p : Part) (hp : p ∈ [Part.ports, .image, .epoch, .bank0, .bank1]) : p.same s t := a.parts p (h p hp)
  have ports : t.ports = s.ports := kept .ports (by decide)
  have image : t.image = s.image := kept .image (by decide)
  have cur := curBank_of (kept .epoch (by decide)) (kept .bank0 (by decide)) (kept .bank1 (by decide))
  unfold State.syncPorts State.linkCut State.cable
  rw [ports, image, cur, carries_of a (h .ports (by decide))]

theorem linkAsym_not_offPorts (i : Nat) : ¬ offPorts (regAddr .LINK_ASYM i) := by
  have address : regAddr .LINK_ASYM i = 0x20004008 + i / 32 * 0x100000 + i % 32 * 0x40 := by
    simp [regAddr, regRow, row_LINK_ASYM]
  rw [offPorts, address]
  omega

theorem replyTheta_of {c : List Part} {s t : State} (a : Touches c offPorts s t) (h : Part.ports ∉ c) (p : Nat) (q : List Byte)
    (t4 : BitVec 80) : t.replyTheta p q t4 = s.replyTheta p q t4 := by
  rw [State.replyTheta, blk_of_ports (a.parts .ports h), a.regs.fld F.LINK_ASYM_ASYM _ (linkAsym_not_offPorts _), State.replyTheta]

section
variable {s u : State} {port : Nat} {f : Frame} (received : (s.takeFrom .firmware port f).receive port f = (.complete, u))
  (t4 : BitVec 80)
include received

theorem exec_timeSyncReply (free : s.queuedBehind .firmware port f = false) (good : tailGood f = true) (mgmt : f.h.ftype = 8#4)
    (kind : mgmtKind f = 0x51) :
    exec (.timeSyncReply port f t4) s = .next ((u.ack port f.h).replied port f.payload t4) := by
  show execTimeSyncReply port f t4 s = _
  rw [execTimeSyncReply, free, if_neg Bool.false_ne_true, mgmtIn_complete good mgmt kind received]

theorem replied_acked_parts : onlyParts (.time :: .rxs :: coreParts) s ((u.ack port f.h).replied port f.payload t4) :=
  onlyParts_trans (onlyParts_mono (acked_touches received).parts (by decide))
    (onlyParts_mono (replied_parts _ port f.payload t4) (by decide))

theorem replied_acked_sameOuts : sameOuts s ((u.ack port f.h).replied port f.payload t4) :=
  (acked_sameOuts received).trans (sameOuts_of_parts (replied_parts _ port f.payload t4) (by decide))

theorem replied_acked_unknown (unknown : s.syncKnown port f.payload = false) :
    ((u.ack port f.h).replied port f.payload t4).time = s.time := by
  have time : (u.ack port f.h).time = s.time := (acked_touches received).parts .time (by decide)
  rw [replied_unknown (by rwa [State.syncKnown, time]), time]

/-- The acknowledgement of a reply changes nothing that its offset or the choice of a parent depends on. -/
theorem replied_acked_known (known : s.syncKnown port f.payload = true) :
    ∃ e : State, e.time = (s.exchanged port f.payload).time ∧ e.syncPorts = s.syncPorts
      ∧ (u.ack port f.h).replied port f.payload t4 =
        e.retime port (replyValid f.payload) (leAt f.payload 5 1) (s.replyTheta port f.payload t4) := by
  have acked := acked_touches received
  have time : (u.ack port f.h).time = s.time := acked.parts .time (by decide)
  refine ⟨(u.ack port f.h).exchanged port f.payload, ?_, syncPorts_of (s := s) (t := u.ack port f.h) acked (by decide), ?_⟩
  · rw [State.exchanged, State.exchanged, time]
  · rw [replied_known (by rwa [State.syncKnown, time]), replyTheta_of acked (by decide)]

end

/-- An exchange that has ended is no longer open, and the neighbour is recorded as it spoke. -/
theorem exchanged_time (s : State) (p : Nat) (q : List Byte) : (∀ x ∈ (s.exchanged p q).time.syncs, x.port ≠ p)
    ∧ ⟨p, replyValid q, leAt q 5 1⟩ ∈ (s.exchanged p q).time.neighbours :=
  ⟨fun _ hx => bne_iff_ne.mp (List.mem_filter.mp hx).2, List.mem_append_right _ (List.mem_singleton_self _)⟩

/-- The neighbour that answers first, valid and near enough, becomes the parent of a switch that has none (R251, R255). -/
theorem retime_adopts {e : State} {p d : Nat} (seeks : e.time.state = .unlocked ∨ e.time.state = .holdover)
    (alone : e.time.neighbours = [⟨p, true, d⟩]) (near : d < 254) (usable : p ∈ e.syncPorts) (th2 : Int) :
    let t := e.retime p true d th2
    t.time.state = .acquiring ∧ t.time.parent = some p ∧ t.time.parentDistance = d ∧ t.time.good = 0
      ∧ (e.time.state = .unlocked → 2 ≤ th2 → t.time.now = e.time.now + BitVec.ofInt 80 (th2 / 2) ∧ t.time.slew = 0)
      ∧ (e.time.state = .holdover → th2 ≤ 0 → t.time.now = e.time.now ∧ t.time.slew = th2 / 2) := by
  rw [retime_seeking _ _ _ _ seeks, if_pos rfl, adopt_single alone near usable]
  refine ⟨rfl, rfl, rfl, rfl, fun unlocked ahead => ?_, fun _ behind => ?_⟩
  · have step : (e.time.state == .unlocked || decide (2 * 1000 * 2 ^ 16 < th2)) = true := by rw [unlocked]; rfl
    dsimp only
    rw [step, correct_steps _ ahead]
    exact ⟨rfl, rfl⟩
  · dsimp only
    rw [correct_slews _ _ (.inr behind)]
    exact ⟨rfl, rfl⟩

/-- An exchange with the parent while ACQUIRING: the offset is slewed out, and the sixteenth good one in a row locks (R255). -/
theorem retime_disciplines {e : State} {p : Nat} (acquires : e.time.state = .acquiring) (parent : e.time.parent = some p)
    (dist : Nat) (th2 : Int) :
    let t := e.retime p true dist th2
    t.time.slew = th2 / 2 ∧ t.time.now = e.time.now ∧ t.time.parentDistance = dist ∧ t.time.good = goodAfter e.time.good th2
      ∧ (t.time.state = .locked ↔ 16 ≤ t.time.good) := by
  rw [retime_following _ _ _ _ (.inl acquires), discipline_acquiring parent acquires]
  refine ⟨rfl, rfl, rfl, rfl, ?_⟩
  dsimp only
  split
  · rename_i enough
    exact iff_of_true rfl enough
  · rename_i few
    exact iff_of_false (fun h => nomatch h) few

/-! ## O24 and O25 -/

/-- Settles O24: every usable port is asked in turn and what was sent before still waits; the answer to a TIME_SYNC waits on its
port; the parent's reply slews the offset out and counts good exchanges. -/
theorem fabricTime : Obligations.FabricTime := by
  unfold Obligations.FabricTime
  refine ⟨⟨fun s => ⟨_, exec_timeSyncPeriod s, ?_⟩, fun s u port f t2 free fresh good mgmt kind received lock _ _ =>
    ⟨_, exec_timeSync received t2 free good mgmt kind, ?_⟩, fun s locked => ⟨_, exec_timeHoldoverTimeout s, ?_⟩⟩,
    fun s u port f t4 th2 free _ _ good mgmt kind received known acquires parent valid offset =>
      ⟨_, exec_timeSyncReply received t4 free good mgmt kind, ?_⟩⟩
  · have synced := syncOns_synced s.syncPorts s
    have time := synced.time
    refine ⟨fun p hp => synced.noted p (.inl hp), ?_, ?_, ?_, keepsParts_of_onlyParts synced.sends.parts (by decide),
      synced.outs⟩
    all_goals rw [time]
  · obtain ⟨w, time, waits⟩ := syncAnswered_waits received t2 fresh lock
    obtain ⟨c, mem, dest, own, text⟩ := waits.copy
    obtain ⟨isReply, sid, distance, t1, stamp⟩ := syncReply_fields w f t2
    have parts := syncAnswered_parts received t2
    rw [← text] at isReply sid distance t1 stamp
    rw [distance_of_time time] at distance
    exact ⟨⟨c, mem, dest, own, isReply, sid, distance, t1, stamp⟩, parts .time (by decide),
      keepsParts_of_onlyParts parts (by decide)⟩
  · rw [holdover_locked locked]
    exact intoHoldover_effect s
  · have parts := replied_acked_parts received t4
    have outs := replied_acked_sameOuts received t4
    obtain ⟨e, time, -, eq⟩ := replied_acked_known received t4 known
    have theta : s.replyTheta port f.payload t4 = th2 := offset.symm
    have isValid : replyValid f.payload = true := valid
    have kept := retime_retimed e port true (leAt f.payload 5 1) th2
    obtain ⟨slew, now, distance, good, locked⟩ := retime_disciplines (e := e) (p := port) (by rw [time]; exact acquires)
      (by rw [time]; exact parent) (leAt f.payload 5 1) th2
    rw [time] at now good
    rw [theta, isValid] at eq
    rw [← eq] at kept slew now distance good locked
    exact ⟨slew, now, distance, good, locked, by rw [kept.syncs, time]; exact (exchanged_time s port f.payload).1,
      keepsParts_of_onlyParts parts (by decide), outs⟩

/-- Settles O25: what is sent in a period still waits on its port at the end; the ACK of a message leaves fabric time and what the
choice of a parent depends on; a reply then acts by the state of fabric time alone. -/
theorem timeExchangesComplete : Obligations.TimeExchangesComplete := by
  unfold Obligations.TimeExchangesComplete
  refine ⟨fun s fresh => ⟨_, exec_timeSyncPeriod s, ?_⟩, fun s port f x c k form => ?_,
    fun s u port f t2 free good mgmt kind received fresh => ⟨_, exec_timeSync received t2 free good mgmt kind, ?_⟩,
    fun s u port f t4 th2 free good mgmt kind received offset => ?_, fun s => ⟨_, exec_timeHoldoverTimeout s, ?_⟩⟩
  · have synced := syncOns_synced s.syncPorts s
    refine ⟨?_, fun none_ => by rw [none_]; rfl, fun p hp => ⟨synced.noted p (.inl hp), ?_⟩⟩
    · have time := synced.time
      rw [time]
    · obtain ⟨sid, waits⟩ := synced.waits (State.idsBelow_of_fresh fresh) p hp (syncPorts_lock hp)
      refine queuesOn_mono waits.queuesOn fun g ⟨type, text⟩ => ⟨type, ?_⟩
      rw [mgmtKind, text, syncBytes_kind]
  · obtain ⟨act, run⟩ := exec_timeMessage form s
    refine ⟨fun behind => ⟨s, ?_, rfl⟩, fun free other => ⟨_, ?_, rfl⟩,
      fun u free good mgmt kind received => ⟨_, ?_, rfl, ?_⟩⟩
    · rw [run, if_pos behind]
    · rw [run, free, if_neg Bool.false_ne_true, mgmtIn_other port act other]
    · rw [run, free, if_neg Bool.false_ne_true, mgmtIn_again good mgmt kind received]
    · have parts := (acked_touches received).parts
      exact ⟨parts .time (by decide), keepsParts_of_onlyParts parts (by decide)⟩
  · refine ⟨syncAnswered_parts received t2 .time (by decide), fun lock => ?_⟩
    obtain ⟨w, -, waits⟩ := syncAnswered_waits received t2 fresh lock
    obtain ⟨isReply, sid, -, -, stamp⟩ := syncReply_fields w f t2
    refine queuesOn_mono waits.queuesOn fun g ⟨type, text⟩ => ⟨type, ?_⟩
    rw [mgmtKind, text]
    exact ⟨isReply, sid, stamp⟩
  · have run := exec_timeSyncReply received t4 free good mgmt kind
    have theta : s.replyTheta port f.payload t4 = th2 := offset.symm
    refine ⟨fun unknown => ⟨_, run, replied_acked_unknown received t4 unknown⟩, fun known => ⟨_, run, ?_⟩⟩
    obtain ⟨e, time, ports, eq⟩ := replied_acked_known received t4 known
    obtain ⟨closed, heard⟩ := exchanged_time s port f.payload
    have kept := retime_retimed e port (replyValid f.payload) (leAt f.payload 5 1) th2
    rw [eq, theta]
    refine ⟨by rwa [kept.syncs, time], ?_, fun root => ?_, fun seeks alone usable near valid => ?_⟩
    · rw [kept.neighbours, time]
      exact heard
    · have isRoot : e.time.state = .root := by rw [time]; exact root
      rw [retime_root _ _ _ _ isRoot, time]
      exact ⟨rfl, root⟩
    · have isValid : replyValid f.payload = true := valid
      have state : e.time.state = s.time.state := by rw [time]; rfl
      have now : e.time.now = s.time.now := by rw [time]; rfl
      have only : e.time.neighbours = [⟨port, true, leAt f.payload 5 1⟩] := by
        rw [time, ← isValid]
        show s.time.neighbours.filter _ ++ _ = _
        rw [alone]
        rfl
      have adopted := retime_adopts (state ▸ seeks) only near (ports ▸ usable) th2
      rw [isValid]
      rwa [state, now] at adopted
  · refine ⟨fun locked => ?_, holdover_other⟩
    obtain ⟨time, seen, -⟩ := intoHoldover_effect s
    rw [holdover_locked locked]
    exact ⟨by rw [time], by rw [time], seen⟩

end Sys2Proof.Machine

/-! PROOFS. Discarded copies (spec/11_switch_core.md R294, R306): what is left in the packet buffer is what was queued or waited
there, but for its place in its VOQ and its cells. -/
namespace Sys2Proof.Machine

open Sys2Proof

/-! ## Copies that come from those of an earlier state -/

/-- A copy without its time at the head of its VOQ and the tag of its cells. -/
def Copy.bare (c : Copy) : Copy := { c with headSince := none, tag := 0, useCount := 0 }

/-- A copy's frame, start, mark and contents do not depend on where it stands. -/
theorem fields_of_bare {x y : Copy} (h : x.bare = y.bare) :
    x.cid = y.cid ∧ x.fid = y.fid ∧ x.started = y.started ∧ x.markBad = y.markBad ∧ x.out = y.out := by
  simp only [Copy.bare, Copy.mk.injEq] at h
  exact ⟨h.1, h.2.1, h.2.2.2.2.2.2.2.1, h.2.2.2.2.2.2.2.2.1, h.2.2.2.2.2.2.1⟩

/-- Every copy of t is one of s, and what waits for local cells in t waited in s. -/
structure Inherits (s t : State) : Prop where
  came : ∀ y ∈ t.allCopies, ∃ x ∈ s.allCopies, x.bare = y.bare
  waits : ∀ y ∈ t.waitingCopies, y ∈ s.waitingCopies

section
variable {s t u : State}

theorem Inherits.of_eq (copies : t.core.copies = s.core.copies) (backlog : t.core.backlog = s.core.backlog) : Inherits s t where
  came := fun y hy => ⟨y, by rwa [State.allCopies, State.waitingCopies, copies, backlog] at hy, rfl⟩
  waits := fun y hy => by rwa [State.waitingCopies, backlog] at hy

theorem Inherits.of_core (h : t.core = s.core) : Inherits s t := .of_eq (by rw [h]) (by rw [h])

theorem Inherits.refl (s : State) : Inherits s s := .of_core rfl

theorem Inherits.trans (a : Inherits s t) (b : Inherits t u) : Inherits s u where
  came := fun z hz => by
    obtain ⟨y, hy, same⟩ := b.came z hz
    obtain ⟨x, hx, earlier⟩ := a.came y hy
    exact ⟨x, hx, earlier.trans same⟩
  waits := fun z hz => a.waits z (b.waits z hz)

theorem HeadsOf.inherits (a : HeadsOf s t) : Inherits s t where
  came := fun y hy => by
    rcases List.mem_append.mp hy with queued | waiting
    · obtain ⟨x, hx, since, rfl⟩ := a.came y queued
      exact ⟨x, List.mem_append_left _ hx, rfl⟩
    · rw [State.waitingCopies, a.core] at waiting
      exact ⟨y, List.mem_append_right _ waiting, rfl⟩
  waits := fun y hy => by rwa [State.waitingCopies, a.core] at hy

theorem SamePackets.inherits (a : SamePackets s t) : Inherits s t := .of_eq (by rw [a.core]) (by rw [a.core])

end

theorem freeHeld_inherits (s : State) (fid : Nat) : Inherits s (s.freeHeld fid) := by
  unfold State.freeHeld
  split
  · exact .refl s
  · exact .of_eq rfl rfl

/-- Copies of a frame that waited take local cells. -/
theorem admitLocal_inherits {s t : State} (a : Inherits s t) {x : Held × List Copy} (hx : x ∈ s.core.backlog) :
    Inherits s (t.admitLocal x.1 x.2) := by
  have heads := (admitLocal_headsOf t x.1 x.2).inherits
  refine ⟨fun y hy => ?_, fun y hy => a.waits y (heads.waits y hy)⟩
  obtain ⟨z, hz, same⟩ := heads.came y hy
  rcases List.mem_append.mp hz with queued | waiting
  · rcases List.mem_append.mp queued with old | new
    · obtain ⟨w, hw, earlier⟩ := a.came z (List.mem_append_left _ old)
      exact ⟨w, hw, earlier.trans same⟩
    · obtain ⟨c, hc, rfl⟩ := List.mem_map.mp new
      exact ⟨c, List.mem_append_right _ (List.mem_flatten.mpr ⟨x.2, List.mem_map_of_mem hx, hc⟩), same⟩
  · exact ⟨z, List.mem_append_right _ (a.waits z waiting), same⟩

/-- A frame that waits goes on waiting. -/
theorem keepsWaiting_inherits {s t : State} (a : Inherits s t) {x : Held × List Copy} (hx : x ∈ s.core.backlog) :
    Inherits s (t.mapCore fun k => { k with backlog := k.backlog ++ [x] }) := by
  have waits : ∀ y ∈ (t.mapCore fun k => { k with backlog := k.backlog ++ [x] }).waitingCopies, y ∈ s.waitingCopies := by
    intro y hy
    obtain ⟨cs, hcs, mem⟩ := List.mem_flatten.mp hy
    obtain ⟨w, hw, rfl⟩ := List.mem_map.mp hcs
    rcases List.mem_append.mp hw with old | new
    · exact a.waits y (List.mem_flatten.mpr ⟨w.2, List.mem_map_of_mem old, mem⟩)
    · rw [List.mem_singleton.mp new] at mem
      exact List.mem_flatten.mpr ⟨x.2, List.mem_map_of_mem hx, mem⟩
  refine ⟨fun y hy => ?_, waits⟩
  rcases List.mem_append.mp hy with queued | waiting
  · exact a.came y (List.mem_append_left _ queued)
  · exact ⟨y, List.mem_append_right _ (waits y waiting), rfl⟩

theorem drainLocal_inherits (s : State) (d : Nat) : Inherits s (s.drainLocal d) := by
  unfold State.drainLocal
  refine List.foldlRecOn (motive := fun t : State => Inherits s t) _ _ ⟨fun y hy => ⟨y, ?_, rfl⟩, fun y hy => nomatch hy⟩
    fun t ht x hx => ?_
  · rcases List.mem_append.mp hy with queued | waiting
    · exact List.mem_append_left _ queued
    · exact nomatch waiting
  · split
    · exact keepsWaiting_inherits ht hx
    · exact admitLocal_inherits ht hx

theorem releaseCopy_inherits {s : State} {cid : Nat} {c : Copy} (found : s.copy? cid = some c) :
    Inherits (s.withoutCopy cid) (s.releaseCopy cid) := by
  have marked : Inherits (s.withoutCopy cid)
      ((s.mapCore fun k => { k with copies := k.copies.filter fun x => x.cid != cid }).markHead c.die c.src c.dest c.vc) :=
    (markHead_headsOf _ _ _ _ _).inherits
  rw [State.releaseCopy, found]
  dsimp only
  generalize State.markHead _ c.die c.src c.dest c.vc = t at marked ⊢
  split
  · exact marked
  · refine marked.trans (.trans ?_ ((drainLocal_inherits _ _).trans (refreshDie_samePackets _ _).inherits))
    repeat' split
    · exact freeHeld_inherits _ _
    · exact .refl _
    · exact freeHeld_inherits _ _
    · exact .of_eq rfl rfl

theorem dropCopy_inherits (s : State) (cid : Nat) : Inherits (s.withoutCopy cid) (s.dropCopy cid) := by
  unfold State.dropCopy
  split
  · rename_i none_
    have kept : s.core.copies.filter (fun x => x.cid != cid) = s.core.copies :=
      List.filter_eq_self.mpr fun x hx => by simpa using List.find?_eq_none.mp none_ x hx
    exact .of_eq kept.symm rfl
  · rename_i c found
    exact (releaseCopy_inherits found).trans (.of_core (msgSent_core _ _))

theorem withoutCopy_inherits (s : State) (cid : Nat) : Inherits s (s.withoutCopy cid) where
  came := fun y hy => by
    rcases List.mem_append.mp hy with queued | waiting
    · exact ⟨y, List.mem_append_left _ (List.mem_filter.mp queued).1, rfl⟩
    · exact ⟨y, List.mem_append_right _ waiting, rfl⟩
  waits := fun _ hy => hy

/-! ## Copies that satisfy a test are discarded -/

/-- The backlog without the copies that satisfy a test, and without the frames that have no other. -/
def backlogWithout (q : Copy → Bool) (l : List (Held × List Copy)) : List (Held × List Copy) :=
  (l.map fun x => ({ x.1 with refcount := (x.2.filter fun c => !q c).length }, x.2.filter fun c => !q c)).filter
    fun x => !x.2.isEmpty

theorem dropWaiting_eq (s : State) (q : Copy → Bool) :
    (s.dropWaiting q).core = { s.core with backlog := backlogWithout q s.core.backlog } :=
  List.foldlRecOn (motive := fun t : State => t.core = { s.core with backlog := backlogWithout q s.core.backlog }) _ _ rfl
    fun t ht c _ => (msgSent_core t c.msg).trans ht

theorem dropWaiting_copies (s : State) (q : Copy → Bool) : (s.dropWaiting q).core.copies = s.core.copies := by rw [dropWaiting_eq]

theorem dropWaiting_waits (s : State) (q : Copy → Bool) :
    ∀ c ∈ (s.dropWaiting q).waitingCopies, c ∈ s.waitingCopies ∧ q c = false := by
  intro c hc
  rw [State.waitingCopies, dropWaiting_eq] at hc
  obtain ⟨cs, hcs, mem⟩ := List.mem_flatten.mp hc
  obtain ⟨x, hx, rfl⟩ := List.mem_map.mp hcs
  obtain ⟨y, hy, rfl⟩ := List.mem_map.mp (List.mem_filter.mp hx).1
  obtain ⟨mem, no⟩ := List.mem_filter.mp mem
  exact ⟨List.mem_flatten.mpr ⟨y.2, List.mem_map_of_mem hy, mem⟩, by simpa using no⟩

section
variable {q : Copy → Bool} (bare : ∀ c, q c.bare = q c)
include bare

theorem test_of_bare {x y : Copy} (h : x.bare = y.bare) : q x = q y := by rw [← bare x, h, bare y]

/-- Once every queued copy that satisfies the test has been discarded in turn, none is left where none waits. -/
theorem dropEach_inherits : ∀ (cids : List Nat) (s : State), (∀ x ∈ s.core.copies, q x = true → x.cid ∈ cids) →
    (∀ x ∈ s.waitingCopies, q x = false) →
    Inherits s (cids.foldl State.dropCopy s) ∧ ∀ x ∈ (cids.foldl State.dropCopy s).allCopies, q x = false
  | [], s, listed, waits => by
    refine ⟨.refl s, fun x hx => ?_⟩
    rcases List.mem_append.mp hx with queued | waiting
    · exact Bool.eq_false_iff.mpr fun yes => nomatch listed x queued yes
    · exact waits x waiting
  | cid :: cids, s, listed, waits => by
    have dropped := dropCopy_inherits s cid
    have left : ∀ y ∈ (s.dropCopy cid).core.copies, q y = true → y.cid ∈ cids := fun y hy yes => by
      obtain ⟨x, hx, same⟩ := dropped.came y (List.mem_append_left _ hy)
      have tested : q x = true := (test_of_bare bare same).trans yes
      rw [← (fields_of_bare same).1]
      rcases List.mem_append.mp hx with queued | waiting
      · obtain ⟨mem, other⟩ := List.mem_filter.mp queued
        exact (List.mem_cons.mp (listed x mem tested)).resolve_left (bne_iff_ne.mp other)
      · exact absurd tested (Bool.eq_false_iff.mp (waits x waiting))
    obtain ⟨rest, gone⟩ := dropEach_inherits cids (s.dropCopy cid) left fun y hy => waits y (dropped.waits y hy)
    exact ⟨((withoutCopy_inherits s cid).trans dropped).trans rest, gone⟩

/-- The packet buffer that is left comes from the one before, and no copy in it satisfies the test. -/
theorem dropCopies_inherits (s : State) : Inherits s (s.dropCopies q) ∧ ∀ x ∈ (s.dropCopies q).allCopies, q x = false := by
  have waits := dropWaiting_waits s q
  have copies := dropWaiting_copies s q
  have fewer : Inherits s (s.dropWaiting q) := by
    refine ⟨fun y hy => ⟨y, ?_, rfl⟩, fun y hy => (waits y hy).1⟩
    rcases List.mem_append.mp hy with queued | waiting
    · exact List.mem_append_left _ (copies ▸ queued)
    · exact List.mem_append_right _ (waits y waiting).1
  obtain ⟨rest, gone⟩ := dropEach_inherits bare ((s.core.copies.filter q).map (·.cid)) (s.dropWaiting q)
    (fun x hx yes => List.mem_map_of_mem (List.mem_filter.mpr ⟨copies ▸ hx, yes⟩)) fun x hx => (waits x hx).2
  exact ⟨fewer.trans rest, gone⟩

end

end Sys2Proof.Machine

/-! PROOFS. The tail's verdict, relays and the sweep of the count memory (spec/10_addressing_routing.md R590; 11_switch_core.md R303,
R308). -/
namespace Sys2Proof.Machine

open Sys2Proof

/-! ## What a word of SRAM, the chiplet bridge and the lanes report (R18, R26, R403) -/

/-- The registers outside the fabric dies. -/
def outsideDies (k : Nat) : Prop := inControl k ∨ aboveDies k

theorem not_outsideDies {n : RegName} (h : onePerDie n = true) {d : Nat} (hd : d < 4) : ¬ outsideDies (regAddr n d) := by
  obtain ⟨low, high⟩ := (inDie_regAddr h d d).mpr rfl
  unfold outsideDies inControl aboveDies
  omega

theorem raise_touches (s : State) (die block inst kind address detail : Nat) :
    Touches [.regs, .wt] outsideDies s (s.raise die block inst kind address detail) := by
  refine (raiseMsg_touches s _).mono (fun _ => id) fun k e => .inl ?_
  rw [e, inControl, regAddr_kindPending]
  have : (faultMsg die block inst kind address detail).kind.toNat < 256 := BitVec.isLt _
  omega

/-- A word read is dead where its errors are uncorrectable; one that was corrected is reported. -/
theorem sramRead_effect (s : State) (die blk inst : Nat) (e : WordErr) : (s.sramRead die blk inst e).1 = wordDead e
    ∧ Touches [.regs, .wt] outsideDies s (s.sramRead die blk inst e).2 := by
  unfold State.sramRead wordDead
  cases wordRead e with
  | clean => exact ⟨rfl, .refl _ _ s⟩
  | corrected _ => exact ⟨rfl, raise_touches s _ _ _ _ _ _⟩
  | uncorrectable => exact ⟨rfl, .refl _ _ s⟩

theorem crossUnit_effect (s : State) (d : Nat) {inst : Nat} (h : 4 ≤ inst) (e : WordErr) :
    (s.crossUnit d inst e).1 = wordDead e ∧ Touches [.regs, .wt] outsideDies s (s.crossUnit d inst e).2 := by
  unfold State.crossUnit wordDead
  cases wordRead e with
  | clean => exact ⟨rfl, .refl _ _ s⟩
  | corrected _ => exact ⟨rfl, raise_touches s _ _ _ _ _ _⟩
  | uncorrectable =>
    refine ⟨rfl, ?_⟩
    dsimp only
    rw [if_neg (Nat.not_lt.mpr h)]
    exact .refl _ _ s

theorem chipletUnit_effect (s : State) (p : Nat) (e : WordErr) :
    (s.chipletUnit p e).1 = ((s.port? p).isSome && wordDead e)
      ∧ Touches [.regs, .wt] outsideDies s (s.chipletUnit p e).2 := by
  unfold State.chipletUnit
  cases s.port? p with
  | none => exact ⟨rfl, .refl _ _ s⟩
  | some c => exact crossUnit_effect s (dieOf p) (by omega) e

theorem chipletUnit_clean (s : State) (p : Nat) : s.chipletUnit p [] = (false, s) := by
  unfold State.chipletUnit
  cases s.port? p <;> rfl

theorem countWords_touches (s : State) (p : Nat) (rx : TailRx) : Touches [.regs] outsideDies s (s.countWords p rx) := by
  have counted (s : State) (f : Fld) (i k : Nat) (h : 0x20000000 ≤ (regRow f.reg).base) :
      Touches [.regs] outsideDies s (s.bumpBy f i k) := setFld_touches s f i _ (.inr (aboveDies_of_base h i))
  unfold State.countWords
  split
  · exact .refl _ _ s
  · split
    · exact .refl _ _ s
    · refine (counted s _ _ _ (by decide)).trans (Touches.foldl _ _ _ fun s x _ => ?_)
      split
      · exact .refl _ _ s
      · split
        · exact counted s _ _ _ (by decide)
        · split
          · exact counted s _ _ _ (by decide)
          · exact .refl _ _ s

/-! ## FRAME_TAIL_VERDICT (R303) -/

/-- What the lanes of a frame's port have counted as its tail came. -/
def State.tailCounted (s : State) (h : Held) (rx : TailRx) : State :=
  if h.src < 64 then s.countWords (64 * h.die + h.src) rx else s

/-- What a packet cell of the frame and a unit of it on the chiplet bridge have reported as well. -/
def State.tailSeen (s : State) (h : Held) (rx : TailRx) (cell unit : WordErr) : State :=
  let u := ((s.tailCounted h rx).sramRead h.die blkBuffer 0 cell).2
  if h.src < 64 then (u.chipletUnit (64 * h.die + h.src) unit).2 else u

/-- Is a word that the frame was read from uncorrectable? -/
def State.tailDead (s : State) (h : Held) (cell unit : WordErr) : Bool :=
  wordDead cell || (decide (h.src < 64) && (s.port? (64 * h.die + h.src)).isSome && wordDead unit)

/-- The tail of a held frame is judged. -/
def State.tailIs (s : State) (fid : Nat) (v : Tail) : State := s.mapHeld fid fun x => { x with tail := v }

/-- A frame with unstarted copies is counted in TAIL_DISCARDS of its die. -/
def State.tailDiscard (s : State) (fid d : Nat) : State :=
  if (s.core.copies.any fun c => c.fid == fid && !c.started) = true then s.bump F.TAIL_EVENTS_TAIL_DISCARDS d else s

/-- Started copies of a frame leave with BAD and its cause. -/
def State.markStarted (s : State) (fid : Nat) (cause : BitVec 3) : State :=
  s.mapCore fun k => { k with copies := k.copies.map fun c =>
    if c.fid = fid && c.started then { c with markBad := some cause } else c }

/-- A frame with a bad tail: its started copies are marked, the others discarded. -/
def State.tailFails (s : State) (fid d : Nat) (cause : BitVec 3) : State :=
  (((s.tailIs fid (.bad cause)).tailDiscard fid d).markStarted fid cause).dropCopies fun c => c.fid == fid && !c.started

theorem tailCounted_touches (s : State) (h : Held) (rx : TailRx) : Touches [.regs] outsideDies s (s.tailCounted h rx) := by
  unfold State.tailCounted
  split
  · exact countWords_touches s _ rx
  · exact .refl _ _ s

theorem tailSeen_touches (s : State) (h : Held) (rx : TailRx) (cell unit : WordErr) :
    Touches [.regs, .wt] outsideDies s (s.tailSeen h rx cell unit) := by
  have read := ((tailCounted_touches s h rx).mono (d := [.regs, .wt]) (by decide) fun _ => id).trans
    (sramRead_effect _ h.die blkBuffer 0 cell).2
  unfold State.tailSeen
  dsimp only
  split
  · exact read.trans (chipletUnit_effect _ _ unit).2
  · exact read

theorem tailSeen_clean (s : State) (h : Held) (rx : TailRx) : s.tailSeen h rx [] [] = s.tailCounted h rx := by
  unfold State.tailSeen
  dsimp only
  rw [chipletUnit_clean, ite_self]
  rfl

theorem tailSeen_dead (s : State) (h : Held) (rx : TailRx) (cell unit : WordErr) :
    let u := (s.tailCounted h rx).sramRead h.die blkBuffer 0 cell
    (u.1 || (if h.src < 64 then u.2.chipletUnit (64 * h.die + h.src) unit else (false, u.2)).1) = s.tailDead h cell unit := by
  intro u
  obtain ⟨dead, read⟩ := sramRead_effect (s.tailCounted h rx) h.die blkBuffer 0 cell
  have ports : u.2.ports = s.ports :=
    (read.parts .ports (by decide)).trans ((tailCounted_touches s h rx).parts .ports (by decide))
  unfold State.tailDead
  rw [show u.1 = wordDead cell from dead]
  by_cases port : h.src < 64
  · rw [if_pos port, (chipletUnit_effect _ _ unit).1, State.port?, ports, ← State.port?, decide_eq_true port, Bool.true_and]
  · rw [if_neg port, decide_eq_false port]
    rfl

theorem not_verdictBad (h : Held) (fec dead : Bool) : (!verdictBad h fec dead) = (tailGood h.frame && !fec && !dead) := by
  simp [verdictBad]

section
variable {s : State} {fid : Nat} {h : Held} (found : s.held? fid = some h) (pending : h.tail = .pending)
include found pending

theorem exec_frameTailVerdict (rx : TailRx) (cell unit : WordErr) : exec (.frameTailVerdict fid rx ⟨cell, unit⟩) s =
    if (tailGood h.frame && !rxBad rx && !s.tailDead h cell unit) = true
      then .next ((s.tailSeen h rx cell unit).tailIs fid .good)
      else .next ((s.tailSeen h rx cell unit).tailFails fid h.die
        (verdictCause h.frame.t (rxBad rx) (s.tailDead h cell unit))) := by
  rw [← tailSeen_dead s h rx cell unit, ← not_verdictBad]
  have seen : s.tailSeen h rx cell unit = (if h.src < 64
      then ((s.tailCounted h rx).sramRead h.die blkBuffer 0 cell).2.chipletUnit (64 * h.die + h.src) unit
      else (false, ((s.tailCounted h rx).sramRead h.die blkBuffer 0 cell).2)).2 := by
    unfold State.tailSeen
    dsimp only
    split <;> rfl
  rw [seen]
  show execFrameTailVerdict fid rx ⟨cell, unit⟩ s = _
  rw [execFrameTailVerdict, found]
  dsimp only
  rw [pending]
  rfl

end

theorem tailIs_held? {s : State} {fid : Nat} {h : Held} (found : s.held? fid = some h) (v : Tail) :
    (s.tailIs fid v).held? fid = some { h with tail := v } := by
  have isFid : h.fid = fid := by simpa using List.find?_some found
  have same : ((fun x : Held => x.fid == fid) ∘ fun x => if x.fid = fid then { x with tail := v } else x)
      = fun x => x.fid == fid := by
    funext x
    rw [Function.comp_apply]
    split <;> rfl
  show (s.core.held.map fun x => if x.fid = fid then { x with tail := v } else x).find? (fun x => x.fid == fid) = _
  rw [List.find?_map, same, show s.core.held.find? (fun x => x.fid == fid) = some h from found, Option.map_some, if_pos isFid]

theorem tailPasses_effect {s : State} {fid : Nat} {h : Held} (found : s.held? fid = some h) (rx : TailRx) (cell unit : WordErr) :
    let t := (s.tailSeen h rx cell unit).tailIs fid .good
    t.held? fid = some { h with tail := .good } ∧ t.core.copies = s.core.copies ∧ onlyParts [.regs, .core, .wt] s t
      ∧ (cell = [] → unit = [] → onlyParts [.regs, .core] s t) := by
  intro t
  have seen := tailSeen_touches s h rx cell unit
  have core : (s.tailSeen h rx cell unit).core = s.core := seen.parts .core (by decide)
  have judged : onlyParts [.core] (s.tailSeen h rx cell unit) t := mapHeld_parts _ _ _
  refine ⟨tailIs_held? (by rwa [State.held?, core]) _, congrArg CoreSt.copies (a₁ := (s.tailSeen h rx cell unit).core) core,
    onlyParts_trans (onlyParts_mono seen.parts (by decide)) (onlyParts_mono judged (by decide)), fun clean calm => ?_⟩
  have quiet : onlyParts [.regs] s (s.tailSeen h rx cell unit) := by
    rw [clean, calm, tailSeen_clean]
    exact (tailCounted_touches s h rx).parts
  exact onlyParts_trans (onlyParts_mono quiet (by decide)) (onlyParts_mono judged (by decide))

/-- Of the registers of the packet buffer only REFCOUNT_STATUS and PORT_BUFFER show what leaves it. -/
theorem tailEvents_not_buffer (d : Nat) : ¬ bufferRegs (regAddr .TAIL_EVENTS d) := by
  rw [(regAddr_onePerDie (n := .TAIL_EVENTS) (by decide) d).1, show (regRow .TAIL_EVENTS).base = 0x10000708 from rfl]
  rintro (⟨e, same⟩ | ⟨p, same⟩)
  · rw [regAddr_refcountStatus] at same
    omega
  · rw [regAddr_portBuffer] at same
    omega

theorem tailDiscard_counts (s : State) (fid d : Nat) : (s.tailDiscard fid d).fld F.TAIL_EVENTS_TAIL_DISCARDS d
    = satAdd 16 (s.fld F.TAIL_EVENTS_TAIL_DISCARDS d) (b2n (s.core.copies.any fun c => c.fid == fid && !c.started)) := by
  unfold State.tailDiscard
  split
  · rename_i any
    rw [any]
    exact fld_bump s _ d (by decide)
  · rename_i none_
    rw [Bool.eq_false_iff.mpr none_]
    exact (satAdd_zero (fld_lt s _ d)).symm

theorem tailDiscard_parts (s : State) (fid d : Nat) : onlyParts [.regs] s (s.tailDiscard fid d) := by
  unfold State.tailDiscard
  split
  · exact bump_parts s _ d
  · exact onlyParts_refl _ s

/-- Of the copies of a frame whose tail is bad those are left that had started, marked. -/
theorem tailFails_copies {s : State} (fid d : Nat) (cause : BitVec 3) (unstarted : ∀ c ∈ s.waitingCopies, c.started = false) :
    ∀ c ∈ (s.tailFails fid d cause).core.copies, c.fid = fid → c.started = true ∧ c.markBad = some cause := by
  intro c hc own
  obtain ⟨came, gone⟩ := dropCopies_inherits (q := fun c => c.fid == fid && !c.started) (fun _ => rfl)
    (((s.tailIs fid (.bad cause)).tailDiscard fid d).markStarted fid cause)
  have mem : c ∈ (s.tailFails fid d cause).allCopies := List.mem_append_left _ hc
  have started : c.started = true := by simpa [own] using gone c mem
  have core : ((s.tailIs fid (.bad cause)).tailDiscard fid d).core = (s.tailIs fid (.bad cause)).core :=
    tailDiscard_parts _ fid d .core (by decide)
  obtain ⟨x, hx, same⟩ := came.came c mem
  obtain ⟨-, sameFid, sameStart, sameMark, -⟩ := fields_of_bare same
  refine ⟨started, sameMark.symm.trans ?_⟩
  rcases List.mem_append.mp hx with queued | waiting
  · obtain ⟨y, -, rfl⟩ := List.mem_map.mp queued
    by_cases marked : (decide (y.fid = fid) && y.started) = true
    · rw [if_pos marked]
    · rw [if_neg marked] at sameFid sameStart
      exact absurd (by rw [sameFid, sameStart, own, started, decide_eq_true rfl]; rfl) marked
  · rw [State.waitingCopies, State.markStarted, State.mapCore] at waiting
    dsimp only at waiting
    rw [core] at waiting
    exact absurd ((unstarted x waiting).symm.trans (sameStart.trans started)) Bool.false_ne_true

theorem waiting_unstarted {s : State} (fresh : s.idsFresh = true) : ∀ c ∈ s.waitingCopies, c.started = false := by
  intro c hc
  simp only [State.idsFresh, Bool.and_eq_true, List.all_eq_true] at fresh
  obtain ⟨⟨⟨-, waits⟩, -⟩, -⟩ := fresh
  obtain ⟨cs, hcs, mem⟩ := List.mem_flatten.mp hc
  obtain ⟨x, hx, rfl⟩ := List.mem_map.mp hcs
  simpa using ((waits x hx).2 c mem).1.2

theorem tailFails_effect {s : State} {fid : Nat} {h : Held} (die : h.die < 4) (fresh : s.idsFresh = true) (rx : TailRx)
    (cell unit : WordErr) (cause : BitVec 3) :
    let t := (s.tailSeen h rx cell unit).tailFails fid h.die cause
    (∀ c ∈ t.core.copies, c.fid = fid → c.started = true ∧ c.markBad = some cause)
      ∧ t.fld F.TAIL_EVENTS_TAIL_DISCARDS h.die = satAdd 16 (s.fld F.TAIL_EVENTS_TAIL_DISCARDS h.die)
          (b2n (s.core.copies.any fun c => c.fid == fid && !c.started))
      ∧ onlyParts [.regs, .core, .outs, .wt] s t := by
  have seen := tailSeen_touches s h rx cell unit
  have core : (s.tailSeen h rx cell unit).core = s.core := seen.parts .core (by decide)
  have count : (s.tailSeen h rx cell unit).fld F.TAIL_EVENTS_TAIL_DISCARDS h.die = s.fld F.TAIL_EVENTS_TAIL_DISCARDS h.die :=
    seen.regs.fld _ _ (not_outsideDies (by decide) die)
  generalize s.tailSeen h rx cell unit = u at *
  have dropped := dropCopies_touches (((u.tailIs fid (.bad cause)).tailDiscard fid h.die).markStarted fid cause)
    fun c => c.fid == fid && !c.started
  refine ⟨tailFails_copies fid h.die cause ?_, ?_, onlyParts_trans (onlyParts_mono seen.parts (by decide))
    (onlyParts_trans (onlyParts_trans (onlyParts_mono (mapHeld_parts u _ _) (by decide))
      (onlyParts_mono (tailDiscard_parts _ _ _) (by decide))) (onlyParts_trans (onlyParts_mono (mapCore_parts _ _) (by decide))
        (onlyParts_mono dropped.parts (by decide))))⟩
  · rw [State.waitingCopies, core]
    exact waiting_unstarted fresh
  · rw [State.tailFails, dropped.regs.fld _ _ (tailEvents_not_buffer _)]
    show ((u.tailIs fid (.bad cause)).tailDiscard fid h.die).fld _ _ = _
    rw [tailDiscard_counts]
    show satAdd 16 (u.fld _ _) (b2n (u.core.copies.any _)) = _
    rw [count, core]

/-! ## RELAY_FRAME (R590) -/

theorem relayLeaf_sends {s : State} {port : Nat} {f : Frame} (may : relayable f.h = true) (good : tailGood f = true)
    (own : relayOf f.h = s.image.ownFlat) (some_ : relayOf f.h ≠ 0) {ps : List Nat} {q : Nat}
    (group : s.route s.curBank (s.stamp 0 (relayed f 0 true)).h false = .group ps)
    (spray : s.spray ps (s.stamp 0 (relayed f 0 true)).h = some q) :
    exec (.relayFrame port f true) s = .next (s.queueOwn q (s.stamp 0 (relayed f 0 true)) none) := by
  have mine : (decide (relayOf f.h = s.image.ownFlat) && relayOf f.h != 0) = true := by
    rw [decide_eq_true own, Bool.true_and, bne_iff_ne]
    exact some_
  show execRelayFrame port f true s = _
  rw [execRelayFrame, may, good, if_neg (by decide), if_neg (by decide), if_pos mine, State.sendRelay, group]
  dsimp only
  rw [spray]

theorem relayFrame_repeated {s : State} {port : Nat} {f : Frame} (may : relayable f.h = true) (good : tailGood f = true)
    (other : relayOf f.h ≠ s.image.ownFlat ∨ relayOf f.h = 0) (before : relayedOf f.h = true)
    (route : s.route (s.dieBank (dieOf port) f.h.epoch) f.h (s.cable port).uplink = .relay) :
    exec (.relayFrame port f true) s = .next (s.bumpDies F.ROUTE_DISCARDS_NO_ROUTE) := by
  have notOwn : ¬ (decide (relayOf f.h = s.image.ownFlat) && relayOf f.h != 0) = true := by
    rcases other with other | none_ <;> simp [*]
  show execRelayFrame port f true s = _
  rw [execRelayFrame, may, good, if_neg (by decide), if_neg (by decide), if_neg notOwn, route, before]
  rfl

theorem relayFrame_noRoom {s : State} {port : Nat} {f : Frame} (may : relayable f.h = true) (good : tailGood f = true) :
    exec (.relayFrame port f false) s = .next s.fwDiscard := by
  show execRelayFrame port f false s = _
  simp [execRelayFrame, may, good]

/-- What a counter's register holds after an event depends on what it held. -/
theorem reg_bump_congr {s t : State} {f : Fld} {d : Nat} (ok : f.ok = true) (h : t.reg f.reg d = s.reg f.reg d) :
    (t.bump f d).reg f.reg d = (s.bump f d).reg f.reg d := by
  have written (u : State) : (u.bump f d).reg f.reg d
      = setBitsOf (u.reg f.reg d) f.hi f.lo (satAdd f.width (bitsOf (u.reg f.reg d) f.hi f.lo) 1) :=
    reg_setReg _ _ _ _ (setField_lt u f d _ ok)
  rw [written, written, h]

theorem reg_foldl_bump {f : Fld} (ok : f.ok = true) (one : onePerDie f.reg = true) (d : Nat) : ∀ (l : List Nat) (s : State),
    l.Nodup → (d ∈ l → (l.foldl (fun s e => s.bump f e) s).reg f.reg d = (s.bump f d).reg f.reg d)
      ∧ (d ∉ l → (l.foldl (fun s e => s.bump f e) s).reg f.reg d = s.reg f.reg d)
  | [], s, _ => ⟨fun h => absurd h List.not_mem_nil, fun _ => rfl⟩
  | e :: l, s, nodup => by
    obtain ⟨fresh, rest⟩ := List.nodup_cons.mp nodup
    obtain ⟨hit, missed⟩ := reg_foldl_bump ok one d l (s.bump f e) rest
    by_cases same : d = e
    · subst same
      exact ⟨fun _ => missed fresh, fun h => absurd List.mem_cons_self h⟩
    · have apart : regAddr f.reg e ≠ regAddr f.reg d := by
        rw [(regAddr_onePerDie one e).1, (regAddr_onePerDie one d).1]
        omega
      have kept : (s.bump f e).reg f.reg d = s.reg f.reg d := reg_setReg_ne s _ _ _ _ _ apart
      refine ⟨fun h => ?_, fun h => (missed fun mem => h (List.mem_cons_of_mem _ mem)).trans kept⟩
      exact (hit ((List.mem_cons.mp h).resolve_left same)).trans (reg_bump_congr ok kept)

theorem bumpDies_counted (s : State) {f : Fld} (ok : f.ok = true) (one : onePerDie f.reg = true) :
    countedOnDies f s (s.bumpDies f) := by
  refine ⟨fun d hd => ?_, regsAt.onlyRegs (regsAt_foldl _ (List.range 4) s fun s d hd => ?_)⟩
  · have reg := (reg_foldl_bump ok one d (List.range 4) s List.nodup_range).1 (List.mem_range.mpr hd)
    refine ⟨(fld_of_reg f reg).trans (fld_bump s f d ok), fun b apart => ?_⟩
    rw [State.bumpDies, reg]
    exact onlyField_setFld s f d _ ok b apart
  · exact regsAt_setFld s f d _ ⟨(f.reg, d), List.mem_map_of_mem hd, rfl⟩

/-- A relayed frame waits on its port with RELAY zero, RELAYED 1 and a fresh SEQ, and is the frame that came otherwise. -/
theorem relayLeaf_effect {s : State} (fresh : s.idsFresh = true) {f : Frame} (may : relayable f.h = true) (q : Nat) :
    let t := s.queueOwn q (s.stamp 0 (relayed f 0 true)) none
    (∃ c ∈ t.allCopies, c.dest = .port q ∧ c.own = true ∧ relayOf c.out.h = 0 ∧ relayedOf c.out.h = true
        ∧ c.out.h.seq = s.seqAhead 0 ∧ c.out.h.dest = f.h.dest ∧ c.out.h.src = f.h.src ∧ c.out.h.msgId = f.h.msgId
        ∧ c.out.h.attempt = f.h.attempt ∧ c.out.h.msgLen = f.h.msgLen ∧ c.out.payload = f.payload)
      ∧ onlyParts [.regs, .core, .outs] s t := by
  intro t
  have below := State.idsBelow_of_fresh fresh
  obtain ⟨c, new, dest, out, holds⟩ := queueOwn_holds s q (s.stamp 0 (relayed f 0 true)) none below
  obtain ⟨since, mem⟩ := holds.mem
  obtain ⟨own, -⟩ := queueOwn_new q (s.stamp 0 (relayed f 0 true)) none below _ mem
    (Nat.le_trans (Nat.le_succ _) (Nat.le_of_eq new.symm))
  refine ⟨⟨_, mem, dest, own, ?_⟩, (queueOwn_moves s q _ none).parts⟩
  dsimp only
  rw [out]
  have addr : (s.stamp 0 (relayed f 0 true)).h.remoteAddr = 0x1000000#64 ||| (0#24).setWidth 64 := rfl
  have may' : relayable (s.stamp 0 (relayed f 0 true)).h = true := may
  refine ⟨?_, ?_, rfl, rfl, rfl, rfl, rfl, rfl, rfl⟩
  · rw [relayOf, if_pos may', addr]
    decide
  · rw [relayedOf, may', addr]
    decide

/-! ## The sweep of the count memory (R308) -/

theorem exec_restoreCounts (s : State) {die : Nat} (h : die < 4) : exec (.restoreCounts die) s = .next (s.startSweep die) := if_pos h

/-- No sweep of a die runs any more. -/
def State.sweepEnds (s : State) (die : Nat) : State := s.mapCore fun c => { c with sweeping := c.sweeping.filter (· != die) }

/-- The held frames of a die hold the counts of their copies. -/
def State.recounted (s : State) (die : Nat) : State := s.mapCore fun c => { c with
  held := c.held.map fun h => if h.die = die then { h with refcount := s.countOf h.fid } else h }

/-- The frames of a die of which no copy is queued. -/
def State.unnamed (s : State) (die : Nat) : List Nat := (s.core.held.filter fun h => h.die == die && h.refcount == 0).map (·.fid)

/-- The counts of a die are those of its queues, and frames that no queue names are gone. -/
def State.countsRestored (s : State) (die : Nat) : State :=
  ((s.recounted die).unnamed die).foldl State.freeHeld (s.recounted die)

/-- Fallback ends, and frames that wait for local cells find those that fell free. -/
def State.fallbackEnds (s : State) (die : Nat) : State :=
  ((s.setFlag F.REFCOUNT_STATUS_REFCOUNT_FALLBACK die false).drainLocal die).refreshDie die

section
variable {s : State} {die : Nat} (runs : s.core.sweeping.contains die = true)
include runs

theorem exec_refcountSweepDone (count : WordErr) : exec (.refcountSweepDone die count) s =
    let read := (s.sweepEnds die).sramRead die blkBuffer 0 count
    if read.1 = true then .next (read.2.countError die) else .next ((read.2.countsRestored die).fallbackEnds die) := by
  show execRefcountSweepDone die count s = _
  rw [execRefcountSweepDone, runs, if_neg (by decide)]
  rfl

theorem refcountSweepDone_alive {count : WordErr} (alive : wordDead count = false) : exec (.refcountSweepDone die count) s =
    .next ((((s.sweepEnds die).sramRead die blkBuffer 0 count).2.countsRestored die).fallbackEnds die) := by
  have clean := ((sramRead_effect (s.sweepEnds die) die blkBuffer 0 count).1).trans alive
  exact (exec_refcountSweepDone runs count).trans (if_neg (Bool.eq_false_iff.mp clean))

theorem refcountSweepDone_dead {count : WordErr} (dead : wordDead count = true) :
    exec (.refcountSweepDone die count) s = .next ((s.sweepEnds die).countError die) := by
  have lost : (s.sweepEnds die).sramRead die blkBuffer 0 count = (true, s.sweepEnds die) := by
    unfold State.sramRead
    unfold wordDead at dead
    split <;> rename_i read
    · exact absurd dead (by rw [read]; exact Bool.false_ne_true)
    · exact absurd dead (by rw [read]; exact Bool.false_ne_true)
    · rfl
  rw [exec_refcountSweepDone runs, lost]
  exact if_pos rfl

end

theorem not_contains_filter (l : List Nat) (d : Nat) : (l.filter (· != d)).contains d = false := by
  rw [List.contains_eq_any_beq, List.any_eq_false]
  intro x hx same
  exact absurd (beq_iff_eq.mp same).symm (bne_iff_ne.mp (List.mem_filter.mp hx).2)

theorem countError_effect (s : State) {die : Nat} (hd : die < 4) :
    let t := (s.sweepEnds die).countError die
    t.flag F.REFCOUNT_STATUS_REFCOUNT_FALLBACK die = true ∧ t.core.sweeping.contains die = false
      ∧ t.core.held = s.core.held ∧ t.reports die 0x18 0x1B ∧ onlyParts [.regs, .core, .wt] s t := by
  intro t
  have raised := raise_touches (((s.sweepEnds die).sweepEnds die).setFlag F.REFCOUNT_STATUS_REFCOUNT_FALLBACK die true)
    die blkBuffer 0 0x1B 0 0
  refine ⟨?_, not_contains_filter _ die, rfl, raise_reports _ (by omega) (by decide) (by decide) 0 0 0,
    onlyParts_trans (onlyParts_trans (onlyParts_mono (mapCore_parts s _) (by decide))
      (onlyParts_trans (onlyParts_mono (mapCore_parts _ _) (by decide)) (onlyParts_mono (setFld_parts _ _ _ _) (by decide))))
      (onlyParts_mono raised.parts (by decide))⟩
  exact (flag_of_reg _ (raised.regs.reg _ _ (not_outsideDies (by decide) hd))).trans (flag_setFlag _ _ _ _ (by decide))

/-- Fallback mode stays, on each die, as it is. -/
def keepsFallback (s t : State) : Prop :=
  ∀ d, t.flag F.REFCOUNT_STATUS_REFCOUNT_FALLBACK d = s.flag F.REFCOUNT_STATUS_REFCOUNT_FALLBACK d

theorem keepsFallback_of_parts {c : List Part} {s t : State} (a : onlyParts c s t) (h : Part.regs ∉ c) : keepsFallback s t :=
  fun d => flag_of_reg _ (reg_of_regs (a .regs h) _ d)

theorem keepsFallback_foldl {β : Type} (f : State → β → State) (h : ∀ s b, keepsFallback s (f s b)) (l : List β) (s : State) :
    keepsFallback s (l.foldl f s) :=
  List.foldlRecOn (motive := fun t : State => keepsFallback s t) l f (fun _ => rfl) fun t ht b _ d => (h t b d).trans (ht d)

/-- A late copy is counted beside the flag of its die. -/
theorem bump_lateCopies_fallback (s : State) (d : Nat) : keepsFallback s (s.bump F.REFCOUNT_STATUS_LATE_COPY_DISCARDS d) := by
  intro e
  refine congrArg (· != 0) (?_ : (s.bump _ d).fld F.REFCOUNT_STATUS_REFCOUNT_FALLBACK e = s.fld F.REFCOUNT_STATUS_REFCOUNT_FALLBACK e)
  by_cases same : e = d
  · rw [same]
    exact fld_setFld_apart s _ _ d _ (by decide)
  · refine fld_setFld_ne s _ _ d e _ ?_
    show regAddr .REFCOUNT_STATUS d ≠ regAddr .REFCOUNT_STATUS e
    rw [regAddr_refcountStatus, regAddr_refcountStatus]
    omega

theorem comeToHead_fallback (die src : Nat) (dest : Dest) (vc : Nat) : ∀ (n : Nat) (s : State),
    keepsFallback s (s.comeToHead die src dest vc n)
  | 0, _ => fun _ => rfl
  | n + 1, s => by
    unfold State.comeToHead
    split
    · exact fun _ => rfl
    · split
      · intro d
        refine (comeToHead_fallback die src dest vc n _ d).trans ?_
        rw [keepsFallback_of_parts (msgSent_parts _ _) (by decide) d, bump_lateCopies_fallback _ _ d]
        rfl
      · split
        · exact fun _ => rfl
        · exact keepsFallback_of_parts (mapCopy_parts s _ _) (by decide)

theorem drainLocal_fallback (s : State) (d : Nat) : keepsFallback s (s.drainLocal d) := by
  refine keepsFallback_foldl _ (fun s x => ?_) _ _
  split
  · exact fun _ => rfl
  · exact keepsFallback_foldl _ (fun s (c : Copy) => comeToHead_fallback c.die c.src c.dest c.vc _ s) _ _

theorem refreshDie_fallback (s : State) (d : Nat) : keepsFallback s (s.refreshDie d) := by
  intro e
  refine flag_of_reg _ ((refreshDie_regsAt s d).reg _ e ?_)
  rintro ⟨c, -, same⟩
  rw [regAddr_portBuffer, show regAddr F.REFCOUNT_STATUS_REFCOUNT_FALLBACK.reg e = _ from regAddr_refcountStatus e] at same
  omega

theorem drainLocal_sweeping (s : State) (d : Nat) : (s.drainLocal d).core.sweeping = s.core.sweeping := by
  unfold State.drainLocal
  refine List.foldlRecOn (motive := fun t : State => t.core.sweeping = s.core.sweeping) _ _ rfl fun t ht x _ => ?_
  split
  · exact ht
  · rw [(admitLocal_headsOf t x.1 x.2).core]
    exact ht

/-- Where no frame of the die waits for local cells, cells that fall free serve none. -/
theorem drainLocal_none {s : State} {d : Nat} (h : ∀ x ∈ s.core.backlog, x.1.die ≠ d) : s.drainLocal d = s := by
  have waits : ∀ (l : List (Held × List Copy)) (t : State), (∀ x ∈ l, x.1.die ≠ d) → l.foldl (fun t x =>
      if x.1.die != d || !t.localRoom x.1 || t.core.backlog.any (fun y => sameLocal y.1 x.1) then
        t.mapCore fun k => { k with backlog := k.backlog ++ [x] }
      else t.admitLocal x.1 x.2) t = t.mapCore fun k => { k with backlog := k.backlog ++ l } := by
    intro l
    induction l with
    | nil => exact fun t _ => by rw [List.foldl_nil]; simp [State.mapCore]
    | cons x l ih =>
      intro t other
      rw [List.foldl_cons, bne_iff_ne.mpr (other x List.mem_cons_self), Bool.true_or, Bool.true_or, if_pos rfl,
        ih _ fun y hy => other y (List.mem_cons_of_mem _ hy)]
      simp [State.mapCore]
  exact waits s.core.backlog _ h

theorem freeHeld_held (s : State) (fid : Nat) : ∀ h ∈ (s.freeHeld fid).core.held, h ∈ s.core.held ∧ h.fid ≠ fid := by
  intro h mem
  unfold State.freeHeld at mem
  split at mem
  · rename_i none_
    exact ⟨mem, by simpa using List.find?_eq_none.mp none_ h mem⟩
  · obtain ⟨old, other⟩ := List.mem_filter.mp mem
    exact ⟨old, bne_iff_ne.mp other⟩

theorem freeEach_held : ∀ (fids : List Nat) (s : State), ∀ h ∈ (fids.foldl State.freeHeld s).core.held,
    h ∈ s.core.held ∧ h.fid ∉ fids
  | [], _, _, mem => ⟨mem, List.not_mem_nil⟩
  | fid :: fids, s, h, mem => by
    obtain ⟨kept, rest⟩ := freeEach_held fids (s.freeHeld fid) h mem
    obtain ⟨old, other⟩ := freeHeld_held s fid h kept
    exact ⟨old, fun h => (List.mem_cons.mp h).elim other rest⟩

/-- Frames are freed: copies, frames that wait and sweeps stay. -/
structure FreesHeld (s t : State) : Prop where
  parts : onlyParts [.core] s t
  copies : t.core.copies = s.core.copies
  backlog : t.core.backlog = s.core.backlog
  sweeping : t.core.sweeping = s.core.sweeping

theorem freeHeld_frees (s : State) (fid : Nat) : FreesHeld s (s.freeHeld fid) := by
  refine ⟨freeHeld_parts s fid, ?_, ?_, ?_⟩ <;> unfold State.freeHeld <;> split <;> rfl

theorem freeEach_frees (fids : List Nat) (s : State) : FreesHeld s (fids.foldl State.freeHeld s) :=
  List.foldlRecOn (motive := fun t : State => FreesHeld s t) fids _ ⟨onlyParts_refl _ s, rfl, rfl, rfl⟩ fun t ht fid _ =>
    have freed := freeHeld_frees t fid
    ⟨onlyParts_trans ht.parts freed.parts, freed.copies.trans ht.copies, freed.backlog.trans ht.backlog,
      freed.sweeping.trans ht.sweeping⟩

/-- The counts are the numbers of copies in the queues, and no frame of the die is without one. -/
theorem countsRestored_effect (s : State) (die : Nat) : let t := s.countsRestored die
    FreesHeld s t ∧ ∀ h ∈ t.core.held, h.die = die → h.refcount = t.countOf h.fid ∧ h.refcount ≠ 0 := by
  intro t
  have freed := freeEach_frees ((s.recounted die).unnamed die) (s.recounted die)
  refine ⟨⟨onlyParts_trans (mapCore_parts s _) freed.parts, freed.copies, freed.backlog, freed.sweeping⟩, fun h mem own => ?_⟩
  obtain ⟨counted, named⟩ := freeEach_held _ _ h mem
  have count : h.refcount = t.countOf h.fid := by
    rw [State.countOf, show t.core.copies = s.core.copies from freed.copies]
    obtain ⟨x, -, rfl⟩ := List.mem_map.mp counted
    by_cases here : x.die = die
    · rw [if_pos here]
      rfl
    · rw [if_neg here] at own
      exact absurd own here
  refine ⟨count, fun zero => named (List.mem_map_of_mem (List.mem_filter.mpr ⟨counted, ?_⟩))⟩
  rw [own, zero]
  simp

theorem fallbackEnds_effect (s : State) (die : Nat) : let t := s.fallbackEnds die
    t.flag F.REFCOUNT_STATUS_REFCOUNT_FALLBACK die = false ∧ t.core.sweeping = s.core.sweeping
      ∧ onlyParts coreParts s t ∧ ((∀ x ∈ s.core.backlog, x.1.die ≠ die) →
        t.core.held = s.core.held ∧ t.core.copies = s.core.copies ∧ onlyParts [.regs, .core] s t) := by
  have ended := flag_setFlag s F.REFCOUNT_STATUS_REFCOUNT_FALLBACK die false (by decide)
  have parts : onlyParts [.regs] s (s.setFlag F.REFCOUNT_STATUS_REFCOUNT_FALLBACK die false) := setFld_parts s _ _ _
  have core : (s.setFlag F.REFCOUNT_STATUS_REFCOUNT_FALLBACK die false).core = s.core := setFlag_core _ _ _ _
  unfold State.fallbackEnds
  generalize s.setFlag F.REFCOUNT_STATUS_REFCOUNT_FALLBACK die false = u at *
  have packets := (refreshDie_samePackets (u.drainLocal die) die).core
  have held : u.core.held = s.core.held := congrArg CoreSt.held core
  have copies : u.core.copies = s.core.copies := congrArg CoreSt.copies core
  refine ⟨(refreshDie_fallback _ die die).trans ((drainLocal_fallback u die die).trans ended),
    (congrArg CoreSt.sweeping packets).trans ((drainLocal_sweeping u die).trans (congrArg CoreSt.sweeping core)),
    onlyParts_trans (onlyParts_mono parts (by decide)) (onlyParts_trans (drainLocal_moves u die).parts
      (refreshDie_moves _ die).parts), fun none_ => ?_⟩
  rw [drainLocal_none (s := u) (by rwa [core])] at packets ⊢
  exact ⟨(congrArg CoreSt.held packets).trans held,
    (congrArg CoreSt.copies packets).trans copies,
    onlyParts_trans (onlyParts_mono parts (by decide)) (refreshDie_parts u die)⟩

theorem sweepDone_effect (s : State) (die : Nat) (count : WordErr) :
    let t := (((s.sweepEnds die).sramRead die blkBuffer 0 count).2.countsRestored die).fallbackEnds die
    t.flag F.REFCOUNT_STATUS_REFCOUNT_FALLBACK die = false ∧ t.core.sweeping.contains die = false
      ∧ ((∀ x ∈ s.core.backlog, x.1.die ≠ die) →
        (∀ h ∈ t.core.held, h.die = die → h.refcount = t.countOf h.fid ∧ h.refcount ≠ 0)
          ∧ t.core.copies = s.core.copies ∧ onlyParts [.regs, .core, .wt] s t)
      ∧ onlyParts [.regs, .core, .outs, .wt] s t := by
  have read := (sramRead_effect (s.sweepEnds die) die blkBuffer 0 count).2.parts
  have core := read .core (by decide)
  generalize ((s.sweepEnds die).sramRead die blkBuffer 0 count).2 = u at *
  have copiesNow : u.core.copies = s.core.copies := by
    rw [show u.core = (s.sweepEnds die).core from core]
    rfl
  have before : onlyParts [.regs, .core, .wt] s u :=
    onlyParts_trans (onlyParts_mono (mapCore_parts s _) (by decide)) (onlyParts_mono read (by decide))
  obtain ⟨freed, counts⟩ := countsRestored_effect u die
  generalize u.countsRestored die = v at *
  have mid : onlyParts [.regs, .core, .wt] s v := onlyParts_trans before (onlyParts_mono freed.parts (by decide))
  obtain ⟨flag, sweeping, parts, still⟩ := fallbackEnds_effect v die
  refine ⟨flag, ?_, fun none_ => ?_, onlyParts_trans (onlyParts_mono mid (by decide)) (onlyParts_mono parts (by decide))⟩
  · rw [sweeping, freed.sweeping, core]
    exact not_contains_filter _ die
  · obtain ⟨held, copies, quiet⟩ := still (by rw [freed.backlog, core]; exact none_)
    refine ⟨fun h mem own => ?_, (copies.trans freed.copies).trans copiesNow,
      onlyParts_trans mid (onlyParts_mono quiet (by decide))⟩
    rw [State.countOf, copies]
    exact counts h (held ▸ mem) own

/-- Settles O6: the tail judges a held frame and its copies, a relay leaf sends on, and a sweep counts the copies of each frame. -/
theorem tailsRelaysCounts : Obligations.TailsRelaysCounts := by
  unfold Obligations.TailsRelaysCounts
  refine ⟨fun s fid h rx cell unit found pending die _ fresh => ⟨fun good => ?_, fun bad => ?_⟩,
    fun s port f may tail => ⟨fun own some_ ps q group spray fresh => ?_, fun other before route => ?_, ?_⟩,
    fun s die count hd => ⟨?_, fun runs => ⟨fun alive => ?_, fun dead => ?_⟩⟩⟩
  · exact ⟨_, (exec_frameTailVerdict found pending rx cell unit).trans (if_pos good), tailPasses_effect found rx cell unit⟩
  · exact ⟨_, (exec_frameTailVerdict found pending rx cell unit).trans (if_neg (Bool.eq_false_iff.mp bad)),
      tailFails_effect die fresh rx cell unit _⟩
  · exact ⟨_, relayLeaf_sends may tail own some_ group spray, relayLeaf_effect fresh may q⟩
  · exact ⟨_, relayFrame_repeated may tail other before route, bumpDies_counted s (by decide) (by decide), bumpDies_parts s _⟩
  · exact ⟨_, relayFrame_noRoom may tail, rfl⟩
  · exact ⟨_, exec_restoreCounts s hd, by simp [State.startSweep, State.mapCore], rfl⟩
  · exact ⟨_, refcountSweepDone_alive runs alive, sweepDone_effect s die count⟩
  · exact ⟨_, refcountSweepDone_dead runs dead, countError_effect s hd⟩

end Sys2Proof.Machine

/-! PROOFS. What the work on jobs and their contexts leaves alone (spec/04_reduction_contexts.md, 05_result_checking.md,
07_collectives.md, 09_belfry_and_time.md, 14_failure_survival.md): an abort, a supersession, a fence and what follows from them touch
neither the control half nor a message that belongs to no job, and the banks only where a loaded layout takes over. -/
namespace Sys2Proof.Machine

open Sys2Proof

/-! ## The relation -/

/-- What the work on a job touches without sending: neither the jobs themselves nor the banks. -/
abbrev quietParts : List Part := [.regs, .mem, .memory, .core, .ctxs, .descCache, .landings, .mcs, .ended, .wt, .host, .ringQueue]

/-- What the work on jobs may touch. -/
abbrev workParts : List Part := .epoch :: .bank0 :: .bank1 :: .jobs :: .outs :: .freeCount :: quietParts

/-- A message that belongs to no job and at whose acknowledgement nothing is due. -/
def OutMsg.ofFabric (o : OutMsg) : Prop := o.job = none ∧ o.purpose = .plain

/-- Work on jobs: of the epoch state at most items are requested, messages of no job stay, and where no layout is loaded none
becomes so and the banks stay. -/
structure Works (s t : State) : Prop where
  parts : onlyParts workParts s t
  epoch : t.epoch = { s.epoch with asked := t.epoch.asked }
  free : s.freeCount ≤ t.freeCount
  kept : ∀ o ∈ s.outs, o.ofFabric → ∃ x ∈ t.outs, x.still = o.still
  loaded : s.noneLoaded → t.noneLoaded ∧ t.bank0 = s.bank0 ∧ t.bank1 = s.bank1

theorem ofFabric_of_still {x o : OutMsg} (h : x.still = o.still) (a : o.ofFabric) : x.ofFabric :=
  ⟨(congrArg OutMsg.job h).trans a.1, (congrArg OutMsg.purpose h).trans a.2⟩

theorem noneLoaded_of_jobs {s t : State} (h : t.jobs = s.jobs) (a : s.noneLoaded) : t.noneLoaded := by rwa [State.noneLoaded, h]

section
variable {s t u : State}

theorem Works.refl (s : State) : Works s s := ⟨onlyParts_refl _ s, rfl, Nat.le_refl _, fun o ho _ => ⟨o, ho, rfl⟩, fun a => ⟨a, rfl, rfl⟩⟩

theorem Works.trans (a : Works s t) (b : Works t u) : Works s u where
  parts := onlyParts_trans a.parts b.parts
  epoch := by rw [b.epoch, a.epoch]
  free := Nat.le_trans a.free b.free
  kept := fun o ho fabric => by
    obtain ⟨x, hx, same⟩ := a.kept o ho fabric
    obtain ⟨y, hy, later⟩ := b.kept x hx (ofFabric_of_still same fabric)
    exact ⟨y, hy, later.trans same⟩
  loaded := fun none_ => by
    obtain ⟨mid, mid0, mid1⟩ := a.loaded none_
    obtain ⟨last, last0, last1⟩ := b.loaded mid
    exact ⟨last, last0.trans mid0, last1.trans mid1⟩

theorem Works.ite {p : Prop} [Decidable p] (a : Works s t) (b : Works s u) : Works s (if p then t else u) := by
  split
  · exact a
  · exact b

theorem Works.foldl {β : Type} (f : State → β → State) (h : ∀ s b, Works s (f s b)) : ∀ (l : List β) (s : State),
    Works s (l.foldl f s)
  | [], s => .refl s
  | b :: l, s => (h s b).trans (Works.foldl f h l (f s b))

/-- Where a step leaves the messages as they are, and touches no job and no bank. -/
theorem Works.of_outs {c : List Part} (a : onlyParts c s t) (h : ∀ p ∈ c, p ∈ Part.outs :: quietParts) (same : sameOuts s t) :
    Works s t := by
  have stays : ∀ p ∉ Part.outs :: quietParts, p.same s t := fun p hp => a p fun mem => hp (h p mem)
  have epoch : t.epoch = s.epoch := stays .epoch (by decide)
  have free : t.freeCount = s.freeCount := stays .freeCount (by decide)
  refine ⟨onlyParts_mono a fun p mem => ?_, by rw [epoch], Nat.le_of_eq free.symm, fun o ho _ => outsAre.mem same ho,
    fun none_ => ⟨noneLoaded_of_jobs (stays .jobs (by decide)) none_, stays .bank0 (by decide), stays .bank1 (by decide)⟩⟩
  have small : ∀ p ∈ Part.outs :: quietParts, p ∈ workParts := by decide
  exact small p (h p mem)

theorem Works.of_parts {c : List Part} (a : onlyParts c s t) (h : ∀ p ∈ c, p ∈ quietParts) : Works s t :=
  .of_outs a (fun p mem => List.mem_cons_of_mem _ (h p mem))
    (sameOuts_of_parts a fun mem => absurd (h _ mem) (by decide))

end

/-! ## The operations it is made of -/

section
variable (s : State)

theorem setFld_works (f : Fld) (i v : Nat) : Works s (s.setFld f i v) := .of_parts (setFld_parts s f i v) (by decide)

theorem bump_works (f : Fld) (i : Nat) : Works s (s.bump f i) := setFld_works s f i _

theorem bumpBy_works (f : Fld) (i k : Nat) : Works s (s.bumpBy f i k) := setFld_works s f i _

theorem bumpDies_works (f : Fld) : Works s (s.bumpDies f) := .of_parts (bumpDies_parts s f) (by decide)

theorem raise_works (die block inst kind address detail : Nat) : Works s (s.raise die block inst kind address detail) :=
  .of_parts (raise_parts s _ _ _ _ _ _) (by decide)

theorem millFault_works (mill kind : Nat) (job : BitVec 12) (step : BitVec 32) (obj extra : Nat) :
    Works s (s.millFault mill kind job step obj extra) := .of_parts (millFault_touches s _ _ _ _ _ _).parts (by decide)

theorem setCtx_works (d : Nat) (c : Ctx) : Works s (s.setCtx d c) := .of_parts (setCtx_parts s d c) (by decide)

theorem event_works (j : Job) (kind : Nat) (step : BitVec 32) (object rank detail waited : Nat) :
    Works s (s.event j kind step object rank detail waited) := .of_parts (event_touches s _ _ _ _ _ _ _).parts (by decide)

theorem completion_works (j : Job) (c : Ctx) (r : ResultInfo) : Works s (s.completion j c r) :=
  .of_parts (ringPut_parts s _ _ _) (by decide)

theorem emit_works (hop : Hop) (f : Frame) (msg : Option Nat) : Works s (s.emit hop f msg) :=
  .of_outs (emit_parts s hop f msg) (by decide) (emit_sameOuts s hop f msg)

theorem ack_works (p : Nat) (h : BaseHdr) : Works s (s.ack p h) := emit_works s _ _ _

theorem draw1_works : Works s s.draw1.2 where
  parts := onlyParts_mono (draw1_parts s) (by decide)
  epoch := rfl
  free := Nat.le_succ _
  kept := fun o ho _ => ⟨o, ho, rfl⟩
  loaded := fun none_ => ⟨none_, rfl, rfl⟩

theorem open_works (hop : Hop) (fs : List Frame) (job : Option (BitVec 12)) (rank : Option Nat) (why : Purpose) :
    Works s (s.open_ hop fs job rank why).2.2 where
  parts := onlyParts_mono (open_parts s hop fs job rank why) (by decide)
  epoch := rfl
  free := Nat.le_succ _
  kept := fun o ho _ => ⟨o, List.mem_append_left _ ho, rfl⟩
  loaded := fun none_ => ⟨none_, rfl, rfl⟩

theorem send_works (hop : Hop) (fs : List Frame) (job : Option (BitVec 12)) (rank : Option Nat) (why : Purpose) :
    Works s (s.send hop fs job rank why) := by
  unfold State.send
  split
  · exact .refl s
  · exact (open_works s hop fs job rank why).trans (Works.foldl _ (fun s f => emit_works s hop f _) _ _)

theorem sendMany_works (job : Option (BitVec 12)) (xs : List (Hop × List Frame × Option Nat × Purpose)) :
    Works s (s.sendMany job xs) := by
  have opened : Works s (xs.foldl (openNext job) ([], s)).2 :=
    List.foldlRecOn (motive := fun a : List (Hop × List Frame × Nat) × State => Works s a.2) xs _ (.refl s)
      fun a ha x _ => ha.trans (open_works a.2 _ _ _ _ _)
  unfold State.sendMany
  split
  · exact .refl s
  · exact opened.trans (Works.foldl _ (fun s i => .of_outs (emitCopies_parts s _) (by decide) (emitCopies_sameOuts s _)) _ _)

theorem sendSlots_works (l : Layout) (xs : List SlotId) (mk : BitVec 24 → Frame) (why : SlotId → Purpose) :
    Works s (s.sendSlots l xs mk why) := sendMany_works s _ _

theorem sendUp_works (l : Layout) (g : PlanGroup) (fs : List Frame) (why : Purpose) : Works s (s.sendUp l g fs why) :=
  send_works s _ _ _ _ _

theorem sendMgmt_works (flat : BitVec 24) (job : BitVec 12) (gen : BitVec 4) (payload : List Byte) (why : Purpose) :
    Works s (s.sendMgmt flat job gen payload why) := send_works s _ _ _ _ _

/-- Messages are forgotten, but none of no job. -/
theorem dropOuts_works (q : OutMsg → Bool) (h : ∀ o : OutMsg, o.ofFabric → q o = false) : Works s (s.dropOuts q) where
  parts := onlyParts_mono (dropOuts_parts s q) (by decide)
  epoch := rfl
  free := Nat.le_refl _
  kept := fun o ho fabric => ⟨o, List.mem_filter.mpr ⟨ho, by rw [h o fabric]; rfl⟩, rfl⟩
  loaded := fun none_ => ⟨none_, rfl, rfl⟩

theorem dropPartials_works (d : Nat) : Works s (s.dropPartials d) := dropOuts_works s _ fun o fabric => by rw [fabric.2]

theorem dropRescales_works (d : Nat) : Works s (s.dropRescales d) := dropOuts_works s _ fun o fabric => by rw [fabric.2]

/-- A job changes; one without a loaded layout stays without. -/
theorem mapJob_works_of {id : BitVec 12} {g : Job → Job} (h : s.noneLoaded → ∀ j : Job, j.next = none → (g j).next = none) :
    Works s (s.mapJob id g) where
  parts := onlyParts_mono (mapJob_parts s id g) (by decide)
  epoch := rfl
  free := Nat.le_refl _
  kept := fun o ho _ => ⟨o, ho, rfl⟩
  loaded := fun none_ => by
    refine ⟨fun k hk => ?_, rfl, rfl⟩
    obtain ⟨j, hj, rfl⟩ := List.mem_map.mp hk
    split
    · exact h none_ j (none_ j hj)
    · exact none_ j hj

theorem mapJob_works (id : BitVec 12) {g : Job → Job} (h : ∀ j, (g j).next = j.next := by exact fun _ => rfl) : Works s (s.mapJob id g) :=
  mapJob_works_of s fun _ j none_ => (h j).trans none_

theorem mapErrs_works_of {id : BitVec 12} {g : Job → Job} (h : s.noneLoaded → ∀ j : Job, j.next = none → (g j).next = none) :
    Works s (s.mapErrs id g) := by
  unfold State.mapErrs
  split
  · exact .refl s
  · exact (mapJob_works_of s h).trans (.of_parts (syncErrs_parts _ _ _) (by decide))

theorem mapErrs_works (id : BitVec 12) {g : Job → Job} (h : ∀ j, (g j).next = j.next := by exact fun _ => rfl) : Works s (s.mapErrs id g) :=
  mapErrs_works_of s fun _ j none_ => (h j).trans none_

theorem idleCtxs_works (ds : List Nat) : Works s (ds.foldl State.idleCtx s) := .of_parts (idleCtxs_parts ds s) (by decide)

/-- A job found by its identifier has no loaded layout where none has. -/
theorem noneLoaded_job {s : State} (none_ : s.noneLoaded) {id : BitVec 12} {j : Job} (job : s.job? id = some j) : j.next = none :=
  none_ j (List.mem_of_find?_eq_some job)

end

end Sys2Proof.Machine

/-! PROOFS. The work on contexts and steps (spec/03_reduction_arithmetic.md R97 to R100; 04_reduction_contexts.md R110 to R137;
05_result_checking.md R140 to R166; 14_failure_survival.md R353). -/
namespace Sys2Proof.Machine

open Sys2Proof

/-! ## Supersession (R119, R126) -/

section
variable (s : State)

theorem checkFailUp_works (d cause : Nat) : Works s (s.checkFailUp d cause) := by
  unfold State.checkFailUp
  repeat' split
  · exact .refl s
  · exact .refl s
  · exact .refl s
  · exact .refl s
  · exact (setCtx_works s _ _).trans (emit_works _ _ _ _)

theorem supersedeTo_works (d g : Nat) (up : Option RedExt) : Works s (s.supersedeTo d g up) := by
  unfold State.supersedeTo
  split
  · exact .refl s
  · split
    · exact .refl s
    · split
      · exact .refl s
      · dsimp only
        exact ((((setCtx_works s _ _).trans (dropPartials_works _ _)).trans (dropRescales_works _ _)).trans
          (mapErrs_works _ _)).trans (sendSlots_works _ _ _ _ _)

/-! ## The end of a step (R105, R133, R181, R244) -/

/-- A cutover comes only where a layout is loaded. -/
theorem cutover_works (id : BitVec 12) : Works s (s.cutover id) := by
  cases job : s.job? id with
  | none =>
    rw [State.cutover, job]
    exact .refl s
  | some k =>
    cases loaded : k.next with
    | none =>
      rw [State.cutover, job]
      dsimp only
      rw [loaded]
      exact .refl s
    | some n =>
      by_cases reached : k.floor = n.plan.firstStep
      · have parts : onlyParts cutParts s (s.cutover id) :=
          onlyParts_trans (onlyParts_mono (idleJob_parts s id) (by decide)) (onlyParts_trans
            (onlyParts_mono (mapJob_parts _ id Job.cutover) (by decide)) (onlyParts_mono (cutover_rest job loaded reached) (by decide)))
        have epoch : (s.cutover id).epoch = s.epoch := parts .epoch (by decide)
        have free : (s.cutover id).freeCount = s.freeCount := parts .freeCount (by decide)
        have outs : (s.cutover id).outs = s.outs := parts .outs (by decide)
        exact ⟨onlyParts_mono parts (by decide), by rw [epoch], Nat.le_of_eq free.symm, fun o ho _ => ⟨o, outs ▸ ho, rfl⟩,
          fun none_ => nomatch loaded.symm.trans (noneLoaded_job none_ job)⟩
      · rw [State.cutover, job]
        dsimp only
        rw [loaded]
        dsimp only
        rw [if_neg reached]
        exact .refl s

theorem sweepAborted_works (id : BitVec 12) : Works s (s.sweepAborted id) := by
  obtain ⟨ds, sweep⟩ := sweepAborted_idles s id
  rw [sweep]
  exact idleCtxs_works s ds

theorem propose_works (id : BitVec 12) (j : Job) (l : Layout) (st t : BitVec 32) (b : PlanBucket) :
    Works s (s.propose id j l st t b) := by
  unfold State.propose
  split
  · exact .refl s
  · exact (sendMany_works s _ _).trans (mapJob_works _ _)

theorem stepDone_works {id : BitVec 12} {k : Job} (h : s.noneLoaded → k.next = none) (st : BitVec 32) (how : StepEnd) (l : Layout) :
    Works s (s.stepDone id st how l k) := by
  have copied : Works s ((s.mapErrs id fun _ => k).copyRings id l.releasedBuckets) :=
    (mapErrs_works_of s fun none_ _ _ => h none_).trans (.of_parts (copyRings_parts _ _ _) (by decide))
  unfold State.stepDone
  dsimp only
  refine Works.trans ?_ (Works.foldl _ (fun s b => propose_works s id k l st _ b) _ _)
  split
  · exact copied.trans (.of_parts (syncLedger_parts _ _ _) (by decide))
  · exact copied

theorem endStep_works (id : BitVec 12) (st : BitVec 32) (how : StepEnd) (cs : List (Nat × Ctx)) : Works s (s.endStep id st how cs) := by
  cases job : s.job? id with
  | none =>
    rw [State.endStep, job]
    exact .refl s
  | some j =>
    rw [endStep_eq job]
    refine ((stepDone_works s (fun none_ => ?_) st how j.cur).trans (cutover_works _ id)).trans (sweepAborted_works _ id)
    exact (beforeEnd_ending j j.cur.releasedBuckets st how cs).only.next.trans (noneLoaded_job none_ job)

/-! ## STEP_ABORT (R119, R132, R153) -/

theorem sendAbort_works (j : Job) (st : BitVec 32) (reason : Nat) (cause : Option (Nat × Nat)) (src : AbortFrom) :
    Works s (s.sendAbort j st reason cause src) := by
  cases src with
  | received => exact sendSlots_works s _ _ _ _
  | unload => exact sendSlots_works s _ _ _ _
  | report => exact sendSlots_works s _ _ _ _
  | own =>
    unfold State.sendAbort
    dsimp only
    split
    · exact (sendSlots_works s _ _ _ _).trans (sendSlots_works _ _ _ _ _)
    · exact sendSlots_works s _ _ _ _

theorem tellAbort_works (j : Job) (st : BitVec 32) (reason : Nat) (cause : Option (Nat × Nat)) (src : AbortFrom) (id : BitVec 12) :
    Works s (s.tellAbort j st reason cause src id) := by
  have recorded (s : State) : Works s (s.recordAbort j st reason cause) := by
    unfold State.recordAbort
    split
    · exact .of_parts (abortRecord_parts s j st reason cause) (by decide)
    · exact .refl s
  have reported (s : State) : Works s (s.reportAbort j st reason src id) := by
    unfold State.reportAbort
    split
    · exact sendMgmt_works s _ _ _ _ _
    · exact .refl s
  exact ((sendAbort_works s j st reason cause src).trans (recorded _)).trans (reported _)

theorem abortStep_works (id : BitVec 12) (st : BitVec 32) (reason : Nat) (cause : Option (Nat × Nat)) {src : AbortFrom}
    (here : src ≠ .unload) : Works s (s.abortStep id st reason cause src) := by
  cases job : s.job? id with
  | none =>
    rw [State.abortStep, job]
    exact .refl s
  | some j =>
    cases ended : j.stepEnded st with
    | true =>
      rw [State.abortStep, job]
      dsimp only
      rw [ended, if_pos rfl]
      exact .refl s
    | false =>
      rw [abortStep_eq job ended reason cause here]
      refine Works.trans (Works.trans (Works.trans ?_ (tellAbort_works _ j st reason cause src id)) (mapJob_works _ id))
        (endStep_works _ id st _ _)
      exact Works.foldl _ (fun s x => (setCtx_works s _ _).trans (dropPartials_works _ _)) _ s

/-! ## A chunk goes to its next generation (R145, R149 to R152) -/

theorem supersedeOwn_works (d : Nat) : Works s (s.supersedeOwn d) := by
  unfold State.supersedeOwn
  split
  · exact .refl s
  · split
    · exact .refl s
    · dsimp only
      split
      · exact .refl s
      · split
        · exact abortStep_works s _ _ _ _ (by decide)
        · split
          · split
            · exact setCtx_works s _ _
            · exact ((setCtx_works s _ _).trans (mapJob_works _ _)).trans (sendMgmt_works _ _ _ _ _ _)
          · exact ((mapJob_works s _).trans (supersedeTo_works _ _ _ _)).trans (bump_works _ _ _)

theorem checkFailure_works (d : Nat) : Works s (s.checkFailure d) := by
  have counted (s : State) (d : Nat) (c : Ctx) (x : Ctx) : Works s ((s.setCtx d x).millFault c.mill 0x21 c.job c.step c.chunk.toNat
      c.generation) := (setCtx_works s d x).trans (millFault_works _ _ _ _ _ _ _)
  unfold State.checkFailure
  split
  · exact .refl s
  · dsimp only
    split
    · exact (counted s d _ _).trans (abortStep_works _ _ _ _ _ (by decide))
    · exact (counted s d _ _).trans (supersedeOwn_works _ d)

/-! ## FINAL, release and forwarding (R119, R122, R127, R128, R182) -/

theorem maybeFinal_works (d : Nat) : Works s (s.maybeFinal d) := by
  unfold State.maybeFinal
  split
  · exact .refl s
  · split
    · exact .refl s
    · split
      · exact .refl s
      · split
        · split
          · exact .refl s
          · dsimp only
            split
            · exact ((setCtx_works s _ _).trans (completion_works _ _ _ _)).trans (mapJob_works _ _)
            · split
              · exact (setCtx_works s _ _).trans (ack_works _ _ _)
              · exact setCtx_works s _ _
        · exact .refl s

theorem release_works (d : Nat) (l : Layout) (b : PlanBucket) (g : PlanGroup) (c : Ctx) : Works s (s.release d l b g c) :=
  ((((setCtx_works s _ _).trans (bumpBy_works _ _ _ _)).trans (bumpBy_works _ _ _ _)).trans (sendMany_works _ _ _)).trans
    (maybeFinal_works _ d)

theorem forward_works (d : Nat) (l : Layout) (b : PlanBucket) (g : PlanGroup) (c : Ctx) (j : Job) : Works s (s.forward d l b g c j) := by
  unfold State.forward
  dsimp only
  split
  · exact (((((mapErrs_works s _).trans (bumpBy_works _ _ _ _)).trans (bumpBy_works _ _ _ _)).trans
      (bumpBy_works _ _ _ _)).trans (setCtx_works _ _ _)).trans (sendUp_works _ _ _ _ _)
  · exact (setCtx_works s _ _).trans (sendUp_works _ _ _ _ _)

theorem tryFinish_works (d : Nat) (dup : Bool) : Works s (s.tryFinish d dup) := by
  unfold State.tryFinish
  split
  · exact .refl s
  · split
    · exact .refl s
    · split
      · exact .refl s
      · split
        · exact .refl s
        · dsimp only
          split
          · split
            · exact (bump_works s _ _).trans (checkFailure_works _ d)
            · split
              · exact supersedeOwn_works s d
              · exact release_works s _ _ _ _ _
          · split
            · exact (((bump_works s _ _).trans (millFault_works _ _ _ _ _ _ _)).trans (setCtx_works _ _ _)).trans
                (checkFailUp_works _ _ _)
            · refine .ite (.ite (.refl s) ?_) (forward_works s _ _ _ _ _ _)
              exact (setCtx_works s _ _).trans (bump_works _ _ _)

theorem rescaleCheck_works (d : Nat) : Works s (s.rescaleCheck d) := by
  unfold State.rescaleCheck
  split
  · exact .refl s
  · dsimp only
    split
    · exact .refl s
    · split
      · exact .refl s
      · split
        · exact .refl s
        · split
          · split
            · exact abortStep_works s _ _ _ _ (by decide)
            · exact (setCtx_works s _ _).trans (sendSlots_works _ _ _ _ _)
          · split
            · exact .refl s
            · exact (setCtx_works s _ _).trans (sendUp_works _ _ _ _ _)

theorem finishFree_works (d : Nat) : Works s (s.finishFree d) := by
  unfold State.finishFree
  split
  · exact .refl s
  · split
    · exact .refl s
    · exact (draw1_works s).trans (tryFinish_works _ _ _)

theorem settleFree_works : Works s s.settleFree := Works.foldl _ finishFree_works _ s

/-! ## Stranded jobs, and groups below MIN_SURVIVORS (R229, R353) -/

theorem strand_works (id : BitVec 12) : Works s (s.strand id) := by
  unfold State.strand
  split
  · exact .refl s
  · split
    · exact .refl s
    · exact ((Works.foldl _ (fun s st => abortStep_works s _ st _ _ (by decide)) _ s).trans (raise_works _ _ _ _ _ _ _)).trans
        (mapJob_works _ _)

theorem minSurvivors_works (l : Layout) : Works s (s.minSurvivors l) :=
  Works.foldl _ (fun s st => abortStep_works s _ st _ _ (by decide)) _ s

theorem abortWindow_works (j : Job) (reason : Nat) : Works s (s.abortWindow j reason) :=
  Works.foldl _ (fun s i => abortStep_works s _ _ _ _ (by decide)) _ s

end

end Sys2Proof.Machine

/-! PROOFS. What an epoch change does to the jobs (spec/04_reduction_contexts.md R117; 05_result_checking.md R149, R150;
07_collectives.md R204, R206, R214 to R218; 09_belfry_and_time.md R261 to R266; 13_topology.md R349 to R355; 14_failure_survival.md
R361, R363). -/
namespace Sys2Proof.Machine

open Sys2Proof

/-- A slot that is dropped leaves a context (R117). -/
def State.dropSlot (s : State) (w : SlotId) (d : Nat) : State :=
  match s.ctx? d with
  | none => s
  | some c =>
    match c.state with
    | .openS | .rescaleWait =>
      let c := c.mapSlot w fun y => { y with live := false }
      ((s.setCtx d { c with expect := expectOf c.slots }).rescaleCheck d).finishFree d
    | .released => (s.setCtx d { c with awaiting := c.awaiting.filter (· != w) }).maybeFinal d
    | _ => s

section
variable (s : State)

/-! ## Bells (R261 to R263, R266) -/

theorem releaseBell_works (l : Layout) (g : PlanGroup) (x : Bell) : Works s (s.releaseBell l g x) := by
  unfold State.releaseBell
  dsimp only
  exact .ite ((mapJob_works s _).trans (sendMany_works _ _ _)) ((mapJob_works s _).trans (sendSlots_works _ _ _ _ _))

theorem bellDone_works (id : BitVec 12) (b : Nat) : Works s (s.bellDone id b) := by
  unfold State.bellDone
  split
  · exact .refl s
  · split
    · refine .ite (.refl s) (.ite (releaseBell_works s _ _ _) ?_)
      split
      · exact bumpDies_works s _
      · exact sendMgmt_works s _ _ _ _ _
    · exact .refl s

theorem bellDrop_works (id : BitVec 12) (b : Nat) (w : SlotId) : Works s (s.bellDrop id b w) := by
  unfold State.bellDrop
  split
  · exact .refl s
  · exact .ite (.refl s) ((mapJob_works s _).trans (bellDone_works _ _ _))

theorem bellsDrop_works (id : BitVec 12) (w : SlotId) : Works s (s.bellsDrop id w) := by
  unfold State.bellsDrop
  split
  · exact .refl s
  · exact Works.foldl _ (fun s b => bellDrop_works s id b w) _ s

/-! ## Multicast records (R204, R206) -/

theorem setMc_parts (r : McRecord) : onlyParts [.mcs] s (s.setMc r) := fun p hp => by
  cases p
  case mcs => exact absurd (by decide) hp
  all_goals rfl

theorem mcDone_works (r : McRecord) : Works s (s.mcDone r) := by
  unfold State.mcDone
  exact .ite (.refl s) (.trans (.of_parts (freeMc_parts s r) (by decide)) (emit_works _ _ _ _))

theorem mcDrop_works (id : BitVec 12) (w : SlotId) : Works s (s.mcDrop id w) :=
  Works.foldl _ (fun s r => .trans (.of_parts (setMc_parts s _) (by decide)) (mcDone_works _ _)) _ s

/-! ## Dispatch (R214 to R218) -/

theorem sendGrant_works (l : Layout) (d : PlanDispatch) (x : DispInst) (src : Nat) : Works s (s.sendGrant l d x src) := by
  unfold State.sendGrant
  split
  · exact .refl s
  · exact (Works.ite (mapJob_works s _) (.refl s)).trans (send_works _ _ _ _ _ _)

theorem closeInst_works (l : Layout) (d : PlanDispatch) (dst : DispatchDest) (x : DispInst) : Works s (s.closeInst l d dst x) :=
  (((mapJob_works s _).trans (bumpBy_works _ _ _ _)).trans (Works.foldl _ (fun s _ => send_works s _ _ _ _ _) _ _)).trans
    (send_works _ _ _ _ _ _)

theorem dispatchGo_works (l : Layout) (d : PlanDispatch) (inst : BitVec 8) (dest : Nat) : Works s (s.dispatchGo l d inst dest) := by
  unfold State.dispatchGo
  split
  · refine .ite (.refl s) ?_
    split
    · refine .ite (.refl s) (.ite (closeInst_works s _ _ _ _) ?_)
      have asked (y : DispInst) (n : Nat) (more : List Nat) (i : Nat) :
          Works s (more.foldl (fun s src => s.sendGrant l d y src) ((s.mapJob l.plan.job fun j => j.setInst y).bumpBy
            F.DISPATCH_CLOSES_GRANTED_SLOTS i n)) :=
        ((mapJob_works s _).trans (bumpBy_works _ _ _ _)).trans (Works.foldl _ (fun s src => sendGrant_works s l d y src) _ _)
      exact .ite ((asked _ _ _ _).trans (closeInst_works _ _ _ _ _)) (asked _ _ _ _)
    · exact .ite (closeInst_works s _ _ _ _) (.refl s)
    · exact .refl s
  · exact .refl s

theorem dispatchFence_works (id : BitVec 12) : Works s (s.dispatchFence id) := by
  unfold State.dispatchFence
  split
  · exact .refl s
  · refine (mapJob_works s _).trans (Works.foldl _ (fun s k => ?_) _ _)
    split
    · exact dispatchGo_works s _ _ _ _
    · exact .refl s

/-! ## Fences at EPOCH_COMMIT (R117, R149, R150, R363) -/

theorem fenceCtx_works (rank d : Nat) : Works s (s.fenceCtx rank d) := by
  have leaves (x : Ctx) : Works s (((s.setCtx d x).rescaleCheck d).finishFree d) :=
    ((setCtx_works s _ _).trans (rescaleCheck_works _ _)).trans (finishFree_works _ _)
  have holds (c x : Ctx) : Works s (match (s.setCtx d x).layoutOf c with
      | none => s.setCtx d x
      | some (_, l) => match l.bucketOf c with
        | none => s.setCtx d x
        | some (_, g) => if l.releases g then s.setCtx d x else (s.setCtx d x).checkFailUp d 1) := by
    have set_ := setCtx_works s d x
    split
    · exact set_
    · split
      · exact set_
      · exact .ite set_ (set_.trans (checkFailUp_works _ _ _))
  unfold State.fenceCtx
  split
  · exact .refl s
  · dsimp only
    split
    · exact .ite (.refl s) (.ite (holds _ _) (leaves _))
    · exact .ite (.refl s) (.ite (holds _ _) (leaves _))
    · exact setCtx_works s _ _
    · exact .refl s

theorem fenceSupersede_works (num : BitVec 32) (d : Nat) : Works s (s.fenceSupersede num d) := by
  unfold State.fenceSupersede
  split
  · exact .refl s
  · split
    · exact .refl s
    · split
      · exact .refl s
      · exact .ite (.refl s) (.ite (supersedeOwn_works s d) (.refl s))

theorem fenceTake_works (num : BitVec 32) (id : BitVec 12) (rank : Nat) : Works s (s.fenceTake num id rank) := by
  unfold State.fenceTake
  split
  · exact .refl s
  · have dropped : Works s (s.dropOuts fun o => o.job == some id && o.rank == some rank) :=
      dropOuts_works s _ fun o fabric => by rw [fabric.1]; rfl
    dsimp only
    refine .trans (.trans (.trans (.trans (.trans ?_ (minSurvivors_works _ _)) (settleFree_works _)) (bellsDrop_works _ _ _))
      (mcDrop_works _ _ _)) (dispatchFence_works _ _)
    exact ((dropped.trans (Works.foldl _ (fun s d => fenceCtx_works s rank d) _ _)).trans
      (Works.foldl _ (fun s d => fenceSupersede_works s num d) _ _)).trans (Works.foldl _ maybeFinal_works _ _)

theorem dropSlot_works (w : SlotId) (d : Nat) : Works s (s.dropSlot w d) := by
  have leaves (x : Ctx) : Works s (((s.setCtx d x).rescaleCheck d).finishFree d) :=
    ((setCtx_works s _ _).trans (rescaleCheck_works _ _)).trans (finishFree_works _ _)
  unfold State.dropSlot
  split
  · exact .refl s
  · split
    · exact leaves _
    · exact leaves _
    · exact (setCtx_works s _ _).trans (maybeFinal_works _ _)
    · exact .refl s

theorem childTake_works (old : Bank) (l : Layout) : Works s (s.childTake old l) :=
  Works.foldl _ (fun s w => (((dropOuts_works s _ fun o fabric => by rw [fabric.1]; rfl).trans
    (Works.foldl _ (fun s d => dropSlot_works s w d) _ _)).trans (bellsDrop_works _ _ _)).trans (mcDrop_works _ _ _)) _ s

theorem fencesInForce_works (num : BitVec 32) (items : List EpochItem) (id : BitVec 12) : Works s (s.fencesInForce num items id) := by
  unfold State.fencesInForce
  split
  · exact .refl s
  · exact (mapJob_works s _).trans (Works.foldl _ (fun s _ => event_works s _ _ _ _ _ _ _) _ _)

theorem recordClaims_works (items : List EpochItem) (id : BitVec 12) : Works s (s.recordClaims items id) := by
  refine Works.foldl _ (fun s i => ?_) _ s
  split
  · exact .refl s
  · dsimp only
    refine .ite (.refl s) (.ite (mapJob_works s _) (.ite ?_ ((mapJob_works s _).trans (mapJob_works _ _))))
    exact ((mapJob_works s _).trans (mapJob_works _ _)).trans (event_works _ _ _ _ _ _ _ _)

theorem commitJob_works (old : Bank) (num : BitVec 32) (items : List EpochItem) (id : BitVec 12) :
    Works s (s.commitJob old num items id) := by
  have before := fencesInForce_works s num items id
  unfold State.commitJob
  dsimp only
  split
  · exact before
  · refine .ite ((before.trans (strand_works _ _)).trans (settleFree_works _)) ?_
    exact ((before.trans (childTake_works _ _ _)).trans (Works.foldl _ (fun s r => fenceTake_works s num id r) _ _)).trans
      (recordClaims_works _ _ _)

/-! ## Re-parenting and claims at EPOCH_PREPARE (R349, R350, R354) -/

theorem ask_works (items : List EpochItem) : Works s (s.ask items) := by
  unfold State.ask
  refine .ite (.refl s) (.ite ?_ (send_works s _ _ _ _ _))
  exact ⟨onlyParts_mono (mapEpoch_parts s _) (by decide), rfl, Nat.le_refl _, fun o ho _ => ⟨o, ho, rfl⟩, fun none_ => ⟨none_, rfl, rfl⟩⟩

theorem claimItems_next (j : Job) (ranks : List Nat) : (j.claimItems ranks).1.next = j.next := by
  unfold Job.claimItems
  dsimp only
  split
  · rfl
  · refine List.foldlRecOn (motive := fun a : Job × List EpochItem => a.1.next = j.next) ranks _ rfl fun a ha r _ => ?_
    split
    · exact ha
    · split
      · exact ha
      · exact ha

theorem prepareJob_works (old new : Bank) (items : List EpochItem) (id : BitVec 12) : Works s (s.prepareJob old new items id) := by
  unfold State.prepareJob
  split
  · exact .refl s
  · rename_i j _
    have moved : Works s (if s.reparents j.cur old new then
        if j.cur.isRoot then (s.mapJob id fun j => { j with reparenting := true }).abortWindow j 6
        else s.mapJob id fun j => { j with reparenting := true } else s) :=
      .ite (.ite ((mapJob_works s _).trans (abortWindow_works _ _ _)) (mapJob_works s _)) (.refl s)
    dsimp only
    generalize (if s.reparents j.cur old new then
        if j.cur.isRoot then (s.mapJob id fun j => { j with reparenting := true }).abortWindow j 6
        else s.mapJob id fun j => { j with reparenting := true } else s) = t at moved ⊢
    refine .ite moved ?_
    split
    · exact moved
    · rename_i k job
      refine (moved.trans (mapJob_works_of t fun none_ _ _ => ?_)).trans (ask_works _ _)
      exact (claimItems_next k _).trans (noneLoaded_job none_ job)

end

end Sys2Proof.Machine

/-! PROOFS. Messages of an epoch change, and what the coordinator and a switch do with one (spec/02_fabric_frames.md R29, R55, R56;
10_addressing_routing.md R273, R282, R283). -/
namespace Sys2Proof.Machine

open Sys2Proof

/-! ## A long message (R29, R283) -/

/-- A message of the fabric that takes a payload to an address, in as many MGMT frames as it needs. -/
structure OutMsg.Bears (o : OutMsg) (dest : BitVec 24) (payload : List Byte) : Prop where
  fabric : o.ofFabric
  whole : (o.frames.map (·.payload)).flatten = payload
  frames : ∀ g ∈ o.frames, g.h.ftype = 8#4 ∧ g.h.dest = dest ∧ g.payload.length ≤ 4096

/-- Such a message is among those whose key is at least k. -/
def State.bears (t : State) (k : Nat) (dest : BitVec 24) (payload : List Byte) : Prop :=
  ∃ o ∈ t.outs, k ≤ o.key ∧ o.Bears dest payload

theorem State.bears.sendsLong {s t : State} {k : Nat} {dest : BitVec 24} {payload : List Byte} (h : t.bears k dest payload)
    (later : s.freeCount ≤ k) : s.sendsLong t dest payload := by
  obtain ⟨o, mem, key, -, whole, frames⟩ := h
  exact ⟨o, mem, Nat.le_trans later key, whole, frames⟩

/-- A message of the fabric goes through the work on jobs. -/
theorem Works.bears {s t : State} {k : Nat} {dest : BitVec 24} {payload : List Byte} (w : Works s t)
    (h : s.bears k dest payload) : t.bears k dest payload := by
  obtain ⟨o, mem, key, fabric, whole, frames⟩ := h
  obtain ⟨x, hx, same⟩ := w.kept o mem fabric
  obtain ⟨keys, -, -, -, sent⟩ := fields_of_still same
  exact ⟨x, hx, keys ▸ key, ofFabric_of_still same fabric, sent ▸ whole, sent ▸ frames⟩

theorem flatten_chunksOf {α : Type} (w : Nat) : ∀ (n : Nat) (xs : List α), xs.length ≤ n * w → (chunksOf w n xs).flatten = xs
  | 0, xs, h => by
    rw [List.length_eq_zero_iff.mp (by omega : xs.length = 0)]
    rfl
  | n + 1, xs, h => by
    have rest : (xs.drop w).length ≤ n * w := by
      rw [List.length_drop]
      rw [Nat.succ_mul] at h
      omega
    rw [chunksOf, List.flatten_cons, flatten_chunksOf w n _ rest, List.take_append_drop]

theorem length_of_mem_chunksOf {α : Type} {w : Nat} : ∀ {n : Nat} {xs ys : List α}, ys ∈ chunksOf w n xs → ys.length ≤ w
  | 0, _, _, h => nomatch h
  | n + 1, xs, ys, h => by
    rcases List.mem_cons.mp h with rfl | later
    · exact List.length_take_le _ _
    · exact length_of_mem_chunksOf later

theorem numberFrames_payloads (id : BitVec 16) (attempt : Nat) (fs : List Frame) :
    (numberFrames id attempt fs).map (·.payload) = fs.map (·.payload) := by
  rw [numberFrames, List.map_map]
  rfl

theorem epochFrames_payloads (s : State) (dest : BitVec 24) (payload : List Byte) :
    (s.epochFrames dest payload).map (·.payload) =
      payload.take 4092 :: chunksOf 4096 (ceilDiv (payload.length - 4092) 4096) (payload.drop 4092) := by
  rw [State.epochFrames, List.map_map]
  exact List.map_id _

theorem epochFrames_whole (s : State) (dest : BitVec 24) (payload : List Byte) :
    ((s.epochFrames dest payload).map (·.payload)).flatten = payload := by
  have fits : (payload.drop 4092).length ≤ ceilDiv (payload.length - 4092) 4096 * 4096 := by
    rw [List.length_drop, ceilDiv]
    omega
  rw [epochFrames_payloads, List.flatten_cons, flatten_chunksOf _ _ _ fits, List.take_append_drop]

/-- The frames of an epoch message, once they are numbered. -/
theorem mem_numbered_epochFrames {s : State} {id : BitVec 16} {dest : BitVec 24} {payload : List Byte} {g : Frame}
    (h : g ∈ numberFrames id 0 (s.epochFrames dest payload)) : g.h.ftype = 8#4 ∧ g.h.dest = dest ∧ g.payload.length ≤ 4096 := by
  obtain ⟨f, hf, rfl⟩ := List.mem_map.mp h
  obtain ⟨part, mem, rfl⟩ := List.mem_map.mp hf
  refine ⟨rfl, rfl, ?_⟩
  rcases List.mem_cons.mp mem with rfl | later
  · exact Nat.le_trans (List.length_take_le _ _) (by decide)
  · exact length_of_mem_chunksOf later

theorem epochSend_bears (s : State) (dest : BitVec 24) (kind : Nat) (num : BitVec 32) (rest : List Byte) :
    (s.epochSend dest kind num rest).bears s.freeCount dest (leBytes 2 kind ++ zeros 2 ++ leBytes 4 num.toNat ++ rest) := by
  generalize payload : leBytes 2 kind ++ zeros 2 ++ leBytes 4 num.toNat ++ rest = bytes
  rw [State.epochSend, payload]
  obtain ⟨o, mem, same⟩ := (send_outs s .routed (s.epochFrames dest bytes) none none .plain rfl).mem
    (List.mem_append_right _ (List.mem_singleton_self _))
  obtain ⟨key, -, -, -, frames⟩ := fields_of_still same
  refine ⟨o, mem, Nat.le_of_eq key.symm, ofFabric_of_still same ⟨rfl, rfl⟩, ?_, fun g hg => ?_⟩
  · rw [frames]
    exact (congrArg List.flatten (numberFrames_payloads _ _ _)).trans (epochFrames_whole s dest bytes)
  · exact mem_numbered_epochFrames (frames ▸ hg)

theorem epochSend_works (s : State) (dest : BitVec 24) (kind : Nat) (num : BitVec 32) (rest : List Byte) :
    Works s (s.epochSend dest kind num rest) := send_works s _ _ _ _ _

theorem epochAll_works (s : State) (dests : List (BitVec 24)) (kind : Nat) (num : BitVec 32) (rest : List Byte) :
    Works s (s.epochAll dests kind num rest) := Works.foldl _ (fun s d => epochSend_works s d kind num rest) dests s

/-- Each switch addressed has a message of its own. -/
theorem epochAll_bears (kind : Nat) (num : BitVec 32) (rest : List Byte) : ∀ (dests : List (BitVec 24)) (s : State) (k : Nat),
    k ≤ s.freeCount → ∀ w ∈ dests,
      (s.epochAll dests kind num rest).bears k w (leBytes 2 kind ++ zeros 2 ++ leBytes 4 num.toNat ++ rest)
  | [], _, _, _, _, h => nomatch h
  | d :: dests, s, k, later, w, h => by
    have sent := epochSend_works s d kind num rest
    rcases List.mem_cons.mp h with rfl | others
    · obtain ⟨o, mem, key, bears⟩ := (epochAll_works _ dests kind num rest).bears (epochSend_bears s w kind num rest)
      exact ⟨o, mem, Nat.le_trans later key, bears⟩
    · exact epochAll_bears kind num rest dests _ k (Nat.le_trans later sent.free) w others

theorem sends_later {s u t : State} {dest : BitVec 24} {payload : List Byte} (h : s.freeCount ≤ u.freeCount)
    (a : u.sends t dest payload) : s.sends t dest payload := by
  obtain ⟨o, mem, key, frame⟩ := a
  exact ⟨o, mem, Nat.le_trans h key, frame⟩

/-! ## The banks (R273, R282) -/

theorem curBank_of_num {s t : State} (num : t.epoch.num = s.epoch.num) (bank0 : t.bank0 = s.bank0) (bank1 : t.bank1 = s.bank1) :
    t.curBank = s.curBank := by
  rw [State.curBank, State.bank, State.curBit, num, bank0, bank1, State.curBank, State.bank, State.curBit]

theorem bank_of {s t : State} (bank0 : t.bank0 = s.bank0) (bank1 : t.bank1 = s.bank1) (b : Bool) : t.bank b = s.bank b := by
  rw [State.bank, bank0, bank1, State.bank]

/-- The state of epochs after work on jobs, given what it was before. -/
theorem Works.epoch_from {s t : State} (w : Works s t) {e : EpochSt} (h : s.epoch = e) : t.epoch = { e with asked := t.epoch.asked } :=
  h ▸ w.epoch

theorem Works.num {s t : State} (w : Works s t) : t.epoch.num = s.epoch.num := by rw [w.epoch]

theorem Works.curBank {s t : State} (w : Works s t) (none_ : s.noneLoaded) : t.curBank = s.curBank :=
  curBank_of_num w.num (w.loaded none_).2.1 (w.loaded none_).2.2

theorem setBank_parts (s : State) (b : Bool) (k : Bank) : onlyParts [.bank0, .bank1, .dieTables] s (s.setBank b k) := fun p hp => by
  cases b <;> cases p
  case false.bank0 => exact absurd (by decide) hp
  case false.dieTables => exact absurd (by decide) hp
  case true.bank1 => exact absurd (by decide) hp
  case true.dieTables => exact absurd (by decide) hp
  all_goals rfl

/-- Writing the standby bank leaves the current one. -/
theorem curBank_setBank (s : State) (k : Bank) : (s.setBank (!s.curBit) k).curBank = s.curBank := by
  have bit : (s.setBank (!s.curBit) k).curBit = s.curBit := by
    rw [State.curBit, setBank_parts s (!s.curBit) k .epoch (by decide), State.curBit]
  rw [State.curBank, bit, State.curBank]
  cases s.curBit <;> rfl

/-! ## The switches of the fabric (R251, R283) -/

theorem otherSwitches_of {s t : State} (image : t.image = s.image) (jobs : t.jobs = s.jobs) (cur : t.curBank = s.curBank) :
    t.otherSwitches = s.otherSwitches := by
  rw [State.otherSwitches, knownTiers_of image (by rw [jobs]), image, cur, State.otherSwitches]

/-- Which EPOCH_RETIRE are not yet acknowledged does not depend on how many frames have left. -/
theorem retiring_of {s t : State} (same : sameOuts s t) : t.retiring = s.retiring := by
  have any (l : List OutMsg) : (l.any fun o => o.purpose == .epochRetire) =
      (l.map OutMsg.still).any fun o => o.purpose == .epochRetire := by
    rw [List.any_map]
    rfl
  rw [State.retiring, any, (outsAre_iff s.outs t).mp same, ← any, State.retiring]

theorem isEndpoint_of {s t : State} (image : t.image = s.image) : t.isEndpoint = s.isEndpoint := by
  funext p
  rw [State.isEndpoint, State.cable, image, State.isEndpoint, State.cable]

/-! ## A frame is taken and its message acknowledged (R56) -/

/-- What taking a frame leaves of what an epoch change reads: everything but the packet buffer, the messages received and
counters. -/
structure Acked (s v : State) : Prop where
  touches : Touches (.rxs :: coreParts) offPorts s v
  outs : sameOuts s v

section
variable {s v : State} (a : Acked s v)
include a

theorem Acked.kept {p : Part} (h : p ∉ (.rxs :: coreParts : List Part) := by decide) : p.same s v := a.touches.parts p h

theorem Acked.epoch : v.epoch = s.epoch := a.kept (p := .epoch)

theorem Acked.image : v.image = s.image := a.kept (p := .image)

theorem Acked.jobs : v.jobs = s.jobs := a.kept (p := .jobs)

theorem Acked.bank0 : v.bank0 = s.bank0 := a.kept (p := .bank0)

theorem Acked.bank1 : v.bank1 = s.bank1 := a.kept (p := .bank1)

theorem Acked.freeCount : v.freeCount = s.freeCount := a.kept (p := .freeCount)

theorem Acked.curBank : v.curBank = s.curBank := curBank_of a.epoch a.bank0 a.bank1

theorem Acked.noneLoaded (h : s.noneLoaded) : v.noneLoaded := noneLoaded_of_jobs a.jobs h

theorem Acked.fwWaits : v.fwWaits = s.fwWaits := by
  have boot : v.boot = s.boot := a.kept (p := .boot)
  have power : v.power = s.power := a.kept (p := .power)
  rw [State.fwWaits, boot, power, State.fwWaits]

theorem Acked.otherSwitches : v.otherSwitches = s.otherSwitches := otherSwitches_of a.image a.jobs a.curBank

theorem Acked.isTimeRoot : v.isTimeRoot = s.isTimeRoot :=
  isTimeRoot_of a.touches (by decide) (knownTiers_of a.image (by rw [a.jobs]))

end

theorem acked {s u : State} {port : Nat} {f : Frame} {r : Receipt}
    (received : (s.takeFrom .firmware port f).receive port f = (r, u)) : Acked s (u.ack port f.h) :=
  ⟨acked_touches received, acked_sameOuts received⟩

/-- An epoch message that is complete and of the kind is acknowledged and carried out. -/
theorem epochIn_complete {s u : State} {port : Nat} {f : Frame} {kind : Nat} (good : tailGood f = true) (mgmt : f.h.ftype = 8#4)
    (routed : f.h.amode = true) (ofKind : leAt (s.mgmtBody port f) 0 2 = kind) (received : s.receive port f = (.complete, u))
    (act : State → BitVec 32 → List Byte → State) : s.epochIn port f kind act =
      act (u.ack port f.h) (BitVec.ofNat 32 (leAt (s.mgmtBody port f) 4 4)) (s.mgmtBody port f) := by
  rw [State.epochIn, good, mgmt, routed, received]
  simp [ofKind]

/-! ## The coordinator (R282, R283) -/

section
variable {s : State}

theorem coordStart_running (h : s.epoch.coord ≠ .idle) : s.coordStart = s := by simp [State.coordStart, h]

theorem coordPrepared_owed (h : s.epoch.owing ≠ []) : s.coordPrepared = s := by simp [State.coordPrepared, h]

theorem coordDrained_owed (h : s.epoch.owing ≠ []) : s.coordDrained = s := by simp [State.coordDrained, h]

/-- While a change runs and a switch owes its answer, the coordinator waits. -/
theorem coordGo_waits (running : s.epoch.coord ≠ .idle) (owed : s.epoch.owing ≠ []) : s.coordGo = s := by
  unfold State.coordGo
  split
  · rfl
  · rw [coordStart_running running, coordPrepared_owed owed, coordDrained_owed owed, coordStart_running running, coordPrepared_owed owed]

end

/-- The switches that still owe an answer, once one has given it. -/
theorem owing_others {l : List (BitVec 24)} {src : BitVec 24} (h : ∃ w ∈ l, w ≠ src) : l.filter (· != src) ≠ [] := by
  obtain ⟨w, mem, other⟩ := h
  exact List.ne_nil_of_mem (List.mem_filter.mpr ⟨mem, bne_iff_ne.mpr other⟩)

theorem owing_none {l : List (BitVec 24)} {src : BitVec 24} (h : ∀ w ∈ l, w = src) : l.filter (· != src) = [] :=
  List.filter_eq_nil_iff.mpr fun w mem => by rw [h w mem, bne_self_eq_false]; exact Bool.false_ne_true

end Sys2Proof.Machine

/-! PROOFS. Epoch requests, preparation and commit (spec/10_addressing_routing.md R282, R283, R285; 13_topology.md R347 to R355). -/
namespace Sys2Proof.Machine

open Sys2Proof

/-! ## EPOCH_PREPARE (R283 step 1) -/

/-- The standby bank holds the tables of the items, and the switch has prepared them. -/
def State.readied (s : State) (items : List EpochItem) : State :=
  (s.setBank (!s.curBit) (s.nextBank s.curBank items)).mapEpoch fun e => { e with phase := .prepared, items := items }

section
variable (s : State) (items : List EpochItem)

theorem readied_parts : onlyParts [.epoch, .bank0, .bank1, .dieTables] s (s.readied items) :=
  onlyParts_trans (onlyParts_mono (setBank_parts s _ _) (by decide)) (onlyParts_mono (mapEpoch_parts _ _) (by decide))

theorem readied_epoch : (s.readied items).epoch = { s.epoch with phase := .prepared, items := items } := by
  show EpochSt.mk .. = _
  rw [setBank_parts s _ _ .epoch (by decide)]

theorem readied_curBank : (s.readied items).curBank = s.curBank :=
  (curBank_of_num rfl rfl rfl).trans (curBank_setBank s (s.nextBank s.curBank items))

theorem readied_noneLoaded (h : s.noneLoaded) : (s.readied items).noneLoaded :=
  noneLoaded_of_jobs (readied_parts s items .jobs (by decide)) h

theorem prepareLocal_works : Works (s.readied items) (s.prepareLocal items) :=
  Works.foldl _ (fun t id => prepareJob_works t s.curBank (s.nextBank s.curBank items) items id) _ _

theorem prepareLocal_epoch :
    (s.prepareLocal items).epoch =
      { s.epoch with phase := .prepared, items := items, asked := (s.prepareLocal items).epoch.asked } := by
  rw [(prepareLocal_works s items).epoch, readied_epoch]

theorem prepareLocal_curBank (h : s.noneLoaded) : (s.prepareLocal items).curBank = s.curBank :=
  ((prepareLocal_works s items).curBank (readied_noneLoaded s items h)).trans (readied_curBank s items)

theorem prepareLocal_parts : onlyParts (.dieTables :: workParts) s (s.prepareLocal items) :=
  onlyParts_trans (onlyParts_mono (readied_parts s items) (by decide))
    (onlyParts_mono (prepareLocal_works s items).parts (by decide))

theorem prepareLocal_freeCount : s.freeCount ≤ (s.prepareLocal items).freeCount :=
  Nat.le_trans (Nat.le_of_eq (readied_parts s items .freeCount (by decide)).symm) (prepareLocal_works s items).free

theorem prepareLocal_bears {k : Nat} {dest : BitVec 24} {payload : List Byte} (h : s.bears k dest payload) :
    (s.prepareLocal items).bears k dest payload := by
  have outs : (s.readied items).outs = s.outs := readied_parts s items .outs (by decide)
  refine (prepareLocal_works s items).bears ?_
  rwa [State.bears, outs]

end

/-! ## EPOCH_REQUEST (R282) -/

/-- The parts that starting or carrying out a change may touch, with those of the frame that began it. -/
abbrev changeParts : List Part := .rxs :: .dieTables :: workParts

/-- The state of epochs as a change starts. -/
def EpochSt.started (e : EpochSt) (items : List EpochItem) (all : List (BitVec 24)) (own : BitVec 24) : EpochSt :=
  { e with coord := .preparing, coordNum := e.num + 1, owing := all, running := items, asked := [], coordinator := own }

/-- The state as EPOCH_PREPARE goes to the other switches. -/
def State.announcing (s : State) (items : List EpochItem) : State :=
  (s.mapEpoch fun e => e.started items s.otherSwitches s.image.ownFlat).epochAll s.otherSwitches 0x71 (s.epoch.num + 1)
    (itemBytes items)

section
variable {s : State} {items : List EpochItem}

theorem coordStart_starts (root : s.isTimeRoot = true) (idle : s.epoch.coord = .idle) (phase : s.epoch.phase = .idle)
    (retired : s.retiring = false) (fresh : (s.epoch.asked.dedup.filter fun i => !s.curBank.applied i) = items)
    (some_ : items ≠ []) : s.coordStart = (s.announcing items).prepareLocal items := by
  unfold State.coordStart
  dsimp only
  rw [fresh, if_neg (by simp [root, idle, phase, retired, some_])]
  rfl

theorem announcing_works (s : State) (items : List EpochItem) :
    Works (s.mapEpoch fun e => e.started items s.otherSwitches s.image.ownFlat) (s.announcing items) := epochAll_works _ _ _ _ _

theorem announcing_parts (s : State) (items : List EpochItem) : onlyParts workParts s (s.announcing items) :=
  onlyParts_trans (onlyParts_mono (mapEpoch_parts s _) (by decide)) (announcing_works s items).parts

theorem announcing_epoch (s : State) (items : List EpochItem) : (s.announcing items).epoch =
    { s.epoch.started items s.otherSwitches s.image.ownFlat with asked := (s.announcing items).epoch.asked } :=
  (announcing_works s items).epoch

theorem announcing_noneLoaded (h : s.noneLoaded) : (s.announcing items).noneLoaded := ((announcing_works s items).loaded h).1

theorem announcing_curBank (h : s.noneLoaded) : (s.announcing items).curBank = s.curBank :=
  ((announcing_works s items).curBank h).trans (curBank_of_num rfl rfl rfl)

theorem announcing_bears {w : BitVec 24} (h : w ∈ s.otherSwitches) : (s.announcing items).bears s.freeCount w
    (leBytes 2 0x71 ++ zeros 2 ++ leBytes 4 (s.epoch.num + 1).toNat ++ itemBytes items) :=
  epochAll_bears 0x71 _ _ _ _ _ (Nat.le_refl _) w h

/-- What a change that starts is: it is prepared here and EPOCH_PREPARE goes to every other switch. -/
theorem coordGo_starts (firmware : s.fwWaits = false) (root : s.isTimeRoot = true) (idle : s.epoch.coord = .idle)
    (phase : s.epoch.phase = .idle) (retired : s.retiring = false) (others : s.otherSwitches ≠ [])
    (fresh : (s.epoch.asked.dedup.filter fun i => !s.curBank.applied i) = items) (some_ : items ≠ []) :
    s.coordGo = (s.announcing items).prepareLocal items := by
  have started := coordStart_starts root idle phase retired fresh some_
  have epoch := prepareLocal_epoch (s.announcing items) items
  rw [announcing_epoch] at epoch
  have running : ((s.announcing items).prepareLocal items).epoch.coord ≠ .idle := by rw [epoch]; exact (nofun : CoordPhase.preparing ≠ .idle)
  have owed : ((s.announcing items).prepareLocal items).epoch.owing ≠ [] := by rw [epoch]; exact others
  rw [State.coordGo, firmware, if_neg Bool.false_ne_true, started, coordPrepared_owed owed, coordDrained_owed owed,
    coordStart_running running, coordPrepared_owed owed]

end

/-- The time root has taken the items of an EPOCH_REQUEST. -/
def State.requested (s : State) (items : List EpochItem) : State := s.mapEpoch fun e => { e with asked := e.asked ++ items }

theorem exec_epochRequest {s u : State} {port : Nat} {f : Frame} {q : List Byte} (free : s.queuedBehind .firmware port f = false)
    (good : tailGood f = true) (mgmt : f.h.ftype = 8#4) (routed : f.h.amode = true)
    (body : q = (s.takeFrom .firmware port f).mgmtBody port f) (kind : leAt q 0 2 = 0x70)
    (received : (s.takeFrom .firmware port f).receive port f = (.complete, u)) (root : s.isTimeRoot = true) :
    exec (.epochRequest port f) s = .next ((u.ack port f.h).requested (itemsOf q)).coordGo := by
  show execEpochRequest port f s = _
  rw [execEpochRequest, free, if_neg Bool.false_ne_true, epochIn_complete good mgmt routed (body ▸ kind) received,
    if_pos ((acked received).isTimeRoot.trans root), body]
  rfl

/-- At an idle coordinator the items that are new start a change. -/
theorem request_starts {s v : State} (a : Acked s v) {items new : List EpochItem} (firmware : s.fwWaits = false)
    (root : s.isTimeRoot = true) (idle : s.epoch.coord = .idle) (phase : s.epoch.phase = .idle) (retired : s.retiring = false)
    (asked : s.epoch.asked = []) (others : s.otherSwitches ≠ [])
    (fresh : (items.dedup.filter fun i => !s.curBank.applied i) = new) (some_ : new ≠ []) : let t := (v.requested items).coordGo
    t.epoch.coord = .preparing ∧ t.epoch.coordNum = s.epoch.num + 1 ∧ t.epoch.num = s.epoch.num ∧ t.epoch.running = new
      ∧ t.epoch.owing = s.otherSwitches ∧ t.epoch.phase = .prepared ∧ (s.noneLoaded → t.curBank = s.curBank)
      ∧ (∀ w ∈ s.otherSwitches, s.sendsLong t w (leBytes 2 0x71 ++ zeros 2 ++ leBytes 4 (s.epoch.num + 1).toNat
          ++ itemBytes t.epoch.running))
      ∧ onlyParts changeParts s t := by
  have epoch : (v.requested items).epoch = { s.epoch with asked := items } := by
    show EpochSt.mk .. = _
    rw [a.epoch, asked, List.nil_append]
  have cur : (v.requested items).curBank = s.curBank := (curBank_of_num rfl rfl rfl).trans a.curBank
  have same : (v.requested items).otherSwitches = s.otherSwitches :=
    (otherSwitches_of rfl rfl (curBank_of_num rfl rfl rfl)).trans a.otherSwitches
  have go : (v.requested items).coordGo = ((v.requested items).announcing new).prepareLocal new :=
    coordGo_starts (a.fwWaits.trans firmware) (a.isTimeRoot.trans root) (by rw [epoch]; exact idle) (by rw [epoch]; exact phase)
      ((retiring_of a.outs).trans retired) (by rw [same]; exact others) (by rw [epoch, cur]; exact fresh) some_
  have after := prepareLocal_epoch ((v.requested items).announcing new) new
  rw [announcing_epoch, same, epoch] at after
  dsimp only
  rw [go]
  refine ⟨by rw [after]; rfl, by rw [after]; rfl, by rw [after]; rfl, by rw [after]; rfl, by rw [after]; rfl, by rw [after],
    fun none_ => ?_, fun w hw => ?_, ?_⟩
  · exact (prepareLocal_curBank _ _ (announcing_noneLoaded (a.noneLoaded none_))).trans
      ((announcing_curBank (a.noneLoaded none_)).trans cur)
  · rw [show (((v.requested items).announcing new).prepareLocal new).epoch.running = new by rw [after]; rfl]
    have sent := prepareLocal_bears _ new (announcing_bears (items := new) (same ▸ hw : w ∈ (v.requested items).otherSwitches))
    rw [epoch] at sent
    exact sent.sendsLong (Nat.le_of_eq a.freeCount.symm)
  · exact onlyParts_trans (onlyParts_mono a.touches.parts (by decide)) (onlyParts_trans
      (onlyParts_mono (mapEpoch_parts v _) (by decide)) (onlyParts_trans (onlyParts_mono (announcing_parts _ _) (by decide))
        (onlyParts_mono (prepareLocal_parts _ _) (by decide))))

/-- While a change runs the items wait. -/
theorem request_waits {s v : State} (a : Acked s v) (items : List EpochItem) (running : s.epoch.coord ≠ .idle)
    (owed : s.epoch.owing ≠ []) : (v.requested items).coordGo = v.requested items :=
  coordGo_waits (by show v.epoch.coord ≠ _; rw [a.epoch]; exact running) (by show v.epoch.owing ≠ _; rw [a.epoch]; exact owed)

/-! ## An answer to the coordinator (R283 steps 2 and 7) -/

/-- A switch no longer owes its answer. -/
def State.tickOff (s : State) (src : BitVec 24) : State := s.mapEpoch fun e => { e with owing := e.owing.filter (· != src) }

theorem tickOff_epoch {s v : State} (a : Acked s v) (src : BitVec 24) :
    (v.tickOff src).epoch = { s.epoch with owing := s.epoch.owing.filter (· != src) } := by
  show EpochSt.mk .. = _
  rw [a.epoch]

/-- While another switch owes its answer the coordinator waits for it. -/
theorem tickOff_waits {s v : State} (a : Acked s v) {src : BitVec 24} (running : s.epoch.coord ≠ .idle)
    (others : ∃ w ∈ s.epoch.owing, w ≠ src) : let t := (v.tickOff src).coordGo
    t.epoch = { s.epoch with owing := s.epoch.owing.filter (· != src) } ∧ t.bank0 = s.bank0 ∧ t.bank1 = s.bank1
      ∧ keepsParts [.jobs, .ctxs, .wt, .image, .ports, .time] s t := by
  have epoch := tickOff_epoch a src
  dsimp only
  rw [coordGo_waits (by rw [epoch]; exact running) (by rw [epoch]; exact owing_others others)]
  exact ⟨epoch, a.bank0, a.bank1, keepsParts_of_onlyParts (onlyParts_trans
    (onlyParts_mono (d := .epoch :: .rxs :: coreParts) a.touches.parts (by decide))
    (onlyParts_mono (mapEpoch_parts v _) (by decide))) (by decide)⟩

section
variable {s u : State} {port : Nat} {f : Frame} {q : List Byte} (free : s.queuedBehind .firmware port f = false)
  (good : tailGood f = true) (mgmt : f.h.ftype = 8#4) (routed : f.h.amode = true)
  (body : q = (s.takeFrom .firmware port f).mgmtBody port f)
  (received : (s.takeFrom .firmware port f).receive port f = (.complete, u))
include free good mgmt routed body received

theorem exec_epochPrepare (kind : leAt q 0 2 = 0x71) (num : BitVec.ofNat 32 (leAt q 4 4) = s.epoch.num + 1)
    (phase : s.epoch.phase = .idle) : exec (.epochPrepare port f) s =
      .next ((((u.ack port f.h).mapEpoch fun e => { e with coordinator := f.h.src }).prepareLocal (itemsOf q)).epochSend f.h.src
        0x72 (s.epoch.num + 1) (zeros 8)) := by
  show execEpochPrepare port f s = _
  rw [execEpochPrepare, free, if_neg Bool.false_ne_true, epochIn_complete good mgmt routed (body ▸ kind) received, ← body, num,
    (acked received).epoch, phase, if_neg (by simp), if_pos (by simp)]

theorem exec_epochPrepared (kind : leAt q 0 2 = 0x72) (coord : s.epoch.coord = .preparing)
    (num : BitVec.ofNat 32 (leAt q 4 4) = s.epoch.coordNum) :
    exec (.epochPrepared port f) s = .next ((u.ack port f.h).tickOff f.h.src).coordGo := by
  show execEpochPrepared port f s = _
  rw [execEpochPrepared, free, if_neg Bool.false_ne_true, epochIn_complete good mgmt routed (body ▸ kind) received, ← body, num,
    (acked received).epoch, coord, if_neg (by decide), if_pos (by simp)]
  rfl

theorem exec_epochDrained (kind : leAt q 0 2 = 0x74) (coord : s.epoch.coord = .committing)
    (num : BitVec.ofNat 32 (leAt q 4 4) = s.epoch.coordNum) :
    exec (.epochDrained port f) s = .next ((u.ack port f.h).tickOff f.h.src).coordGo := by
  show execEpochDrained port f s = _
  rw [execEpochDrained, free, if_neg Bool.false_ne_true, epochIn_complete good mgmt routed (body ▸ kind) received, ← body, num,
    (acked received).epoch, coord, if_neg (by decide), if_pos (by simp)]
  rfl

end

/-- What EPOCH_PREPARE does at an idle switch, EPOCH_PREPARED included. -/
theorem prepare_answers {s v : State} (a : Acked s v) (items : List EpochItem) (src : BitVec 24) :
    let t := ((v.mapEpoch fun e => { e with coordinator := src }).prepareLocal items).epochSend src 0x72 (s.epoch.num + 1) (zeros 8)
    t.epoch.phase = .prepared ∧ t.epoch.items = items ∧ t.epoch.num = s.epoch.num ∧ t.epoch.coordinator = src
      ∧ (s.noneLoaded → t.curBank = s.curBank)
      ∧ s.sends t src (leBytes 2 0x72 ++ zeros 2 ++ leBytes 4 (s.epoch.num + 1).toNat ++ zeros 8) ∧ onlyParts changeParts s t := by
  have cur : (v.mapEpoch fun e => { e with coordinator := src }).curBank = s.curBank := (curBank_of_num rfl rfl rfl).trans a.curBank
  have later := prepareLocal_freeCount (v.mapEpoch fun e => { e with coordinator := src }) items
  have parts := prepareLocal_parts (v.mapEpoch fun e => { e with coordinator := src }) items
  have epoch := prepareLocal_epoch (v.mapEpoch fun e => { e with coordinator := src }) items
  have bank := prepareLocal_curBank (v.mapEpoch fun e => { e with coordinator := src }) items
  rw [show (v.mapEpoch fun e => { e with coordinator := src }).epoch = { s.epoch with coordinator := src } by
    show EpochSt.mk .. = _; rw [a.epoch]] at epoch
  dsimp only
  generalize State.prepareLocal _ _ = w at later parts epoch bank ⊢
  have sent := epochSend_works w src 0x72 (s.epoch.num + 1) (zeros 8)
  have same : (w.epochSend src 0x72 (s.epoch.num + 1) (zeros 8)).epoch = w.epoch := send_parts w _ _ _ _ _ .epoch (by decide)
  refine ⟨by rw [same, epoch], by rw [same, epoch], by rw [same, epoch], by rw [same, epoch], fun none_ => ?_, ?_, ?_⟩
  · have kept : (w.epochSend src 0x72 (s.epoch.num + 1) (zeros 8)).curBank = w.curBank :=
      curBank_of same (send_parts w _ _ _ _ _ .bank0 (by decide)) (send_parts w _ _ _ _ _ .bank1 (by decide))
    exact kept.trans ((bank (a.noneLoaded none_)).trans cur)
  · exact sends_later (Nat.le_trans (Nat.le_of_eq a.freeCount.symm) later) (epochSend_sends w src 0x72 _ (by decide))
  · exact onlyParts_trans (onlyParts_mono a.touches.parts (by decide)) (onlyParts_trans
      (onlyParts_mono (mapEpoch_parts v _) (by decide)) (onlyParts_trans (onlyParts_mono parts (by decide))
        (onlyParts_mono sent.parts (by decide))))

end Sys2Proof.Machine

/-! PROOFS. EPOCH_COMMIT (spec/10_addressing_routing.md R283 steps 3 and 4, R285; 13_topology.md R347; 09_belfry_and_time.md R251,
R255), and the epoch requests and answers that lead to it (R282, R283). -/
namespace Sys2Proof.Machine

open Sys2Proof

/-! ## The banks change places (R282, R285) -/

/-- EPOCH_NUM has risen and the fences of the new bank are in the draining one. -/
def State.raised (s : State) : State := (s.mapEpoch fun e => { e with num := e.num + 1, phase := .switched }).copyFences

theorem copyFences_parts (s : State) : onlyParts [.bank0, .bank1] s s.copyFences := by
  intro p hp
  rw [State.copyFences]
  cases s.curBit <;> cases p
  case false.bank1 => exact absurd (by decide) hp
  case true.bank0 => exact absurd (by decide) hp
  all_goals rfl

/-- The lowest bit of a number changes with its successor. -/
theorem getLsbD_zero_add_one (n : BitVec 32) : (n + 1).getLsbD 0 = !n.getLsbD 0 := by
  have parity : (n + 1).toNat % 2 = 1 - n.toNat % 2 := by bv_omega
  rw [BitVec.getLsbD, BitVec.getLsbD, Nat.testBit_zero, Nat.testBit_zero, parity]
  rcases Nat.mod_two_eq_zero_or_one n.toNat with h | h <;> rw [h] <;> decide

section
variable (s : State)

theorem raised_parts : onlyParts [.epoch, .bank0, .bank1] s s.raised :=
  onlyParts_trans (onlyParts_mono (mapEpoch_parts s _) (by decide)) (onlyParts_mono (copyFences_parts _) (by decide))

theorem raised_epoch : s.raised.epoch = { s.epoch with num := s.epoch.num + 1, phase := .switched } :=
  copyFences_parts _ .epoch (by decide)

theorem raised_curBit : s.raised.curBit = !s.curBit := by
  rw [State.curBit, raised_epoch]
  exact getLsbD_zero_add_one s.epoch.num

theorem raised_banks : s.raised.curBank = s.bank (!s.curBit)
    ∧ s.raised.bank s.curBit = { s.curBank with fences := (s.bank (!s.curBit)).fences } := by
  have flipped : (s.mapEpoch fun e => { e with num := e.num + 1, phase := .switched }).curBit = !s.curBit :=
    getLsbD_zero_add_one s.epoch.num
  rw [State.curBank, raised_curBit, State.curBank, State.raised, State.copyFences, State.curBank, flipped]
  cases s.curBit <;> exact ⟨rfl, rfl⟩

theorem raised_noneLoaded (h : s.noneLoaded) : s.raised.noneLoaded := noneLoaded_of_jobs (raised_parts s .jobs (by decide)) h

/-! ## What follows at the jobs, and the role of time root (R251, R255, R347) -/

/-- The change has taken effect at every job. -/
def State.carriedOut (s : State) : State :=
  ((s.raised.jobs.map (·.id)).foldl (fun t id => t.commitJob s.curBank t.epoch.num s.epoch.items id) s.raised).setAll
    F.REPEAT_STATUS_EPOCH_CHANGED 4 1

theorem carriedOut_works : Works s.raised s.carriedOut :=
  (Works.foldl _ (fun t id => commitJob_works t s.curBank t.epoch.num s.epoch.items id) _ _).trans
    (.of_parts (setAll_parts _ _ 4 1) (by decide))

theorem timeRole_parts : onlyParts [.regs, .time] s s.timeRole := by
  unfold State.timeRole
  split
  · exact onlyParts_refl _ s
  · split
    · split
      · exact onlyParts_refl _ s
      · exact onlyParts_mono (setTime_parts s _) (by decide)
    · split
      · exact onlyParts_trans (onlyParts_mono (setTime_parts s _) (by decide)) (intoHoldover_effect _).2.2.2.1
      · exact onlyParts_refl _ s

/-- The cuts that follow have been asked for. -/
def State.settled (s : State) : State := s.carriedOut.timeRole.askCuts s.curBank

theorem settled_works : Works s.carriedOut.timeRole s.settled := ask_works _ _

/-- The parts that a commit may touch. -/
abbrev commitParts : List Part := .time :: workParts

theorem settled_parts : onlyParts commitParts s s.settled :=
  onlyParts_trans (onlyParts_mono (raised_parts s) (by decide)) (onlyParts_trans
    (onlyParts_mono (carriedOut_works s).parts (by decide)) (onlyParts_trans
      (onlyParts_mono (timeRole_parts _) (by decide)) (onlyParts_mono (settled_works s).parts (by decide))))

theorem settled_epoch : s.settled.epoch =
    { s.epoch with num := s.epoch.num + 1, phase := .switched, asked := s.settled.epoch.asked } := by
  have role : s.carriedOut.timeRole.epoch = s.carriedOut.epoch := timeRole_parts s.carriedOut .epoch (by decide)
  exact (settled_works s).epoch_from (role.trans ((carriedOut_works s).epoch_from (raised_epoch s)))

theorem settled_banks (h : s.noneLoaded) : s.settled.noneLoaded ∧ s.settled.bank0 = s.raised.bank0
    ∧ s.settled.bank1 = s.raised.bank1 := by
  obtain ⟨none_, bank0, bank1⟩ := (carriedOut_works s).loaded (raised_noneLoaded s h)
  have role := timeRole_parts s.carriedOut
  obtain ⟨still, later0, later1⟩ := (settled_works s).loaded (noneLoaded_of_jobs (role .jobs (by decide)) none_)
  exact ⟨still, later0.trans ((role .bank0 (by decide)).trans bank0), later1.trans ((role .bank1 (by decide)).trans bank1)⟩

/-! ## EPOCH_ANNOUNCE (R283 step 4) -/

/-- The state of epochs as EPOCH_ANNOUNCE goes out. -/
def State.owesAnnounce (s : State) : State :=
  s.mapEpoch fun e =>
    { e with announce := (s.ports.map (·.num)).filter s.isEndpoint, announceFailed := 0, drainFrom := s.ns, drainedSent := false }

theorem owesAnnounce_epoch {s : State} {e : EpochSt} (h : s.epoch = e) : s.owesAnnounce.epoch =
    { e with announce := (s.ports.map (·.num)).filter s.isEndpoint, announceFailed := 0, drainFrom := s.ns, drainedSent := false } := by
  rw [← h]
  rfl

theorem owesAnnounce_parts (s : State) : onlyParts [.epoch] s s.owesAnnounce := mapEpoch_parts s _

theorem announceAll_works : Works s.owesAnnounce s.announceAll := by
  unfold State.announceAll
  exact Works.foldl _ (fun t _ => send_works t _ _ _ _ _) _ _

/-! ## Commit (R283 step 3) -/

theorem commitLocal_works : Works s.settled.owesAnnounce s.commitLocal := announceAll_works s.settled

theorem commitLocal_parts : onlyParts commitParts s s.commitLocal :=
  onlyParts_trans (settled_parts s) (onlyParts_trans (onlyParts_mono (owesAnnounce_parts _) (by decide))
    (onlyParts_mono (commitLocal_works s).parts (by decide)))

/-- What is to be announced, and to whom. -/
theorem commitLocal_epoch : s.commitLocal.epoch =
    { s.epoch with num := s.epoch.num + 1, phase := .switched, asked := s.commitLocal.epoch.asked
                   announce := (s.ports.map (·.num)).filter s.isEndpoint, announceFailed := 0
                   drainFrom := s.settled.ns, drainedSent := false } := by
  have image : s.settled.image = s.image := settled_parts s .image (by decide)
  have ports : s.settled.ports = s.ports := settled_parts s .ports (by decide)
  have owed := owesAnnounce_epoch (settled_epoch s)
  rw [ports, isEndpoint_of image] at owed
  exact (commitLocal_works s).epoch_from owed

/-- The standby bank has become the current one, and the draining one holds its fences. -/
theorem commitLocal_banks (h : s.noneLoaded) : s.commitLocal.curBank = s.bank (!s.curBit)
    ∧ s.commitLocal.bank s.curBit = { s.curBank with fences := (s.bank (!s.curBit)).fences } := by
  obtain ⟨none_, bank0, bank1⟩ := settled_banks s h
  have owed := owesAnnounce_parts s.settled
  have owed0 : s.settled.owesAnnounce.bank0 = s.settled.bank0 := owed .bank0 (by decide)
  have owed1 : s.settled.owesAnnounce.bank1 = s.settled.bank1 := owed .bank1 (by decide)
  obtain ⟨-, later0, later1⟩ := (commitLocal_works s).loaded (noneLoaded_of_jobs (owed .jobs (by decide)) none_)
  have after : s.commitLocal.epoch.num = s.epoch.num + 1 := congrArg EpochSt.num (commitLocal_epoch s)
  have before : s.raised.epoch.num = s.epoch.num + 1 := congrArg EpochSt.num (raised_epoch s)
  have num : s.commitLocal.epoch.num = s.raised.epoch.num := after.trans before.symm
  have same0 : s.commitLocal.bank0 = s.raised.bank0 := later0.trans (owed0.trans bank0)
  have same1 : s.commitLocal.bank1 = s.raised.bank1 := later1.trans (owed1.trans bank1)
  exact ⟨(curBank_of_num num same0 same1).trans (raised_banks s).1, (bank_of same0 same1 _).trans (raised_banks s).2⟩

end

/-! ## The coordinator holds EPOCH_PREPARED from every switch (R283 step 3) -/

/-- The state as EPOCH_COMMIT goes to the other switches. -/
def State.committing (s : State) : State :=
  (s.mapEpoch fun e => { e with coord := .committing, owing := s.otherSwitches }).epochAll s.otherSwitches 0x73 s.epoch.coordNum
    (zeros 8)

theorem committing_epoch (s : State) : s.committing.epoch =
    { s.epoch with coord := .committing, owing := s.otherSwitches, asked := s.committing.epoch.asked } :=
  (epochAll_works _ _ _ _ _).epoch

/-- The commit begins here and at every other switch, and the coordinator waits for EPOCH_DRAINED. -/
theorem coordGo_commits {s : State} (firmware : s.fwWaits = false) (coord : s.epoch.coord = .preparing) (owing : s.epoch.owing = [])
    (others : s.otherSwitches ≠ []) (phase : s.epoch.phase = .prepared) (num : s.epoch.num + 1 = s.epoch.coordNum) :
    s.coordGo = s.committing.commitLocal := by
  have epoch := committing_epoch s
  have ready : s.committing.epoch.phase = .prepared := (congrArg EpochSt.phase epoch).trans phase
  have next : s.committing.epoch.num + 1 = s.epoch.coordNum := (congrArg (fun e : EpochSt => e.num + 1) epoch).trans num
  have prepared : s.coordPrepared = s.committing.commitLocal := by
    have go : (decide (s.committing.epoch.phase = .prepared) && s.committing.epoch.num + 1 == s.epoch.coordNum) = true := by
      rw [ready, next, beq_self_eq_true]
      rfl
    unfold State.coordPrepared
    rw [if_neg (by simp [coord, owing])]
    exact if_pos go
  have after := commitLocal_epoch s.committing
  have waits : s.committing.commitLocal.epoch.coord = .committing :=
    (congrArg EpochSt.coord after).trans (congrArg EpochSt.coord epoch)
  have owed : s.committing.commitLocal.epoch.owing = s.otherSwitches :=
    (congrArg EpochSt.owing after).trans (congrArg EpochSt.owing epoch)
  generalize s.committing.commitLocal = t at prepared waits owed ⊢
  have running : t.epoch.coord ≠ .idle := by rw [waits]; exact nofun
  rw [State.coordGo, firmware, if_neg Bool.false_ne_true, coordStart_running (s := s) (by rw [coord]; exact nofun), prepared,
    coordDrained_owed (owed ▸ others), coordStart_running running, coordPrepared_owed (owed ▸ others)]

/-- With the last EPOCH_PREPARED the commit begins. -/
theorem tickOff_commits {s v : State} (a : Acked s v) {src : BitVec 24} (firmware : s.fwWaits = false)
    (coord : s.epoch.coord = .preparing) (last : ∀ w ∈ s.epoch.owing, w = src) (others : s.otherSwitches ≠ [])
    (phase : s.epoch.phase = .prepared) (num : s.epoch.num + 1 = s.epoch.coordNum) : let t := (v.tickOff src).coordGo
    t.epoch.coord = .committing ∧ t.epoch.owing = s.otherSwitches ∧ t.epoch.num = s.epoch.num + 1 ∧ t.epoch.phase = .switched := by
  have epoch := tickOff_epoch a src
  have same : (v.tickOff src).otherSwitches = s.otherSwitches :=
    (otherSwitches_of rfl rfl (curBank_of_num rfl rfl rfl)).trans a.otherSwitches
  have go : (v.tickOff src).coordGo = (v.tickOff src).committing.commitLocal :=
    coordGo_commits (a.fwWaits.trans firmware) (by rw [epoch]; exact coord) (by rw [epoch]; exact owing_none last)
      (by rw [same]; exact others) (by rw [epoch]; exact phase) (by rw [epoch]; exact num)
  have after := commitLocal_epoch (v.tickOff src).committing
  have before := committing_epoch (v.tickOff src)
  have ticked : (v.tickOff src).epoch.num = s.epoch.num := by rw [epoch]
  have num : (v.tickOff src).committing.epoch.num = s.epoch.num := (congrArg EpochSt.num before).trans ticked
  dsimp only
  rw [go]
  exact ⟨(congrArg EpochSt.coord after).trans (congrArg EpochSt.coord before),
    (congrArg EpochSt.owing after).trans ((congrArg EpochSt.owing before).trans same),
    (congrArg EpochSt.num after).trans (congrArg (· + 1) num), congrArg EpochSt.phase after⟩

/-! ## Epoch requests and answers (R282, R283) -/

/-- Settles O22: the coordinator starts a change or lets it wait, a switch prepares one, and answers are ticked off until the last
begins the commit; everything else that these do is work on jobs. -/
theorem epochRequestsAndAnswers : Obligations.EpochRequestsAndAnswers := by
  unfold Obligations.EpochRequestsAndAnswers
  constructor
  · intro s u port f q free good mgmt body kind routed received root
    have a := acked received
    have runs := exec_epochRequest free good mgmt routed body kind received root
    constructor
    · intro idle phase retired asked others firmware some_
      obtain ⟨coord, coordNum, num, running, owing, prepared, cur, sends, parts⟩ :=
        request_starts a firmware root idle phase retired asked others rfl some_
      exact ⟨_, runs, coord, coordNum, num, running, owing, prepared, cur, sends, keepsParts_of_onlyParts parts (by decide)⟩
    · intro running owed
      refine ⟨_, runs, ?_⟩
      rw [request_waits a _ running owed]
      refine ⟨?_, a.bank0, a.bank1, keepsParts_of_onlyParts (onlyParts_trans
        (onlyParts_mono (d := .epoch :: .rxs :: coreParts) a.touches.parts (by decide))
        (onlyParts_mono (mapEpoch_parts _ _) (by decide))) (by decide)⟩
      show EpochSt.mk .. = _
      rw [a.epoch]
  · intro s u port f q free good mgmt routed body received
    have a := acked received
    refine ⟨fun kind num phase => ?_, fun kind coord num => ⟨fun others => ?_, fun last others firmware phase next => ?_⟩,
      fun kind coord num others => ?_⟩
    · obtain ⟨prepared, items, same, by_, cur, sends, parts⟩ := prepare_answers a (itemsOf q) f.h.src
      exact ⟨_, exec_epochPrepare free good mgmt routed body received kind num phase, prepared, items, same, by_, cur, sends,
        keepsParts_of_onlyParts parts (by decide)⟩
    · exact ⟨_, exec_epochPrepared free good mgmt routed body received kind coord num,
        tickOff_waits a (by rw [coord]; exact nofun) others⟩
    · exact ⟨_, exec_epochPrepared free good mgmt routed body received kind coord num,
        tickOff_commits a firmware coord last others phase next⟩
    · exact ⟨_, exec_epochDrained free good mgmt routed body received kind coord num,
        tickOff_waits a (by rw [coord]; exact nofun) others⟩

end Sys2Proof.Machine

/-! PROOFS. EPOCH_RETIRE and the end of an epoch change (spec/10_addressing_routing.md R283 steps 4 to 7, R285, R287;
13_topology.md R352): what is left in the packet buffer has the EPOCH bit of the current bank. -/
namespace Sys2Proof.Machine

open Sys2Proof

/-! ## The EPOCH bit of what waits (R283 step 4) -/

/-- Every copy that has not started has an EPOCH bit. -/
def State.Stamped (s : State) (b : Bool) : Prop := ∀ c ∈ s.allCopies, c.started = false → c.out.h.epoch = b

theorem curBit_of {s t : State} (h : t.epoch = s.epoch) : t.curBit = s.curBit := by rw [State.curBit, h, State.curBit]

section
variable {s t : State} {b : Bool}

theorem State.Stamped.inherits (h : s.Stamped b) (a : Inherits s t) : t.Stamped b := fun y hy waits => by
  obtain ⟨x, hx, same⟩ := a.came y hy
  obtain ⟨-, -, started, -, out⟩ := fields_of_bare same
  rw [← out]
  exact h x hx (started.trans waits)

theorem State.Stamped.of_core (h : s.Stamped b) (core : t.core = s.core) : t.Stamped b := h.inherits (.of_core core)

/-- What a frame of the switch's own adds to the packet buffer are its copies, queued or waiting for local cells. -/
theorem takeLocal_came (s : State) (d : Nat) (f : Frame) (xs : List LocalCopy) :
    ∀ y ∈ (s.takeLocal d f xs).allCopies, (∃ x ∈ s.allCopies, x.bare = y.bare) ∨ ∃ x ∈ xs, x.out = y.out := by
  unfold State.takeLocal
  split
  · exact fun y hy => .inl ⟨y, hy, rfl⟩
  · dsimp only
    split
    · intro y hy
      obtain ⟨x, hx, same⟩ := (admitLocal_headsOf _ _ _).inherits.came y hy
      rcases List.mem_append.mp hx with queued | waiting
      · rcases List.mem_append.mp queued with old | new
        · exact .inl ⟨x, List.mem_append_left _ old, same⟩
        · obtain ⟨c, hc, rfl⟩ := List.mem_map.mp new
          obtain ⟨z, hz, rfl⟩ := List.mem_map.mp hc
          obtain ⟨-, -, -, -, out⟩ := fields_of_bare same
          exact .inr ⟨z.1, List.fst_mem_of_mem_zipIdx hz, out⟩
      · exact .inl ⟨x, List.mem_append_right _ waiting, same⟩
    · intro y hy
      rcases List.mem_append.mp hy with queued | waiting
      · exact .inl ⟨y, List.mem_append_left _ queued, rfl⟩
      · obtain ⟨cs, hcs, mem⟩ := List.mem_flatten.mp waiting
        obtain ⟨w, hw, rfl⟩ := List.mem_map.mp hcs
        rcases List.mem_append.mp hw with old | last
        · exact .inl ⟨y, List.mem_append_right _ (List.mem_flatten.mpr ⟨w.2, List.mem_map_of_mem old, mem⟩), rfl⟩
        · rw [List.mem_singleton.mp last] at mem
          obtain ⟨z, hz, rfl⟩ := List.mem_map.mp mem
          exact .inr ⟨z.1, List.fst_mem_of_mem_zipIdx hz, rfl⟩

theorem State.Stamped.takeLocal (h : s.Stamped b) (d : Nat) (f : Frame) {xs : List LocalCopy} (new : ∀ x ∈ xs, x.out.h.epoch = b) :
    (s.takeLocal d f xs).Stamped b := fun y hy waits => by
  rcases takeLocal_came s d f xs y hy with ⟨x, hx, same⟩ | ⟨x, hx, out⟩
  · obtain ⟨-, -, started, -, out⟩ := fields_of_bare same
    rw [← out]
    exact h x hx (started.trans waits)
  · rw [← out]
    exact new x hx

end

/-! ## What the switch sends has the current bit (R54, R203) -/

/-- A frame of the switch's own with its stamp and its relay (R590). -/
def State.relayed (s : State) (k : Nat) (hop : Hop) (f : Frame) : Frame :=
  match hop, s.route s.curBank (s.stamp k f).h false with
  | .routed, .relay =>
    match s.relayLeaf s.curBank with
    | some e => { s.stamp k f with h := { (s.stamp k f).h with remoteAddr := e.flat.setWidth 64 } }
    | none => s.stamp k f
  | _, _ => s.stamp k f

theorem relayed_epoch (s : State) (k : Nat) (hop : Hop) (f : Frame) : (s.relayed k hop f).h.epoch = s.curBit := by
  unfold State.relayed
  split
  · split
    · rfl
    · rfl
  · rfl

/-- A frame of the switch's own that leaves is the one with its stamp and its relay. -/
theorem place_relayed {s t : State} {k : Nat} {hop : Hop} {f g : Frame} {p : Nat} (h : s.place k hop f = (some (p, g), t)) :
    g = s.relayed k hop f := by
  unfold State.place at h
  split at h
  · cases h
  · cases hop
    all_goals
      dsimp only at h
      split at h
      · cases h
        rfl
      · cases h

/-- The copies of one frame that go out, so far, each with its die, and one more. -/
def placeNext (a : List (Nat × LocalCopy) × State) (x : Hop × Frame × Option Nat) : List (Nat × LocalCopy) × State :=
  match a.2.place a.1.length x.1 x.2.1 with
  | (some (p, f), s) => (a.1 ++ [(dieOf p, ⟨.port p, f, true, true, x.2.2⟩)], s)
  | (none, s) => (a.1, s.msgSent x.2.2)

/-- The copies that go out through one die share its cells. -/
def State.takeDie (s : State) (placed : List (Nat × LocalCopy)) (d : Nat) : State :=
  match (placed.filter fun x => x.1 == d).map (·.2) with
  | [] => s
  | c :: cs => s.takeLocal d c.out (c :: cs)

theorem emitCopies_eq (s : State) (xs : List (Hop × Frame × Option Nat)) : s.emitCopies xs =
    (List.range 4).foldl (fun t d => t.takeDie (xs.foldl placeNext ([], s)).1 d) (xs.foldl placeNext ([], s)).2 := rfl

section
variable {s : State} {b : Bool}

/-- What waits has the bit of the current bank. -/
def State.StampedNow (s : State) (b : Bool) : Prop := s.curBit = b ∧ s.Stamped b

theorem State.StampedNow.of_parts {c : List Part} {s t : State} (h : s.StampedNow b) (a : onlyParts c s t)
    (off : Part.core ∉ c ∧ Part.epoch ∉ c) : t.StampedNow b :=
  ⟨(curBit_of (a .epoch off.2)).trans h.1, h.2.of_core (a .core off.1)⟩

theorem placeNext_stamped {a : List (Nat × LocalCopy) × State} (now : a.2.StampedNow b) (all : ∀ y ∈ a.1, y.2.out.h.epoch = b)
    (x : Hop × Frame × Option Nat) : (placeNext a x).2.StampedNow b ∧ ∀ y ∈ (placeNext a x).1, y.2.out.h.epoch = b := by
  have still : (a.2.place a.1.length x.1 x.2.1).2.StampedNow b := now.of_parts (place_parts _ _ _ _) (by decide)
  unfold placeNext
  split
  · rename_i p f t e
    rw [e] at still
    refine ⟨still, fun y hy => ?_⟩
    rcases List.mem_append.mp hy with old | new
    · exact all y old
    · rw [List.mem_singleton.mp new]
      exact (congrArg (fun g : Frame => g.h.epoch) (place_relayed e)).trans ((relayed_epoch _ _ _ _).trans now.1)
  · rename_i t e
    rw [e] at still
    exact ⟨still.of_parts (msgSent_parts _ _) (by decide), all⟩

theorem takeDie_stamped {placed : List (Nat × LocalCopy)} (all : ∀ y ∈ placed, y.2.out.h.epoch = b) (h : s.StampedNow b) (d : Nat) :
    (s.takeDie placed d).StampedNow b := by
  unfold State.takeDie
  split
  · exact h
  · rename_i c cs e
    have mine : ∀ x ∈ c :: cs, x.out.h.epoch = b := fun x hx => by
      rw [← e] at hx
      obtain ⟨y, hy, rfl⟩ := List.mem_map.mp hx
      exact all y (List.mem_filter.mp hy).1
    exact ⟨(curBit_of (takeLocal_parts s _ _ _ .epoch (by decide))).trans h.1, h.2.takeLocal _ _ mine⟩

theorem emitCopies_stamped (h : s.StampedNow b) (xs : List (Hop × Frame × Option Nat)) : (s.emitCopies xs).StampedNow b := by
  obtain ⟨now, all⟩ := List.foldlRecOn
    (motive := fun a : List (Nat × LocalCopy) × State => a.2.StampedNow b ∧ ∀ y ∈ a.1, y.2.out.h.epoch = b)
    xs placeNext (b := ([], s)) ⟨h, fun _ hy => absurd hy List.not_mem_nil⟩ fun a ⟨now, all⟩ x _ => placeNext_stamped now all x
  rw [emitCopies_eq]
  exact List.foldlRecOn (motive := fun t : State => t.StampedNow b) _ _ now fun t ht d _ => takeDie_stamped all ht d

theorem sendMany_stamped (h : s.StampedNow b) (job : Option (BitVec 12)) (xs : List (Hop × List Frame × Option Nat × Purpose)) :
    (s.sendMany job xs).StampedNow b := by
  have opened : (xs.foldl (openNext job) ([], s)).2.StampedNow b :=
    List.foldlRecOn (motive := fun a : List (Hop × List Frame × Nat) × State => a.2.StampedNow b) xs _ h
      fun a ha x _ => ha.of_parts (open_parts a.2 _ _ _ _ _) (by decide)
  unfold State.sendMany
  split
  · exact h
  · exact List.foldlRecOn (motive := fun t : State => t.StampedNow b) _ _ opened fun t ht i _ => emitCopies_stamped ht _

end

end Sys2Proof.Machine

/-! PROOFS. EPOCH_RETIRE, EPOCH_QUERY and EPOCH_DRAIN_CONDITION (spec/10_addressing_routing.md R283 steps 6 and 7, R287;
13_topology.md R352). -/
namespace Sys2Proof.Machine

open Sys2Proof

/-! ## BELL_RESTART (R352) -/

/-- What each bell home sends for a bell that is cleared. -/
def State.restartBell (s : State) (id : BitVec 12) (j : Job) (x : Bell) : State :=
  match j.cur.plan.group? x.group with
  | none => s
  | some g =>
    let pay := leBytes 2 0x63 ++ leBytes 2 (jobGen id j.cur.plan.gen) ++ leBytes 2 x.bell ++ leBytes 2 x.phase.toNat ++ zeros 8
    s.sendMany (some id) ((s.curBank.survivors id g).map fun r =>
      (.routed, [mgmtFrame false (j.cur.plan.coordOf r) (fabricAddr false) id j.cur.plan.gen pay], some r, .bell))

/-- What is sent as bells restart. -/
abbrev restartParts : List Part := .jobs :: sendParts

section
variable {s : State} {b : Bool}

/-- Bells are cleared and messages sent, so that what waits has the bit it had. -/
theorem bellRestart_stamped (h : s.StampedNow b) (id : BitVec 12) : (s.bellRestart id).StampedNow b := by
  unfold State.bellRestart
  split
  · exact h
  · rename_i j _
    dsimp only
    refine List.foldlRecOn (motive := fun t : State => t.StampedNow b) _ (fun t x => t.restartBell id j x)
      (h.of_parts (mapJob_parts s id _) (by decide)) fun t ht x _ => ?_
    unfold State.restartBell
    split
    · exact ht
    · exact sendMany_stamped ht _ _

theorem bellRestart_parts (s : State) (id : BitVec 12) : onlyParts restartParts s (s.bellRestart id) := by
  unfold State.bellRestart
  split
  · exact onlyParts_refl _ s
  · rename_i j _
    refine onlyParts_trans (onlyParts_mono (mapJob_parts s id _) (by decide))
      (onlyParts_foldl (fun t x => t.restartBell id j x) (fun t x => ?_) _ _)
    unfold State.restartBell
    split
    · exact onlyParts_refl _ t
    · exact onlyParts_mono (sendMany_touches t _ _).parts (by decide)

end

/-! ## EPOCH_RETIRE (R283 step 7) -/

/-- Does a copy wait with an EPOCH bit? -/
def Copy.waitsWith (b : Bool) (c : Copy) : Bool := !c.started && c.out.h.epoch == b

/-- The frames of the old bank are purged, each counted. -/
def State.purged (s : State) : State :=
  ((s.waitingWith !s.curBit).foldl (fun t _ => t.bumpDies F.EPOCH_DISCARDS_STALE_EPOCH) s).dropCopies (Copy.waitsWith !s.curBit)

/-- The old bank is retired. -/
def State.retired (s : State) : State :=
  s.purged.mapEpoch fun e => { e with phase := .idle, retiredOnce := true, items := [], announce := [] }

section
variable (s : State)

theorem retireLocal_eq : s.retireLocal =
    ((s.retired.jobs.filter (·.reparenting)).map (·.id)).foldl State.bellRestart s.retired := rfl

theorem purged_parts : onlyParts coreParts s s.purged :=
  onlyParts_trans (onlyParts_mono (onlyParts_foldl (c := [.regs]) _ (fun t _ => bumpDies_parts t _) _ s) (by decide))
    (dropCopies_parts _ _)

theorem purged_stamped : s.purged.StampedNow s.curBit := by
  refine ⟨curBit_of (purged_parts s .epoch (by decide)), fun c hc waits => ?_⟩
  have gone := (dropCopies_inherits (q := Copy.waitsWith !s.curBit) (fun _ => rfl) _).2 c hc
  rw [Copy.waitsWith, waits] at gone
  revert gone
  cases c.out.h.epoch <;> cases s.curBit <;> decide

theorem retired_parts : onlyParts (.epoch :: coreParts) s s.retired :=
  onlyParts_trans (onlyParts_mono (purged_parts s) (by decide)) (onlyParts_mono (mapEpoch_parts _ _) (by decide))

theorem retired_epoch : s.retired.epoch = { s.epoch with phase := .idle, retiredOnce := true, items := [], announce := [] } := by
  have same : s.purged.epoch = s.epoch := purged_parts s .epoch (by decide)
  rw [← same]
  rfl

/-- Only copies with the bit of the current bank are left to start. -/
theorem retireLocal_stamped : s.retireLocal.StampedNow s.curBit := by
  have now : s.retired.StampedNow s.curBit := purged_stamped s
  rw [retireLocal_eq]
  exact List.foldlRecOn (motive := fun t : State => t.StampedNow s.curBit) _ _ now fun t ht id _ => bellRestart_stamped ht id

theorem retireLocal_restarts : onlyParts restartParts s.retired s.retireLocal := onlyParts_foldl _ bellRestart_parts _ _

theorem retireLocal_epoch :
    s.retireLocal.epoch = { s.epoch with phase := .idle, retiredOnce := true, items := [], announce := [] } := by
  have same : s.retireLocal.epoch = s.retired.epoch := retireLocal_restarts s .epoch (by decide)
  exact same.trans (retired_epoch s)

theorem retireLocal_parts : onlyParts (.epoch :: restartParts) s s.retireLocal :=
  onlyParts_trans (onlyParts_mono (retired_parts s) (by decide)) (onlyParts_mono (retireLocal_restarts s) (by decide))

end

/-! ## The commands -/

/-- A message has come from a coordinator. -/
def State.coordinatedBy (s : State) (src : BitVec 24) : State := s.mapEpoch fun e => { e with coordinator := src }

theorem coordinatedBy_epoch {s v : State} (a : Acked s v) (src : BitVec 24) :
    (v.coordinatedBy src).epoch = { s.epoch with coordinator := src } := by
  rw [← a.epoch]
  rfl

section
variable {s u : State} {port : Nat} {f : Frame} {q : List Byte} (free : s.queuedBehind .firmware port f = false)
  (good : tailGood f = true) (mgmt : f.h.ftype = 8#4) (routed : f.h.amode = true)
  (body : q = (s.takeFrom .firmware port f).mgmtBody port f)
  (received : (s.takeFrom .firmware port f).receive port f = (.complete, u))
include free good mgmt routed body received

theorem exec_epochCommit (kind : leAt q 0 2 = 0x73) (num : BitVec.ofNat 32 (leAt q 4 4) = s.epoch.num + 1)
    (phase : s.epoch.phase = .prepared) :
    exec (.epochCommit port f) s = .next ((u.ack port f.h).coordinatedBy f.h.src).commitLocal := by
  show execEpochCommit port f s = _
  rw [execEpochCommit, free, if_neg Bool.false_ne_true, epochIn_complete good mgmt routed (body ▸ kind) received, ← body, num,
    (acked received).epoch, phase, if_pos (by simp)]
  rfl

theorem exec_epochRetire (kind : leAt q 0 2 = 0x75) (num : BitVec.ofNat 32 (leAt q 4 4) = s.epoch.num)
    (phase : s.epoch.phase = .switched) (coord : s.epoch.coord ≠ .querying) :
    exec (.epochRetire port f) s = .next (u.ack port f.h).retireLocal := by
  show execEpochRetire port f s = _
  rw [execEpochRetire, free, if_neg Bool.false_ne_true, epochIn_complete good mgmt routed (body ▸ kind) received, ← body, num,
    (acked received).epoch, phase, if_neg coord, if_pos (by simp)]

theorem exec_epochQuery (kind : leAt q 0 2 = 0x77) (phase : s.epoch.phase = .prepared) : exec (.epochQuery port f) s =
    .next (((u.ack port f.h).coordinatedBy f.h.src).epochSend f.h.src 0x72 (s.epoch.num + 1) (zeros 8)) := by
  have epoch := coordinatedBy_epoch (acked received) f.h.src
  show execEpochQuery port f s = _
  rw [execEpochQuery, free, if_neg Bool.false_ne_true, epochIn_complete good mgmt routed (body ▸ kind) received]
  dsimp only
  rw [show ((u.ack port f.h).mapEpoch fun e => { e with coordinator := f.h.src }) = (u.ack port f.h).coordinatedBy f.h.src from rfl,
    show ((u.ack port f.h).coordinatedBy f.h.src).epoch.phase = .prepared by rw [epoch]; exact phase, epoch]

end

/-- What EPOCH_COMMIT does at a prepared switch. -/
theorem commit_switches {s v : State} (a : Acked s v) (src : BitVec 24) : let t := (v.coordinatedBy src).commitLocal
    t.epoch.num = s.epoch.num + 1 ∧ t.epoch.phase = .switched
      ∧ (s.noneLoaded → t.curBank = s.bank (!s.curBit)
        ∧ t.bank s.curBit = { s.curBank with fences := (s.bank (!s.curBit)).fences })
      ∧ t.epoch.announce = (s.ports.map (·.num)).filter s.isEndpoint ∧ t.epoch.drainedSent = false
      ∧ onlyParts (.rxs :: commitParts) s t := by
  have before := coordinatedBy_epoch a src
  have kept : onlyParts (.epoch :: .rxs :: coreParts) s (v.coordinatedBy src) :=
    onlyParts_trans (onlyParts_mono a.touches.parts (by decide)) (onlyParts_mono (mapEpoch_parts v _) (by decide))
  have num : (v.coordinatedBy src).epoch.num = s.epoch.num := by rw [before]
  have bank0 : (v.coordinatedBy src).bank0 = s.bank0 := kept .bank0 (by decide)
  have bank1 : (v.coordinatedBy src).bank1 = s.bank1 := kept .bank1 (by decide)
  have ports : (v.coordinatedBy src).ports = s.ports := kept .ports (by decide)
  have image : (v.coordinatedBy src).image = s.image := kept .image (by decide)
  have jobs : (v.coordinatedBy src).jobs = s.jobs := kept .jobs (by decide)
  have bit : (v.coordinatedBy src).curBit = s.curBit := by rw [State.curBit, num, State.curBit]
  dsimp only
  generalize v.coordinatedBy src = w at kept num bank0 bank1 ports image jobs bit
  have after := commitLocal_epoch w
  have parts := commitLocal_parts w
  have banks := commitLocal_banks w
  rw [bit, bank_of bank0 bank1, curBank_of_num num bank0 bank1] at banks
  rw [ports, isEndpoint_of image, num] at after
  exact ⟨congrArg EpochSt.num after, congrArg EpochSt.phase after, fun none_ => banks (noneLoaded_of_jobs jobs none_),
    congrArg EpochSt.announce after, congrArg EpochSt.drainedSent after,
    onlyParts_trans (onlyParts_mono kept (by decide)) (onlyParts_mono parts (by decide))⟩

/-- What EPOCH_RETIRE does at a switched switch. -/
theorem retire_ends {s v : State} (a : Acked s v) : let t := v.retireLocal
    t.epoch.phase = .idle ∧ t.epoch.num = s.epoch.num ∧ t.epoch.retiredOnce = true ∧ t.Stamped s.curBit
      ∧ onlyParts (.epoch :: .rxs :: restartParts) s t := by
  have after := retireLocal_epoch v
  have num : v.retireLocal.epoch.num = v.epoch.num := by rw [after]
  exact ⟨congrArg EpochSt.phase after, num.trans (congrArg EpochSt.num a.epoch), congrArg EpochSt.retiredOnce after,
    curBit_of a.epoch ▸ (retireLocal_stamped v).2,
    onlyParts_trans (onlyParts_mono a.touches.parts (by decide)) (onlyParts_mono (retireLocal_parts v) (by decide))⟩

/-- What a prepared switch answers to EPOCH_QUERY. -/
theorem query_answers {s v : State} (a : Acked s v) (src : BitVec 24) :
    let t := (v.coordinatedBy src).epochSend src 0x72 (s.epoch.num + 1) (zeros 8)
    t.epoch = { s.epoch with coordinator := src }
      ∧ s.sends t src (leBytes 2 0x72 ++ zeros 2 ++ leBytes 4 (s.epoch.num + 1).toNat ++ zeros 8)
      ∧ onlyParts (.epoch :: .rxs :: sendParts) s t := by
  have sent := send_parts (v.coordinatedBy src) .routed
    ((v.coordinatedBy src).epochFrames src (leBytes 2 0x72 ++ zeros 2 ++ leBytes 4 (s.epoch.num + 1).toNat ++ zeros 8)) none none .plain
  exact ⟨(sent .epoch (by decide)).trans (coordinatedBy_epoch a src),
    sends_of_freeCount (u := v.coordinatedBy src) a.freeCount (epochSend_sends _ src 0x72 _ (by decide)),
    onlyParts_trans (onlyParts_mono a.touches.parts (by decide)) (onlyParts_trans
      (onlyParts_mono (mapEpoch_parts v _) (by decide)) (onlyParts_mono sent (by decide)))⟩

/-! ## EPOCH_DRAIN_CONDITION (R283 step 6) -/

/-- EPOCH_DRAINED is due. -/
def State.toldDrained (s : State) : State := s.mapEpoch fun e => { e with drainedSent := true }

/-- A switch that has drained tells a coordinator elsewhere. -/
theorem exec_epochDrainCondition {s : State} (firmware : s.fwWaits = false) (drained : s.drained = true)
    (first : s.epoch.drainedSent = false) (idle : s.epoch.coord = .idle) (root : s.isTimeRoot = false)
    (elsewhere : s.epoch.coordinator ≠ s.image.ownFlat) : exec .epochDrainCondition s = .next (s.toldDrained.epochSend
      s.epoch.coordinator 0x74 s.epoch.num (leBytes 4 s.epoch.announceFailed ++ zeros 4)) := by
  have below : s.toldDrained.isTimeRoot = false := root
  have sent := send_touches s.toldDrained .routed (s.toldDrained.epochFrames s.epoch.coordinator (leBytes 2 0x74 ++ zeros 2
    ++ leBytes 4 s.epoch.num.toNat ++ (leBytes 4 s.epoch.announceFailed ++ zeros 4))) none none .plain
  have still := (isTimeRoot_of (sent.mono (fun _ => id) sendAddr_offPorts) (by decide) (knownTiers_of (sent.parts .image (by decide))
    (by rw [show _ = _ from sent.parts .jobs (by decide)]))).trans below
  have quiet := congrArg EpochSt.coord (sent.parts .epoch (by decide))
  show execEpochDrainCondition s = _
  rw [execEpochDrainCondition, if_neg (by simp [firmware, drained, first])]
  exact congrArg Host.Outcome.next ((congrArg State.coordGo (if_neg elsewhere)).trans (coordGo_below still (quiet.trans idle)))

/-! ## Commit, drain and retirement (R283, R285, R287) -/

/-- Settles O23: a commit makes the standby bank current and lists the endpoints to tell; a retirement leaves only copies with the
current EPOCH bit to start; a query and the drain condition are answered to the coordinator. -/
theorem epochCommitDrainRetire : Obligations.EpochCommitDrainRetire := by
  unfold Obligations.EpochCommitDrainRetire
  constructor
  · intro s u port f q free good mgmt routed body received
    have a := acked received
    refine ⟨fun kind num phase => ?_, fun kind num phase coord => ?_, fun kind phase => ?_⟩
    · obtain ⟨raised, switched, banks, announce, drained, parts⟩ := commit_switches a f.h.src
      exact ⟨_, exec_epochCommit free good mgmt routed body received kind num phase, raised, switched, banks, announce, drained,
        keepsParts_of_onlyParts parts (by decide)⟩
    · obtain ⟨idle, same, once, stamped, parts⟩ := retire_ends a
      exact ⟨_, exec_epochRetire free good mgmt routed body received kind num phase coord, idle, same, once, stamped,
        parts .bank0 (by decide), parts .bank1 (by decide), keepsParts_of_onlyParts parts (by decide)⟩
    · obtain ⟨epoch, sends, parts⟩ := query_answers a f.h.src
      exact ⟨_, exec_epochQuery free good mgmt routed body received kind phase, epoch, sends,
        keepsParts_of_onlyParts parts (by decide)⟩
  · intro s firmware drained first idle root elsewhere
    have sent := send_parts s.toldDrained .routed (s.toldDrained.epochFrames s.epoch.coordinator (leBytes 2 0x74 ++ zeros 2
      ++ leBytes 4 s.epoch.num.toNat ++ (leBytes 4 s.epoch.announceFailed ++ zeros 4))) none none .plain
    have short : (leBytes 4 s.epoch.announceFailed ++ zeros 4).length ≤ 4084 := by simp [zeros]
    refine ⟨_, exec_epochDrainCondition firmware drained first idle root elsewhere, sent .epoch (by decide), ?_,
      keepsParts_of_onlyParts (onlyParts_trans (onlyParts_mono (d := .epoch :: sendParts) (mapEpoch_parts s _) (by decide))
        (onlyParts_mono sent (by decide))) (by decide)⟩
    exact sends_of_freeCount (u := s.toldDrained) rfl (epochSend_sends _ _ 0x74 _ short)

end Sys2Proof.Machine
